-- ==== Sys2Proof/Word.lean ====
section
/-! DEFINITION. The words of the model: bytes, 32-bit register words, the sparse tables in which numbered things are
held, and the vocabulary of the register map (R10, R16, R19). -/

namespace Sys2Proof

/-- One byte. -/
abbrev Byte := BitVec 8
/-- One 32-bit register word (R16). -/
abbrev Word := BitVec 32

/-- A sparse table: values by number, in rising order of the numbers. -/
abbrev Tab (α : Type) := List (Nat × α)

/-- The access types of R19; `res` is a reserved field (R11). -/
inductive Acc
  | ro | rw | rwl | w1c | w1s | rc | wo | hwo | res
  deriving DecidableEq, Repr

/-- A field of a register: its most and least significant bits and its access type. -/
structure Fld where
  msb : Nat
  lsb : Nat
  acc : Acc
  deriving DecidableEq, Repr

/-- A named register: its address in BAR0 and its value at package reset. -/
structure Reg where
  addr : Nat
  reset : Nat
  deriving DecidableEq, Repr

/-- One row of a register table: `addr + s₁·i + s₂·j` for `i < n₁`, `j < n₂`. -/
structure RegRow where
  addr : Nat
  s₁ : Nat
  n₁ : Nat
  s₂ : Nat
  n₂ : Nat
  reset : Nat
  flds : List Fld
  deriving DecidableEq, Repr

end Sys2Proof
end

