-- ==== Sys2Proof/Types.lean ====
section
/-! DEFINITION. The parts of the machine's state that are no registers, unit by unit: allocations, pegs, rings, graphs and
their instances, mailbox commands, safety state, recorder tables and the state of the sensor and fusion units. -/

namespace Sys2Proof

/-- What leaves the package at an instant: the model's record of it, newest last (notes/assumptions/4.md). -/
inductive Emission
  | msix (function vector : Nat)
  | hostWrite (function addr : Nat) (data : List Byte)
  | readValue (addr value : Nat)
  | eth (port queue : Nat) (frame : List Byte)
  | can (channel id : Nat) (data : List Byte)
  | coaxSync (port time : Nat)
  | camControl (port : Nat) (request : List Byte)
  | pps (level : Bool)
  | gptpSync (port seq : Nat) (origin correction : Int)
  | validOut (valid : Bool)
  | service (status : Nat)
  deriving DecidableEq, Repr

/-! ### Memory (chapter 15) -/

/-- An allocation with its grant, held by its base address (R469, R480). -/
structure Alloc where
  len : Nat
  owner : Nat
  priv : Bool := false
  rmask : Nat := 0
  wmask : Nat := 0
  deriving DecidableEq, Repr

/-- A host copy under way (R442). -/
structure HostCopy where
  function : Nat
  slot : Nat
  toDevice : Bool
  device : Nat
  host : Nat
  bytes : Nat
  deriving DecidableEq, Repr

structure MemSt where
  /-- Allocations by base address (R469). -/
  allocs : Tab Alloc := []
  /-- Freed ranges that wait to be cleared: base and length (R469). -/
  zeroing : List (Nat × Nat) := []
  /-- Host copies that have not ended, by 16 × function + slot (R442). -/
  copies : Tab HostCopy := []
  /-- Purlin links that are down: 3 × Bay for its Sill link, and one more for its ring link to the next Bay (R450, R460). -/
  downLinks : List Nat := []
  /-- Ridge times of corrected errors of stack `n` within the last hour (R466). -/
  ceTimes : Tab (List Nat) := []
  deriving DecidableEq, Repr

/-- One write of bytes to device memory; `poison` is the tag of R220. -/
structure MemWrite where
  addr : Nat
  data : List Byte
  poison : Bool := false
  deriving DecidableEq, Repr

/-! ### Pegs, rings and graphs (chapter 08) -/

/-- A peg that is allocated: value, 64 two-bit verdicts, owner and rights (R247, R249, R250). -/
structure Peg where
  owner : Nat
  value : Nat := 0
  hist : Nat := 0
  addMask : Nat := 0
  waitMask : Nat := 0
  deriving DecidableEq, Repr

/-- A packet reserved in a packet-mode ring and not yet published (R268). -/
structure Packet where
  first : Nat
  payload : Nat
  /-- Payload entries written in order from the head. -/
  written : Nat := 0
  /-- The length word, once written. -/
  word : Option Nat := none
  instance_ : Nat
  deriving DecidableEq, Repr

/-- A ring table entry (R265). -/
structure Ring where
  owner : Nat
  packet : Bool
  log2 : Nat
  base : Nat
  prod : Nat := 0
  prodN : Nat := 0xFFFFFFFF
  cons : Nat := 0
  consN : Nat := 0xFFFFFFFF
  resv : Nat := 0
  held : Nat := 0
  resets : Nat := 0
  peg : Option Nat := none
  open_ : List Packet := []
  deriving DecidableEq, Repr

/-- A dependence entry (R254). -/
structure Dep where
  peg : Nat
  early : Bool
  absolute : Bool
  propagate : Bool
  accept : Nat
  window : Nat
  div : Nat
  perIter : Nat
  offset : Nat
  deriving DecidableEq, Repr

/-- A signal entry (R255). -/
structure Sig where
  kind : Nat
  dropVoid : Bool
  peg : Nat
  amount : Nat
  vector : Nat
  deriving DecidableEq, Repr

/-- A binding entry (R256). -/
structure Bind where
  ref : Nat
  arg : Nat
  kind : Nat
  deriving DecidableEq, Repr

/-- A node record with its entries (R253). -/
structure Node where
  kind : Nat
  flags : Nat
  bay : Nat
  priority : Nat
  plan : Nat
  nbOffset : Nat
  nbPeriod : Nat
  deps : List Dep
  sigs : List Sig
  binds : List Bind
  deriving DecidableEq, Repr

/-- A resident graph (R257–R259). -/
structure Graph where
  domain : Nat
  nodes : List Node
  iterations : Nat
  compRing : Option Nat
  started : Bool := false
  t0 : Nat := 0
  /-- origin of every peg that the graph names (R258). -/
  origins : Tab Nat := []
  /-- Mark releases received, by node (R263). -/
  releases : Tab Nat := []
  /-- Instances that have reached DONE since the start (R283). -/
  done : Nat := 0
  /-- t0 of a start staged for the next mode change (R286). -/
  stagedStart : Option Nat := none
  stagedStop : Bool := false
  /-- What a revert of the last mode change would restore: 1 stop again, 2 start again (R286). -/
  undo : Nat := 0
  /-- The next instance of each node of a stopped graph that a stop held back (R286). -/
  next : Tab Nat := []
  deriving DecidableEq, Repr

/-- The states of R283. -/
inductive IState
  | waiting | ready | provReady | running | provRunning | provDone | committing | discarding | skipped | done
  deriving DecidableEq, Repr

/-- A push that an instance made: the entries of one item, head first (R267, R268). -/
structure RingPush where
  ring : Nat
  packet : Bool
  entries : List (List Byte)
  /-- Payload entries reserved, and whether the Scribe writes the length word (R268, R269). -/
  reserved : Nat := 0
  truncated : Bool := false
  deriving DecidableEq, Repr

/-! ### The Ledger (chapter 10) -/

/-- The page states of R323. -/
inductive PState
  | free | resident | prov | dropped | recomputing | retiring
  deriving DecidableEq, Repr

/-- A page record (R320). -/
structure Page where
  state : PState := .free
  droppable : Bool := false
  pinsSat : Bool := false
  refcount : Nat := 0
  pins : Nat := 0
  fill : Nat := 0
  gen : Nat := 0
  slot : Option Nat := none
  lpage : Nat := 0
  seq : Nat := 0
  cache : Nat := 0
  lastRead : Nat := 0
  tagFirst : Nat := 0
  tagLast : Nat := 0
  tOld : Nat := 0
  /-- The deadline of a recompute (R334). -/
  deadline : Nat := 0
  deriving DecidableEq, Repr

/-- A live or faulted sequence (R322): its page list by list position (R321). -/
structure Seq where
  cache : Nat
  droppable : Bool
  len : Nat := 0
  list : Tab Nat := []
  faulted : Bool := false
  deriving DecidableEq, Repr

/-- A cache: its domain and its descriptor (R316). -/
structure Cache where
  owner : Nat
  bytes : List Byte
  deriving DecidableEq, Repr

/-- A change that a provisional Ledger instance logs (R336). -/
inductive LogOp
  /-- A page allocated as PROV. -/
  | newPage (page : Nat)
  | addRef (page : Nat)
  | dropRef (page : Nat)
  /-- A sequence entry: opened, forked, appended to, or closed. -/
  | setSeq (seq : Nat) (entry : Option Seq)
  | refill (page gen : Nat)
  deriving DecidableEq, Repr

/-- The pins of a READ instance (R331). -/
structure LedPin where
  inst : Nat
  graph : Nat
  node : Nat
  pages : List Nat
  deriving DecidableEq, Repr

/-- The list of one READ entry (R329, R330): page, lo, hi and the position of token 0, and the entry status. -/
structure ReadList where
  q : Nat
  entries : List (Nat × Nat × Nat × Nat)
  status : Nat
  deriving DecidableEq, Repr

/-- A Ledger instance that has started: the entries it has processed, and what it waits for (R334, R336). -/
structure LedRun where
  desc : List Byte
  serial : Nat
  dropEn : Bool
  /-- The next input entry. -/
  next : Nat := 0
  /-- APPEND: output entries written so far. -/
  out : Nat := 0
  lists : List ReadList := []
  /-- Pages marked absent (R334). -/
  absent : List Nat := []
  deriving DecidableEq, Repr

structure LedSt where
  caches : Tab Cache := []
  seqs : Tab Seq := []
  /-- Page records that have been used; every other record is FREE. -/
  pages : Tab Page := []
  serial : Nat := 0
  /-- Held sequences with the instance that holds each (R336). -/
  held : Tab Nat := []
  pins : List LedPin := []
  /-- Instances that run or are parked. -/
  runs : Tab LedRun := []
  /-- The look-aside buffer of each Bay: (cache, sequence, leaf), most recently used first (R332). -/
  lab : Tab (List (Nat × Nat × Nat)) := []
  /-- Page records that have faulted (R338). -/
  badPages : List Nat := []
  deriving DecidableEq, Repr

/-! ### Tally's table (chapter 12) -/

/-- The states of R386: 1 TENTATIVE, 2 CONFIRMED, 3 COASTING, 4 DELETED; a FREE slot is not listed. -/
structure Track where
  state : Nat
  id : Nat
  cls : Nat
  hist : Nat
  age : Nat
  misses : Nat
  /-- State components and covariance, row by row, as Q32 words. -/
  x : List Nat
  p : List Nat
  tTrack : Nat
  tHit : Nat
  born : Bool := false
  confirmed : Bool := false
  failed : Bool := false
  late : Bool := false
  deriving DecidableEq, Repr

/-- What the last ASSOCIATE leaves for the frame: the map from problems to slots, T, flags, epoch, the 16 counts, and whether the
template has marginals set (R388). -/
structure TalPending where
  map : List Nat := []
  t : Nat := 0
  flags : Nat := 0
  epoch : Nat := 0
  counts : List Nat := []
  marginals : Bool := false
  deriving DecidableEq, Repr

/-- Tally's table with what goes with it: a provisional instance holds back a changed copy (R392). -/
structure TalTable where
  tracks : Tab Track := []
  /-- The map is pending (R388). -/
  pending : Bool := false
  last : TalPending := {}
  nextId : Nat := 1
  cycle : Nat := 0
  /-- The next frame carries table_reset (R393). -/
  wasReset : Bool := false
  deriving DecidableEq, Repr

/-- An argument of an operation: a code, or the result of an earlier operation of the same task. -/
inductive Arg
  | lit (code : Nat)
  | res (index : Nat)
  deriving DecidableEq, Repr

/-- The operations of tenons, braces and mortises (R205–R219). -/
inductive AOp
  /-- A chain of a tenon output over K, with the split of R209 (R206–R209). -/
  | tenon
  /-- Brace operations on one lane (R211). -/
  | add | sub | mul | fma | div | sqrt | minimum | maximum | equal | less | select | absolute | negate
  /-- Functions within 2 units in the last place (R211). -/
  | recip | rsqrt | exp2 | log2 | exp | log | tanh | sigmoid
  /-- Reductions of 32 lanes (R211, R212). -/
  | sumLanes | maxLanes | minLanes
  /-- Conversions (R217–R219). -/
  | convert | requant | mxScale | mxElement
  /-- Fixed point (R213–R216). -/
  | qmac | qadd | qsub | qdiv | qsqrt | qless | qequal | qmin | qmax
  deriving DecidableEq, Repr

/-- One operation of a task: its formats or binary points, its write-out mode and its arguments. -/
structure ArithOp where
  op : AOp
  params : List Nat := []
  /-- SAT mode of R215, instead of NAR mode. -/
  sat : Bool := false
  args : List Arg := []
  deriving DecidableEq, Repr

/-- A value written out, over a number of bytes. -/
structure OutVal where
  arg : Arg
  bytes : Nat
  deriving DecidableEq, Repr

/-- A write of a task through a tensor argument, from a byte offset of the tensor's extent (R223, R256). -/
structure TaskWrite where
  arg : Nat
  offset : Nat
  data : List OutVal
  poison : Bool := false
  deriving DecidableEq, Repr

/-- A use that a stream of a task makes of a ring argument (R267, R268). A packet reserves `reserved` payload entries; the
entries are the head and the payload entries written in order; its length word is written by the task or by R269. -/
inductive TaskIo
  | pop (arg : Nat)
  | push (arg : Nat) (entry : List Byte)
  | packet (arg reserved : Nat) (entries : List (List Byte)) (closed : Bool)
  deriving DecidableEq, Repr

/-- What a task has done when its work ends. What a plan computes is the plan's own (R191): its operations, writes and ring
accesses are the operands of the command, and the rules of chapter 6 give their results. -/
structure TaskResult where
  /-- Steps on the truss that counted most (R195). -/
  steps : Nat
  prog : List ArithOp := []
  writes : List TaskWrite := []
  io : List TaskIo := []
  /-- NaR written, write-outs saturated and NaN converted beside those of `prog` (R215, R217). -/
  nar : Nat := 0
  sat : Nat := 0
  nanToInt : Nat := 0
  poison : Bool := false
  indexOob : Nat := 0
  indexPoison : Nat := 0
  narrow : Nat := 0
  tiles : Nat := 0
  collide : Nat := 0
  deriving DecidableEq, Repr

/-- The outcome of a truss test: passed, a faulty tenon with its chain and position, or a fault in a brace or mortise (R198). -/
inductive TestResult
  | pass
  | tenon (chain position : Nat)
  | other
  deriving DecidableEq, Repr

/-- A write that a run holds or makes: the argument with the offset in the tensor's extent, or none with an address; and the
bytes. -/
structure HeldWrite where
  arg : Option Nat
  offset : Nat
  data : List Byte
  poison : Bool := false
  deriving DecidableEq, Repr

/-- One run of an instance's work: a normal run, or one copy of a dual instance (R284, R534). -/
structure Run where
  bay : Nat
  /-- Its trusses are named, or its engine is taken (R261). -/
  named : Bool := false
  /-- A tiebreak copy, which goes ahead in its queue (R537). -/
  front : Bool := false
  /-- Physical trusses in ascending number: the i-th carries logical truss i (R261). -/
  trusses : List Nat := []
  started : Bool := false
  ended : Bool := false
  tStart : Nat := 0
  tEnd : Nat := 0
  steps : Nat := 0
  completion : Nat := 0
  /-- Pool pages taken, and those it still holds (R275). -/
  pages : Nat := 0
  pooled : Nat := 0
  /-- step_bound of its plan (R195). -/
  bound : Nat := 0
  /-- Stopped: which of its outputs were written is not defined (R194). -/
  undef : Bool := false
  writes : List HeldWrite := []
  pushes : List RingPush := []
  /-- Flags gathered before a stall, and ring accesses still to be made after it (R270). -/
  flags : Nat := 0
  io : List TaskIo := []
  /-- Stalled on a ring since a Ridge time (R270). -/
  stalled : Option (Nat × Nat) := none
  deriving DecidableEq, Repr

/-- An instance of a node (R260–R284). -/
structure Inst where
  graph : Nat
  node : Nat
  n : Nat
  st : IState := .waiting
  /-- The verdict of each dependence entry, once it is reached (R254). -/
  entries : List (Option Nat) := []
  prov : Bool := false
  /-- Early entries watched by a guard (R274). -/
  guards : List Nat := []
  /-- A provisional start was refused for want of pages or guards (R274). -/
  denied : Bool := false
  nbPassed : Bool := false
  tReady : Nat := 0
  epoch : Nat := 0
  scribeStatus : Nat := 0
  ringReset : Bool := false
  /-- Runs: one, or copies A, B and C of a dual instance. -/
  runs : List Run := []
  /-- The index of the run whose effects take effect. -/
  chosen : Nat := 0
  ledgerLog : List LogOp := []
  /-- The table of Tally as a provisional cycle leaves it (R276, R392). -/
  tallyLog : Option TalTable := none
  /-- The verdict that a Raft or Tally cycle adds to its verdict peg, before the node's signals (R310, R391). -/
  firstSignal : Option (Nat × Nat) := none
  /-- A pose record that a provisional Plumb cycle holds: pose table, entries, and the record (R367). -/
  poseHeld : Option (Nat × Nat × List Byte) := none
  /-- Resolved, with its steps from 5 onward still held back by its predecessor (R281). -/
  heldBack : Bool := false
  /-- SCRIBE.STALL_LIMIT in force at the start (R270, R286). -/
  stallLimit : Nat := 10000
  /-- A and B of a dual instance have been compared (R535), and no agreement was reached (R539). -/
  compared : Bool := false
  noAgree : Bool := false
  deriving DecidableEq, Repr

/-- Work that the Scribe has accepted and applies one item at a time (R251, R281). -/
inductive Work
  /-- An add for a domain's account: peg, amount, verdict. -/
  | add (peg amount verdict : Nat)
  /-- An instance to be judged against R260. -/
  | check (inst : Nat)
  /-- Instance `n` of a node comes into being in state WAITING. -/
  | spawn (graph node n : Nat)
  /-- The last steps of an ended or resolved instance: signals and record, in instance order (R281). -/
  | finish (inst : Nat)
  deriving DecidableEq, Repr

structure ScribeSt where
  /-- Adds and judgements accepted and not yet applied, in order (R251). -/
  work : List Work := []
  /-- Allocated pegs by number (R247). -/
  pegs : Tab Peg := []
  rings : Tab Ring := []
  graphs : Tab Graph := []
  insts : Tab Inst := []
  nextInst : Nat := 0
  /-- The order in which instances started, for R281: serial numbers. -/
  starts : List Nat := []
  /-- Instances whose resolution is decided, in the order in which it takes effect (R281). -/
  resolving : List Nat := []
  deriving DecidableEq, Repr

/-! ### Mailboxes (chapter 14) -/

/-- A mailbox wait entry (R441): state 0 waiting, 1 reached, 2 timed out, 3 cancelled. -/
structure MbWait where
  peg : Nat
  target : Nat
  async : Bool
  vector : Nat
  slot : Nat
  /-- The Ridge time of its timeout. -/
  deadline : Option Nat := none
  state : Nat := 0
  value : Nat := 0
  verdict : Nat := 0
  deriving DecidableEq, Repr

/-- A command that Foreman has accepted and not answered (R427, R445). -/
structure Accepted where
  opcode : Nat
  /-- The response is discarded: the function was reset after acceptance (R421). -/
  silent : Bool := false
  /-- The request as accepted, kept where the function's reset cleared its page (R421). -/
  request : Option (List Byte) := none
  /-- What the journal holds for a restart: the status an engine recorded, with results (R445). -/
  recorded : Option (Nat × Nat × List Byte) := none
  deriving DecidableEq, Repr

structure MbSt where
  /-- Accepted and unanswered commands by 16 × function + slot. -/
  accepted : Tab Accepted := []
  lastServed : Nat := 63
  foremanUp : Bool := true
  linkUp : Bool := true
  numVfs : Nat := 0
  /-- Functions whose Bus Master Enable is clear (R421). -/
  bmeClear : List Nat := []
  ptm : Bool := false
  /-- Session counters by function (R433). -/
  sessions : Tab Nat := []
  /-- Wait entries by 64 × function + number (R441). -/
  waits : Tab MbWait := []
  /-- Quotas set by QUOTA_SET, by 16 × domain + resource (R438). -/
  quotas : Tab Nat := []
  /-- MB.HEARTBEAT and MB.FOREMAN_GEN, the same on every page (R423, R444). -/
  heartbeat : Nat := 0
  foremanGen : Nat := 0
  deriving DecidableEq, Repr

/-! ### Fence, keys and boot (chapter 16) -/

/-- The one-time-programmable store (R491). -/
structure Fuses where
  keyRevoke : Nat := 0
  secCounter : Nat := 0
  returnPending : Bool := false
  returned : Bool := false
  keyKill : Bool := false
  deriving DecidableEq, Repr

structure SecSt where
  fuses : Fuses := {}
  /-- The check value that metadata holds, once provisioned (R494). -/
  check : Option Nat := none
  /-- Words staged in OWNER_SECRET and OWNER_REKEY (R494). -/
  secret : Tab Nat := []
  rekey : Tab Nat := []
  /-- The secret whose decision is pending (R494). -/
  deciding : Option (List Nat) := none
  /-- How many service challenges have been drawn (R501). -/
  nonces : Nat := 0
  serviceLevel2 : Bool := false
  /-- The revoke mask of the running image, and whether its counter has been raised since it was booted (R500). -/
  revoke : Nat := 0
  raised : Bool := false
  /-- The return erase runs: the slot that asked, as 16 × function + slot (R503). -/
  returnBy : Option Nat := none
  deriving DecidableEq, Repr

/-! ### Safety (chapter 18) -/

structure KpSt where
  /-- Ridge time of Foreman's last heartbeat, and since when it has run without a restart (R500, R557). -/
  lastBeat : Nat := 0
  foremanSince : Nat := 0
  /-- Domains that Kingpost has quiesced and whose objects are still to be stopped before they settle (R544). -/
  quiesceDue : List Nat := []
  /-- Why a safety stream last took the safe state: 1 a deadline miss, 2 an INVALID verdict, 0 none has (R413, R547). -/
  cause : Nat := 0
  /-- Ridge times of Foreman restarts within 600 s (R557). -/
  restarts : List Nat := []
  /-- Ridge times of refusals of domain `d` within 1 s (R544). -/
  refusals : Tab (List Nat) := []
  /-- Consecutive correct self-tests since the fault, by checker: camera n, or 16 + scanner s (R545). -/
  goodTests : Tab Nat := []
  /-- The slot the next firing of mark 1,019 runs (R551). -/
  slot : Nat := 0
  /-- The slot that runs, and the Ridge time of its firing (R551). -/
  running : Option (Nat × Nat) := none
  lastFiring : Option Nat := none
  /-- Slots that have completed in this pass from slot 0, and whether a pass has completed whole since SAFE_ENTRY (R549). -/
  pass : List Nat := []
  rotated : Bool := false
  /-- Slots whose last test failed (fault 21 holds while any is listed). -/
  failedSlots : List Nat := []
  deriving DecidableEq, Repr

/-! ### Event Recorder (chapter 20) -/

/-- A life stamp: powered seconds and cycle (R585). -/
structure Life where
  s : Nat := 0
  cycle : Nat := 0
  deriving DecidableEq, Repr

/-- A slot of the event table (R588). -/
structure EvSlot where
  code : Nat
  count : Nat := 0
  held : Nat := 0
  arg : Nat := 0
  first : Life := {}
  last : Life := {}
  extra : Nat := 0
  deriving DecidableEq, Repr

/-- An extreme: minimum and maximum with their stamps (R593). -/
structure Extreme where
  min : Int
  max : Int
  minAt : Life
  maxAt : Life
  deriving DecidableEq, Repr

/-- A session entry (R596). -/
structure Session where
  cycle : Nat
  kind : Nat
  end_ : Nat := 0
  slot : Nat := 0
  firstFault : Nat := 0xFF
  startS : Nat
  endS : Nat := 0
  ridgeEnd : Nat := 0
  deriving DecidableEq, Repr

/-- A notification (R591). -/
structure Notify where
  code : Nat
  mask : Nat
  vector : Nat
  deriving DecidableEq, Repr

/-- What a page carries on to later boots (R586, R594). -/
structure RecKept where
  slots : List EvSlot
  histos : Tab Nat
  extremes : Tab Extreme
  life : Life
  eventsTotal : Nat
  heldTotal : Nat
  skippedTotal : Nat
  throttled : Tab Nat
  sessions : List Session
  deriving DecidableEq, Repr

structure RecSt where
  slots : List EvSlot := []
  /-- Tokens of each bucket that differs from those of an untouched bucket of its class, and these for the classes L and N
  (R589). -/
  buckets : Tab Nat := []
  fullL : Nat := 4
  fullN : Nat := 64
  /-- RECORDER.RATE in force since the last firing of mark 1,021 (R589). -/
  rate : Nat := 0x10400104
  notifies : List Notify := []
  /-- Histogram counts by 32 × id + bin (R592). -/
  histos : Tab Nat := []
  extremes : Tab Extreme := []
  life : Life := ⟨0, 1⟩
  sinceCommit : Nat := 0
  /-- powered_s of the commits within the last 3,600 s (R595). -/
  commits : List Nat := []
  /-- Corrected errors of DRAM and loft since the last whole hour of powered time (R592). -/
  dramErrors : Nat := 0
  loftErrors : Nat := 0
  /-- Reference ticks that each throttle reason accrued before the last package reset (R594). -/
  throttled : Tab Nat := []
  skippedSince : Bool := false
  fresh : Bool := true
  eventsTotal : Nat := 0
  heldTotal : Nat := 0
  skippedTotal : Nat := 0
  sessions : List Session := [⟨1, 0, 0, 0, 0xFF, 0, 0, 0⟩]
  /-- Retained pages by sequence, 16,384 bytes each (R594, R597). -/
  pages : Tab (List Byte) := []
  pageSeq : Nat := 0
  /-- What the newest page carries on; a power-on restores it (R586). -/
  saved : Option RecKept := none
  /-- Window records closed since the previous page (R594). -/
  windows : List (List Byte) := []
  windowsLost : Bool := false
  deriving DecidableEq, Repr

/-! ### Bays (chapter 6) -/

/-- A truss: the instance and run it executes, the one named to its shadow configuration, and its tests (R192, R197, R261). -/
structure Truss where
  task : Option (Nat × Nat) := none
  shadow : Option (Nat × Nat) := none
  shadowLoaded : Bool := false
  testing : Bool := false
  /-- Ridge time at which its last test started, and that of its last passing test (R197, R200). -/
  lastTest : Nat := 0
  lastPass : Nat := 0
  /-- Tokens held, in eighths of a step (R189). -/
  tokens : Nat := 0
  /-- Steps taken in the present millisecond. -/
  msSteps : Nat := 0
  deriving DecidableEq, Repr

structure FabSt where
  /-- Trusses by 16 × Bay + number. -/
  trusses : Tab Truss := []
  /-- Tenon-array steps of all trusses of a Bay, modulo 2^64 (BAYn.STEPS). -/
  steps : Tab Nat := []
  /-- Runs named and not yet started, in the order of their naming (R261). -/
  order : List (Nat × Nat) := []
  /-- The copy node that the commit engine of a Bay runs (R253). -/
  engine : Tab (Nat × Nat) := []
  /-- Trusses that have passed a test since the Bay's last test that passed on every truss, as a mask. -/
  passed : Tab Nat := []
  /-- BAYn.TOKENS in force since the last reference tick (R190). -/
  tokens : Tab Nat := []
  deriving DecidableEq, Repr

/-! ### Tensor descriptors (chapter 7) -/

/-- A descriptor of the table: its domain, the generation of its handle and its 256 bytes (R223, R230). -/
structure Tensor where
  owner : Nat
  gen : Nat
  bytes : List Byte
  /-- Its table entry has read poisoned (R467). -/
  faulted : Bool := false
  deriving DecidableEq, Repr

structure TenSt where
  /-- Descriptors by table slot (R230). -/
  table : Tab Tensor := []
  /-- The generation that a slot last had (R230). -/
  gens : Tab Nat := []
  deriving DecidableEq, Repr

/-! ### Ridge (chapter 2) -/

/-- What an Announce message carries (R65). -/
structure Announce where
  priority1 : Nat
  clockClass : Nat
  clockAccuracy : Nat
  variance : Nat
  priority2 : Nat
  identity : Nat
  stepsRemoved : Nat
  ptpScale : Bool
  path : List Nat := []
  deriving DecidableEq, Repr

/-- The phase of a mode change (R87). -/
inductive EpochPhase
  | idle | pending | reverting
  deriving DecidableEq, Repr

structure RidgeSt where
  ns : Nat := 0
  frac : Nat := 0
  /-- Increment in force: 8 integer and 32 fraction bits as one number in units of 2^−32 ns (R53). -/
  inc : Nat := 10 * 2 ^ 32
  /-- An increment committed for the next reference tick (R56). -/
  incNext : Option Nat := none
  /-- A step accepted for the next reference tick (R58, R62). -/
  stepNext : Option Int := none
  /-- The accepted step is software's, not the loop's (R58, R62). -/
  stepSoft : Bool := false
  /-- Loop terms in units of 2^−8 ppb (R60). -/
  integ : Int := 0
  trim : Int := 0
  /-- Samples in a row within lock_window, and above 10 × lock_window (R63). -/
  goodRow : Nat := 0
  badRow : Nat := 0
  /-- A sample has arrived since the last write of source or role (R63). -/
  sampled : Bool := false
  /-- The first PPS_IN edge since the source became PPS_IN has been accepted (R66). -/
  ppsSeen : Bool := false
  /-- The Ridge time at which the PPS_OUT pulse in progress falls (R67). -/
  ppsEnd : Option Nat := none
  /-- Ridge time of the last sample (R63). -/
  lastSample : Nat := 0
  /-- Ridge time of the entry to HOLDOVER (R63). -/
  holdSince : Nat := 0
  /-- The owning domain of each allocated mark (R633). -/
  markOwner : Tab Nat := []
  /-- Marks due in this or an earlier tick and not yet delivered, in order (R75). -/
  due : List Nat := []
  /-- Marks among them whose fire time a step skipped (R59). -/
  skipped : List Nat := []
  /-- Internal actions delivered in this tick (R75). -/
  delivered : Nat := 0
  phase : EpochPhase := .idle
  /-- Apply time A and revert boundary B of the change in progress (R86). -/
  applyAt : Nat := 0
  revertAt : Nat := 0
  /-- The epoch each unit runs, by unit bit (R85). -/
  unitEpoch : Tab Nat := []
  /-- The epoch each unit ran before, and the apply time or boundary from which the present one governs (R85, R115). -/
  unitPrev : Tab Nat := []
  unitSince : Tab Nat := []
  /-- Outputs carry the epoch-mix flag (R87). -/
  mixing : Bool := false
  /-- Whether the last (bit 0) and the last but one (bit 1) correction of a region exceeded 3 ns (R70). -/
  skewRow : Tab Nat := []
  /-- gPTP intervals and grandmaster attributes (R65). -/
  logSync : Int := -3
  logPdelay : Int := 0
  logAnnounce : Int := 0
  announceTimeout : Nat := 3
  priority1 : Nat := 246
  priority2 : Nat := 248
  clockClass : Nat := 248
  clockAccuracy : Nat := 0xFE
  variance : Nat := 0
  /-- Ridge has been set from a PTP source, so it announces the PTP time scale (R65). -/
  ptpScale : Bool := false
  /-- Link delay in ns and neighbour rate ratio in units of 2^−41, by gPTP port (R65). -/
  linkDelay : Tab Nat := []
  rateRatio : Tab Int := []
  /-- Times t3 and t4 of the last peer-delay exchange of a port (R65). -/
  pdelayLast : Tab (Int × Int) := []
  /-- The best Announce on each gPTP port (R65). -/
  announces : Tab Announce := []
  /-- The last Sync received: origin, correction and stamp (R65). -/
  lastSync : Option (Int × Int × Nat) := none
  syncSeq : Nat := 0
  deriving DecidableEq, Repr

/-! ### Cameras (chapter 3) -/

/-- The configuration words of a camera port that govern a frame, in register order from PORT_CTRL (R115). -/
structure CamCfg where
  ctrl : Nat
  trigLat : Nat
  exposure : Nat
  lineTime : Nat
  fsWindow : Nat
  format : Nat
  height : Nat
  stream : Nat
  verdict : Nat
  buf : Nat
  stride : Nat
  ring : Nat
  deriving DecidableEq, Repr

/-- A frame, open or waiting for its verdict (R100–R107). -/
structure CamFrame where
  cfg : CamCfg
  epoch : Nat
  number : Nat
  tSync : Nat := 0
  tFs : Nat
  flags : Nat := 0
  received : Nat := 0
  lost : Nat := 0
  packets : Nat := 0
  retx : Nat := 0
  /-- The embedded-data line, as received (R100, R103). -/
  embedded : Option (List Byte) := none
  /-- A test pattern is in flight for it (R108). -/
  pattern : Bool := false
  deriving DecidableEq, Repr

structure Cam where
  open_ : Option CamFrame := none
  /-- Closed frames whose verdict is not known, oldest first (R106, R109). -/
  closed : List CamFrame := []
  /-- The t_sync that no frame-start has matched (R99). -/
  sync : Option Nat := none
  nextFrame : Nat := 0
  /-- A frame has started since the port was enabled (R101). -/
  begun : Bool := false
  /-- Ridge time of the last self-test of the checker (R111). -/
  lastTest : Nat := 0
  faultAt : Nat := 0
  /-- Ridge time of the last automatic retry whose outcome counts (R97). -/
  retryAt : Option Nat := none
  /-- Ridge time at which the port reached ON, until its link comes up or its absence is reported (R113). -/
  onAt : Option Nat := none
  deriving DecidableEq, Repr

structure CamSt where
  ports : Tab Cam := []
  /-- Control accesses that wait for the camera's reply: port by 16 × function + slot (R90). -/
  control : Tab Nat := []
  deriving DecidableEq, Repr

/-! ### Network, scanners, vehicle buses and the reference IMU (chapter 4) -/

/-- A forwarding-table entry (R118). -/
structure Fwd where
  mac : Nat
  vid : Nat
  mask : Nat
  deriving DecidableEq, Repr

/-- A stored adapter image: its sweep-command templates, each with the offset of t_cross and the frame's bytes (R123, R126). -/
structure AdapterImage where
  templates : List (Nat × List Byte)
  /-- The container that holds it (R123, R496). -/
  box : List Byte := []
  deriving DecidableEq, Repr

/-- The adapter image of a scanner port, with its id (R122, R123). -/
structure PortAdapter where
  id : Nat
  image : AdapterImage
  deriving DecidableEq, Repr

/-- The tables of NETIN that mailbox commands stage (R118, R122, R123, R134, R138). -/
structure NetTables where
  fwd : Tab Fwd := []
  signals : Tab (List Byte) := []
  canSlots : Tab (List Byte) := []
  macs : Tab Nat := []
  adapters : Tab PortAdapter := []
  deriving DecidableEq, Repr

/-- A frame that waits in an egress queue (R82, R118). -/
structure EthFrame where
  bytes : List Byte
  launch : Option Nat := none
  /-- Counted in GATE_HOLD (R81). -/
  held : Bool := false
  deriving DecidableEq, Repr

/-- The operational gate list of a port: states and durations of the entries that one cycle runs through (R81). Times in units of
2^−32 ns. -/
structure Gcl where
  on : Bool := false
  entries : List (Nat × Nat) := []
  cycle : Nat := 1000000 * 2 ^ 32
  ext : Nat := 0
  cycleStart : Nat := 0
  entry : Nat := 0
  entryEnd : Nat := 0
  /-- The administrative list becomes operational at this Ridge time. -/
  applyAt : Option Nat := none
  deriving DecidableEq, Repr

/-- A sweep that is open (R129, R130), with the configuration of its first packet (R142). -/
structure Sweep where
  number : Nat
  start : Nat
  tFirst : Option Nat := none
  tLast : Nat := 0
  obs : Option Nat := none
  points : Nat := 0
  packets : Nat := 0
  lost : Nat := 0
  flags : Nat := 0
  epoch : Nat
  blocks : Nat := 0
  synthFail : Bool := false
  adapter : Nat
  scanner : Nat := 0
  timing : Nat
  verdict : Nat
  ring : Nat
  deriving DecidableEq, Repr

/-- The jig of a scanner port (R122–R132). -/
structure Jig where
  /-- Frames in the ingest queue with their stamps (R125). -/
  queue : List (List Byte × Nat) := []
  expected : Option Nat := none
  sweep : Option Sweep := none
  lastAz : Option Nat := none
  /-- The last two crossings sent, oldest first (R129). -/
  crossings : List Nat := []
  blockNumber : Nat := 0
  /-- Ridge times of faults within the last second (R124). -/
  faults : List Nat := []
  lastTest : Nat := 0
  deriving DecidableEq, Repr

/-- What is kept of a map entry's samples: the last counter value, the time of the last sample, and the staleness mark
(R137). -/
structure SigState where
  counter : Option Nat := none
  last : Nat := 0
  deriving DecidableEq, Repr

/-- An inertial sample for the cross-check: measurement time, source (0 reference rate, 1 reference acceleration, 2 vehicle
rate, 3 vehicle acceleration), axis and value (R141). -/
structure ImuSample where
  t : Nat
  source : Nat
  axis : Nat
  value : Int
  deriving DecidableEq, Repr

structure NetSt where
  staged : NetTables := {}
  live : NetTables := {}
  prev : NetTables := {}
  /-- Ports whose adapter image a staged command loads or reloads (R124). -/
  reload : List Nat := []
  /-- Egress queues by 16 × port + class (R118). -/
  queues : Tab (List EthFrame) := []
  /-- The Ridge ns until which a port's transmitter is busy. -/
  busy : Tab Nat := []
  gcl : Tab Gcl := []
  jigs : Tab Jig := []
  sig : Tab SigState := []
  /-- CAN transmissions that wait: channel, slot and data bytes, in order (R84, R138). -/
  canQueue : List (Nat × Nat × List Byte) := []
  imu : List ImuSample := []
  /-- Last raw values of the six axes of the reference IMU, and how many samples in a row were identical (R141). -/
  imuLast : List Int := []
  imuRuns : List Nat := []
  /-- End of the last cross-check window evaluated (R141). -/
  xchkEnd : Nat := 0
  deriving DecidableEq, Repr

/-! ### Planer (chapter 5) -/

/-- An ingest record (R144): the generic point's 16 bytes, the point time and the port. -/
structure IngestRec where
  point : List Byte
  t : Nat
  port : Nat
  deriving DecidableEq, Repr

/-- A point between ingest and the voxel table: in the vehicle frame of its own instant (R156), with its slice (R148). -/
structure PlanPoint where
  slice : Nat
  xyz : List Int
  range : Nat
  t : Nat
  port : Nat
  ord : Nat
  intensity : Nat
  ret : Nat
  saturated : Bool
  /-- The slice's pose was not INTERP (R169). -/
  moved : Bool := false
  /-- A coordinate has left the s32 range, and the point falls outside the grid (R156). -/
  far : Bool := false
  deriving DecidableEq, Repr

/-- A pose in the odometry frame with how it was obtained: 0 INTERP, 1 EXTRAP, 2 HELD, 3 NONE (R152). -/
structure Pose where
  q : List Int
  p : List Int
  how : Nat
  deriving DecidableEq, Repr

/-- A grid epoch that is open (R147–R167). -/
structure GridEpoch where
  pose : Option Pose := none
  /-- Points that wait for their slice, in arrival order (R150). -/
  buffer : List PlanPoint := []
  /-- The next slice to be processed (R150). -/
  next : Nat := 0
  /-- Occupied voxels by index: count and kept point (R158, R160). -/
  table : Tab (Nat × PlanPoint) := []
  /-- Indices marked in the bitmap (R164). -/
  marked : List Nat := []
  pointsIn : Nat := 0
  filtered : Nat := 0
  late : Nat := 0
  dropped : Nat := 0
  cells : Nat := 0
  flags : Nat := 0
  deriving DecidableEq, Repr

/-- A run of grid epochs under one descriptor: indices from `first`, below `last` if it ends (R176). -/
structure PlanSeg where
  desc : List Byte
  first : Nat
  last : Option Nat := none
  gap : Bool := false
  deriving DecidableEq, Repr

structure PlanSt where
  /-- Staged, in force and previous descriptor of 512 bytes (R173, R177). -/
  staged : Option (List Byte) := none
  live : List Byte := []
  /-- The descriptor that the last mode change replaced, if it replaced one. -/
  prev : Option (List Byte) := none
  /-- Runs of grid epochs that are open or to come, oldest first (R176). -/
  segs : List PlanSeg := []
  /-- Open grid epochs by E_start. -/
  epochs : Tab GridEpoch := []
  /-- The Ridge intervals that grid epochs which are over have covered, oldest first (R146). -/
  spans : List (Nat × Nat) := []
  frame : Nat := 0
  /-- Arrival order by port (R146). -/
  ord : Tab Nat := []
  /-- Records of the synthetic block that is open on a port, and how many blocks have been checked (R145). -/
  block : Tab (List (List Byte)) := []
  blockNo : Tab Nat := []
  /-- Blocks checked: Ridge time, port, passed (R170). -/
  checks : List (Nat × Nat × Bool) := []
  /-- Sequence numbers of pose records already counted as rejected (R151). -/
  rejected : List Nat := []
  deriving DecidableEq, Repr

/-! ### The Raft (chapter 9) -/

/-- What a cycle has fixed of an input at its start (R298): 0 used, 1 skipped. -/
structure RaftInput where
  used : Bool
  t : Nat
  pose : Pose
  poisoned : Bool := false
  deriving DecidableEq, Repr

/-- A Raft cycle between its start and its end (R297, R298). -/
structure RaftRun where
  inst : Nat
  grid : List Byte
  desc : List Byte
  t : Nat
  pose : Pose
  inputs : List RaftInput
  flags : Nat
  epoch : Nat
  start : Nat
  deriving DecidableEq, Repr

structure RaftSt where
  /-- Staged, in force and previous grid descriptor (R291, R312). -/
  staged : Option (List Byte) := none
  live : List Byte := []
  /-- The descriptor that the last mode change replaced, if it replaced one. -/
  prev : Option (List Byte) := none
  cycle : Nat := 0
  run : Option RaftRun := none
  deriving DecidableEq, Repr

/-! ### Plumb and Tally (chapters 11 and 12) -/

/-- A registered problem slot of Plumb or cycle configuration of Tally (R344, R374). -/
structure CycleSlot where
  owner : Nat
  desc : Nat
  binds : List Bind
  priority : Nat
  peg : Nat
  amount : Nat
  deriving DecidableEq, Repr

/-- A mark cycle in the queue or running: its slot, its fire instant and the count of the slot's cycles (R344). -/
structure MarkCycle where
  slot : Nat
  at_ : Nat
  count : Nat
  cfg : CycleSlot
  deriving DecidableEq, Repr

/-- A Plumb cycle between its start and its end: an instance or a mark cycle, with what is fixed at t_s (R345, R350). -/
structure PlumbRun where
  inst : Option Nat
  mark : Option MarkCycle
  /-- The event argument of R371. -/
  arg : Nat
  desc : List Byte
  binds : List Bind
  owner : Nat
  ts : Nat
  epoch : Nat
  fallback : Bool
  disagree : Bool
  mountQ : List Int
  mountT : List Int
  deriving DecidableEq, Repr

structure PlumbSt where
  /-- Registrations in force, staged (none for a release) and before the last latch (R344, R368). -/
  slots : Tab CycleSlot := []
  staged : Tab (Option CycleSlot) := []
  prev : Tab CycleSlot := []
  /-- Mark cycles that are queued, in order of firing. -/
  queue : List MarkCycle := []
  counts : Tab Nat := []
  run : Option PlumbRun := none
  /-- The sequence number last published for a pose table, by its address (R366). -/
  poseSeq : Tab Nat := []
  deriving DecidableEq, Repr

structure TallySt where
  /-- Staged, in force and previous unit descriptor (R372, R393). -/
  stagedDesc : Option (List Byte) := none
  live : List Byte := []
  prevDesc : Option (List Byte) := none
  slots : Tab CycleSlot := []
  staged : Tab (Option CycleSlot) := []
  prev : Tab CycleSlot := []
  queue : List MarkCycle := []
  counts : Tab Nat := []
  table : TalTable := {}
  /-- The provisional instance that is unresolved (R392). -/
  unresolved : Option Nat := none
  deriving DecidableEq, Repr

/-! ### Output streams and the vehicle link (chapter 13) -/

/-- Ethernet, VLAN, IPv4 and UDP header fields of a stream (R397). -/
structure WireHdr where
  dst : Nat := 0
  src : Nat := 0
  pcpVid : Nat := 0
  ipSrc : Nat := 0
  ipDst : Nat := 0
  dscp : Nat := 0
  ttl : Nat := 0
  udpSrc : Nat := 0
  udpDst : Nat := 0
  deriving DecidableEq, Repr

/-- The configuration words of a stream that govern a message from its capture on (R397), in register order, with the header
fields and the stream's domain. -/
structure StreamCfg where
  ctrl : Nat
  src : Nat
  handle : Nat
  period : Nat
  base : Nat
  deadline : Nat
  launch : Nat
  chan : Nat
  area : Nat
  areaKib : Nat
  hdr : WireHdr
  dom : Nat
  deriving DecidableEq, Repr

/-- What a capture reads of its source (R398, R401, R402): the time of validity, the age, the source's epoch and verdict, its mapped
flags, the encoded message, and whether a word of it was poisoned. -/
structure SourceMsg where
  tov : Nat
  age : Nat
  epoch : Nat
  verdict : Nat
  flags : Nat
  bytes : List Byte
  poison : Bool
  deriving DecidableEq, Repr

/-- A captured message (R399–R404). -/
structure Message where
  cfg : StreamCfg
  number : Nat := 0
  tov : Nat
  oldestAge : Nat
  epoch : Nat
  degraded : Nat
  verdict : Nat
  bytes : List Byte
  /-- Which half of the output area holds it (R400). -/
  buf : Nat := 0
  /-- Its D_k (R409). -/
  due : Int := 0
  /-- Segments that have left or been dropped, whether one was dropped, and whether one has been held at a gate (R406, R407). -/
  sent : Nat := 0
  broken : Bool := false
  held : Bool := false
  /-- Nothing of it is still to leave on Ethernet, and over PCIe (R408, R409). -/
  ethDone : Bool := false
  pcieDone : Bool := false
  /-- The instant at which the last part of it that has left was at the balls or issued to the link, in ns (R409). -/
  leftAt : Nat := 0
  deriving DecidableEq, Repr

/-- A registered host ring (R408). -/
structure HostRing where
  slotsHost : Nat
  slotBytes : Nat
  slots : Nat
  compHost : Nat
  consumeHost : Nat
  vector : Nat
  deriving DecidableEq, Repr

structure Stream where
  /-- The domain that opened it, if any (R397). -/
  owner : Option Nat := none
  enabled : Bool := false
  hdr : WireHdr := {}
  stagedHdr : WireHdr := {}
  prevHdr : WireHdr := {}
  hostRing : Option HostRing := none
  /-- A close is staged, and a close that a revert would undo (R440). -/
  closing : Bool := false
  closed : Option Nat := none
  /-- A capture is to follow (R399). -/
  requested : Bool := false
  /-- A request came while that one was pending, and leaves a further capture (R399). -/
  again : Bool := false
  /-- Time of validity of the last message captured (R399). -/
  lastTov : Option Nat := none
  /-- The message being captured, the one that waits to leave and the one that leaves (R400). -/
  copying : Option Message := none
  waiting : Option Message := none
  leaving : Option Message := none
  nextMsg : Nat := 0
  /-- The next window to be decided (R409). -/
  nextWindow : Int := 0
  /-- Messages that have left completely: the D_k of each, and whether its verdict is INVALID (R409). -/
  left : List (Int × Bool) := []
  /-- Of those that are not INVALID: the D_k, and D_k less the instant at which the message left completely, in ns (R592). -/
  slacks : List (Int × Int) := []
  /-- The D_k of windows that have been counted as missed at a capture (R411). -/
  missed : List Int := []
  /-- The record that the infeed or the Planer delivered with the last add; for a camera, a byte follows that says whether the frame
  carried embedded data (R398, R404). -/
  record : List Byte := []
  deriving DecidableEq, Repr

structure OutSt where
  streams : Tab Stream := []
  /-- Readings of the pair in a row that disagreed with the driven level (R412). -/
  badReads : Nat := 0
  /-- The last multiple of hb_period_ms at which a message was sent (R413). -/
  beat : Nat := 0
  /-- The safe-state message queued in transmit slot 15 of a channel: 32 data bytes (R413). -/
  slot15 : Option (List Byte) := none
  deriving DecidableEq, Repr

/-! ### The Governor (chapter 19) -/

/-- The averaging window that is open (R572, R578). -/
structure Window where
  number : Nat
  cap : Nat
  secs : Nat
  tOpen : Nat
  /-- Reference ticks, input energy in µJ, and ticks accrued by each reason, when it opened. -/
  ticks : Nat
  energy : Nat
  durations : Tab Nat
  /-- Firings of mark 1,021 still to come in it. -/
  left : Nat
  changed : Bool
  peak : Nat := 0
  /-- Control intervals in it, and those of them held at tok_floor above P_t (R573). -/
  intervals : Nat := 0
  held : Nat := 0
  deriving DecidableEq, Repr

/-- A cap request that the Plinth has not latched: by 16 × function + slot, or through BAR0 (R579). -/
structure CapReq where
  cap : Nat
  secs : Nat
  by_ : Option Nat
  deriving DecidableEq, Repr

structure GovSt where
  /-- Scales of the rails in Q2.14, and the control interval in which each was last clamped (R563). -/
  scales : Tab Nat := []
  clamped : Tab Nat := []
  intervals : Nat := 0
  /-- Energy charged to the domains in µJ, and to the system account (R563). -/
  charged : Tab Nat := []
  system : Int := 0
  /-- The Plinth's energy counters of the input and the rails in pJ (R560). -/
  input : Nat := 0
  rails : Tab Nat := []
  /-- The same in µJ as the Governor last read them. -/
  inputRead : Nat := 0
  railsRead : Tab Nat := []
  /-- Lowest sense voltage in mV and current in 10 mA of each rail. -/
  railMv : Tab Nat := []
  railMa : Tab Nat := []
  /-- Reference ticks since package reset, those accrued by each reason, and reasons accrued in this control interval (R571). -/
  ticks : Nat := 0
  durations : Tab Nat := []
  accrued : Nat := 0
  /-- Ticks in a row in which the thermal reason accrued on a Bay (R576). -/
  hotTicks : Tab Nat := []
  window : Option Window := none
  windows : Nat := 0
  /-- The cap and window of the next window, and requests on their way to the latch (R572, R579). -/
  pending : Option (Nat × Nat) := none
  requests : List CapReq := []
  /-- The cap of the last window, for the record (R578). -/
  lastCap : Option Nat := none
  /-- The partial record of the open window as of the last control interval (R578). -/
  partial_ : List Byte := []
  /-- Energy in µJ and steps of the last interval in which a Bay took steps; its steps then; its estimated static power in mW (R573). -/
  perStep : Tab (Nat × Nat) := []
  stepsRead : Tab Nat := []
  staticMw : Tab Nat := []
  /-- External ceilings that wait for the next control interval (R575). -/
  ext : Tab Nat := []
  /-- Credit C in units of 0.01 µs; the two clamps; samples in a row below 150 W; the code of the excursion clamp (R574). -/
  credit : Nat := 1000000
  peak : Bool := false
  below : Nat := 0
  excursion : Bool := false
  excursionCode : Nat := 0xFF
  /-- Control intervals in a row towards a rise of the thermal ceiling, and towards a fall and a rise of the ageing ceiling, by
  Bay (R574, R576). -/
  coolMs : Tab Nat := []
  fallMs : Tab Nat := []
  riseMs : Tab Nat := []
  /-- Last Tj of each region in 0.1 °C, by the index of R593, and since when it reads 130 °C or more (R576, R577). -/
  tj : Tab Int := []
  hot : Tab Nat := []
  /-- Seconds of powered time in a row below 12 % headroom, by rail 0–4 (R567). -/
  lowHeadroom : Tab Nat := []
  /-- The next firings of marks 1,020 and 1,021 (R572, R573). -/
  nextInterval : Nat := 1000000
  nextSecond : Nat := 1000000000
  deriving DecidableEq, Repr

/-! ### The Plinth and the firmware slots (chapter 21) -/

/-- The states of R601. -/
inductive Plinth
  | off | standby | sequencing | run | powerDown | holdUp | crash
  deriving DecidableEq, Repr

/-- A crash record (R622): rail, phase, lowest and highest sense voltage, Ridge time. -/
structure Crash where
  rail : Nat
  phase : Nat
  low : Nat
  high : Nat
  t : Nat
  deriving DecidableEq, Repr

/-- The Plinth's retained store (R567, R579, R609, R623). -/
structure Retained where
  cap : Nat := 90
  secs : Nat := 10
  seq : Nat := 0
  /-- age_trim in mV by rail 0–4. -/
  ageTrim : Tab Nat := []
  powered : Nat := 0
  /-- The end record: end code, powered_s and Ridge time at the end. -/
  ended : Option (Nat × Nat × Nat) := none
  crash : Option Crash := none
  crashed : Bool := false
  /-- Failing rail of a failed sequencing attempt, to be raised at the next boot (R605). -/
  failedRail : Option Nat := none
  /-- The cap that governed the newest window, of this boot or an earlier one (R579, R584). -/
  governed : Nat := 90
  deriving DecidableEq, Repr

structure PowerSt where
  state : Plinth := .run
  en : Bool := true
  /-- VIN in mV at the last sample; samples of 1 µs in a row: at 10.2 V or above, in 9.0–10.8 V, below 9.0 V, above 13.2 V, above
  14.5 V (R602, R603). -/
  vin : Nat := 12000
  highEnough : Nat := 10000
  low : Nat := 0
  under : Nat := 0
  past : Nat := 0
  over14 : Nat := 0
  /-- The input switch is open (R602). -/
  switchOpen : Bool := false
  /-- A power-on is due and waits for STANDBY (R603). -/
  due : Bool := false
  /-- After a third failed attempt, until EN or VIN has fallen and risen (R605). -/
  locked : Bool := false
  /-- The step of R605, R620 or R624 under way; attempts of this power-on; a failed attempt waits for its retry (R605). -/
  step : Nat := 0
  attempts : Nat := 0
  waiting : Bool := false
  /-- Foreman has been released in this power-on (R625). -/
  released : Bool := true
  /-- Ridge time at which step 2 of R620 began, and the end code of the power-down under way (R620, R625). -/
  stopFrom : Nat := 0
  ending : Nat := 2
  retained : Retained := {}
  deriving DecidableEq, Repr

/-- A firmware slot with its slot record (R610). -/
structure FwSlot where
  valid : Bool
  state : Nat
  boots : Nat := 0
  seq : Nat := 0
  writes : Nat := 1
  /-- The container in the slot. -/
  box : List Byte := []
  deriving DecidableEq, Repr

structure FwSt where
  slotA : FwSlot := { valid := true, state := 2, seq := 1 }
  slotB : FwSlot := { valid := false, state := 0 }
  running : Nat := 0
  /-- FW_ACTIVATE is staged, and the slot to which Kingpost has still to switch (R613). -/
  staged : Bool := false
  switching : Option Nat := none
  /-- Ridge time at which a switch restarted Foreman, and from which Foreman of a trial slot runs (R613, R614). -/
  switchedAt : Nat := 0
  trial : Option Nat := none
  recovery : Bool := false
  /-- Ridge time of the FW_STAGE that succeeded in recovery (R612). -/
  recoverAt : Option Nat := none
  deriving DecidableEq, Repr

/-- The persisted set of R616: register words, tables of NETIN, and the Planer descriptor. -/
structure Persisted where
  regs : Tab Word
  net : NetTables
  plan : List Byte
  deriving DecidableEq, Repr

/-! ### The Yard (chapter 17) -/

/-- A journal record: a logical block, by 64 × LBA + domain, with its new state (none: ZERO), or a name of the model directory with
its new object (none: deleted); and the serial number of its command (R510, R515). -/
inductive JRec
  | block (key : Nat) (data : Option (List Byte)) (cmd : Nat)
  | model (name : Nat) (data : Option (List Byte)) (cmd : Nat)
  deriving DecidableEq, Repr

/-- A storage command that the Yard has queued (R512). -/
structure StoreCmd where
  serial : Nat
  /-- Ridge time of its acceptance, 16 × function + slot, opcode and parameters. -/
  at_ : Nat
  slot : Nat
  opcode : Nat
  a : Nat
  b : Nat
  c : Nat
  /-- Its device range has been read (R510, R514). -/
  started : Bool := false
  /-- Records still to be appended to the journal (R515). -/
  todo : List JRec := []
  /-- What a read returns, from the moment at which every earlier write it waits for has committed, and the indices of its blocks
  that could not be read before (R512, R520). -/
  snap : Option (List JRec) := none
  lost : List Nat := []
  /-- The status it will end with, where it is not 0 (R513, R514). -/
  status : Nat := 0
  detail : Nat := 0
  /-- Its response is no longer wanted (R514). -/
  silent : Bool := false
  deriving DecidableEq, Repr

structure YardSt where
  /-- Logical blocks by 64 × LBA + domain: DATA with its bytes, or ZERO; NEVER_WRITTEN where not listed (R510). -/
  blocks : Tab (Option (List Byte)) := []
  /-- Blocks that could not be read and have not been written since (R520). -/
  unreadable : List Nat := []
  models : Tab (List Byte) := []
  adapters : Tab AdapterImage := []
  queue : List StoreCmd := []
  serial : Nat := 0
  /-- The open journal page with the Ridge time of its first record, and the pages that are programmed, in order (R515). -/
  page : List JRec := []
  since : Nat := 0
  closing : List (List JRec) := []
  /-- Records of the journal page that a cut tore (R516). -/
  torn : Nat := 0
  failed : Bool := false
  /-- Journal pages since the last checkpoint, and its Ridge time (R516). -/
  pagesSince : Nat := 0
  lastCheckpoint : Nat := 0
  /-- After a loss of input, until the next mount (R519). -/
  stopped : Bool := false
  /-- Average and highest erase counts and retired blocks of the TLC and the pSLC pool, and their reserves in 0.01 % (R521, R525). -/
  wearTlc : Nat := 0
  wearPslc : Nat := 0
  retired : Nat := 0
  reserveTlc : Nat := 10000
  reservePslc : Nat := 10000
  worn : Bool := false
  /-- Blocks of the TLC pool by bin of erase counts (R592). -/
  erases : Tab Nat := []
  persisted : Option Persisted := none
  deriving DecidableEq, Repr

end Sys2Proof
end

