-- ==== Sys2Proof/Operand.lean ====
section
/-! DEFINITION. The operands of commands that are more than a number. -/

namespace Sys2Proof

/-- A hardware update of a register field that coincides with a software access (R22, R23). -/
inductive HwUpdate
  /-- A counter's increment: field bits and amount. -/
  | incr (msb lsb amount : Nat)
  /-- Status bits set. -/
  | set (mask : Nat)
  /-- A control or hardware-owned field takes a value. -/
  | put (msb lsb value : Nat)
  deriving DecidableEq, Repr

/-- What a boot finds (R32, R497, R546, R607): the dies that passed, as masks; whether the Sill and the Plinth did, and Kingpost its
self-test; and the firmware slots whose image fails a check that its header does not show. -/
structure BootResult where
  bays : Nat := 15
  drams : Nat := 15
  nand : Nat := 3
  core : Bool := true
  kingpost : Bool := true
  slotFails : Nat := 0
  deriving DecidableEq, Repr

/-- A camera that the default profile finds (R617). -/
structure ProfileCam where
  port : Nat
  gear : Nat
  dataType : Nat
  width : Nat
  height : Nat
  bandPeg : Nat
  verdictPeg : Nat
  buf : Nat
  stride : Nat
  ring : Nat
  deriving DecidableEq, Repr

/-- A scanner that the default profile finds (R617): port, stored adapter (0 for generic packets), source MAC address, verdict peg
and sweep ring. -/
structure ProfileScan where
  port : Nat
  adapter : Nat
  mac : Nat
  peg : Nat
  ring : Nat
  deriving DecidableEq, Repr

/-- The objects of the default profile that the firmware image fixes (R615, R617): memory with its contents, pegs, rings, tensors,
graphs with the t0 of their start, the problem slot, the descriptors, the rows of marks, and the words of streams 0 and 1 that name
its objects. -/
structure Profile where
  cams : List ProfileCam := []
  scans : List ProfileScan := []
  allocs : Tab Alloc := []
  image : List MemWrite := []
  pegs : Nat := 0
  rings : Tab Ring := []
  tensors : Tab Tensor := []
  graphs : Tab (Graph × Nat) := []
  plumb : Option CycleSlot := none
  tally : Option CycleSlot := none
  planer : List Byte := []
  raft : List Byte := []
  unit : List Byte := []
  /-- Marks 0–31: number, fire time and period in units of 2^−32 ns, action. -/
  marks : List (Nat × Nat × Nat × Nat) := []
  /-- Word of source and done peg, handle, output area and its KiB, by stream 0–17. -/
  streams : Tab (Nat × Nat × Nat × Nat) := []
  deriving DecidableEq, Repr

/-- A structure of the system region in which the scrubber finds a poisoned word (R467): the entry of a tensor's table slot, the state
of a graph, or the journal entry of a mailbox slot. -/
inductive SysWord
  | tensor (slot : Nat)
  | graph (slot : Nat)
  | journal (function slot : Nat)
  deriving DecidableEq, Repr

end Sys2Proof
end

