-- ==== Sys2Proof/Syntax.lean ====
section
/-! DEFINITION. The commands of the block: one constructor per row of the table of operations and events. -/

namespace Sys2Proof

/-- A command from outside, or an event at the package or inside it, that changes the state. -/
inductive Instr
  /-- `REGISTER_WRITE`: A software write of `size` bytes at a BAR0 address of `function`, with the hardware updates that coincide with it (R19, R22). -/
  | registerWrite (function addr size value : Nat) (hw : List HwUpdate)
  /-- `RC_READ`: A software read of an RC register, with the increments that coincide with it (R25) (R19). -/
  | rcRead (function addr size : Nat) (hw : List HwUpdate)
  /-- `LOW_WORD_READ_LATCH`: A read of the low word of a 64-bit pair (R18). -/
  | lowWordReadLatch (function addr : Nat)
  /-- `REFERENCE_TICK`: A rising edge of the 100 MHz reference; `steps` gives, by 16 × Bay + truss, the steps that a tenon array takes if it has tokens, and bit b of `waiting` tells that a truss of Bay b waited for one (R53). -/
  | referenceTick (steps : List (Nat × Nat)) (waiting : Nat)
  /-- `RIDGE_INC_COMMIT`: A write of RIDGE.INC_INT (R56). -/
  | ridgeIncCommit (value : Nat)
  /-- `RIDGE_STEP`: A write of RIDGE.STEP_HI (R58). -/
  | ridgeStep (value : Nat)
  /-- `RIDGE_CTRL_WRITE`: A write of RIDGE.CTRL (R63). -/
  | ridgeCtrlWrite (value : Nat)
  /-- `DISCIPLINE_SAMPLE`: A Sync received on a gPTP port, with its stamp, its origin time and its correction in ns (R60). -/
  | disciplineSample (port stamp : Nat) (origin correction : Int)
  /-- `PPS_IN_EDGE`: A rising edge on PPS_IN with its stamp (R66). -/
  | ppsInEdge (stamp : Nat)
  /-- `HOLDOVER_ENTRY`: No sample for loss_samples sample intervals moves the loop to HOLDOVER with a fixed increment (R63). -/
  | holdoverEntry
  /-- `HOLDOVER_EXPIRY`: HOLDOVER that has lasted limit_s becomes HOLDOVER_EXPIRED and sets the time-holdover flag (R63). -/
  | holdoverExpiry
  /-- `ANNOUNCE_RECEIVED`: A received Announce (R65). -/
  | announceReceived (port : Nat) (a : Announce)
  /-- `PDELAY_EXCHANGE`: A peer-delay exchange with its four times in ns (R65). -/
  | pdelayExchange (port : Nat) (t1 t2 t3 t4 : Int)
  /-- `PPS_OUT_CFG_WRITE`: A write of RIDGE.PPS_OUT_CFG (R67). -/
  | ppsOutCfgWrite (value : Nat)
  /-- `PPS_PULSE_END`: After width_ms the PPS_OUT pulse falls low (R67). -/
  | ppsPulseEnd
  /-- `REPLICA_CORRECTION`: A region's replica is corrected; it differed by `diff` tenths of a ns (R68). -/
  | replicaCorrection (region : Nat) (diff : Int)
  /-- `MARK_CTRL_WRITE`: A write of RIDGE.MARK_CTRL[m] (R73). -/
  | markCtrlWrite (m value : Nat)
  /-- `MARK_FIRE`: A due mark fires; `coinciding` is a value that software writes to its MARK_CTRL in the same handshake window (R75). -/
  | markFire (m : Nat) (coinciding : Option Nat)
  /-- `NOT_BEFORE_PASSED`: The replica of an instance's region reads its not-before time + 3 ns (R80). -/
  | notBeforePassed (inst : Nat)
  /-- `EPOCH_APPLY_TIME`: System mark 1,016 fires at A, and each unit switches to its staged configuration at its safe point (R86). -/
  | epochApplyTime
  /-- `EPOCH_UNIT_LATCH`: A unit reaches its safe point (R86). -/
  | epochUnitLatch (unit : Nat)
  /-- `EPOCH_CHECK`: At A + 1 ms, RIDGE.EPOCH_ACK is compared with RIDGE.EPOCH_REQUIRED, and the change is completed or a revert is armed (R86). -/
  | epochCheck
  /-- `EPOCH_REVERT`: At boundary B, system mark 1,018 makes every unit run the old configuration under epoch E + 2 (R86). -/
  | epochRevert
  /-- `EPOCH_REVERT_CHECK`: At B + 1 ms, the acknowledgements of the revert are checked, and a missing one is reported to Kingpost (R86). -/
  | epochRevertCheck
  /-- `GCL_CONFIG_CHANGE`: A write of NETIN.GCL_CTRL with config_change 1 (R120). -/
  | gclConfigChange (port value : Nat)
  /-- `GCL_CONFIG_APPLY`: The administrative base time of a port (R81). -/
  | gclConfigApply (port : Nat)
  /-- `GATE_INTERVAL_END`: The TimeInterval of the port's entry expires (R81). -/
  | gateIntervalEnd (port : Nat)
  /-- `EGRESS_FRAME_START`: The head frame of an egress queue starts to leave (R82). -/
  | egressFrameStart (port queue : Nat)
  /-- `CAN_TX_START`: A queued CAN frame starts on the bus, with its start-of-frame stamp (R84). -/
  | canTxStart (channel slot stamp : Nat)
  /-- `POC_COMMAND`: A write of CAMIN.POC_CTRL (R92). -/
  | pocCommand (port value : Nat)
  /-- `POC_RAMP_COMPLETE`: A ramp reaches its target level, with the output, current and VPOC that the port measures (R92). -/
  | pocRampComplete (port mv ma vpoc : Nat)
  /-- `POC_FAULT_DETECTED`: Fault conditions, one bit each, have lasted their detection times (R94). -/
  | pocFaultDetected (port conditions : Nat)
  /-- `POC_FAULT_CLEAR`: A write of CAMIN.POC_FAULT, with the faults that recur in its handshake window (R93). -/
  | pocFaultClear (port value recur : Nat)
  /-- `POC_AUTO_RETRY`: One second after FAULT (R97). -/
  | pocAutoRetry (port : Nat)
  /-- `APHY_PACKET_RECEIVED`: An A-PHY packet reaches its fate after a number of retransmission attempts (R112). -/
  | aphyPacketReceived (port attempts : Nat) (received : Bool)
  /-- `APHY_LOCK_LOSS`: A-PHY lock has been lost for 100 µs (R113). -/
  | aphyLockLoss (port : Nat)
  /-- `APHY_LINK_UP`: A-PHY training completes (R113). -/
  | aphyLinkUp (port : Nat)
  /-- `CAMERA_ABSENT_TIMEOUT`: 500 ms after the port reached ON without a link (R113). -/
  | cameraAbsentTimeout (port : Nat)
  /-- `FRAME_START_RECEIVED`: A CSI-2 frame-start packet, with its virtual channel, header ECC outcome and stamp (R99). -/
  | frameStartReceived (port vc ecc stamp : Nat) (retransmitted : Bool)
  /-- `LINE_RECEIVED`: A CSI-2 long packet with its data type, its fate and its pixels (R105). -/
  | lineReceived (port vc dt fate : Nat) (pixels : List Nat)
  /-- `FRAME_END_RECEIVED`: A CSI-2 frame-end packet (R101). -/
  | frameEndReceived (port vc ecc : Nat)
  /-- `FRAME_TIMEOUT`: The timeout of an open frame (R101). -/
  | frameTimeout (port : Nat)
  /-- `PATTERN_CHECK_DONE`: The pattern check and the checker's self-test complete (R108). -/
  | patternCheckDone (port : Nat) (pathFail testFail : Bool)
  /-- `CHECKER_SELFTEST_IDLE`: 40 ms without a frame-end or a sweep end on camera port `checker`, or scanner port `checker` − 16 (R111). -/
  | checkerSelftestIdle (checker : Nat) (testFail : Bool)
  /-- `CAM_PORT_ENABLE_WRITE`: A write of CAMIN.PORT_CTRL (R113). -/
  | camPortEnableWrite (port value : Nat)
  /-- `ETH_FRAME_RECEIVED`: An Ethernet frame, FCS included, with its stamp (R118). -/
  | ethFrameReceived (port stamp : Nat) (fcsOk : Bool) (frame : List Byte)
  /-- `ETH_LINK_DOWN`: An Ethernet link goes down; `testFail` is the outcome of the checker's self-test where a sweep closes (R119). -/
  | ethLinkDown (port : Nat) (testFail : Bool)
  /-- `ETH_LINK_UP`: An Ethernet link comes up with its speed, role and quality (R119). -/
  | ethLinkUp (port speed role quality : Nat)
  /-- `JIG_PACKET`: The jig converts its oldest frame; `packets` are what the adapter image makes of it (R122). -/
  | jigPacket (port : Nat) (packets : List (List Byte)) (fault_ testFail : Bool)
  /-- `SWEEP_TIMEOUT`: sweep_timeout_ms after a sweep's first packet (R129). -/
  | sweepTimeout (port : Nat) (testFail : Bool)
  /-- `SYNTH_BLOCK_INJECT`: The injector places a synthetic block; `damage` are byte positions and the masks XORed there on its way (R131). -/
  | synthBlockInject (port : Nat) (damage : List (Nat × Nat))
  /-- `CAN_FRAME_RECEIVED`: A received CAN frame (R134). -/
  | canFrameReceived (channel id stamp : Nat) (sec : Bool) (data : List Byte)
  /-- `CAN_ERROR_FRAME`: An error on a CAN channel (R133). -/
  | canErrorFrame (channel : Nat) (transmitting : Bool)
  /-- `CAN_BUSOFF_RECOVERY`: A bus-off channel may recover (R133). -/
  | canBusoffRecovery (channel : Nat)
  /-- `SIGNAL_STALE`: max_gap_ms without a sample of a map entry (R137). -/
  | signalStale (entry : Nat)
  /-- `REF_IMU_SAMPLE`: A data-ready of the reference IMU with three rates and three accelerations (R139). -/
  | refImuSample (stamp : Nat) (rate acc : List Int) (saturated : Bool)
  /-- `REF_IMU_FAULT`: A reference IMU fault condition (R141). -/
  | refImuFault (selftestFailed : Bool)
  /-- `XCHK_WINDOW_EVAL`: 20 ms after the end of a cross-check window (R141). -/
  | xchkWindowEval
  /-- `PLANER_INGEST`: The oldest ingest record arrives at the Planer (R146). -/
  | planerIngest
  /-- `POSE_REF_FIX`: The pose at t_ref of grid epoch `n` is due (R155). -/
  | poseRefFix (n : Nat)
  /-- `SLICE_RELEASE`: The next slice of grid epoch `n` is due (R150). -/
  | sliceRelease (n : Nat)
  /-- `VOXEL_FRAME_EMIT`: Every slice of the oldest grid epoch has been processed (R168). -/
  | voxelFrameEmit
  /-- `BAY_SET_POINT_WRITE`: A BAR0 write of BAYn.SET_POINT (R221). -/
  | baySetPointWrite (bay value : Nat)
  /-- `INSTANCE_NAMED`: The Scribe names the head of a Bay's queue to trusses (R262). -/
  | instanceNamed (bay : Nat)
  /-- `SHADOW_LOAD_COMPLETE`: A truss finishes loading a named task's sections into its shadow configuration (R192). -/
  | shadowLoadComplete (bay t : Nat)
  /-- `TASK_START`: The last truss of run `k` of instance `i` is ready; `unsupported` tells whether a section names what the fabric does not support (R192). -/
  | taskStart (inst run : Nat) (unsupported : Bool)
  /-- `TASK_END`: The work of run `k` of instance `i` has drained, having done `res` (R194). -/
  | taskEnd (inst run : Nat) (res : TaskResult)
  /-- `STEP_BOUND_REACHED`: A truss of run `k` of instance `i` has counted step_bound steps (R195). -/
  | stepBoundReached (inst run : Nat)
  /-- `TRUSS_SELFTEST_START`: A truss that is due for its test is tested (R197). -/
  | trussSelftestStart (bay t : Nat)
  /-- `TRUSS_SELFTEST_DONE`: A truss test ends with a result (R198). -/
  | trussSelftestDone (bay t : Nat) (res : TestResult)
  /-- `SCRIBE_PEG_ADD_WRITE`: A write of SCRIBE.PEG_ADD (R248). -/
  | scribePegAddWrite (value : Nat)
  /-- `PEG_SET_WRITE`: A write of SCRIBE.PEG_SET_HI (R250). -/
  | pegSetWrite (value : Nat)
  /-- `RING_POP_REGISTER_READ`: A read of SCRIBE.RING_POP; `upset` tells of a damaged table entry (1 a pointer, 2 another word), `bad` lists the words of the entry that fail their parity check (R271). -/
  | ringPopRegisterRead (upset : Nat) (bad : List Nat)
  /-- `PROVISIONAL_START`: Instance `i`, ready but for early entries, may start provisionally (R274). -/
  | provisionalStart (inst : Nat)
  /-- `INSTANCE_COMMIT`: The instance whose commit is next commits (R278). -/
  | instanceCommit
  /-- `INSTANCE_DISCARD`: The instance whose discard is next is discarded (R279). -/
  | instanceDiscard
  /-- `STREAM_STALL_END`: The ring that run `k` of instance `i` waits for has an item or space (R270). -/
  | streamStallEnd (inst run : Nat)
  /-- `STALL_TIMEOUT`: A stall of run `k` of instance `i` has lasted longer than SCRIBE.STALL_LIMIT (R270). -/
  | stallTimeout (inst run : Nat)
  /-- `RAFT_CYCLE_START`: Instance `i` at the head of the Raft's queue starts, or is refused (R297). -/
  | raftCycleStart (inst : Nat)
  /-- `RAFT_CYCLE_END`: The Raft's cycle completes after a number of steps (R310). -/
  | raftCycleEnd (inst steps : Nat)
  /-- `LEDGER_OPEN`: Ledger instance `i`, an OPEN, works; faults are found in sequences and pages meanwhile (R326). -/
  | ledgerOpen (inst : Nat) (badSeqs badPages : List Nat)
  /-- `LEDGER_FORK`: Ledger instance `i`, a FORK, works (R326). -/
  | ledgerFork (inst : Nat) (badSeqs badPages : List Nat)
  /-- `LEDGER_APPEND`: Ledger instance `i`, an APPEND, works (R327). -/
  | ledgerAppend (inst : Nat) (badSeqs badPages : List Nat)
  /-- `LEDGER_READ`: Ledger instance `i`, a READ, works (R329). -/
  | ledgerRead (inst : Nat) (badSeqs badPages : List Nat)
  /-- `LEDGER_CLOSE`: Ledger instance `i`, a CLOSE, works (R326). -/
  | ledgerClose (inst : Nat) (badSeqs badPages : List Nat)
  /-- `LEDGER_REFILL`: Ledger instance `i`, a REFILL, works (R335). -/
  | ledgerRefill (inst : Nat) (badSeqs badPages : List Nat)
  /-- `LEDGER_COLLECTIVE`: Ledger instance `i`, a COLLECTIVE, works (R337). -/
  | ledgerCollective (inst : Nat)
  /-- `READ_RESUME`: Parked READ `i` may resume (R334). -/
  | readResume (inst : Nat)
  /-- `RECOMPUTE_DEADLINE`: Ridge passes the deadline of a page that is RECOMPUTING (R334). -/
  | recomputeDeadline (page : Nat)
  /-- `PLUMB_CYCLE_START`: The head of Plumb's queue starts, or is refused (R345). -/
  | plumbCycleStart
  /-- `PLUMB_DEADLINE`: Ridge reaches the deadline of Plumb's cycle, after some progress (R361). -/
  | plumbDeadline (progress steps : Nat) (costed : Bool)
  /-- `PLUMB_CYCLE_END`: Plumb's cycle ends before its deadline (R362). -/
  | plumbCycleEnd (steps : Nat)
  /-- `TALLY_ASSOCIATE`: The head of Tally's queue, an ASSOCIATE, runs in a number of steps, or is refused (R380). -/
  | tallyAssociate (steps : Nat)
  /-- `TALLY_UPDATE`: The head of Tally's queue, an UPDATE, runs in a number of steps, or is refused (R389). -/
  | tallyUpdate (steps : Nat)
  /-- `STREAM_CAPTURE`: A requested capture of a stream begins (R399). -/
  | streamCapture (stream_ : Nat)
  /-- `CAPTURE_COMPLETE`: The copy of an encoded message into the output area is complete (R399). -/
  | captureComplete (stream_ : Nat)
  /-- `SEGMENT_LAUNCH`: The next segment of a stream begins to leave (R407). -/
  | segmentLaunch (stream_ : Nat)
  /-- `PCIE_DELIVERY`: A message goes into the host ring; `consumed` is the host's consume index (R408). -/
  | pcieDelivery (stream_ consumed : Nat)
  /-- `WINDOW_DECISION`: A window of a stream is decided at its D_k (R409). -/
  | windowDecision (stream_ : Nat)
  /-- `VALID_OUT_READBACK`: Kingpost reads the VALID_OUT pair back; `level` is what it reads (R412). -/
  | validOutReadback (level : Bool)
  /-- `SAFE_STATE_HEARTBEAT`: A multiple of hb_period_ms of Ridge time (R413). -/
  | safeStateHeartbeat
  /-- `VLINK_CTRL_WRITE`: A write of NETIN.VLINK_CTRL, or of VLINK_ID where `ident` is set (R415). -/
  | vlinkCtrlWrite (ident : Bool) (value : Nat)
  /-- `MB_DOORBELL`: A write of MB.DOORBELL of a function's page (R426). -/
  | mbDoorbell (f value : Nat)
  /-- `COMMAND_ACCEPT`: Foreman accepts the next rung slot in round-robin order of functions (R427). -/
  | commandAccept
  /-- `HELLO`: HELLO (R433). -/
  | hello (f slot : Nat)
  /-- `GOODBYE`: GOODBYE (R432). -/
  | goodbye (f slot : Nat)
  /-- `PING`: PING (R440). -/
  | ping (f slot : Nat)
  /-- `LIMITS`: LIMITS (R438). -/
  | limits (f slot : Nat)
  /-- `MEM_ALLOC`: MEM_ALLOC in a slot of a function (R469). -/
  | memAlloc (f slot : Nat)
  /-- `MEM_RELEASE`: MEM_RELEASE in a slot of a function (R472). -/
  | memRelease (f slot : Nat)
  /-- `MEM_SHARE`: MEM_SHARE in a slot of a function (R471). -/
  | memShare (f slot : Nat)
  /-- `MEM_COPY_IN`: MEM_COPY_IN in a slot of a function (R442). -/
  | memCopyIn (f slot : Nat)
  /-- `MEM_COPY_OUT`: MEM_COPY_OUT in a slot of a function (R442). -/
  | memCopyOut (f slot : Nat)
  /-- `COPY_COMPLETE`: A host copy ends; `data` is what the host gave for a copy in, and `failedAt` the offset of a transfer that failed (R442). -/
  | copyComplete (f slot : Nat) (data : List Byte) (failedAt : Option Nat)
  /-- `TENSOR_CREATE`: TENSOR_CREATE in a slot of a function (R228). -/
  | tensorCreate (f slot : Nat)
  /-- `TENSOR_DESTROY`: TENSOR_DESTROY in a slot of a function (R231). -/
  | tensorDestroy (f slot : Nat)
  /-- `TENSOR_QUERY`: TENSOR_QUERY in a slot of a function (R234). -/
  | tensorQuery (f slot : Nat)
  /-- `RING_CREATE`: RING_CREATE in a slot of a function (R634). -/
  | ringCreate (f slot : Nat)
  /-- `RING_DESTROY`: RING_DESTROY in a slot of a function (R634). -/
  | ringDestroy (f slot : Nat)
  /-- `RING_QUERY`: RING_QUERY in a slot of a function (R265). -/
  | ringQuery (f slot : Nat)
  /-- `RING_PUSH`: RING_PUSH; `upset` says how the ring's table entry is found damaged: 0 not, 1 a pointer, 2 another word (R267). -/
  | ringPush (f slot upset : Nat)
  /-- `RING_POP`: RING_POP; `upset` as for RING_PUSH, and `bad` lists the entry's words that fail their parity check (R271). -/
  | ringPop (f slot upset : Nat) (bad : List Nat)
  /-- `CACHE_CREATE`: CACHE_CREATE in a slot of a function (R318). -/
  | cacheCreate (f slot : Nat)
  /-- `CACHE_DESTROY`: CACHE_DESTROY in a slot of a function (R318). -/
  | cacheDestroy (f slot : Nat)
  /-- `LEDGER_QUERY`: LEDGER_QUERY in a slot of a function (R322). -/
  | ledgerQuery (f slot : Nat)
  /-- `QUOTA_SET`: QUOTA_SET (R438). -/
  | quotaSet (f slot : Nat)
  /-- `PEG_ALLOC`: PEG_ALLOC in a slot of a function (R250). -/
  | pegAlloc (f slot : Nat)
  /-- `PEG_RELEASE`: PEG_RELEASE in a slot of a function (R250). -/
  | pegRelease (f slot : Nat)
  /-- `PEG_GRANT`: PEG_GRANT in a slot of a function (R250). -/
  | pegGrant (f slot : Nat)
  /-- `PEG_ADD`: PEG_ADD in a slot of a function (R248). -/
  | pegAdd (f slot : Nat)
  /-- `PEG_SET`: PEG_SET in a slot of a function (R250). -/
  | pegSet (f slot : Nat)
  /-- `PEG_READ`: PEG_READ in a slot of a function (R440). -/
  | pegRead (f slot : Nat)
  /-- `PEG_WAIT`: PEG_WAIT in a slot of a function (R441). -/
  | pegWait (f slot : Nat)
  /-- `WAIT_TIMEOUT`: Wait `wait` of function `f` times out (R441). -/
  | waitTimeout (f wait : Nat)
  /-- `WAIT_QUERY`: WAIT_QUERY in a slot of a function (R441). -/
  | waitQuery (f slot : Nat)
  /-- `GRAPH_LOAD`: GRAPH_LOAD in a slot of a function (R257). -/
  | graphLoad (f slot : Nat)
  /-- `GRAPH_START`: GRAPH_START in a slot of a function (R258). -/
  | graphStart (f slot : Nat)
  /-- `GRAPH_STOP`: GRAPH_STOP in a slot of a function (R259). -/
  | graphStop (f slot : Nat)
  /-- `GRAPH_ABORT`: GRAPH_ABORT in a slot of a function (R259). -/
  | graphAbort (f slot : Nat)
  /-- `GRAPH_UNLOAD`: GRAPH_UNLOAD in a slot of a function (R259). -/
  | graphUnload (f slot : Nat)
  /-- `GRAPH_QUERY`: GRAPH_QUERY in a slot of a function (R283). -/
  | graphQuery (f slot : Nat)
  /-- `PLUMB_REGISTER`: PLUMB_REGISTER in a slot of a function (R344). -/
  | plumbRegister (f slot : Nat)
  /-- `PLUMB_RELEASE`: PLUMB_RELEASE in a slot of a function (R344). -/
  | plumbRelease (f slot : Nat)
  /-- `TALLY_REGISTER`: TALLY_REGISTER in a slot of a function (R374). -/
  | tallyRegister (f slot : Nat)
  /-- `TALLY_RELEASE`: TALLY_RELEASE in a slot of a function (R374). -/
  | tallyRelease (f slot : Nat)
  /-- `CAM_STAGE`: CAM_STAGE in a slot of a function (R115). -/
  | camStage (f slot : Nat)
  /-- `CAM_POWER`: CAM_POWER in a slot of a function (R92). -/
  | camPower (f slot : Nat)
  /-- `CAM_CONTROL`: CAM_CONTROL in a slot of a function (R90). -/
  | camControl (f slot : Nat)
  /-- `NET_PORT_STAGE`: NET_PORT_STAGE in a slot of a function (R142). -/
  | netPortStage (f slot : Nat)
  /-- `FWD_WRITE`: FWD_WRITE in a slot of a function (R118). -/
  | fwdWrite (f slot : Nat)
  /-- `SCAN_STAGE`: SCAN_STAGE in a slot of a function (R142). -/
  | scanStage (f slot : Nat)
  /-- `SIGNAL_MAP_WRITE`: SIGNAL_MAP_WRITE in a slot of a function (R134). -/
  | signalMapWrite (f slot : Nat)
  /-- `CAN_STAGE`: CAN_STAGE in a slot of a function (R133). -/
  | canStage (f slot : Nat)
  /-- `CAN_SLOT_WRITE`: CAN_SLOT_WRITE in a slot of a function (R138). -/
  | canSlotWrite (f slot : Nat)
  /-- `IMU_STAGE`: IMU_STAGE in a slot of a function (R140). -/
  | imuStage (f slot : Nat)
  /-- `UNIT_STAGE`: UNIT_STAGE in a slot of a function (R173). -/
  | unitStage (f slot : Nat)
  /-- `GCL_WRITE`: GCL_WRITE in a slot of a function (R120). -/
  | gclWrite (f slot : Nat)
  /-- `TIME_READ`: TIME_READ returns Ridge time, its status and the current epoch (R440). -/
  | timeRead (f slot : Nat)
  /-- `TIME_CORRELATE`: TIME_CORRELATE with the PTM time and the uncertainty that the PTM exchange gives (R440). -/
  | timeCorrelate (f slot ptm uncertainty : Nat)
  /-- `MARK_ALLOC`: MARK_ALLOC allocates the lowest free mark to the domain (R633). -/
  | markAlloc (f slot : Nat)
  /-- `MARK_RELEASE`: MARK_RELEASE disarms and frees a mark (R440). -/
  | markRelease (f slot : Nat)
  /-- `MARK_ARM`: MARK_ARM writes and arms a mark for the requesting domain (R73). -/
  | markArm (f slot : Nat)
  /-- `MARK_DISARM`: MARK_DISARM disarms a mark (R73). -/
  | markDisarm (f slot : Nat)
  /-- `GPTP_SET`: GPTP_SET sets RIDGE.CTRL and the gPTP intervals and grandmaster attributes (R65). -/
  | gptpSet (f slot : Nat)
  /-- `EPOCH_APPLY`: EPOCH_APPLY completes the staging, picks apply time A and arms the epoch marks (R431). -/
  | epochApply (f slot : Nat)
  /-- `EPOCH_DISCARD`: EPOCH_DISCARD drops every staged value (R440). -/
  | epochDiscard (f slot : Nat)
  /-- `EPOCH_STATUS`: EPOCH_STATUS returns the epoch registers (R440). -/
  | epochStatus (f slot : Nat)
  /-- `STREAM_OPEN`: STREAM_OPEN in a slot of a function (R397). -/
  | streamOpen (f slot : Nat)
  /-- `STREAM_STAGE`: STREAM_STAGE in a slot of a function (R397). -/
  | streamStage (f slot : Nat)
  /-- `STREAM_HOST_RING`: STREAM_HOST_RING in a slot of a function (R408). -/
  | streamHostRing (f slot : Nat)
  /-- `STREAM_CLOSE`: STREAM_CLOSE in a slot of a function (R397). -/
  | streamClose (f slot : Nat)
  /-- `STREAM_QUERY`: STREAM_QUERY in a slot of a function (R440). -/
  | streamQuery (f slot : Nat)
  /-- `VLINK_SET`: VLINK_SET in a slot of a function (R415). -/
  | vlinkSet (f slot : Nat)
  /-- `POWER_READ`: POWER_READ returns input power, window average and the domain's energy (R565). -/
  | powerRead (f slot : Nat)
  /-- `SET_POINT_STAGE`: SET_POINT_STAGE stages a Bay's supply set-point after its checks (R187). -/
  | setPointStage (f slot : Nat)
  /-- `CAP_SET`: CAP_SET requests a new average-power cap and window (R579). -/
  | capSet (f slot : Nat)
  /-- `THROTTLE_READ`: THROTTLE_READ returns the active reasons and their durations (R571). -/
  | throttleRead (f slot : Nat)
  /-- `THROTTLE_REQUEST`: THROTTLE_REQUEST sets the external ceiling of the named Bays (R575). -/
  | throttleRequest (f slot : Nat)
  /-- `NS_READ`: NS_READ copies namespace blocks into device memory (R511). -/
  | nsRead (f slot : Nat)
  /-- `NS_WRITE`: NS_WRITE commits blocks from device memory to the namespace (R511). -/
  | nsWrite (f slot : Nat)
  /-- `NS_FLUSH`: NS_FLUSH waits for every earlier write of the domain to respond (R511). -/
  | nsFlush (f slot : Nat)
  /-- `MODEL_PUT`: MODEL_PUT stores, replaces or deletes a named model object (R511). -/
  | modelPut (f slot : Nat)
  /-- `MODEL_GET`: MODEL_GET copies a model object, or returns its length (R511). -/
  | modelGet (f slot : Nat)
  /-- `STORAGE_INFO`: STORAGE_INFO returns the domain's blocks, wear and spare (R511). -/
  | storageInfo (f slot : Nat)
  /-- `STORAGE_COMMAND_COMPLETE`: The queued storage command `serial` completes; `retry` and `soft` codewords needed a further stage, the blocks at the indices `bad` cannot be read, `disturb` blocks are relocated (R512). -/
  | storageCommandComplete (serial retry soft disturb : Nat) (bad : List Nat)
  /-- `REC_SUMMARY`: REC_SUMMARY returns hours, cycles and retained page sequences (R598). -/
  | recSummary (f slot : Nat)
  /-- `REC_READ`: REC_READ; retained pages whose sequence is in `bad` fail their CRC (R598). -/
  | recRead (f slot : Nat) (bad : List Nat)
  /-- `EVENT_NOTIFY`: EVENT_NOTIFY sets, replaces or removes a notification on event codes (R591). -/
  | eventNotify (f slot : Nat)
  /-- `SAFETY_STATUS`: SAFETY_STATUS returns the vehicle link state, Kingpost state and fault latch (R558). -/
  | safetyStatus (f slot : Nat)
  /-- `SAFE_STATE_RELEASE`: SAFE_STATE_RELEASE asks Kingpost to leave the safe state, granted or refused (R549). -/
  | safeStateRelease (f slot : Nat)
  /-- `SELFTEST_LOG`: SELFTEST_LOG returns the last rotation and the failure count (R552). -/
  | selftestLog (f slot : Nat)
  /-- `FW_STAGE`: FW_STAGE writes and verifies a firmware container in the slot that is not running (R526). -/
  | fwStage (f slot : Nat)
  /-- `FW_ACTIVATE`: FW_ACTIVATE stages a switch to the other firmware slot at the next mode change (R613). -/
  | fwActivate (f slot : Nat)
  /-- `ADAPTER_STORE`: ADAPTER_STORE of a container that holds `image` (R123). -/
  | adapterStore (f slot : Nat) (image : AdapterImage)
  /-- `ADAPTER_STAGE`: ADAPTER_STAGE stages an adapter image for a scanner port (R123). -/
  | adapterStage (f slot : Nat)
  /-- `DOMAIN_RELEASE`: DOMAIN_RELEASE quiesces a client domain, frees all it holds and lifts the quiesce (R443). -/
  | domainRelease (f slot : Nat)
  /-- `FOREMAN_LOG`: FOREMAN_LOG (R440). -/
  | foremanLog (f slot : Nat)
  /-- `RETURN_PREPARE`: RETURN_PREPARE verifies a return authorisation and starts the return erase (R503). -/
  | returnPrepare (f slot : Nat)
  /-- `RETURN_ERASE_COMPLETE`: The return erase ends, RETURNED is blown and a package reset follows (R503). -/
  | returnEraseComplete
  /-- `FUNCTION_LEVEL_RESET`: A function-level reset (R421). -/
  | functionLevelReset (f : Nat)
  /-- `BUS_MASTER_DISABLE`: Bus Master Enable of a function is cleared (R421). -/
  | busMasterDisable (f : Nat)
  /-- `NUMVFS_LOWERED`: NumVFs is lowered to `n` (R421). -/
  | numvfsLowered (n : Nat)
  /-- `PCIE_LINK_RESET`: A hot reset, link down or PERST_N acts as an FLR of every function (R421). -/
  | pcieLinkReset
  /-- `FOREMAN_HEARTBEAT`: Each 1 ms Foreman advances MB.HEARTBEAT and sends Kingpost a heartbeat (R557). -/
  | foremanHeartbeat
  /-- `FOREMAN_WATCHDOG`: 20 ms without a heartbeat makes Kingpost restart Foreman (R557). -/
  | foremanWatchdog
  /-- `FOREMAN_RESUME`: A restarted Foreman serves again and answers the commands in its journal (R444). -/
  | foremanResume
  /-- `DOMAIN_CLOSE`: A close op of FENCE.DOMAIN_CMD (R486). -/
  | domainClose (domain : Nat)
  /-- `DOMAIN_QUIESCE`: A quiesce op of FENCE.DOMAIN_CMD (R487). -/
  | domainQuiesce (domain : Nat)
  /-- `DOMAIN_RESUME`: A resume op of FENCE.DOMAIN_CMD (R488). -/
  | domainResume (domain : Nat)
  /-- `DOMAIN_SETTLED`: No line of a closed or quiesced domain remains in flight (R486). -/
  | domainSettled (domain : Nat)
  /-- `OWNER_SECRET_SUBMIT`: A write of FENCE.OWNER_SECRET[7] (R494). -/
  | ownerSecretSubmit (value : Nat)
  /-- `OWNER_SECRET_DECISION`: Kingpost decides on the submitted secret (R494). -/
  | ownerSecretDecision
  /-- `OWNER_REKEY_SUBMIT`: A write of FENCE.OWNER_REKEY[7] (R494). -/
  | ownerRekeySubmit (value : Nat)
  /-- `SERVICE_TOKEN`: A token presented at the service port (R501). -/
  | serviceToken (container : List Byte)
  /-- `SEC_COUNTER_RAISE`: Foreman has run for 60 s without a restart (R500). -/
  | secCounterRaise
  /-- `BOOT_EXCURSION`: A reference or rail excursion during boot restarts the boot chain (R499). -/
  | bootExcursion
  /-- `SCRUB_READ`: The patrol scrubber reads the word at `addr` and finds it whole (0), with a single-bit error (1) or an uncorrectable one (2), in a structure of the system region where one is named; `passEnds` ends a pass (R466). -/
  | scrubRead (addr found : Nat) (structure_ : Option SysWord) (passEnds : Bool)
  /-- `PURLIN_LINK_DOWN`: A purlin link that loses training is down and is reported (R460). -/
  | purlinLinkDown (bay port : Nat)
  /-- `PURLIN_LINK_UP`: A lost purlin link is trained again, with `lanes` repaired (R460). -/
  | purlinLinkUp (bay port lanes : Nat)
  /-- `ZEROING_COMPLETE`: The oldest freed memory is clear (R469). -/
  | zeroingComplete
  /-- `WORDLINE_VERIFIED`: A NAND program of command `serial` verifies after `failed` programs that retired their blocks and left `reserve`; the next `n` blocks are appended to the journal (R515). -/
  | wordlineVerified (serial n failed reserve : Nat)
  /-- `JOURNAL_WINDOW_EXPIRY`: 20 ms after its first record, the open journal page is programmed (R515). -/
  | journalWindowExpiry
  /-- `JOURNAL_PAGE_VERIFIED`: The oldest journal page being programmed verifies after `failed` programs that left `reserve` (R515). -/
  | journalPageVerified (failed reserve : Nat)
  /-- `YARD_MOUNT`: The Yard replays the journal after the latest checkpoint, where one can be read, and mounts within `ms` (R516). -/
  | yardMount (checkpointRead : Bool) (ms : Nat)
  /-- `CHECKPOINT_WRITE`: The changed map pages are written as a checkpoint of `pages` pages (R516). -/
  | checkpointWrite (pages : Nat)
  /-- `POWER_FAIL_COMMIT`: On loss of input, the Yard aborts NAND work and commits the recorder page (R519). -/
  | powerFailCommit
  /-- `PATROL_PASS`: The patrol reads written pages: `retry` and `soft` codewords needed a further stage, blocks were `moved` (pool, for read disturb), user blocks (domain, LBA) in `bad` cannot be read; `complete` ends a pass (R523). -/
  | patrolPass (retry soft : Nat) (moved : List (Nat × Bool)) (bad : List (Nat × Nat)) (complete : Bool)
  /-- `FAULT_REPORT`: The report of fault `f` reaches Kingpost; `port` is the port of a checker's fault (R542). -/
  | faultReport (f port : Nat)
  /-- `DUAL_COMPARE`: Both copies of dual instance `i` have ended (R535). -/
  | dualCompare (inst : Nat)
  /-- `TIEBREAK_COMPARE`: The tiebreak copy of dual instance `i` has ended (R537). -/
  | tiebreakCompare (inst : Nat)
  /-- `KINGPOST_LOCKSTEP_MISMATCH`: A Kingpost lockstep mismatch drives the pair invalid and forces a package reset (R546). -/
  | kingpostLockstepMismatch
  /-- `ROTATION_SLOT`: System mark 1,019 runs the next self-test slot, which passes, fails, or stays incomplete (none) (R551). -/
  | rotationSlot (result : Option Bool)
  /-- `ROTATION_OVERDUE`: A slot incomplete 1 ms after its firing reports fault 22 (R552). -/
  | rotationOverdue
  /-- `INPUT_SAMPLE`: A 1 µs sample: VIN in mV, the input current in mA, and of each rail the lowest sense voltage in mV with the current in 10 mA (R574). -/
  | inputSample (vin ma : Nat) (rails : List (Nat × Nat))
  /-- `RAIL_FAULT`: A rail outside its limits for more than 2 µs reports fault 24 (R569). -/
  | railFault (rail : Nat)
  /-- `TJ_REPORT`: A region, by the index of R593, reports its Tj in 0.1 °C (R577). -/
  | tjReport (region : Nat) (t : Int)
  /-- `CONTROL_INTERVAL`: System mark 1,020: rail by rail the estimated energy by tag and the static term, the lowest headroom of rails 0–4 in %, the temperatures of the stacks, and for each Bay the replays of its links and its load (R573). -/
  | controlInterval (activity : List (List (Nat × Nat) × Nat)) (headroom : List Nat) (dram : List Int) (links : List (List Nat × Nat))
  /-- `SECOND_MARK`: System mark 1,021 advances powered time, refills event buckets and closes or opens averaging windows (R572). -/
  | secondMark
  /-- `AGE_TRIM_RISE`: Headroom below 12 % for 1 h raises a rail's age_trim by 5 mV (R567). -/
  | ageTrimRise (rail : Nat)
  /-- `CAP_LATCH`: The Plinth latches a cap request, which becomes pending and acknowledged (R579). -/
  | capLatch
  /-- `GOVERNOR_CAP_REQ_WRITE`: A write of GOVERNOR.CAP_REQ (R579). -/
  | governorCapReqWrite (value : Nat)
  /-- `GOVERNOR_EXT_REQ_WRITE`: A write of GOVERNOR.EXT_REQ (R575). -/
  | governorExtReqWrite (value : Nat)
  /-- `EVENT_OCCURRENCE`: A code is raised with its argument; `extra` travels with codes 0xF001 to 0xF003 (R588). -/
  | eventOccurrence (code arg extra : Nat)
  /-- `RECORDER_PAGE_COMMIT`: After 4 s of powered time, a recorder page is snapshotted and committed, or skipped at the limit (R595). -/
  | recorderPageCommit
  /-- `RECORDER_COMMIT_WRITE`: A write of RECORDER.COMMIT (R595). -/
  | recorderCommitWrite (value : Nat)
  /-- `VIN_RISE`: VIN at 10.2 V or above for 10 ms with EN high starts a power-on (R603). -/
  | vinRise
  /-- `EN_HIGH`: EN accepted high with VIN present starts a power-on (R603). -/
  | enHigh
  /-- `EN_LOW`: EN accepted low starts the power-down sequence (R620). -/
  | enLow
  /-- `POWER_ON`: A power-on self-tests, clears memory and runs the boot chain, which finds `b` (R604). -/
  | powerOn (b : BootResult)
  /-- `RAIL_STEP_IN_LIMITS`: A sequencing step reaches its limits, and the next step begins (R605). -/
  | railStepInLimits
  /-- `RAIL_STEP_TIMEOUT`: A step in which `rail` is not within its limits after 2 ms fails the attempt (R605). -/
  | railStepTimeout (rail : Nat)
  /-- `SEQUENCING_RETRY`: 100 ms after a failed attempt, sequencing starts again from step 1 (R605). -/
  | sequencingRetry
  /-- `HOLDUP_CHARGED`: The hold-up store reaches its charge (R623). -/
  | holdupCharged
  /-- `PKG_RESET`: PKG_RESET_N held low starts a package reset from step 2; the boot finds `b` (R608). -/
  | pkgReset (b : BootResult)
  /-- `KINGPOST_FW_SWITCH`: Kingpost switches to its new firmware component in a gap of the rotation (R613). -/
  | kingpostFwSwitch
  /-- `FW_TRIAL_CONFIRM`: After 60 s without a restart, the trial slot becomes confirmed (R614). -/
  | fwTrialConfirm
  /-- `FW_TRIAL_REVERT`: A failing trial returns both processors to the old slot; `selftestFailed` tells that Kingpost's new component failed a self-test (R614). -/
  | fwTrialRevert (selftestFailed : Bool)
  /-- `DEFAULT_PROFILE_START`: Once released, Foreman builds the default profile of the firmware image and applies it through one mode change (R615). -/
  | defaultProfileStart (p : Profile)
  /-- `POWER_DOWN_RAIL_STEP`: A power-down step whose rails have fallen lets the next step begin (R620). -/
  | powerDownRailStep
  /-- `CRASH_DISCHARGE`: A rail leaves its limits during power-down or hold-up, with its lowest and highest sense voltage in mV (R621). -/
  | crashDischarge (rail low high : Nat)
  /-- `INPUT_LOSS`: Input loss opens the input switch, sheds rails, commits the recorder page and ends in STANDBY (R624). -/
  | inputLoss
  /-- `GPTP_SYNC_TRANSMIT`: A gPTP master port sends Sync and Follow_Up (R65). -/
  | gptpSyncTransmit (port : Nat)
  /-- `ANNOUNCE_RECEIPT_TIMEOUT`: announceReceiptTimeout expires on a port (R65). -/
  | announceReceiptTimeout (port : Nat)
  /-- `SILL_LOCKSTEP_MISMATCH`: The two copies of a unit differ: 0 Scribe, 1 Planer, 2 Raft, 3 Plumb, 4 Tally, 5 the Ledger walkers with instance `which`, 6 the output streams with stream `which` (R541). -/
  | sillLockstepMismatch (unit which : Nat)
  /-- `REGION_CROSSING_ALERT`: Region `region` of Bay `die`, or of the Sill for die 4, leaves the crossing limits against a neighbour, or returns within them (R462). -/
  | regionCrossingAlert (die region : Nat) (outside : Bool)
  /-- `PCIE_LINK_TRAINED`: The PCIe link finishes training, with PTM enabled or not (R604). -/
  | pcieLinkTrained (ptm : Bool)
  /-- `NUMVFS_RAISED`: NumVFs is raised to `n` (R417). -/
  | numvfsRaised (n : Nat)
  /-- `CAM_CONTROL_REPLY`: The camera replies to the control access of a slot with `data` (R90). -/
  | camControlReply (f slot : Nat) (data : List Byte)
  /-- `POWER_DOWN_STORAGE_LIMIT`: 100 ms into power-down step 2, the Yard stops the commands still open and the rails begin to fall (R620). -/
  | powerDownStorageLimit
  /-- `RECOVERY_PACKAGE_RESET`: 100 ms after a successful FW_STAGE in recovery, Kingpost makes a package reset (R612). -/
  | recoveryPackageReset
  /-- `FREE_BLOCK_ERASE`: An erase of a free block of a pool completes with erase count `count`, which leaves the pool's average and highest counts and its reserve; one that fails retires the block (R521). -/
  | freeBlockErase (pool count avg highest reserve : Nat) (failed : Bool)
  deriving DecidableEq, Repr

end Sys2Proof
end

