-- ==== Sys2Proof/Config.lean ====
section
/-! DEFINITION. What the spec leaves open: free values, of which nothing is known, and the functions whose results no rule
gives (signatures, derived keys, approximations within a stated error). None of them has a body. -/

namespace Sys2Proof.Config

/-- The free values: the step applies this to the counter `State.free`, which it then advances (notes/assumptions/3.md). -/
opaque freeWord : Nat → BitVec 64

/-- Whether the signature of a container's header bytes 0–111 verifies under ROM key slot `k` (R495, R496). -/
opaque signatureOk : Nat → List Byte → Bool

/-- Whether table_hash and every component hash of a container match (R495, R496). -/
opaque hashesOk : List Byte → Bool

/-- The check value that an owner secret derives (R492, R494). -/
opaque ownerCheck : List Nat → BitVec 128

/-- SHA-384 of the header of the running image, word `i` (R498). -/
opaque measure : List Byte → Nat → BitVec 32

/-- The part's 128-bit uid, word `i`, from the one-time store (R491). -/
opaque uid : Nat → BitVec 32

/-- The challenge drawn for the service port, `k`-th draw, word `i` (R501). -/
opaque serviceNonce : Nat → Nat → BitVec 32

/-- What norm() gives for component `i` of a quaternion, within the one unit in the last place that the rule allows: 1 away from
zero, 2 the unit below an exact value, else toward zero (R140, R152). -/
opaque normUnit : List Int → Nat → BitVec 2

/-- Cosine and sine of an angle in units of 2^−16 turn, in Q1.30, within one unit in the last place (R156). -/
opaque cosTurn : Nat → BitVec 32
opaque sinTurn : Nat → BitVec 32

/-- The bits of a brace function that is within 2 units in the last place: the operation's number and the operand (R211, R212). -/
opaque approx : Nat → BitVec 32 → BitVec 32

/-- Whether the first of two zeros of opposite sign is the minimum, or the maximum, of them: no rule says (R211). -/
opaque zeroFirst : Nat → Nat → Bool

/-- The absolute value or the negation of the most negative integer of a format: no rule says (R211). -/
opaque mostNegative : Nat → BitVec 32

/-- The FP32 word of an S32 value that FP32 does not hold exactly: R217 calls the conversion exact. -/
opaque s32ToFp32 : BitVec 32 → BitVec 32

/-- A value that a rule computes from operands for which it states no result: the rule's number and the operands. -/
opaque unstated : Nat → List Int → BitVec 64

/-- The binary point of the scalars of conjugate gradient: R355 gives their width only. -/
opaque cgFrac : Nat

/-- The clock identity that the part announces (R65). -/
opaque clockIdentity : BitVec 64

/-- Foreman's firmware revision word in HELLO (R433). -/
opaque firmwareWord : BitVec 32

end Sys2Proof.Config
end

