-- ==== Sys2Proof/Machine/RegMap.lean ====
section
/-! DEFINITION. The register map of BAR0 (R6, R16, R422): one name per register with its address and reset value, and
one row per register with the access type of each field, as the register tables of the chapters give them.
A reset that the spec gives as found at boot, drawn at boot or from the store is the value that notes/assumptions/2.md names. -/

namespace Sys2Proof.Machine
open Sys2Proof


-- SILL registers
def SILL_IDENT : Reg := ⟨0x0, 0x7240B010⟩
def SILL_PACKAGE : Reg := ⟨0x8, 0x102FF⟩

-- RIDGE registers
def RIDGE_TIME_LO : Reg := ⟨0x10008, 0x0⟩
def RIDGE_TIME_HI : Reg := ⟨0x1000C, 0x0⟩
def RIDGE_TIME_FRAC : Reg := ⟨0x10010, 0x0⟩
def RIDGE_INC_FRAC : Reg := ⟨0x10014, 0x0⟩
def RIDGE_INC_INT : Reg := ⟨0x10018, 0xA⟩
def RIDGE_STEP_LO : Reg := ⟨0x10020, 0x0⟩
def RIDGE_STEP_HI : Reg := ⟨0x10024, 0x0⟩
def RIDGE_CTRL : Reg := ⟨0x10000, 0x4⟩
def RIDGE_STATUS : Reg := ⟨0x10004, 0x20⟩
def RIDGE_DISC_GAIN : Reg := ⟨0x10030, 0x50040⟩
def RIDGE_LOCK_CFG : Reg := ⟨0x10034, 0x8030064⟩
def RIDGE_TRIM_LIMIT : Reg := ⟨0x10038, 0x3E80064⟩
def RIDGE_PHASE_ERR : Reg := ⟨0x1003C, 0x0⟩
def RIDGE_FREQ_TRIM : Reg := ⟨0x10040, 0x0⟩
def RIDGE_HOLDOVER : Reg := ⟨0x10044, 0x3C⟩
def RIDGE_PPS_CAP_LO : Reg := ⟨0x10050, 0x0⟩
def RIDGE_PPS_CAP_HI : Reg := ⟨0x10054, 0x0⟩
def RIDGE_PPS_MISSED : Reg := ⟨0x10058, 0x0⟩
def RIDGE_PPS_OUT_CFG : Reg := ⟨0x1005C, 0x64⟩
def RIDGE_MARK_TIME_LO (m : Nat) : Reg := ⟨0x14000 + 0x20 * m, 0x0⟩
def RIDGE_MARK_TIME_HI (m : Nat) : Reg := ⟨0x14004 + 0x20 * m, 0x0⟩
def RIDGE_MARK_TIME_FRAC (m : Nat) : Reg := ⟨0x14008 + 0x20 * m, 0x0⟩
def RIDGE_MARK_PERIOD_NS (m : Nat) : Reg := ⟨0x1400C + 0x20 * m, 0x0⟩
def RIDGE_MARK_PERIOD_FRAC (m : Nat) : Reg := ⟨0x14010 + 0x20 * m, 0x0⟩
def RIDGE_MARK_ACTION (m : Nat) : Reg := ⟨0x14014 + 0x20 * m, 0x0⟩
def RIDGE_MARK_CTRL (m : Nat) : Reg := ⟨0x14018 + 0x20 * m, 0x0⟩
def RIDGE_MARK_STATUS (m : Nat) : Reg := ⟨0x1401C + 0x20 * m, 0x0⟩
def RIDGE_EPOCH_GRID : Reg := ⟨0x10070, 0x5F5E100⟩
def RIDGE_EPOCH_STATE : Reg := ⟨0x10074, 0x0⟩
def RIDGE_EPOCH_APPLY_LO : Reg := ⟨0x10078, 0x0⟩
def RIDGE_EPOCH_APPLY_HI : Reg := ⟨0x1007C, 0x0⟩
def RIDGE_EPOCH_REQUIRED : Reg := ⟨0x10080, 0x3FFF⟩
def RIDGE_EPOCH_ACK : Reg := ⟨0x10084, 0x0⟩
def RIDGE_EPOCH_FAIL : Reg := ⟨0x10088, 0x0⟩

-- CAMIN registers
def CAMIN_LINK_UP : Reg := ⟨0x20000, 0x0⟩
def CAMIN_POC_ANY_FAULT : Reg := ⟨0x20004, 0x0⟩
def CAMIN_POC_TOTAL : Reg := ⟨0x20008, 0x5A1F40⟩
def CAMIN_POC_SUM : Reg := ⟨0x2000C, 0x0⟩
def CAMIN_VPOC_MV : Reg := ⟨0x20010, 0x0⟩
def CAMIN_SELFTEST_RUNS : Reg := ⟨0x20014, 0x0⟩
def CAMIN_MISSED_TRIG : Reg := ⟨0x20018, 0x0⟩
def CAMIN_PORT_CTRL (n : Nat) : Reg := ⟨0x21000 + 0x100 * n, 0x98⟩
def CAMIN_POC_CTRL (n : Nat) : Reg := ⟨0x21004 + 0x100 * n, 0x2580400⟩
def CAMIN_POC_STATUS (n : Nat) : Reg := ⟨0x21008 + 0x100 * n, 0x0⟩
def CAMIN_POC_FAULT (n : Nat) : Reg := ⟨0x2100C + 0x100 * n, 0x0⟩
def CAMIN_TRIG_LAT (n : Nat) : Reg := ⟨0x21010 + 0x100 * n, 0x0⟩
def CAMIN_EXPOSURE (n : Nat) : Reg := ⟨0x21014 + 0x100 * n, 0x0⟩
def CAMIN_LINE_TIME (n : Nat) : Reg := ⟨0x21018 + 0x100 * n, 0x0⟩
def CAMIN_FS_WINDOW (n : Nat) : Reg := ⟨0x2101C + 0x100 * n, 0xFFFF0000⟩
def CAMIN_FORMAT (n : Nat) : Reg := ⟨0x21020 + 0x100 * n, 0x2C⟩
def CAMIN_HEIGHT (n : Nat) : Reg := ⟨0x21024 + 0x100 * n, 0x1F40000⟩
def CAMIN_STREAM_CFG (n : Nat) : Reg := ⟨0x21028 + 0x100 * n, 0x1400000⟩
def CAMIN_VERDICT_CFG (n : Nat) : Reg := ⟨0x2102C + 0x100 * n, 0x100000⟩
def CAMIN_FRAME_BUF_LO (n : Nat) : Reg := ⟨0x21030 + 0x100 * n, 0x0⟩
def CAMIN_FRAME_BUF_HI (n : Nat) : Reg := ⟨0x21034 + 0x100 * n, 0x0⟩
def CAMIN_LINE_STRIDE (n : Nat) : Reg := ⟨0x21038 + 0x100 * n, 0x0⟩
def CAMIN_RECORD_RING (n : Nat) : Reg := ⟨0x2103C + 0x100 * n, 0x0⟩
def CAMIN_RX_PACKETS (n : Nat) : Reg := ⟨0x21040 + 0x100 * n, 0x0⟩
def CAMIN_RETX_REQ (n : Nat) : Reg := ⟨0x21044 + 0x100 * n, 0x0⟩
def CAMIN_RETX_OK (n : Nat) : Reg := ⟨0x21048 + 0x100 * n, 0x0⟩
def CAMIN_PKT_LOST (n : Nat) : Reg := ⟨0x2104C + 0x100 * n, 0x0⟩
def CAMIN_HDR_ECC (n : Nat) : Reg := ⟨0x21050 + 0x100 * n, 0x0⟩
def CAMIN_PAYLOAD_CRC (n : Nat) : Reg := ⟨0x21054 + 0x100 * n, 0x0⟩
def CAMIN_LINES_LOST (n : Nat) : Reg := ⟨0x21058 + 0x100 * n, 0x0⟩
def CAMIN_LATE_LINES (n : Nat) : Reg := ⟨0x2105C + 0x100 * n, 0x0⟩
def CAMIN_UNSUPPORTED (n : Nat) : Reg := ⟨0x21060 + 0x100 * n, 0x0⟩
def CAMIN_FRAMES (n : Nat) : Reg := ⟨0x21064 + 0x100 * n, 0x0⟩
def CAMIN_PATTERN (n : Nat) : Reg := ⟨0x21068 + 0x100 * n, 0x0⟩
def CAMIN_LAST_FRAME (n : Nat) : Reg := ⟨0x2106C + 0x100 * n, 0x0⟩
def CAMIN_REC_DROP (n : Nat) : Reg := ⟨0x21070 + 0x100 * n, 0x0⟩

-- NETIN registers
def NETIN_PORT_CTRL (p : Nat) : Reg := ⟨0x31000 + 0x100 * p, 0x10009⟩
def NETIN_PORT_STATUS (p : Nat) : Reg := ⟨0x31004 + 0x100 * p, 0x0⟩
def NETIN_PCP_MAP (p : Nat) : Reg := ⟨0x31008 + 0x100 * p, 0xFAC688⟩
def NETIN_LAUNCH_CFG (p : Nat) : Reg := ⟨0x3100C + 0x100 * p, 0x0⟩
def NETIN_LAUNCH_TOL (p q : Nat) : Reg := ⟨0x31010 + 0x100 * p + 0x4 * q, 0x0⟩
def NETIN_RX_FRAMES (p : Nat) : Reg := ⟨0x31030 + 0x100 * p, 0x0⟩
def NETIN_RX_FCS_ERR (p : Nat) : Reg := ⟨0x31034 + 0x100 * p, 0x0⟩
def NETIN_RX_DROP (p : Nat) : Reg := ⟨0x31038 + 0x100 * p, 0x0⟩
def NETIN_TX_FRAMES (p : Nat) : Reg := ⟨0x3103C + 0x100 * p, 0x0⟩
def NETIN_TX_DROP (p : Nat) : Reg := ⟨0x31040 + 0x100 * p, 0x0⟩
def NETIN_LAUNCH_DROP (p : Nat) : Reg := ⟨0x31044 + 0x100 * p, 0x0⟩
def NETIN_GATE_HOLD (p : Nat) : Reg := ⟨0x31048 + 0x100 * p, 0x0⟩
def NETIN_GCL_CTRL (p : Nat) : Reg := ⟨0x31060 + 0x100 * p, 0x1FF00⟩
def NETIN_GCL_BASE_LO (p : Nat) : Reg := ⟨0x31064 + 0x100 * p, 0x0⟩
def NETIN_GCL_BASE_HI (p : Nat) : Reg := ⟨0x31068 + 0x100 * p, 0x0⟩
def NETIN_GCL_CYCLE_NS (p : Nat) : Reg := ⟨0x3106C + 0x100 * p, 0xF4240⟩
def NETIN_GCL_CYCLE_FRAC (p : Nat) : Reg := ⟨0x31070 + 0x100 * p, 0x0⟩
def NETIN_GCL_EXT_NS (p : Nat) : Reg := ⟨0x31074 + 0x100 * p, 0x0⟩
def NETIN_GCL_STATUS (p : Nat) : Reg := ⟨0x31078 + 0x100 * p, 0xFF00⟩
def NETIN_SCAN_CTRL (s : Nat) : Reg := ⟨0x32000 + 0x100 * s, 0xCCBA0004⟩
def NETIN_SCAN_LEAD (s : Nat) : Reg := ⟨0x32004 + 0x100 * s, 0x989680⟩
def NETIN_SCAN_TCORR (s : Nat) : Reg := ⟨0x32008 + 0x100 * s, 0x0⟩
def NETIN_SCAN_TIMING (s : Nat) : Reg := ⟨0x3200C + 0x100 * s, 0x6407D0⟩
def NETIN_SCAN_SWEEP (s : Nat) : Reg := ⟨0x32010 + 0x100 * s, 0x1F40096⟩
def NETIN_SCAN_VERDICT (s : Nat) : Reg := ⟨0x32014 + 0x100 * s, 0x100000⟩
def NETIN_SCAN_RING (s : Nat) : Reg := ⟨0x32018 + 0x100 * s, 0x0⟩
def NETIN_SCAN_ADAPTER (s : Nat) : Reg := ⟨0x3201C + 0x100 * s, 0x0⟩
def NETIN_SCAN_POINTS (s : Nat) : Reg := ⟨0x32020 + 0x100 * s, 0x0⟩
def NETIN_PKT_LOST (s : Nat) : Reg := ⟨0x32024 + 0x100 * s, 0x0⟩
def NETIN_OUT_OF_ORDER (s : Nat) : Reg := ⟨0x32028 + 0x100 * s, 0x0⟩
def NETIN_CRC_FAIL (s : Nat) : Reg := ⟨0x3202C + 0x100 * s, 0x0⟩
def NETIN_OVERFLOW (s : Nat) : Reg := ⟨0x32030 + 0x100 * s, 0x0⟩
def NETIN_ADAPTER_FAULTS (s : Nat) : Reg := ⟨0x32034 + 0x100 * s, 0x0⟩
def NETIN_SYNTH (s : Nat) : Reg := ⟨0x32038 + 0x100 * s, 0x0⟩
def NETIN_CMD_MISSED (s : Nat) : Reg := ⟨0x3203C + 0x100 * s, 0x0⟩
def NETIN_SCAN_REC_DROP (s : Nat) : Reg := ⟨0x32040 + 0x100 * s, 0x0⟩
def NETIN_CAN_CTRL (c : Nat) : Reg := ⟨0x30400 + 0x100 * c, 0x212⟩
def NETIN_CAN_STATUS (c : Nat) : Reg := ⟨0x30404 + 0x100 * c, 0x3⟩
def NETIN_CAN_RX_FRAMES (c : Nat) : Reg := ⟨0x30408 + 0x100 * c, 0x0⟩
def NETIN_RX_ERR (c : Nat) : Reg := ⟨0x3040C + 0x100 * c, 0x0⟩
def NETIN_CAN_TX_FRAMES (c : Nat) : Reg := ⟨0x30410 + 0x100 * c, 0x0⟩
def NETIN_BUSOFF (c : Nat) : Reg := ⟨0x30414 + 0x100 * c, 0x0⟩
def NETIN_LINK_UP : Reg := ⟨0x30000, 0x0⟩
def NETIN_SIGNAL_RING : Reg := ⟨0x30004, 0x0⟩
def NETIN_SIGNAL_PEG : Reg := ⟨0x30008, 0x0⟩
def NETIN_SIG_DROP : Reg := ⟨0x3000C, 0x0⟩
def NETIN_SIG_CRC_ERR : Reg := ⟨0x30010, 0x0⟩
def NETIN_SIG_COUNTER_ERR : Reg := ⟨0x30014, 0x0⟩
def NETIN_SIG_SATURATED : Reg := ⟨0x30018, 0x0⟩
def NETIN_SIG_STALE (k : Nat) : Reg := ⟨0x30020 + 0x4 * k, 0x0⟩
def NETIN_FWD_MISS : Reg := ⟨0x30040, 0x0⟩
def NETIN_OVERSIZE : Reg := ⟨0x30044, 0x0⟩
def NETIN_REF_IMU_CFG : Reg := ⟨0x30900, 0x16⟩
def NETIN_REF_IMU_STATUS : Reg := ⟨0x30904, 0x0⟩
def NETIN_MOUNT_Q (i : Nat) : Reg := ⟨0x30910 + 0x4 * i, (if i = 0 then 0x40000000 else 0)⟩
def NETIN_MOUNT_T (i : Nat) : Reg := ⟨0x30920 + 0x4 * i, 0x0⟩
def NETIN_XCHK_CFG : Reg := ⟨0x30930, 0x643064⟩
def NETIN_XCHK_ACC : Reg := ⟨0x30934, 0x32⟩
def NETIN_XCHK_STATUS : Reg := ⟨0x30938, 0x0⟩

-- PLANER registers
def PLANER_DESC_LO : Reg := ⟨0x40000, 0x0⟩
def PLANER_DESC_HI : Reg := ⟨0x40004, 0x0⟩
def PLANER_STATE : Reg := ⟨0x40008, 0x0⟩
def PLANER_STATUS : Reg := ⟨0x4000C, 0x0⟩
def PLANER_DESC_ERR : Reg := ⟨0x40010, 0x0⟩
def PLANER_FRAME_NUMBER : Reg := ⟨0x40014, 0x0⟩
def PLANER_LAST_FRAME : Reg := ⟨0x40018, 0x0⟩
def PLANER_POINTS_IN : Reg := ⟨0x40020, 0x0⟩
def PLANER_NO_RETURN : Reg := ⟨0x40024, 0x0⟩
def PLANER_NOT_USED : Reg := ⟨0x40028, 0x0⟩
def PLANER_LATE_POINTS : Reg := ⟨0x4002C, 0x0⟩
def PLANER_OUT_OF_EPOCH : Reg := ⟨0x40030, 0x0⟩
def PLANER_SELF_HITS : Reg := ⟨0x40034, 0x0⟩
def PLANER_OUT_OF_GRID : Reg := ⟨0x40038, 0x0⟩
def PLANER_MERGED : Reg := ⟨0x4003C, 0x0⟩
def PLANER_DROP_POINTS : Reg := ⟨0x40040, 0x0⟩
def PLANER_DROP_CELLS : Reg := ⟨0x40044, 0x0⟩
def PLANER_VOXELS_OUT : Reg := ⟨0x40048, 0x0⟩
def PLANER_SYNTH_BLOCKS : Reg := ⟨0x4004C, 0x0⟩
def PLANER_SYNTH_FAIL : Reg := ⟨0x40050, 0x0⟩
def PLANER_POSE_REJECT : Reg := ⟨0x40054, 0x0⟩
def PLANER_REC_DROP : Reg := ⟨0x40058, 0x0⟩
def PLANER_FRAMES : Reg := ⟨0x4005C, 0x0⟩
def PLANER_BUF_PEAK : Reg := ⟨0x40060, 0x0⟩
def PLANER_EMIT_LAT_MAX : Reg := ⟨0x40064, 0x0⟩

-- BAY registers
def BAY_STATUS (b : Nat) : Reg := ⟨0x100000 + 0x40000 * b, 0xFFFFF⟩
def BAY_SET_POINT (b : Nat) : Reg := ⟨0x100004 + 0x40000 * b, 0x2D002D0⟩
def BAY_TOKENS (b : Nat) : Reg := ⟨0x100008 + 0x40000 * b, 0x40FF⟩
def BAY_TOKEN_WAIT (b : Nat) : Reg := ⟨0x10000C + 0x40000 * b, 0x0⟩
def BAY_REGION_RATE (b r : Nat) : Reg := ⟨0x100010 + 0x40000 * b + 0x8 * r, 0x0⟩
def BAY_REGION_ENV (b r : Nat) : Reg := ⟨0x100014 + 0x40000 * b + 0x8 * r, 0x0⟩
def BAY_TRUSS_BUSY (b : Nat) : Reg := ⟨0x100030 + 0x40000 * b, 0x0⟩
def BAY_RETIRED (b : Nat) : Reg := ⟨0x100034 + 0x40000 * b, 0x0⟩
def BAY_SPARE_MAP (b t : Nat) : Reg := ⟨0x100040 + 0x40000 * b + 0x4 * t, 0x1F1F1F1F⟩
def BAY_STEPS_LO (b : Nat) : Reg := ⟨0x100080 + 0x40000 * b, 0x0⟩
def BAY_STEPS_HI (b : Nat) : Reg := ⟨0x100084 + 0x40000 * b, 0x0⟩
def BAY_NAR_COUNT (b : Nat) : Reg := ⟨0x100088 + 0x40000 * b, 0x0⟩
def BAY_SAT_COUNT (b : Nat) : Reg := ⟨0x10008C + 0x40000 * b, 0x0⟩
def BAY_NAN_TO_INT (b : Nat) : Reg := ⟨0x100090 + 0x40000 * b, 0x0⟩
def BAY_PLAN_LOADS (b : Nat) : Reg := ⟨0x100094 + 0x40000 * b, 0x0⟩
def BAY_TASK_ABORTS (b : Nat) : Reg := ⟨0x100098 + 0x40000 * b, 0x0⟩
def BAY_SELFTEST_FAIL (b : Nat) : Reg := ⟨0x10009C + 0x40000 * b, 0x0⟩
def BAY_SELFTEST_RUNS (b : Nat) : Reg := ⟨0x1000A0 + 0x40000 * b, 0x0⟩
def BAY_LAST_TEST_LO (b : Nat) : Reg := ⟨0x1000A4 + 0x40000 * b, 0x0⟩
def BAY_LAST_TEST_HI (b : Nat) : Reg := ⟨0x1000A8 + 0x40000 * b, 0x0⟩
def BAY_INDEX_OOB (b : Nat) : Reg := ⟨0x1000C0 + 0x40000 * b, 0x0⟩
def BAY_INDEX_POISON (b : Nat) : Reg := ⟨0x1000C4 + 0x40000 * b, 0x0⟩
def BAY_NARROW_ELEMS (b : Nat) : Reg := ⟨0x1000C8 + 0x40000 * b, 0x0⟩
def BAY_TRANSPOSE_TILES (b : Nat) : Reg := ⟨0x1000CC + 0x40000 * b, 0x0⟩
def BAY_SCATTER_COLLIDE (b : Nat) : Reg := ⟨0x1000D0 + 0x40000 * b, 0x0⟩

-- SCRIBE registers
def SCRIBE_CTRL : Reg := ⟨0x80000, 0x1⟩
def SCRIBE_STATUS : Reg := ⟨0x80004, 0x0⟩
def SCRIBE_STALL_LIMIT : Reg := ⟨0x80008, 0x2710⟩
def SCRIBE_PROV_BASE_LO (b : Nat) : Reg := ⟨0x80010 + 0x10 * b, 0x0⟩
def SCRIBE_PROV_BASE_HI (b : Nat) : Reg := ⟨0x80014 + 0x10 * b, 0x0⟩
def SCRIBE_PROV_SIZE (b : Nat) : Reg := ⟨0x80018 + 0x10 * b, 0x0⟩
def SCRIBE_PROV_INUSE (b : Nat) : Reg := ⟨0x8001C + 0x10 * b, 0x0⟩
def SCRIBE_PEG_SEL : Reg := ⟨0x80050, 0x0⟩
def SCRIBE_PEG_VALUE_LO : Reg := ⟨0x80054, 0x0⟩
def SCRIBE_PEG_VALUE_HI : Reg := ⟨0x80058, 0x0⟩
def SCRIBE_PEG_ADD : Reg := ⟨0x8005C, 0x0⟩
def SCRIBE_PEG_STATE : Reg := ⟨0x80060, 0x0⟩
def SCRIBE_PEG_SET_LO : Reg := ⟨0x80064, 0x0⟩
def SCRIBE_PEG_SET_HI : Reg := ⟨0x80068, 0x0⟩
def SCRIBE_RING_SEL : Reg := ⟨0x80070, 0x0⟩
def SCRIBE_RING_STATE : Reg := ⟨0x80074, 0x0⟩
def SCRIBE_RING_PROD : Reg := ⟨0x80078, 0x0⟩
def SCRIBE_RING_CONS : Reg := ⟨0x8007C, 0x0⟩
def SCRIBE_RING_POP : Reg := ⟨0x80080, 0x0⟩
def SCRIBE_TASKS_STARTED : Reg := ⟨0x80084, 0x0⟩
def SCRIBE_PROV_STARTED : Reg := ⟨0x80088, 0x0⟩
def SCRIBE_PROV_COMMITTED : Reg := ⟨0x8008C, 0x0⟩
def SCRIBE_PROV_DISCARDED : Reg := ⟨0x80090, 0x0⟩
def SCRIBE_PROV_DENIED : Reg := ⟨0x80094, 0x0⟩
def SCRIBE_SKIPPED : Reg := ⟨0x80098, 0x0⟩
def SCRIBE_VERDICT_EXPIRED : Reg := ⟨0x8009C, 0x0⟩
def SCRIBE_RELEASE_IGNORED : Reg := ⟨0x800A0, 0x0⟩
def SCRIBE_RING_RESETS : Reg := ⟨0x800A4, 0x0⟩
def SCRIBE_RING_LOST : Reg := ⟨0x800A8, 0x0⟩
def SCRIBE_RING_PARITY : Reg := ⟨0x800AC, 0x0⟩
def SCRIBE_STALL_TIMEOUTS : Reg := ⟨0x800B0, 0x0⟩
def SCRIBE_COMP_DROP : Reg := ⟨0x800B4, 0x0⟩
def SCRIBE_PEG_SATURATED : Reg := ⟨0x800B8, 0x0⟩
def SCRIBE_LAST_RING_RESET : Reg := ⟨0x800BC, 0x0⟩
def SCRIBE_INSTANCE_COUNTS (s : Nat) : Reg := ⟨0x800C0 + 0x4 * s, 0x0⟩
def SCRIBE_FREE_PEG_ADDS : Reg := ⟨0x800F0, 0x0⟩
def SCRIBE_POP_DATA (i : Nat) : Reg := ⟨0x80100 + 0x4 * i, 0x0⟩
def SCRIBE_POP_STATUS : Reg := ⟨0x80140, 0x0⟩

-- RAFT registers
def RAFT_GRID_DESC_LO : Reg := ⟨0x50000, 0x0⟩
def RAFT_GRID_DESC_HI : Reg := ⟨0x50004, 0x0⟩
def RAFT_STATE : Reg := ⟨0x50008, 0x0⟩
def RAFT_STATUS : Reg := ⟨0x5000C, 0x0⟩
def RAFT_DESC_ERR : Reg := ⟨0x50010, 0x0⟩
def RAFT_LAST_FRAME : Reg := ⟨0x50014, 0x0⟩
def RAFT_CYCLES : Reg := ⟨0x50018, 0x0⟩
def RAFT_CONTRIBS_IN : Reg := ⟨0x5001C, 0x0⟩
def RAFT_PRUNED : Reg := ⟨0x50020, 0x0⟩
def RAFT_AGED_OUT : Reg := ⟨0x50024, 0x0⟩
def RAFT_OUT_OF_HEIGHT : Reg := ⟨0x50028, 0x0⟩
def RAFT_OUT_OF_GRID : Reg := ⟨0x5002C, 0x0⟩
def RAFT_FOLDED : Reg := ⟨0x50030, 0x0⟩
def RAFT_DROP_CONTRIBS : Reg := ⟨0x50034, 0x0⟩
def RAFT_DROP_CELLS : Reg := ⟨0x50038, 0x0⟩
def RAFT_INPUTS_SKIPPED : Reg := ⟨0x5003C, 0x0⟩
def RAFT_CELLS_OUT : Reg := ⟨0x50040, 0x0⟩
def RAFT_NAN_CONTRIBS : Reg := ⟨0x50044, 0x0⟩
def RAFT_CYCLE_STEPS_MAX : Reg := ⟨0x50048, 0x0⟩
def RAFT_OCC_PEAK : Reg := ⟨0x5004C, 0x0⟩

-- LEDGER registers
def LEDGER_CTRL : Reg := ⟨0x90000, 0x1⟩
def LEDGER_STATE : Reg := ⟨0x90004, 0x0⟩
def LEDGER_SEQ_LIVE : Reg := ⟨0x90008, 0x0⟩
def LEDGER_PAGES_USED : Reg := ⟨0x9000C, 0x0⟩
def LEDGER_STATUS : Reg := ⟨0x90010, 0x0⟩
def LEDGER_CACHE_SEL : Reg := ⟨0x90014, 0x0⟩
def LEDGER_CACHE_FREE : Reg := ⟨0x90018, 0x0⟩
def LEDGER_CACHE_DROPPED : Reg := ⟨0x9001C, 0x0⟩
def LEDGER_SEQ_SEL : Reg := ⟨0x90020, 0x0⟩
def LEDGER_SEQ_LEN_LO : Reg := ⟨0x90024, 0x0⟩
def LEDGER_SEQ_LEN_HI : Reg := ⟨0x90028, 0x0⟩
def LEDGER_SEQ_STATE : Reg := ⟨0x9002C, 0x0⟩
def LEDGER_OPS : Reg := ⟨0x90030, 0x0⟩
def LEDGER_ALLOCS : Reg := ⟨0x90034, 0x0⟩
def LEDGER_REUSES : Reg := ⟨0x90038, 0x0⟩
def LEDGER_COW_COPIES : Reg := ⟨0x9003C, 0x0⟩
def LEDGER_DROPS : Reg := ⟨0x90040, 0x0⟩
def LEDGER_RECOMPUTE_REQ : Reg := ⟨0x90044, 0x0⟩
def LEDGER_REQ_DROP : Reg := ⟨0x90048, 0x0⟩
def LEDGER_REFILLS : Reg := ⟨0x9004C, 0x0⟩
def LEDGER_RECOMPUTE_TIMEOUT : Reg := ⟨0x90050, 0x0⟩
def LEDGER_ALLOC_FAIL : Reg := ⟨0x90054, 0x0⟩
def LEDGER_TRUNCATED : Reg := ⟨0x90058, 0x0⟩
def LEDGER_ABSENT : Reg := ⟨0x9005C, 0x0⟩
def LEDGER_COLL_BYTES : Reg := ⟨0x90060, 0x0⟩
def LEDGER_LAB_HIT (b : Nat) : Reg := ⟨0x90080 + 0x8 * b, 0x0⟩
def LEDGER_LAB_MISS (b : Nat) : Reg := ⟨0x90084 + 0x8 * b, 0x0⟩

-- PLUMB registers
def PLUMB_CTRL : Reg := ⟨0x60000, 0x1⟩
def PLUMB_STATE : Reg := ⟨0x60004, 0x0⟩
def PLUMB_STATUS : Reg := ⟨0x60008, 0x0⟩
def PLUMB_DESC_ERR : Reg := ⟨0x6000C, 0x0⟩
def PLUMB_SLOT_SEL : Reg := ⟨0x60010, 0x0⟩
def PLUMB_SLOT_STATE : Reg := ⟨0x60014, 0x0⟩
def PLUMB_LAST_RESULT : Reg := ⟨0x60018, 0x0⟩
def PLUMB_CYCLES : Reg := ⟨0x60020, 0x0⟩
def PLUMB_CONVERGED : Reg := ⟨0x60024, 0x0⟩
def PLUMB_DEADLINE_RETURNS : Reg := ⟨0x60028, 0x0⟩
def PLUMB_ILL_POSED : Reg := ⟨0x6002C, 0x0⟩
def PLUMB_NOT_CONVERGED : Reg := ⟨0x60030, 0x0⟩
def PLUMB_RANGE_VIOL : Reg := ⟨0x60034, 0x0⟩
def PLUMB_FACTORS_IN : Reg := ⟨0x60038, 0x0⟩
def PLUMB_FACTORS_DROPPED : Reg := ⟨0x6003C, 0x0⟩
def PLUMB_POSES_WRITTEN : Reg := ⟨0x60040, 0x0⟩
def PLUMB_POSE_SKIPPED : Reg := ⟨0x60044, 0x0⟩
def PLUMB_MARK_MISSED : Reg := ⟨0x60048, 0x0⟩
def PLUMB_CYCLE_STEPS_MAX : Reg := ⟨0x6004C, 0x0⟩
def PLUMB_SLACK_MIN : Reg := ⟨0x60050, 0x7FFFFFFF⟩

-- TALLY registers
def TALLY_CTRL : Reg := ⟨0x70000, 0x1⟩
def TALLY_UNIT_DESC_LO : Reg := ⟨0x70004, 0x0⟩
def TALLY_UNIT_DESC_HI : Reg := ⟨0x70008, 0x0⟩
def TALLY_STATE : Reg := ⟨0x7000C, 0x0⟩
def TALLY_STATUS : Reg := ⟨0x70010, 0x0⟩
def TALLY_DESC_ERR : Reg := ⟨0x70014, 0x0⟩
def TALLY_LIVE : Reg := ⟨0x70018, 0x0⟩
def TALLY_NEXT_ID : Reg := ⟨0x7001C, 0x1⟩
def TALLY_LAST_FRAME : Reg := ⟨0x70020, 0x0⟩
def TALLY_CYCLES : Reg := ⟨0x70030, 0x0⟩
def TALLY_DET_IN : Reg := ⟨0x70034, 0x0⟩
def TALLY_DET_DROPPED : Reg := ⟨0x70038, 0x0⟩
def TALLY_PAIRS_DROPPED : Reg := ⟨0x7003C, 0x0⟩
def TALLY_ASSIGNED : Reg := ⟨0x70040, 0x0⟩
def TALLY_BIRTHS : Reg := ⟨0x70044, 0x0⟩
def TALLY_BIRTHS_DROPPED : Reg := ⟨0x70048, 0x0⟩
def TALLY_CONFIRMS : Reg := ⟨0x7004C, 0x0⟩
def TALLY_DELETES : Reg := ⟨0x70050, 0x0⟩
def TALLY_UPDATE_FAILED : Reg := ⟨0x70054, 0x0⟩
def TALLY_UPDATE_LATE : Reg := ⟨0x70058, 0x0⟩
def TALLY_MARK_MISSED : Reg := ⟨0x7005C, 0x0⟩
def TALLY_CYCLE_STEPS_MAX : Reg := ⟨0x70060, 0x0⟩

-- NETIN registers
def NETIN_OUT_CTRL (s : Nat) : Reg := ⟨0x33000 + 0x40 * s, 0x3000000⟩
def NETIN_OUT_SRC (s : Nat) : Reg := ⟨0x33004 + 0x40 * s, 0xFFFF0000⟩
def NETIN_OUT_HANDLE (s : Nat) : Reg := ⟨0x33008 + 0x40 * s, 0x0⟩
def NETIN_OUT_PERIOD (s : Nat) : Reg := ⟨0x3300C + 0x40 * s, 0x5F5E100⟩
def NETIN_OUT_BASE_LO (s : Nat) : Reg := ⟨0x33010 + 0x40 * s, 0x0⟩
def NETIN_OUT_BASE_HI (s : Nat) : Reg := ⟨0x33014 + 0x40 * s, 0x0⟩
def NETIN_OUT_DEADLINE (s : Nat) : Reg := ⟨0x33018 + 0x40 * s, 0x1C9C380⟩
def NETIN_OUT_LAUNCH (s : Nat) : Reg := ⟨0x3301C + 0x40 * s, 0x0⟩
def NETIN_OUT_CHAN (s : Nat) : Reg := ⟨0x33020 + 0x40 * s, 0x100⟩
def NETIN_OUT_AREA_LO (s : Nat) : Reg := ⟨0x33024 + 0x40 * s, 0x0⟩
def NETIN_OUT_AREA_HI (s : Nat) : Reg := ⟨0x33028 + 0x40 * s, 0x0⟩
def NETIN_OUT_AREA_SIZE (s : Nat) : Reg := ⟨0x3302C + 0x40 * s, 0x0⟩
def NETIN_OUT_STATUS (s : Nat) : Reg := ⟨0x33030 + 0x40 * s, 0x0⟩
def NETIN_OUT_SENT (s : Nat) : Reg := ⟨0x33034 + 0x40 * s, 0x0⟩
def NETIN_OUT_MISS (s : Nat) : Reg := ⟨0x33038 + 0x40 * s, 0x0⟩
def NETIN_OUT_DROP (s : Nat) : Reg := ⟨0x3303C + 0x40 * s, 0x0⟩
def NETIN_VLINK_CTRL : Reg := ⟨0x33800, 0xA00⟩
def NETIN_VLINK_ID : Reg := ⟨0x33804, 0x40000010⟩
def NETIN_VLINK_STATE : Reg := ⟨0x33808, 0x0⟩
def NETIN_VLINK_STREAMS : Reg := ⟨0x3380C, 0x0⟩
def NETIN_VLINK_CHANGE_LO : Reg := ⟨0x33810, 0x0⟩
def NETIN_VLINK_CHANGE_HI : Reg := ⟨0x33814, 0x0⟩
def NETIN_VLINK_TRANSITIONS : Reg := ⟨0x33818, 0x0⟩

-- MB registers
def MB_DOORBELL (f : Nat) : Reg := ⟨0x200000 + 0x1000 * f, 0x0⟩
def MB_BUSY (f : Nat) : Reg := ⟨0x200004 + 0x1000 * f, 0x0⟩
def MB_DONE (f : Nat) : Reg := ⟨0x200008 + 0x1000 * f, 0x0⟩
def MB_IRQ_CFG (f : Nat) : Reg := ⟨0x20000C + 0x1000 * f, 0x3⟩
def MB_SESSION (f : Nat) : Reg := ⟨0x200010 + 0x1000 * f, 2 + 256 * f⟩
def MB_NOTICE (f : Nat) : Reg := ⟨0x200014 + 0x1000 * f, 0x0⟩
def MB_FOREMAN_GEN (f : Nat) : Reg := ⟨0x200018 + 0x1000 * f, 0x0⟩
def MB_HEARTBEAT (f : Nat) : Reg := ⟨0x20001C + 0x1000 * f, 0x0⟩
def MB_RIDGE_LO (f : Nat) : Reg := ⟨0x200020 + 0x1000 * f, 0x0⟩
def MB_RIDGE_HI (f : Nat) : Reg := ⟨0x200024 + 0x1000 * f, 0x0⟩
def MB_CMDS (f : Nat) : Reg := ⟨0x200028 + 0x1000 * f, 0x0⟩
def MB_IGNORED (f : Nat) : Reg := ⟨0x20002C + 0x1000 * f, 0x0⟩

-- SILL registers
def SILL_MEM_LAYOUT : Reg := ⟨0x100, 0x1B222E⟩
def SILL_LOFT_BASE_LO : Reg := ⟨0x104, 0x0⟩
def SILL_LOFT_BASE_HI : Reg := ⟨0x108, 0x3F00⟩
def SILL_SYS_RESERVE : Reg := ⟨0x10C, 0x200⟩
def SILL_STACKS_USED : Reg := ⟨0x110, 0xF⟩
def SILL_DRAM_FREE (n : Nat) : Reg := ⟨0x120 + 0x4 * n, 0x3E00⟩
def SILL_LOFT_FREE (n : Nat) : Reg := ⟨0x130 + 0x4 * n, 0x6000⟩
def SILL_CTRL_CREDITS : Reg := ⟨0x140, 0x10⟩
def SILL_CTRL_LAT_MAX : Reg := ⟨0x144, 0x0⟩
def SILL_ZERO_PENDING : Reg := ⟨0x148, 0x0⟩
def SILL_REGION_ALERT : Reg := ⟨0x14C, 0x0⟩

-- BAY registers
def BAY_DRAM_STATUS (b : Nat) : Reg := ⟨0x110000 + 0x40000 * b, 0x0⟩
def BAY_DRAM_CE (b : Nat) : Reg := ⟨0x110004 + 0x40000 * b, 0x0⟩
def BAY_DRAM_UE (b : Nat) : Reg := ⟨0x110008 + 0x40000 * b, 0x0⟩
def BAY_DRAM_POISON_READ (b : Nat) : Reg := ⟨0x11000C + 0x40000 * b, 0x0⟩
def BAY_DRAM_ERR_ADDR_LO (b : Nat) : Reg := ⟨0x110010 + 0x40000 * b, 0x0⟩
def BAY_DRAM_ERR_ADDR_HI (b : Nat) : Reg := ⟨0x110014 + 0x40000 * b, 0x0⟩
def BAY_LOFT_CE (b : Nat) : Reg := ⟨0x110018 + 0x40000 * b, 0x0⟩
def BAY_LOFT_UE (b : Nat) : Reg := ⟨0x11001C + 0x40000 * b, 0x0⟩
def BAY_LOFT_POISON_READ (b : Nat) : Reg := ⟨0x110020 + 0x40000 * b, 0x0⟩
def BAY_LOFT_ERR_ADDR_LO (b : Nat) : Reg := ⟨0x110024 + 0x40000 * b, 0x0⟩
def BAY_LOFT_ERR_ADDR_HI (b : Nat) : Reg := ⟨0x110028 + 0x40000 * b, 0x0⟩
def BAY_SCRUB_CFG (b : Nat) : Reg := ⟨0x11002C + 0x40000 * b, 0xA1803⟩
def BAY_SCRUB_PASSES (b : Nat) : Reg := ⟨0x110030 + 0x40000 * b, 0x0⟩
def BAY_MEM_STATUS (b : Nat) : Reg := ⟨0x110034 + 0x40000 * b, 0x0⟩
def BAY_PURLIN_STATUS (b : Nat) : Reg := ⟨0x110040 + 0x40000 * b, 0x7⟩
def BAY_PURLIN_REPLAY (b : Nat) : Reg := ⟨0x110044 + 0x40000 * b, 0x0⟩
def BAY_LINK_DROP (b : Nat) : Reg := ⟨0x110048 + 0x40000 * b, 0x0⟩
def BAY_PURLIN_LOAD (b : Nat) : Reg := ⟨0x11004C + 0x40000 * b, 0x0⟩

-- FENCE registers
def FENCE_LOCK : Reg := ⟨0xA0000, 0x0⟩
def FENCE_STATUS : Reg := ⟨0xA0004, 0x0⟩
def FENCE_DOMAIN_CMD : Reg := ⟨0xA0008, 0x0⟩
def FENCE_DENIED : Reg := ⟨0xA000C, 0x0⟩
def FENCE_FIRST_DENIED : Reg := ⟨0xA0010, 0x0⟩
def FENCE_FIRST_ADDR_LO : Reg := ⟨0xA0014, 0x0⟩
def FENCE_FIRST_ADDR_HI : Reg := ⟨0xA0018, 0x0⟩
def FENCE_FROZEN_ADDS : Reg := ⟨0xA001C, 0x0⟩
def FENCE_GRANTS : Reg := ⟨0xA0020, 0x0⟩
def FENCE_DOMAIN_STATE (d : Nat) : Reg := ⟨0xA0100 + 0x4 * d, 0x0⟩
def FENCE_OWNER_SECRET (i : Nat) : Reg := ⟨0xA0400 + 0x4 * i, 0x0⟩
def FENCE_OWNER_REKEY (i : Nat) : Reg := ⟨0xA0420 + 0x4 * i, 0x0⟩
def FENCE_WIN_BASE_LO (w : Nat) : Reg := ⟨0xA1000 + 0x20 * w, 0x0⟩
def FENCE_WIN_BASE_HI (w : Nat) : Reg := ⟨0xA1004 + 0x20 * w, 0x0⟩
def FENCE_WIN_LIMIT_LO (w : Nat) : Reg := ⟨0xA1008 + 0x20 * w, 0x0⟩
def FENCE_WIN_LIMIT_HI (w : Nat) : Reg := ⟨0xA100C + 0x20 * w, 0x0⟩
def FENCE_WIN_CTRL (w : Nat) : Reg := ⟨0xA1010 + 0x20 * w, 0x0⟩

-- KINGPOST registers
def KINGPOST_BOOT_STATE : Reg := ⟨0xE0100, 0x0⟩
def KINGPOST_LIFECYCLE : Reg := ⟨0xE0104, 0x0⟩
def KINGPOST_UID (i : Nat) : Reg := ⟨0xE0110 + 0x4 * i, 0x0⟩
def KINGPOST_MEASURE (i : Nat) : Reg := ⟨0xE0120 + 0x4 * i, 0x0⟩
def KINGPOST_SVC_NONCE (i : Nat) : Reg := ⟨0xE0150 + 0x4 * i, 0x0⟩

-- YARD registers
def YARD_STATUS : Reg := ⟨0xB0000, 0x0⟩
def YARD_EVENTS : Reg := ⟨0xB0004, 0x0⟩
def YARD_TLC_WEAR : Reg := ⟨0xB0008, 0x0⟩
def YARD_PSLC_WEAR : Reg := ⟨0xB000C, 0x0⟩
def YARD_TLC_RESERVE : Reg := ⟨0xB0010, 0x2710⟩
def YARD_PSLC_RESERVE : Reg := ⟨0xB0014, 0x2710⟩
def YARD_NS_USED : Reg := ⟨0xB0018, 0x0⟩
def YARD_MODEL_USED : Reg := ⟨0xB001C, 0x0⟩
def YARD_HOST_READ : Reg := ⟨0xB0020, 0x0⟩
def YARD_HOST_WRITE : Reg := ⟨0xB0024, 0x0⟩
def YARD_PROG_TLC : Reg := ⟨0xB0028, 0x0⟩
def YARD_PROG_PSLC : Reg := ⟨0xB002C, 0x0⟩
def YARD_LDPC_RETRY : Reg := ⟨0xB0030, 0x0⟩
def YARD_LDPC_SOFT : Reg := ⟨0xB0034, 0x0⟩
def YARD_UNREADABLE : Reg := ⟨0xB0038, 0x0⟩
def YARD_RELOC_DISTURB : Reg := ⟨0xB003C, 0x0⟩
def YARD_RELOC_RETENTION : Reg := ⟨0xB0040, 0x0⟩
def YARD_RETIRED : Reg := ⟨0xB0044, 0x0⟩
def YARD_PROG_FAIL : Reg := ⟨0xB0048, 0x0⟩
def YARD_ERASE_FAIL : Reg := ⟨0xB004C, 0x0⟩
def YARD_TORN_DISCARDED : Reg := ⟨0xB0050, 0x0⟩
def YARD_MOUNT_MS : Reg := ⟨0xB0054, 0x0⟩
def YARD_PASS_AGE : Reg := ⟨0xB0058, 0x0⟩
def YARD_LAT_MAX : Reg := ⟨0xB005C, 0x0⟩

-- KINGPOST registers
def KINGPOST_SAFETY_STATE : Reg := ⟨0xE0000, 0x8⟩
def KINGPOST_FAULT_LATCH : Reg := ⟨0xE0004, 0x0⟩
def KINGPOST_FAULT_HOLD : Reg := ⟨0xE0008, 0x0⟩
def KINGPOST_SAFE_ENTRY_LO : Reg := ⟨0xE0010, 0x0⟩
def KINGPOST_SAFE_ENTRY_HI : Reg := ⟨0xE0014, 0x0⟩
def KINGPOST_SAFE_EXIT_LO : Reg := ⟨0xE0018, 0x0⟩
def KINGPOST_SAFE_EXIT_HI : Reg := ⟨0xE001C, 0x0⟩
def KINGPOST_SAFE_ENTRIES : Reg := ⟨0xE0020, 0x0⟩
def KINGPOST_ROTATION_LAST_LO : Reg := ⟨0xE0024, 0x0⟩
def KINGPOST_ROTATION_LAST_HI : Reg := ⟨0xE0028, 0x0⟩
def KINGPOST_ROTATION_FAIL : Reg := ⟨0xE002C, 0x0⟩
def KINGPOST_CHECKER_LATCH : Reg := ⟨0xE0030, 0x0⟩
def KINGPOST_DUAL_FAULTS (b : Nat) : Reg := ⟨0xE0040 + 0x4 * b, 0x0⟩
def KINGPOST_DUAL_NOAGREE : Reg := ⟨0xE0050, 0x0⟩
def KINGPOST_FOREMAN_RESTARTS : Reg := ⟨0xE0054, 0x0⟩
def KINGPOST_AUTH_CONFLICTS : Reg := ⟨0xE0058, 0x0⟩
def KINGPOST_LOCKSTEP : Reg := ⟨0xE005C, 0x0⟩
def KINGPOST_FAULT_COUNT (f : Nat) : Reg := ⟨0xE0080 + 0x4 * f, 0x0⟩

-- GOVERNOR registers
def GOVERNOR_CTRL : Reg := ⟨0xC0000, 0x80076⟩
def GOVERNOR_CAP : Reg := ⟨0xC0004, 0xA5A⟩
def GOVERNOR_CAP_REQ : Reg := ⟨0xC0008, 0x0⟩
def GOVERNOR_STATUS : Reg := ⟨0xC000C, 0x100⟩
def GOVERNOR_INPUT : Reg := ⟨0xC0010, 0x0⟩
def GOVERNOR_INPUT_MW : Reg := ⟨0xC0014, 0x0⟩
def GOVERNOR_TARGET_MW : Reg := ⟨0xC0018, 0x0⟩
def GOVERNOR_WINDOW_NUM : Reg := ⟨0xC001C, 0x0⟩
def GOVERNOR_WINDOW_MW : Reg := ⟨0xC0020, 0x0⟩
def GOVERNOR_WINDOW_E_LO : Reg := ⟨0xC0024, 0x0⟩
def GOVERNOR_WINDOW_E_HI : Reg := ⟨0xC0028, 0x0⟩
def GOVERNOR_EXCURSION : Reg := ⟨0xC002C, 0x2710⟩
def GOVERNOR_EXT_REQ : Reg := ⟨0xC0030, 0x0⟩
def GOVERNOR_PEAK_CLAMPS : Reg := ⟨0xC0034, 0x0⟩
def GOVERNOR_EXCURSION_CLAMPS : Reg := ⟨0xC0038, 0x0⟩
def GOVERNOR_CAP_UNMET : Reg := ⟨0xC003C, 0x0⟩
def GOVERNOR_THR_DUR_LO (i : Nat) : Reg := ⟨0xC0040 + 0x8 * i, 0x0⟩
def GOVERNOR_THR_DUR_HI (i : Nat) : Reg := ⟨0xC0044 + 0x8 * i, 0x0⟩
def GOVERNOR_RAIL_SEL : Reg := ⟨0xC0080, 0x0⟩
def GOVERNOR_RAIL_STATE : Reg := ⟨0xC0084, 0x0⟩
def GOVERNOR_RAIL_SCALE : Reg := ⟨0xC0088, 0x4000⟩
def GOVERNOR_DOMAIN_SEL : Reg := ⟨0xC0090, 0x0⟩
def GOVERNOR_DOMAIN_ENERGY_LO : Reg := ⟨0xC0094, 0x0⟩
def GOVERNOR_DOMAIN_ENERGY_HI : Reg := ⟨0xC0098, 0x0⟩
def GOVERNOR_BAY_MW (n : Nat) : Reg := ⟨0xC0100 + 0x20 * n, 0x0⟩
def GOVERNOR_BAY_CEIL (n : Nat) : Reg := ⟨0xC0104 + 0x20 * n, 0xFFFFFFFF⟩
def GOVERNOR_BAY_EXT (n : Nat) : Reg := ⟨0xC0108 + 0x20 * n, 0xFF⟩
def GOVERNOR_BAY_AGE (n : Nat) : Reg := ⟨0xC010C + 0x20 * n, 0x0⟩
def GOVERNOR_BAY_SHARE (n : Nat) : Reg := ⟨0xC0110 + 0x20 * n, 0x40⟩
def GOVERNOR_BAY_TJ_MAX (n : Nat) : Reg := ⟨0xC0114 + 0x20 * n, 0x0⟩
def GOVERNOR_SILL_AGE : Reg := ⟨0xC0180, 0x0⟩

-- RECORDER registers
def RECORDER_STATUS : Reg := ⟨0xD0000, 0x1⟩
def RECORDER_LIFE_S : Reg := ⟨0xD0004, 0x0⟩
def RECORDER_CYCLES : Reg := ⟨0xD0008, 0x1⟩
def RECORDER_PAGE_SEQ : Reg := ⟨0xD000C, 0x0⟩
def RECORDER_OLDEST_SEQ : Reg := ⟨0xD0010, 0x0⟩
def RECORDER_RATE : Reg := ⟨0xD0014, 0x10400104⟩
def RECORDER_COMMIT : Reg := ⟨0xD0018, 0x0⟩
def RECORDER_EVENTS : Reg := ⟨0xD001C, 0x0⟩
def RECORDER_HELD : Reg := ⟨0xD0020, 0x0⟩
def RECORDER_SKIPPED : Reg := ⟨0xD0024, 0x0⟩
def RECORDER_LAST_EVENT : Reg := ⟨0xD0028, 0x0⟩
def RECORDER_LAST_ARG : Reg := ⟨0xD002C, 0x0⟩

-- KINGPOST registers
def KINGPOST_POWER_STATE : Reg := ⟨0xE0200, 0x9623⟩
def KINGPOST_RESET_CAUSE : Reg := ⟨0xE0204, 0x1000⟩
def KINGPOST_SLOTS : Reg := ⟨0xE0208, 0x2⟩
def KINGPOST_CRASH_LO : Reg := ⟨0xE0210, 0x0⟩
def KINGPOST_CRASH_HI : Reg := ⟨0xE0214, 0x0⟩
def KINGPOST_CRASH_T_LO : Reg := ⟨0xE0218, 0x0⟩
def KINGPOST_CRASH_T_HI : Reg := ⟨0xE021C, 0x0⟩

-- SILL registers
def SILL_PROFILE : Reg := ⟨0x180, 0x0⟩

-- RIDGE registers
def RIDGE_SKEW_MAX : Reg := ⟨0x10060, 0x0⟩
def RIDGE_MARK_LATE : Reg := ⟨0x10064, 0x0⟩

/-- Ignored-write counter of block window `w`, given by its base (R27). -/
def BLOCK_IGNORED_WRITES (w : Nat) : Reg := ⟨w + 0xFFF8, 0⟩
/-- Address record of the last ignored write of block window `w` (R27, R28). -/
def BLOCK_IGNORED_ADDR (w : Nat) : Reg := ⟨w + 0xFFFC, 0⟩

def rowsSILL : List RegRow :=
  [ ⟨0x0, 0x0, 1, 0x0, 1, 0x7240B010, [⟨31, 16, .ro⟩, ⟨15, 8, .ro⟩, ⟨7, 4, .ro⟩, ⟨3, 0, .res⟩]⟩,
    ⟨0x8, 0x0, 1, 0x0, 1, 0x102FF, [⟨31, 24, .res⟩, ⟨23, 16, .ro⟩, ⟨15, 10, .res⟩, ⟨9, 8, .hwo⟩, ⟨7, 4, .hwo⟩, ⟨3, 0, .hwo⟩]⟩,
    ⟨0x100, 0x0, 1, 0x0, 1, 0x1B222E, [⟨31, 24, .res⟩, ⟨23, 16, .ro⟩, ⟨15, 8, .ro⟩, ⟨7, 0, .ro⟩]⟩,
    ⟨0x104, 0x0, 1, 0x0, 1, 0x0, [⟨31, 0, .ro⟩]⟩,
    ⟨0x108, 0x0, 1, 0x0, 1, 0x3F00, [⟨31, 0, .ro⟩]⟩,
    ⟨0x10C, 0x0, 1, 0x0, 1, 0x200, [⟨31, 16, .res⟩, ⟨15, 0, .hwo⟩]⟩,
    ⟨0x110, 0x0, 1, 0x0, 1, 0xF, [⟨31, 4, .res⟩, ⟨3, 0, .hwo⟩]⟩,
    ⟨0x120, 0x4, 4, 0x0, 1, 0x3E00, [⟨31, 24, .res⟩, ⟨23, 0, .hwo⟩]⟩,
    ⟨0x130, 0x4, 4, 0x0, 1, 0x6000, [⟨31, 16, .res⟩, ⟨15, 0, .hwo⟩]⟩,
    ⟨0x140, 0x0, 1, 0x0, 1, 0x10, [⟨31, 8, .res⟩, ⟨7, 0, .ro⟩]⟩,
    ⟨0x144, 0x0, 1, 0x0, 1, 0x0, [⟨31, 16, .res⟩, ⟨15, 0, .rc⟩]⟩,
    ⟨0x148, 0x0, 1, 0x0, 1, 0x0, [⟨31, 24, .res⟩, ⟨23, 0, .hwo⟩]⟩,
    ⟨0x14C, 0x0, 1, 0x0, 1, 0x0, [⟨31, 6, .res⟩, ⟨5, 0, .hwo⟩]⟩,
    ⟨0x180, 0x0, 1, 0x0, 1, 0x0, [⟨31, 16, .hwo⟩, ⟨15, 8, .hwo⟩, ⟨7, 3, .res⟩, ⟨2, 2, .hwo⟩, ⟨1, 1, .hwo⟩, ⟨0, 0, .hwo⟩]⟩ ]

def rowsRIDGE : List RegRow :=
  [ ⟨0x10008, 0x0, 1, 0x0, 1, 0x0, [⟨31, 0, .ro⟩]⟩,
    ⟨0x1000C, 0x0, 1, 0x0, 1, 0x0, [⟨31, 0, .ro⟩]⟩,
    ⟨0x10010, 0x0, 1, 0x0, 1, 0x0, [⟨31, 0, .ro⟩]⟩,
    ⟨0x10014, 0x0, 1, 0x0, 1, 0x0, [⟨31, 0, .rw⟩]⟩,
    ⟨0x10018, 0x0, 1, 0x0, 1, 0xA, [⟨31, 0, .rw⟩]⟩,
    ⟨0x10020, 0x0, 1, 0x0, 1, 0x0, [⟨31, 0, .wo⟩]⟩,
    ⟨0x10024, 0x0, 1, 0x0, 1, 0x0, [⟨31, 0, .wo⟩]⟩,
    ⟨0x10000, 0x0, 1, 0x0, 1, 0x4, [⟨31, 24, .res⟩, ⟨23, 16, .rw⟩, ⟨15, 12, .res⟩, ⟨11, 8, .rw⟩, ⟨7, 6, .res⟩, ⟨5, 4, .rw⟩, ⟨3, 3, .res⟩, ⟨2, 2, .rw⟩, ⟨1, 0, .rw⟩]⟩,
    ⟨0x10004, 0x0, 1, 0x0, 1, 0x20, [⟨31, 8, .res⟩, ⟨7, 7, .hwo⟩, ⟨6, 6, .hwo⟩, ⟨5, 5, .hwo⟩, ⟨4, 3, .res⟩, ⟨2, 0, .hwo⟩]⟩,
    ⟨0x10030, 0x0, 1, 0x0, 1, 0x50040, [⟨31, 16, .rw⟩, ⟨15, 0, .rw⟩]⟩,
    ⟨0x10034, 0x0, 1, 0x0, 1, 0x8030064, [⟨31, 24, .rw⟩, ⟨23, 16, .rw⟩, ⟨15, 0, .rw⟩]⟩,
    ⟨0x10038, 0x0, 1, 0x0, 1, 0x3E80064, [⟨31, 16, .rw⟩, ⟨15, 0, .rw⟩]⟩,
    ⟨0x1003C, 0x0, 1, 0x0, 1, 0x0, [⟨31, 0, .hwo⟩]⟩,
    ⟨0x10040, 0x0, 1, 0x0, 1, 0x0, [⟨31, 0, .hwo⟩]⟩,
    ⟨0x10044, 0x0, 1, 0x0, 1, 0x3C, [⟨31, 16, .hwo⟩, ⟨15, 0, .rw⟩]⟩,
    ⟨0x10050, 0x0, 1, 0x0, 1, 0x0, [⟨31, 0, .hwo⟩]⟩,
    ⟨0x10054, 0x0, 1, 0x0, 1, 0x0, [⟨31, 0, .hwo⟩]⟩,
    ⟨0x10058, 0x0, 1, 0x0, 1, 0x0, [⟨31, 0, .rc⟩]⟩,
    ⟨0x1005C, 0x0, 1, 0x0, 1, 0x64, [⟨31, 31, .rw⟩, ⟨30, 10, .res⟩, ⟨9, 0, .rw⟩]⟩,
    ⟨0x14000, 0x20, 1024, 0x0, 1, 0x0, [⟨31, 0, .rw⟩]⟩,
    ⟨0x14004, 0x20, 1024, 0x0, 1, 0x0, [⟨31, 0, .rw⟩]⟩,
    ⟨0x14008, 0x20, 1024, 0x0, 1, 0x0, [⟨31, 0, .rw⟩]⟩,
    ⟨0x1400C, 0x20, 1024, 0x0, 1, 0x0, [⟨31, 0, .rw⟩]⟩,
    ⟨0x14010, 0x20, 1024, 0x0, 1, 0x0, [⟨31, 0, .rw⟩]⟩,
    ⟨0x14014, 0x20, 1024, 0x0, 1, 0x0, [⟨31, 28, .rw⟩, ⟨27, 16, .rw⟩, ⟨15, 0, .rw⟩]⟩,
    ⟨0x14018, 0x20, 1024, 0x0, 1, 0x0, [⟨31, 31, .rw⟩, ⟨30, 29, .rw⟩, ⟨28, 24, .res⟩, ⟨23, 16, .hwo⟩, ⟨15, 0, .rw⟩]⟩,
    ⟨0x1401C, 0x20, 1024, 0x0, 1, 0x0, [⟨31, 30, .hwo⟩, ⟨29, 27, .hwo⟩, ⟨26, 16, .hwo⟩, ⟨15, 0, .hwo⟩]⟩,
    ⟨0x10070, 0x0, 1, 0x0, 1, 0x5F5E100, [⟨31, 0, .rw⟩]⟩,
    ⟨0x10074, 0x0, 1, 0x0, 1, 0x0, [⟨31, 16, .hwo⟩, ⟨15, 0, .hwo⟩]⟩,
    ⟨0x10078, 0x0, 1, 0x0, 1, 0x0, [⟨31, 0, .hwo⟩]⟩,
    ⟨0x1007C, 0x0, 1, 0x0, 1, 0x0, [⟨31, 0, .hwo⟩]⟩,
    ⟨0x10080, 0x0, 1, 0x0, 1, 0x3FFF, [⟨31, 14, .res⟩, ⟨13, 0, .hwo⟩]⟩,
    ⟨0x10084, 0x0, 1, 0x0, 1, 0x0, [⟨31, 14, .res⟩, ⟨13, 0, .hwo⟩]⟩,
    ⟨0x10088, 0x0, 1, 0x0, 1, 0x0, [⟨31, 31, .w1c⟩, ⟨30, 30, .w1c⟩, ⟨13, 0, .w1c⟩]⟩,
    ⟨0x10060, 0x0, 1, 0x0, 1, 0x0, [⟨15, 0, .rc⟩]⟩,
    ⟨0x10064, 0x0, 1, 0x0, 1, 0x0, [⟨31, 0, .rc⟩]⟩ ]

def rowsCAMIN : List RegRow :=
  [ ⟨0x20000, 0x0, 1, 0x0, 1, 0x0, [⟨15, 0, .hwo⟩]⟩,
    ⟨0x20004, 0x0, 1, 0x0, 1, 0x0, [⟨15, 0, .hwo⟩]⟩,
    ⟨0x20008, 0x0, 1, 0x0, 1, 0x5A1F40, [⟨31, 24, .res⟩, ⟨23, 16, .rw⟩, ⟨15, 0, .rw⟩]⟩,
    ⟨0x2000C, 0x0, 1, 0x0, 1, 0x0, [⟨15, 0, .hwo⟩]⟩,
    ⟨0x20010, 0x0, 1, 0x0, 1, 0x0, [⟨15, 0, .hwo⟩]⟩,
    ⟨0x20014, 0x0, 1, 0x0, 1, 0x0, [⟨31, 0, .rc⟩]⟩,
    ⟨0x20018, 0x0, 1, 0x0, 1, 0x0, [⟨31, 0, .rc⟩]⟩,
    ⟨0x21000, 0x100, 16, 0x0, 1, 0x98, [⟨31, 16, .rw⟩, ⟨15, 9, .res⟩, ⟨8, 8, .rw⟩, ⟨7, 7, .rw⟩, ⟨6, 6, .rw⟩, ⟨5, 3, .rw⟩, ⟨2, 1, .rw⟩, ⟨0, 0, .rw⟩]⟩,
    ⟨0x21004, 0x100, 16, 0x0, 1, 0x2580400, [⟨31, 26, .res⟩, ⟨25, 16, .rw⟩, ⟨15, 12, .res⟩, ⟨11, 8, .rw⟩, ⟨7, 3, .res⟩, ⟨2, 2, .rw⟩, ⟨1, 0, .rw⟩]⟩,
    ⟨0x21008, 0x100, 16, 0x0, 1, 0x0, [⟨31, 16, .hwo⟩, ⟨15, 6, .hwo⟩, ⟨5, 4, .hwo⟩, ⟨3, 3, .hwo⟩, ⟨2, 0, .hwo⟩]⟩,
    ⟨0x2100C, 0x100, 16, 0x0, 1, 0x0, [⟨31, 7, .res⟩, ⟨6, 0, .w1c⟩]⟩,
    ⟨0x21010, 0x100, 16, 0x0, 1, 0x0, [⟨31, 0, .rw⟩]⟩,
    ⟨0x21014, 0x100, 16, 0x0, 1, 0x0, [⟨31, 0, .rw⟩]⟩,
    ⟨0x21018, 0x100, 16, 0x0, 1, 0x0, [⟨31, 0, .rw⟩]⟩,
    ⟨0x2101C, 0x100, 16, 0x0, 1, 0xFFFF0000, [⟨31, 16, .rw⟩, ⟨15, 0, .rw⟩]⟩,
    ⟨0x21020, 0x100, 16, 0x0, 1, 0x2C, [⟨31, 22, .res⟩, ⟨21, 8, .rw⟩, ⟨7, 6, .rw⟩, ⟨5, 0, .rw⟩]⟩,
    ⟨0x21024, 0x100, 16, 0x0, 1, 0x1F40000, [⟨31, 16, .rw⟩, ⟨13, 0, .rw⟩]⟩,
    ⟨0x21028, 0x100, 16, 0x0, 1, 0x1400000, [⟨31, 29, .res⟩, ⟨28, 27, .rw⟩, ⟨26, 24, .rw⟩, ⟨23, 16, .rw⟩, ⟨15, 0, .rw⟩]⟩,
    ⟨0x2102C, 0x100, 16, 0x0, 1, 0x100000, [⟨31, 16, .rw⟩, ⟨15, 0, .rw⟩]⟩,
    ⟨0x21030, 0x100, 16, 0x0, 1, 0x0, [⟨31, 0, .rw⟩]⟩,
    ⟨0x21034, 0x100, 16, 0x0, 1, 0x0, [⟨31, 0, .rw⟩]⟩,
    ⟨0x21038, 0x100, 16, 0x0, 1, 0x0, [⟨31, 0, .rw⟩]⟩,
    ⟨0x2103C, 0x100, 16, 0x0, 1, 0x0, [⟨31, 24, .res⟩, ⟨23, 0, .rw⟩]⟩,
    ⟨0x21040, 0x100, 16, 0x0, 1, 0x0, [⟨31, 0, .rc⟩]⟩,
    ⟨0x21044, 0x100, 16, 0x0, 1, 0x0, [⟨31, 0, .rc⟩]⟩,
    ⟨0x21048, 0x100, 16, 0x0, 1, 0x0, [⟨31, 0, .rc⟩]⟩,
    ⟨0x2104C, 0x100, 16, 0x0, 1, 0x0, [⟨31, 0, .rc⟩]⟩,
    ⟨0x21050, 0x100, 16, 0x0, 1, 0x0, [⟨31, 16, .rc⟩, ⟨15, 0, .rc⟩]⟩,
    ⟨0x21054, 0x100, 16, 0x0, 1, 0x0, [⟨31, 0, .rc⟩]⟩,
    ⟨0x21058, 0x100, 16, 0x0, 1, 0x0, [⟨31, 0, .rc⟩]⟩,
    ⟨0x2105C, 0x100, 16, 0x0, 1, 0x0, [⟨31, 0, .rc⟩]⟩,
    ⟨0x21060, 0x100, 16, 0x0, 1, 0x0, [⟨31, 0, .rc⟩]⟩,
    ⟨0x21064, 0x100, 16, 0x0, 1, 0x0, [⟨31, 30, .res⟩, ⟨29, 20, .rc⟩, ⟨19, 10, .rc⟩, ⟨9, 0, .rc⟩]⟩,
    ⟨0x21068, 0x100, 16, 0x0, 1, 0x0, [⟨31, 16, .rc⟩, ⟨15, 0, .rc⟩]⟩,
    ⟨0x2106C, 0x100, 16, 0x0, 1, 0x0, [⟨31, 18, .res⟩, ⟨17, 16, .hwo⟩, ⟨15, 0, .hwo⟩]⟩,
    ⟨0x21070, 0x100, 16, 0x0, 1, 0x0, [⟨31, 0, .rc⟩]⟩ ]

def rowsNETIN1 : List RegRow :=
  [ ⟨0x31000, 0x100, 14, 0x0, 1, 0x10009, [⟨31, 28, .res⟩, ⟨27, 16, .rw⟩, ⟨15, 9, .res⟩, ⟨8, 6, .rw⟩, ⟨5, 5, .rw⟩, ⟨4, 4, .rw⟩, ⟨3, 3, .rw⟩, ⟨2, 1, .rw⟩, ⟨0, 0, .rw⟩]⟩,
    ⟨0x31004, 0x100, 14, 0x0, 1, 0x0, [⟨31, 7, .res⟩, ⟨6, 4, .hwo⟩, ⟨3, 3, .hwo⟩, ⟨2, 1, .hwo⟩, ⟨0, 0, .hwo⟩]⟩,
    ⟨0x31008, 0x100, 14, 0x0, 1, 0xFAC688, [⟨31, 24, .res⟩, ⟨23, 0, .rw⟩]⟩,
    ⟨0x3100C, 0x100, 14, 0x0, 1, 0x0, [⟨31, 8, .res⟩, ⟨7, 0, .rw⟩]⟩,
    ⟨0x31010, 0x100, 14, 0x4, 8, 0x0, [⟨31, 10, .res⟩, ⟨9, 0, .rw⟩]⟩,
    ⟨0x31030, 0x100, 14, 0x0, 1, 0x0, [⟨31, 0, .rc⟩]⟩,
    ⟨0x31034, 0x100, 14, 0x0, 1, 0x0, [⟨31, 0, .rc⟩]⟩,
    ⟨0x31038, 0x100, 14, 0x0, 1, 0x0, [⟨31, 0, .rc⟩]⟩,
    ⟨0x3103C, 0x100, 14, 0x0, 1, 0x0, [⟨31, 0, .rc⟩]⟩,
    ⟨0x31040, 0x100, 14, 0x0, 1, 0x0, [⟨31, 0, .rc⟩]⟩,
    ⟨0x31044, 0x100, 14, 0x0, 1, 0x0, [⟨31, 0, .rc⟩]⟩,
    ⟨0x31048, 0x100, 14, 0x0, 1, 0x0, [⟨31, 0, .rc⟩]⟩,
    ⟨0x31060, 0x100, 12, 0x0, 1, 0x1FF00, [⟨31, 25, .res⟩, ⟨24, 16, .rw⟩, ⟨15, 8, .rw⟩, ⟨7, 2, .res⟩, ⟨1, 1, .w1s⟩, ⟨0, 0, .rw⟩]⟩,
    ⟨0x31064, 0x100, 12, 0x0, 1, 0x0, [⟨31, 0, .rw⟩]⟩,
    ⟨0x31068, 0x100, 12, 0x0, 1, 0x0, [⟨31, 0, .rw⟩]⟩,
    ⟨0x3106C, 0x100, 12, 0x0, 1, 0xF4240, [⟨31, 0, .rw⟩]⟩,
    ⟨0x31070, 0x100, 12, 0x0, 1, 0x0, [⟨31, 0, .rw⟩]⟩,
    ⟨0x31074, 0x100, 12, 0x0, 1, 0x0, [⟨31, 0, .rw⟩]⟩,
    ⟨0x31078, 0x100, 12, 0x0, 1, 0xFF00, [⟨31, 25, .res⟩, ⟨24, 16, .hwo⟩, ⟨15, 8, .hwo⟩, ⟨7, 2, .res⟩, ⟨1, 1, .hwo⟩, ⟨0, 0, .hwo⟩]⟩,
    ⟨0x32000, 0x100, 8, 0x0, 1, 0xCCBA0004, [⟨31, 16, .rw⟩, ⟨15, 3, .res⟩, ⟨2, 2, .rw⟩, ⟨1, 1, .rw⟩, ⟨0, 0, .rw⟩]⟩,
    ⟨0x32004, 0x100, 8, 0x0, 1, 0x989680, [⟨31, 0, .rw⟩]⟩,
    ⟨0x32008, 0x100, 8, 0x0, 1, 0x0, [⟨31, 0, .rw⟩]⟩,
    ⟨0x3200C, 0x100, 8, 0x0, 1, 0x6407D0, [⟨31, 16, .rw⟩, ⟨15, 0, .rw⟩]⟩,
    ⟨0x32010, 0x100, 8, 0x0, 1, 0x1F40096, [⟨31, 16, .rw⟩, ⟨15, 0, .rw⟩]⟩,
    ⟨0x32014, 0x100, 8, 0x0, 1, 0x100000, [⟨31, 16, .rw⟩, ⟨15, 0, .rw⟩]⟩,
    ⟨0x32018, 0x100, 8, 0x0, 1, 0x0, [⟨31, 24, .res⟩, ⟨23, 0, .rw⟩]⟩,
    ⟨0x3201C, 0x100, 8, 0x0, 1, 0x0, [⟨31, 22, .res⟩, ⟨21, 21, .hwo⟩, ⟨20, 16, .hwo⟩, ⟨15, 0, .hwo⟩]⟩,
    ⟨0x32020, 0x100, 8, 0x0, 1, 0x0, [⟨31, 0, .rc⟩]⟩,
    ⟨0x32024, 0x100, 8, 0x0, 1, 0x0, [⟨31, 0, .rc⟩]⟩,
    ⟨0x32028, 0x100, 8, 0x0, 1, 0x0, [⟨31, 0, .rc⟩]⟩,
    ⟨0x3202C, 0x100, 8, 0x0, 1, 0x0, [⟨31, 0, .rc⟩]⟩,
    ⟨0x32030, 0x100, 8, 0x0, 1, 0x0, [⟨31, 0, .rc⟩]⟩,
    ⟨0x32034, 0x100, 8, 0x0, 1, 0x0, [⟨31, 0, .rc⟩]⟩,
    ⟨0x32038, 0x100, 8, 0x0, 1, 0x0, [⟨31, 16, .rc⟩, ⟨15, 0, .rc⟩]⟩,
    ⟨0x3203C, 0x100, 8, 0x0, 1, 0x0, [⟨31, 0, .rc⟩]⟩,
    ⟨0x32040, 0x100, 8, 0x0, 1, 0x0, [⟨31, 0, .rc⟩]⟩,
    ⟨0x30400, 0x100, 4, 0x0, 1, 0x212, [⟨31, 16, .res⟩, ⟨15, 12, .rw⟩, ⟨11, 8, .rw⟩, ⟨7, 5, .res⟩, ⟨4, 4, .rw⟩, ⟨3, 3, .rw⟩, ⟨2, 1, .rw⟩, ⟨0, 0, .rw⟩]⟩,
    ⟨0x30404, 0x100, 4, 0x0, 1, 0x3, [⟨31, 24, .res⟩, ⟨23, 16, .hwo⟩, ⟨15, 7, .hwo⟩, ⟨6, 2, .res⟩, ⟨1, 0, .hwo⟩]⟩,
    ⟨0x30408, 0x100, 4, 0x0, 1, 0x0, [⟨31, 0, .rc⟩]⟩,
    ⟨0x3040C, 0x100, 4, 0x0, 1, 0x0, [⟨31, 0, .rc⟩]⟩ ]

def rowsNETIN2 : List RegRow :=
  [ ⟨0x30410, 0x100, 4, 0x0, 1, 0x0, [⟨31, 0, .rc⟩]⟩,
    ⟨0x30414, 0x100, 4, 0x0, 1, 0x0, [⟨31, 0, .rc⟩]⟩,
    ⟨0x30000, 0x0, 1, 0x0, 1, 0x0, [⟨13, 0, .hwo⟩]⟩,
    ⟨0x30004, 0x0, 1, 0x0, 1, 0x0, [⟨31, 24, .res⟩, ⟨23, 0, .rw⟩]⟩,
    ⟨0x30008, 0x0, 1, 0x0, 1, 0x0, [⟨31, 16, .res⟩, ⟨15, 0, .rw⟩]⟩,
    ⟨0x3000C, 0x0, 1, 0x0, 1, 0x0, [⟨31, 0, .rc⟩]⟩,
    ⟨0x30010, 0x0, 1, 0x0, 1, 0x0, [⟨31, 0, .rc⟩]⟩,
    ⟨0x30014, 0x0, 1, 0x0, 1, 0x0, [⟨31, 0, .rc⟩]⟩,
    ⟨0x30018, 0x0, 1, 0x0, 1, 0x0, [⟨31, 0, .rc⟩]⟩,
    ⟨0x30020, 0x4, 8, 0x0, 1, 0x0, [⟨31, 0, .hwo⟩]⟩,
    ⟨0x30040, 0x0, 1, 0x0, 1, 0x0, [⟨31, 0, .rc⟩]⟩,
    ⟨0x30044, 0x0, 1, 0x0, 1, 0x0, [⟨31, 0, .rc⟩]⟩,
    ⟨0x30900, 0x0, 1, 0x0, 1, 0x16, [⟨31, 6, .res⟩, ⟨5, 4, .rw⟩, ⟨3, 2, .rw⟩, ⟨1, 0, .rw⟩]⟩,
    ⟨0x30904, 0x0, 1, 0x0, 1, 0x0, [⟨31, 4, .res⟩, ⟨3, 3, .hwo⟩, ⟨2, 2, .hwo⟩, ⟨1, 1, .hwo⟩, ⟨0, 0, .hwo⟩]⟩,
    ⟨0x30910, 0x0, 1, 0x0, 1, 0x40000000, [⟨31, 0, .rw⟩]⟩,
    ⟨0x30910, 0x4, 4, 0x0, 1, 0x0, [⟨31, 0, .rw⟩]⟩,
    ⟨0x30920, 0x4, 3, 0x0, 1, 0x0, [⟨31, 0, .rw⟩]⟩,
    ⟨0x30930, 0x0, 1, 0x0, 1, 0x643064, [⟨31, 16, .rw⟩, ⟨15, 12, .rw⟩, ⟨11, 10, .res⟩, ⟨9, 0, .rw⟩]⟩,
    ⟨0x30934, 0x0, 1, 0x0, 1, 0x32, [⟨31, 16, .res⟩, ⟨15, 0, .rw⟩]⟩,
    ⟨0x30938, 0x0, 1, 0x0, 1, 0x0, [⟨31, 16, .res⟩, ⟨15, 8, .hwo⟩, ⟨7, 5, .res⟩, ⟨4, 2, .hwo⟩, ⟨1, 1, .hwo⟩, ⟨0, 0, .hwo⟩]⟩,
    ⟨0x33000, 0x40, 32, 0x0, 1, 0x3000000, [⟨31, 24, .rw⟩, ⟨23, 19, .res⟩, ⟨18, 17, .rw⟩, ⟨16, 16, .rw⟩, ⟨15, 15, .rw⟩, ⟨14, 12, .rw⟩, ⟨11, 8, .rw⟩, ⟨7, 6, .rw⟩, ⟨5, 5, .rw⟩, ⟨4, 4, .rw⟩, ⟨3, 1, .rw⟩, ⟨0, 0, .rw⟩]⟩,
    ⟨0x33004, 0x40, 32, 0x0, 1, 0xFFFF0000, [⟨31, 16, .rw⟩, ⟨15, 0, .rw⟩]⟩,
    ⟨0x33008, 0x40, 32, 0x0, 1, 0x0, [⟨31, 0, .rw⟩]⟩,
    ⟨0x3300C, 0x40, 32, 0x0, 1, 0x5F5E100, [⟨31, 0, .rw⟩]⟩,
    ⟨0x33010, 0x40, 32, 0x0, 1, 0x0, [⟨31, 0, .rw⟩]⟩,
    ⟨0x33014, 0x40, 32, 0x0, 1, 0x0, [⟨31, 0, .rw⟩]⟩,
    ⟨0x33018, 0x40, 32, 0x0, 1, 0x1C9C380, [⟨31, 0, .rw⟩]⟩,
    ⟨0x3301C, 0x40, 32, 0x0, 1, 0x0, [⟨31, 0, .rw⟩]⟩,
    ⟨0x33020, 0x40, 32, 0x0, 1, 0x100, [⟨31, 17, .res⟩, ⟨16, 8, .rw⟩, ⟨7, 0, .rw⟩]⟩,
    ⟨0x33024, 0x40, 32, 0x0, 1, 0x0, [⟨31, 0, .rw⟩]⟩,
    ⟨0x33028, 0x40, 32, 0x0, 1, 0x0, [⟨31, 0, .rw⟩]⟩,
    ⟨0x3302C, 0x40, 32, 0x0, 1, 0x0, [⟨31, 0, .rw⟩]⟩,
    ⟨0x33030, 0x40, 32, 0x0, 1, 0x0, [⟨31, 16, .hwo⟩, ⟨15, 8, .hwo⟩, ⟨7, 4, .hwo⟩, ⟨3, 2, .res⟩, ⟨1, 0, .hwo⟩]⟩,
    ⟨0x33034, 0x40, 32, 0x0, 1, 0x0, [⟨31, 0, .rc⟩]⟩,
    ⟨0x33038, 0x40, 32, 0x0, 1, 0x0, [⟨31, 0, .rc⟩]⟩,
    ⟨0x3303C, 0x40, 32, 0x0, 1, 0x0, [⟨31, 16, .rc⟩, ⟨15, 0, .rc⟩]⟩,
    ⟨0x33800, 0x0, 1, 0x0, 1, 0xA00, [⟨31, 31, .w1s⟩, ⟨30, 16, .res⟩, ⟨15, 8, .rwl⟩, ⟨7, 4, .res⟩, ⟨3, 2, .rwl⟩, ⟨1, 1, .rwl⟩, ⟨0, 0, .rwl⟩]⟩,
    ⟨0x33804, 0x0, 1, 0x0, 1, 0x40000010, [⟨31, 0, .rwl⟩]⟩,
    ⟨0x33808, 0x0, 1, 0x0, 1, 0x0, [⟨31, 24, .res⟩, ⟨23, 16, .hwo⟩, ⟨15, 8, .hwo⟩, ⟨7, 3, .res⟩, ⟨2, 2, .hwo⟩, ⟨1, 1, .hwo⟩, ⟨0, 0, .hwo⟩]⟩,
    ⟨0x3380C, 0x0, 1, 0x0, 1, 0x0, [⟨31, 0, .hwo⟩]⟩ ]

def rowsNETIN3 : List RegRow :=
  [ ⟨0x33810, 0x0, 1, 0x0, 1, 0x0, [⟨31, 0, .hwo⟩]⟩,
    ⟨0x33814, 0x0, 1, 0x0, 1, 0x0, [⟨31, 0, .hwo⟩]⟩,
    ⟨0x33818, 0x0, 1, 0x0, 1, 0x0, [⟨31, 0, .rc⟩]⟩,
    ⟨0x38000, 0x8, 256, 0x800, 12, 0x0, [⟨7, 0, .rw⟩]⟩,
    ⟨0x38004, 0x8, 256, 0x800, 12, 0x0, [⟨31, 0, .rw⟩]⟩ ]

def rowsNETIN : List RegRow := rowsNETIN1 ++ rowsNETIN2 ++ rowsNETIN3

def rowsPLANER : List RegRow :=
  [ ⟨0x40000, 0x0, 1, 0x0, 1, 0x0, [⟨31, 0, .rw⟩]⟩,
    ⟨0x40004, 0x0, 1, 0x0, 1, 0x0, [⟨31, 0, .rw⟩]⟩,
    ⟨0x40008, 0x0, 1, 0x0, 1, 0x0, [⟨31, 3, .res⟩, ⟨2, 2, .hwo⟩, ⟨1, 1, .hwo⟩, ⟨0, 0, .hwo⟩]⟩,
    ⟨0x4000C, 0x0, 1, 0x0, 1, 0x0, [⟨31, 8, .res⟩, ⟨7, 7, .w1c⟩, ⟨6, 6, .w1c⟩, ⟨5, 5, .w1c⟩, ⟨4, 4, .w1c⟩, ⟨3, 3, .w1c⟩, ⟨2, 2, .w1c⟩, ⟨1, 1, .w1c⟩, ⟨0, 0, .w1c⟩]⟩,
    ⟨0x40010, 0x0, 1, 0x0, 1, 0x0, [⟨31, 25, .res⟩, ⟨24, 16, .hwo⟩, ⟨15, 8, .res⟩, ⟨7, 0, .hwo⟩]⟩,
    ⟨0x40014, 0x0, 1, 0x0, 1, 0x0, [⟨31, 0, .hwo⟩]⟩,
    ⟨0x40018, 0x0, 1, 0x0, 1, 0x0, [⟨31, 18, .res⟩, ⟨17, 16, .hwo⟩, ⟨15, 0, .hwo⟩]⟩,
    ⟨0x40020, 0x0, 1, 0x0, 1, 0x0, [⟨31, 0, .rw⟩]⟩,
    ⟨0x40024, 0x0, 1, 0x0, 1, 0x0, [⟨31, 0, .rw⟩]⟩,
    ⟨0x40028, 0x0, 1, 0x0, 1, 0x0, [⟨31, 0, .rw⟩]⟩,
    ⟨0x4002C, 0x0, 1, 0x0, 1, 0x0, [⟨31, 0, .rw⟩]⟩,
    ⟨0x40030, 0x0, 1, 0x0, 1, 0x0, [⟨31, 0, .rw⟩]⟩,
    ⟨0x40034, 0x0, 1, 0x0, 1, 0x0, [⟨31, 0, .rw⟩]⟩,
    ⟨0x40038, 0x0, 1, 0x0, 1, 0x0, [⟨31, 0, .rw⟩]⟩,
    ⟨0x4003C, 0x0, 1, 0x0, 1, 0x0, [⟨31, 0, .rw⟩]⟩,
    ⟨0x40040, 0x0, 1, 0x0, 1, 0x0, [⟨31, 0, .rw⟩]⟩,
    ⟨0x40044, 0x0, 1, 0x0, 1, 0x0, [⟨31, 0, .rw⟩]⟩,
    ⟨0x40048, 0x0, 1, 0x0, 1, 0x0, [⟨31, 0, .rw⟩]⟩,
    ⟨0x4004C, 0x0, 1, 0x0, 1, 0x0, [⟨31, 0, .rw⟩]⟩,
    ⟨0x40050, 0x0, 1, 0x0, 1, 0x0, [⟨31, 0, .rw⟩]⟩,
    ⟨0x40054, 0x0, 1, 0x0, 1, 0x0, [⟨31, 0, .rw⟩]⟩,
    ⟨0x40058, 0x0, 1, 0x0, 1, 0x0, [⟨31, 0, .rw⟩]⟩,
    ⟨0x4005C, 0x0, 1, 0x0, 1, 0x0, [⟨31, 0, .rw⟩]⟩,
    ⟨0x40060, 0x0, 1, 0x0, 1, 0x0, [⟨31, 25, .res⟩, ⟨24, 0, .rc⟩]⟩,
    ⟨0x40064, 0x0, 1, 0x0, 1, 0x0, [⟨31, 0, .rc⟩]⟩ ]

def rowsBAY1 : List RegRow :=
  [ ⟨0x100000, 0x40000, 4, 0x0, 1, 0xFFFFF, [⟨31, 20, .res⟩, ⟨19, 16, .hwo⟩, ⟨15, 0, .hwo⟩]⟩,
    ⟨0x100004, 0x40000, 4, 0x0, 1, 0x2D002D0, [⟨31, 26, .res⟩, ⟨25, 16, .hwo⟩, ⟨15, 10, .res⟩, ⟨9, 0, .rw⟩]⟩,
    ⟨0x100008, 0x40000, 4, 0x0, 1, 0x40FF, [⟨31, 31, .hwo⟩, ⟨30, 24, .res⟩, ⟨23, 8, .hwo⟩, ⟨7, 0, .hwo⟩]⟩,
    ⟨0x10000C, 0x40000, 4, 0x0, 1, 0x0, [⟨31, 0, .rc⟩]⟩,
    ⟨0x100010, 0x40000, 4, 0x8, 4, 0x0, [⟨31, 16, .res⟩, ⟨15, 0, .hwo⟩]⟩,
    ⟨0x100014, 0x40000, 4, 0x8, 4, 0x0, [⟨31, 16, .hwo⟩, ⟨15, 12, .res⟩, ⟨11, 0, .hwo⟩]⟩,
    ⟨0x100030, 0x40000, 4, 0x0, 1, 0x0, [⟨15, 0, .hwo⟩]⟩,
    ⟨0x100034, 0x40000, 4, 0x0, 1, 0x0, [⟨15, 0, .hwo⟩]⟩,
    ⟨0x100040, 0x40000, 4, 0x4, 16, 0x1F1F1F1F, [⟨28, 24, .hwo⟩, ⟨20, 16, .hwo⟩, ⟨12, 8, .hwo⟩, ⟨4, 0, .hwo⟩]⟩,
    ⟨0x100080, 0x40000, 4, 0x0, 1, 0x0, [⟨31, 0, .ro⟩]⟩,
    ⟨0x100084, 0x40000, 4, 0x0, 1, 0x0, [⟨31, 0, .ro⟩]⟩,
    ⟨0x100088, 0x40000, 4, 0x0, 1, 0x0, [⟨31, 0, .rc⟩]⟩,
    ⟨0x10008C, 0x40000, 4, 0x0, 1, 0x0, [⟨31, 0, .rc⟩]⟩,
    ⟨0x100090, 0x40000, 4, 0x0, 1, 0x0, [⟨31, 0, .rc⟩]⟩,
    ⟨0x100094, 0x40000, 4, 0x0, 1, 0x0, [⟨31, 0, .rc⟩]⟩,
    ⟨0x100098, 0x40000, 4, 0x0, 1, 0x0, [⟨31, 16, .rc⟩, ⟨15, 0, .rc⟩]⟩,
    ⟨0x10009C, 0x40000, 4, 0x0, 1, 0x0, [⟨31, 16, .res⟩, ⟨15, 0, .w1c⟩]⟩,
    ⟨0x1000A0, 0x40000, 4, 0x0, 1, 0x0, [⟨31, 0, .rc⟩]⟩,
    ⟨0x1000A4, 0x40000, 4, 0x0, 1, 0x0, [⟨31, 0, .hwo⟩]⟩,
    ⟨0x1000A8, 0x40000, 4, 0x0, 1, 0x0, [⟨31, 0, .hwo⟩]⟩,
    ⟨0x1000C0, 0x40000, 4, 0x0, 1, 0x0, [⟨31, 0, .rc⟩]⟩,
    ⟨0x1000C4, 0x40000, 4, 0x0, 1, 0x0, [⟨31, 0, .rc⟩]⟩,
    ⟨0x1000C8, 0x40000, 4, 0x0, 1, 0x0, [⟨31, 0, .rc⟩]⟩,
    ⟨0x1000CC, 0x40000, 4, 0x0, 1, 0x0, [⟨31, 0, .rc⟩]⟩,
    ⟨0x1000D0, 0x40000, 4, 0x0, 1, 0x0, [⟨31, 0, .rc⟩]⟩,
    ⟨0x110000, 0x40000, 4, 0x0, 1, 0x0, [⟨31, 16, .res⟩, ⟨15, 8, .hwo⟩, ⟨7, 2, .res⟩, ⟨1, 1, .hwo⟩, ⟨0, 0, .hwo⟩]⟩,
    ⟨0x110004, 0x40000, 4, 0x0, 1, 0x0, [⟨31, 0, .rc⟩]⟩,
    ⟨0x110008, 0x40000, 4, 0x0, 1, 0x0, [⟨31, 0, .rc⟩]⟩,
    ⟨0x11000C, 0x40000, 4, 0x0, 1, 0x0, [⟨31, 0, .rc⟩]⟩,
    ⟨0x110010, 0x40000, 4, 0x0, 1, 0x0, [⟨31, 0, .hwo⟩]⟩,
    ⟨0x110014, 0x40000, 4, 0x0, 1, 0x0, [⟨31, 0, .hwo⟩]⟩,
    ⟨0x110018, 0x40000, 4, 0x0, 1, 0x0, [⟨31, 0, .rc⟩]⟩,
    ⟨0x11001C, 0x40000, 4, 0x0, 1, 0x0, [⟨31, 0, .rc⟩]⟩,
    ⟨0x110020, 0x40000, 4, 0x0, 1, 0x0, [⟨31, 0, .rc⟩]⟩,
    ⟨0x110024, 0x40000, 4, 0x0, 1, 0x0, [⟨31, 0, .hwo⟩]⟩,
    ⟨0x110028, 0x40000, 4, 0x0, 1, 0x0, [⟨31, 0, .hwo⟩]⟩,
    ⟨0x11002C, 0x40000, 4, 0x0, 1, 0xA1803, [⟨31, 16, .rw⟩, ⟨15, 8, .rw⟩, ⟨7, 2, .res⟩, ⟨1, 1, .rw⟩, ⟨0, 0, .rw⟩]⟩,
    ⟨0x110030, 0x40000, 4, 0x0, 1, 0x0, [⟨31, 16, .rc⟩, ⟨15, 0, .rc⟩]⟩,
    ⟨0x110034, 0x40000, 4, 0x0, 1, 0x0, [⟨31, 5, .res⟩, ⟨4, 4, .w1c⟩, ⟨3, 3, .w1c⟩, ⟨2, 2, .w1c⟩, ⟨1, 1, .w1c⟩, ⟨0, 0, .w1c⟩]⟩,
    ⟨0x110040, 0x40000, 4, 0x0, 1, 0x7, [⟨31, 12, .res⟩, ⟨11, 8, .hwo⟩, ⟨7, 3, .res⟩, ⟨2, 2, .hwo⟩, ⟨1, 1, .hwo⟩, ⟨0, 0, .hwo⟩]⟩ ]

def rowsBAY2 : List RegRow :=
  [ ⟨0x110044, 0x40000, 4, 0x0, 1, 0x0, [⟨31, 0, .rc⟩]⟩,
    ⟨0x110048, 0x40000, 4, 0x0, 1, 0x0, [⟨31, 0, .rc⟩]⟩,
    ⟨0x11004C, 0x40000, 4, 0x0, 1, 0x0, [⟨31, 24, .hwo⟩, ⟨23, 16, .hwo⟩, ⟨15, 8, .hwo⟩, ⟨7, 0, .hwo⟩]⟩ ]

def rowsBAY : List RegRow := rowsBAY1 ++ rowsBAY2

def rowsSCRIBE : List RegRow :=
  [ ⟨0x80000, 0x0, 1, 0x0, 1, 0x1, [⟨31, 1, .res⟩, ⟨0, 0, .rw⟩]⟩,
    ⟨0x80004, 0x0, 1, 0x0, 1, 0x0, [⟨31, 16, .res⟩, ⟨15, 12, .hwo⟩, ⟨11, 9, .res⟩, ⟨8, 0, .hwo⟩]⟩,
    ⟨0x80008, 0x0, 1, 0x0, 1, 0x2710, [⟨31, 24, .res⟩, ⟨23, 0, .rw⟩]⟩,
    ⟨0x80010, 0x10, 4, 0x0, 1, 0x0, [⟨31, 0, .rw⟩]⟩,
    ⟨0x80014, 0x10, 4, 0x0, 1, 0x0, [⟨31, 0, .rw⟩]⟩,
    ⟨0x80018, 0x10, 4, 0x0, 1, 0x0, [⟨31, 0, .rw⟩]⟩,
    ⟨0x8001C, 0x10, 4, 0x0, 1, 0x0, [⟨31, 0, .hwo⟩]⟩,
    ⟨0x80050, 0x0, 1, 0x0, 1, 0x0, [⟨31, 16, .res⟩, ⟨15, 0, .rw⟩]⟩,
    ⟨0x80054, 0x0, 1, 0x0, 1, 0x0, [⟨31, 0, .ro⟩]⟩,
    ⟨0x80058, 0x0, 1, 0x0, 1, 0x0, [⟨31, 0, .ro⟩]⟩,
    ⟨0x8005C, 0x0, 1, 0x0, 1, 0x0, [⟨31, 30, .wo⟩, ⟨29, 0, .wo⟩]⟩,
    ⟨0x80060, 0x0, 1, 0x0, 1, 0x0, [⟨31, 16, .hwo⟩, ⟨15, 8, .hwo⟩, ⟨7, 2, .res⟩, ⟨1, 1, .hwo⟩, ⟨0, 0, .hwo⟩]⟩,
    ⟨0x80064, 0x0, 1, 0x0, 1, 0x0, [⟨31, 0, .rw⟩]⟩,
    ⟨0x80068, 0x0, 1, 0x0, 1, 0x0, [⟨31, 0, .rw⟩]⟩,
    ⟨0x80070, 0x0, 1, 0x0, 1, 0x0, [⟨31, 24, .res⟩, ⟨23, 0, .rw⟩]⟩,
    ⟨0x80074, 0x0, 1, 0x0, 1, 0x0, [⟨31, 16, .hwo⟩, ⟨15, 8, .hwo⟩, ⟨7, 7, .res⟩, ⟨6, 2, .hwo⟩, ⟨1, 1, .hwo⟩, ⟨0, 0, .hwo⟩]⟩,
    ⟨0x80078, 0x0, 1, 0x0, 1, 0x0, [⟨31, 0, .hwo⟩]⟩,
    ⟨0x8007C, 0x0, 1, 0x0, 1, 0x0, [⟨31, 0, .hwo⟩]⟩,
    ⟨0x80080, 0x0, 1, 0x0, 1, 0x0, [⟨31, 0, .rc⟩]⟩,
    ⟨0x80084, 0x0, 1, 0x0, 1, 0x0, [⟨31, 0, .rc⟩]⟩,
    ⟨0x80088, 0x0, 1, 0x0, 1, 0x0, [⟨31, 0, .rc⟩]⟩,
    ⟨0x8008C, 0x0, 1, 0x0, 1, 0x0, [⟨31, 0, .rc⟩]⟩,
    ⟨0x80090, 0x0, 1, 0x0, 1, 0x0, [⟨31, 0, .rc⟩]⟩,
    ⟨0x80094, 0x0, 1, 0x0, 1, 0x0, [⟨31, 0, .rc⟩]⟩,
    ⟨0x80098, 0x0, 1, 0x0, 1, 0x0, [⟨31, 0, .rc⟩]⟩,
    ⟨0x8009C, 0x0, 1, 0x0, 1, 0x0, [⟨31, 0, .rc⟩]⟩,
    ⟨0x800A0, 0x0, 1, 0x0, 1, 0x0, [⟨31, 0, .rc⟩]⟩,
    ⟨0x800A4, 0x0, 1, 0x0, 1, 0x0, [⟨31, 0, .rc⟩]⟩,
    ⟨0x800A8, 0x0, 1, 0x0, 1, 0x0, [⟨31, 0, .rc⟩]⟩,
    ⟨0x800AC, 0x0, 1, 0x0, 1, 0x0, [⟨31, 0, .rc⟩]⟩,
    ⟨0x800B0, 0x0, 1, 0x0, 1, 0x0, [⟨31, 0, .rc⟩]⟩,
    ⟨0x800B4, 0x0, 1, 0x0, 1, 0x0, [⟨31, 0, .rc⟩]⟩,
    ⟨0x800B8, 0x0, 1, 0x0, 1, 0x0, [⟨31, 0, .rc⟩]⟩,
    ⟨0x800BC, 0x0, 1, 0x0, 1, 0x0, [⟨31, 24, .res⟩, ⟨23, 0, .hwo⟩]⟩,
    ⟨0x800C0, 0x4, 11, 0x0, 1, 0x0, [⟨31, 0, .hwo⟩]⟩,
    ⟨0x800F0, 0x0, 1, 0x0, 1, 0x0, [⟨31, 0, .rc⟩]⟩,
    ⟨0x80100, 0x4, 16, 0x0, 1, 0x0, [⟨31, 0, .hwo⟩]⟩,
    ⟨0x80140, 0x0, 1, 0x0, 1, 0x0, [⟨31, 31, .hwo⟩, ⟨30, 16, .res⟩, ⟨15, 0, .hwo⟩]⟩ ]

def rowsRAFT : List RegRow :=
  [ ⟨0x50000, 0x0, 1, 0x0, 1, 0x0, [⟨31, 0, .rw⟩]⟩,
    ⟨0x50004, 0x0, 1, 0x0, 1, 0x0, [⟨31, 0, .rw⟩]⟩,
    ⟨0x50008, 0x0, 1, 0x0, 1, 0x0, [⟨31, 3, .res⟩, ⟨2, 2, .hwo⟩, ⟨1, 1, .hwo⟩, ⟨0, 0, .hwo⟩]⟩,
    ⟨0x5000C, 0x0, 1, 0x0, 1, 0x0, [⟨31, 8, .res⟩, ⟨7, 7, .w1c⟩, ⟨6, 6, .w1c⟩, ⟨5, 5, .w1c⟩, ⟨4, 4, .w1c⟩, ⟨3, 3, .w1c⟩, ⟨2, 2, .w1c⟩, ⟨1, 1, .w1c⟩, ⟨0, 0, .w1c⟩]⟩,
    ⟨0x50010, 0x0, 1, 0x0, 1, 0x0, [⟨31, 28, .res⟩, ⟨27, 16, .hwo⟩, ⟨15, 9, .res⟩, ⟨8, 8, .hwo⟩, ⟨7, 0, .hwo⟩]⟩,
    ⟨0x50014, 0x0, 1, 0x0, 1, 0x0, [⟨31, 18, .res⟩, ⟨17, 16, .hwo⟩, ⟨15, 0, .hwo⟩]⟩,
    ⟨0x50018, 0x0, 1, 0x0, 1, 0x0, [⟨31, 0, .rw⟩]⟩,
    ⟨0x5001C, 0x0, 1, 0x0, 1, 0x0, [⟨31, 0, .rw⟩]⟩,
    ⟨0x50020, 0x0, 1, 0x0, 1, 0x0, [⟨31, 0, .rw⟩]⟩,
    ⟨0x50024, 0x0, 1, 0x0, 1, 0x0, [⟨31, 0, .rw⟩]⟩,
    ⟨0x50028, 0x0, 1, 0x0, 1, 0x0, [⟨31, 0, .rw⟩]⟩,
    ⟨0x5002C, 0x0, 1, 0x0, 1, 0x0, [⟨31, 0, .rw⟩]⟩,
    ⟨0x50030, 0x0, 1, 0x0, 1, 0x0, [⟨31, 0, .rw⟩]⟩,
    ⟨0x50034, 0x0, 1, 0x0, 1, 0x0, [⟨31, 0, .rw⟩]⟩,
    ⟨0x50038, 0x0, 1, 0x0, 1, 0x0, [⟨31, 0, .rw⟩]⟩,
    ⟨0x5003C, 0x0, 1, 0x0, 1, 0x0, [⟨31, 0, .rw⟩]⟩,
    ⟨0x50040, 0x0, 1, 0x0, 1, 0x0, [⟨31, 0, .rw⟩]⟩,
    ⟨0x50044, 0x0, 1, 0x0, 1, 0x0, [⟨31, 0, .rw⟩]⟩,
    ⟨0x50048, 0x0, 1, 0x0, 1, 0x0, [⟨31, 0, .rc⟩]⟩,
    ⟨0x5004C, 0x0, 1, 0x0, 1, 0x0, [⟨31, 19, .res⟩, ⟨18, 0, .rc⟩]⟩ ]

def rowsLEDGER : List RegRow :=
  [ ⟨0x90000, 0x0, 1, 0x0, 1, 0x1, [⟨31, 1, .res⟩, ⟨0, 0, .rw⟩]⟩,
    ⟨0x90004, 0x0, 1, 0x0, 1, 0x0, [⟨31, 16, .res⟩, ⟨15, 8, .hwo⟩, ⟨7, 7, .res⟩, ⟨6, 0, .hwo⟩]⟩,
    ⟨0x90008, 0x0, 1, 0x0, 1, 0x0, [⟨31, 15, .res⟩, ⟨14, 0, .hwo⟩]⟩,
    ⟨0x9000C, 0x0, 1, 0x0, 1, 0x0, [⟨31, 23, .res⟩, ⟨22, 0, .hwo⟩]⟩,
    ⟨0x90010, 0x0, 1, 0x0, 1, 0x0, [⟨31, 6, .res⟩, ⟨5, 5, .w1c⟩, ⟨4, 4, .w1c⟩, ⟨3, 3, .w1c⟩, ⟨2, 2, .w1c⟩, ⟨1, 1, .w1c⟩, ⟨0, 0, .w1c⟩]⟩,
    ⟨0x90014, 0x0, 1, 0x0, 1, 0x0, [⟨31, 6, .res⟩, ⟨5, 0, .rw⟩]⟩,
    ⟨0x90018, 0x0, 1, 0x0, 1, 0x0, [⟨31, 21, .res⟩, ⟨20, 0, .hwo⟩]⟩,
    ⟨0x9001C, 0x0, 1, 0x0, 1, 0x0, [⟨31, 23, .res⟩, ⟨22, 0, .hwo⟩]⟩,
    ⟨0x90020, 0x0, 1, 0x0, 1, 0x0, [⟨15, 0, .rw⟩]⟩,
    ⟨0x90024, 0x0, 1, 0x0, 1, 0x0, [⟨31, 0, .ro⟩]⟩,
    ⟨0x90028, 0x0, 1, 0x0, 1, 0x0, [⟨31, 0, .ro⟩]⟩,
    ⟨0x9002C, 0x0, 1, 0x0, 1, 0x0, [⟨31, 16, .hwo⟩, ⟨15, 10, .res⟩, ⟨9, 4, .hwo⟩, ⟨3, 3, .hwo⟩, ⟨2, 2, .hwo⟩, ⟨1, 0, .hwo⟩]⟩,
    ⟨0x90030, 0x0, 1, 0x0, 1, 0x0, [⟨31, 0, .rc⟩]⟩,
    ⟨0x90034, 0x0, 1, 0x0, 1, 0x0, [⟨31, 0, .rc⟩]⟩,
    ⟨0x90038, 0x0, 1, 0x0, 1, 0x0, [⟨31, 0, .rc⟩]⟩,
    ⟨0x9003C, 0x0, 1, 0x0, 1, 0x0, [⟨31, 0, .rc⟩]⟩,
    ⟨0x90040, 0x0, 1, 0x0, 1, 0x0, [⟨31, 0, .rc⟩]⟩,
    ⟨0x90044, 0x0, 1, 0x0, 1, 0x0, [⟨31, 0, .rc⟩]⟩,
    ⟨0x90048, 0x0, 1, 0x0, 1, 0x0, [⟨31, 0, .rc⟩]⟩,
    ⟨0x9004C, 0x0, 1, 0x0, 1, 0x0, [⟨31, 0, .rc⟩]⟩,
    ⟨0x90050, 0x0, 1, 0x0, 1, 0x0, [⟨31, 0, .rc⟩]⟩,
    ⟨0x90054, 0x0, 1, 0x0, 1, 0x0, [⟨31, 0, .rc⟩]⟩,
    ⟨0x90058, 0x0, 1, 0x0, 1, 0x0, [⟨31, 0, .rc⟩]⟩,
    ⟨0x9005C, 0x0, 1, 0x0, 1, 0x0, [⟨31, 0, .rc⟩]⟩,
    ⟨0x90060, 0x0, 1, 0x0, 1, 0x0, [⟨31, 0, .rc⟩]⟩,
    ⟨0x90080, 0x8, 4, 0x0, 1, 0x0, [⟨31, 0, .rc⟩]⟩,
    ⟨0x90084, 0x8, 4, 0x0, 1, 0x0, [⟨31, 0, .rc⟩]⟩ ]

def rowsPLUMB : List RegRow :=
  [ ⟨0x60000, 0x0, 1, 0x0, 1, 0x1, [⟨31, 1, .res⟩, ⟨0, 0, .rw⟩]⟩,
    ⟨0x60004, 0x0, 1, 0x0, 1, 0x0, [⟨31, 16, .res⟩, ⟨15, 8, .hwo⟩, ⟨7, 2, .hwo⟩, ⟨1, 1, .hwo⟩, ⟨0, 0, .hwo⟩]⟩,
    ⟨0x60008, 0x0, 1, 0x0, 1, 0x0, [⟨31, 6, .res⟩, ⟨5, 5, .w1c⟩, ⟨4, 4, .w1c⟩, ⟨3, 3, .w1c⟩, ⟨2, 2, .w1c⟩, ⟨1, 1, .w1c⟩, ⟨0, 0, .w1c⟩]⟩,
    ⟨0x6000C, 0x0, 1, 0x0, 1, 0x0, [⟨31, 24, .res⟩, ⟨23, 16, .hwo⟩, ⟨15, 0, .hwo⟩]⟩,
    ⟨0x60010, 0x0, 1, 0x0, 1, 0x0, [⟨31, 6, .res⟩, ⟨5, 0, .rw⟩]⟩,
    ⟨0x60014, 0x0, 1, 0x0, 1, 0x0, [⟨31, 16, .res⟩, ⟨15, 8, .hwo⟩, ⟨7, 4, .res⟩, ⟨3, 1, .hwo⟩, ⟨0, 0, .hwo⟩]⟩,
    ⟨0x60018, 0x0, 1, 0x0, 1, 0x0, [⟨31, 16, .hwo⟩, ⟨15, 0, .hwo⟩]⟩,
    ⟨0x60020, 0x0, 1, 0x0, 1, 0x0, [⟨31, 0, .rc⟩]⟩,
    ⟨0x60024, 0x0, 1, 0x0, 1, 0x0, [⟨31, 0, .rc⟩]⟩,
    ⟨0x60028, 0x0, 1, 0x0, 1, 0x0, [⟨31, 0, .rc⟩]⟩,
    ⟨0x6002C, 0x0, 1, 0x0, 1, 0x0, [⟨31, 0, .rc⟩]⟩,
    ⟨0x60030, 0x0, 1, 0x0, 1, 0x0, [⟨31, 0, .rc⟩]⟩,
    ⟨0x60034, 0x0, 1, 0x0, 1, 0x0, [⟨31, 0, .rc⟩]⟩,
    ⟨0x60038, 0x0, 1, 0x0, 1, 0x0, [⟨31, 0, .rc⟩]⟩,
    ⟨0x6003C, 0x0, 1, 0x0, 1, 0x0, [⟨31, 0, .rc⟩]⟩,
    ⟨0x60040, 0x0, 1, 0x0, 1, 0x0, [⟨31, 0, .rc⟩]⟩,
    ⟨0x60044, 0x0, 1, 0x0, 1, 0x0, [⟨31, 0, .rc⟩]⟩,
    ⟨0x60048, 0x0, 1, 0x0, 1, 0x0, [⟨31, 0, .rc⟩]⟩,
    ⟨0x6004C, 0x0, 1, 0x0, 1, 0x0, [⟨31, 0, .rc⟩]⟩,
    ⟨0x60050, 0x0, 1, 0x0, 1, 0x7FFFFFFF, [⟨31, 0, .rc⟩]⟩ ]

def rowsTALLY : List RegRow :=
  [ ⟨0x70000, 0x0, 1, 0x0, 1, 0x1, [⟨31, 1, .res⟩, ⟨0, 0, .rw⟩]⟩,
    ⟨0x70004, 0x0, 1, 0x0, 1, 0x0, [⟨31, 0, .rw⟩]⟩,
    ⟨0x70008, 0x0, 1, 0x0, 1, 0x0, [⟨31, 0, .rw⟩]⟩,
    ⟨0x7000C, 0x0, 1, 0x0, 1, 0x0, [⟨31, 4, .res⟩, ⟨3, 3, .hwo⟩, ⟨2, 2, .hwo⟩, ⟨1, 1, .hwo⟩, ⟨0, 0, .hwo⟩]⟩,
    ⟨0x70010, 0x0, 1, 0x0, 1, 0x0, [⟨31, 7, .res⟩, ⟨6, 6, .w1c⟩, ⟨5, 5, .w1c⟩, ⟨4, 4, .w1c⟩, ⟨3, 3, .w1c⟩, ⟨2, 2, .w1c⟩, ⟨1, 1, .w1c⟩, ⟨0, 0, .w1c⟩]⟩,
    ⟨0x70014, 0x0, 1, 0x0, 1, 0x0, [⟨31, 17, .res⟩, ⟨16, 16, .hwo⟩, ⟨15, 0, .hwo⟩]⟩,
    ⟨0x70018, 0x0, 1, 0x0, 1, 0x0, [⟨31, 29, .hwo⟩, ⟨28, 16, .hwo⟩, ⟨15, 13, .res⟩, ⟨12, 0, .hwo⟩]⟩,
    ⟨0x7001C, 0x0, 1, 0x0, 1, 0x1, [⟨31, 0, .hwo⟩]⟩,
    ⟨0x70020, 0x0, 1, 0x0, 1, 0x0, [⟨31, 18, .res⟩, ⟨17, 16, .hwo⟩, ⟨15, 0, .hwo⟩]⟩,
    ⟨0x70030, 0x0, 1, 0x0, 1, 0x0, [⟨31, 0, .rc⟩]⟩,
    ⟨0x70034, 0x0, 1, 0x0, 1, 0x0, [⟨31, 0, .rc⟩]⟩,
    ⟨0x70038, 0x0, 1, 0x0, 1, 0x0, [⟨31, 0, .rc⟩]⟩,
    ⟨0x7003C, 0x0, 1, 0x0, 1, 0x0, [⟨31, 0, .rc⟩]⟩,
    ⟨0x70040, 0x0, 1, 0x0, 1, 0x0, [⟨31, 0, .rc⟩]⟩,
    ⟨0x70044, 0x0, 1, 0x0, 1, 0x0, [⟨31, 0, .rc⟩]⟩,
    ⟨0x70048, 0x0, 1, 0x0, 1, 0x0, [⟨31, 0, .rc⟩]⟩,
    ⟨0x7004C, 0x0, 1, 0x0, 1, 0x0, [⟨31, 0, .rc⟩]⟩,
    ⟨0x70050, 0x0, 1, 0x0, 1, 0x0, [⟨31, 0, .rc⟩]⟩,
    ⟨0x70054, 0x0, 1, 0x0, 1, 0x0, [⟨31, 0, .rc⟩]⟩,
    ⟨0x70058, 0x0, 1, 0x0, 1, 0x0, [⟨31, 0, .rc⟩]⟩,
    ⟨0x7005C, 0x0, 1, 0x0, 1, 0x0, [⟨31, 0, .rc⟩]⟩,
    ⟨0x70060, 0x0, 1, 0x0, 1, 0x0, [⟨31, 0, .rc⟩]⟩ ]

def rowsMB : List RegRow :=
  [ ⟨0x200000, 0x1000, 64, 0x0, 1, 0x0, [⟨31, 16, .res⟩, ⟨15, 0, .wo⟩]⟩,
    ⟨0x200004, 0x1000, 64, 0x0, 1, 0x0, [⟨31, 16, .res⟩, ⟨15, 0, .hwo⟩]⟩,
    ⟨0x200008, 0x1000, 64, 0x0, 1, 0x0, [⟨31, 16, .res⟩, ⟨15, 0, .w1c⟩]⟩,
    ⟨0x20000C, 0x1000, 64, 0x0, 1, 0x3, [⟨31, 2, .res⟩, ⟨1, 1, .rw⟩, ⟨0, 0, .rw⟩]⟩,
    ⟨0x200010, 0x1000, 64, 0x0, 1, 0x0, [⟨31, 16, .hwo⟩, ⟨15, 8, .hwo⟩, ⟨7, 3, .res⟩, ⟨2, 2, .hwo⟩, ⟨1, 1, .hwo⟩, ⟨0, 0, .hwo⟩]⟩,
    ⟨0x200014, 0x1000, 64, 0x0, 1, 0x0, [⟨31, 6, .res⟩, ⟨5, 5, .w1c⟩, ⟨4, 4, .w1c⟩, ⟨3, 3, .w1c⟩, ⟨2, 2, .w1c⟩, ⟨1, 1, .w1c⟩, ⟨0, 0, .w1c⟩]⟩,
    ⟨0x200018, 0x1000, 64, 0x0, 1, 0x0, [⟨31, 0, .hwo⟩]⟩,
    ⟨0x20001C, 0x1000, 64, 0x0, 1, 0x0, [⟨31, 0, .hwo⟩]⟩,
    ⟨0x200020, 0x1000, 64, 0x0, 1, 0x0, [⟨31, 0, .ro⟩]⟩,
    ⟨0x200024, 0x1000, 64, 0x0, 1, 0x0, [⟨31, 0, .ro⟩]⟩,
    ⟨0x200028, 0x1000, 64, 0x0, 1, 0x0, [⟨31, 0, .rc⟩]⟩,
    ⟨0x20002C, 0x1000, 64, 0x0, 1, 0x0, [⟨31, 0, .rc⟩]⟩ ]

def rowsFENCE : List RegRow :=
  [ ⟨0xA0000, 0x0, 1, 0x0, 1, 0x0, [⟨31, 5, .res⟩, ⟨4, 4, .w1s⟩, ⟨3, 3, .w1s⟩, ⟨2, 2, .w1s⟩, ⟨1, 1, .w1s⟩, ⟨0, 0, .w1s⟩]⟩,
    ⟨0xA0004, 0x0, 1, 0x0, 1, 0x0, [⟨31, 5, .res⟩, ⟨4, 3, .hwo⟩, ⟨2, 2, .hwo⟩, ⟨1, 1, .hwo⟩, ⟨0, 0, .hwo⟩]⟩,
    ⟨0xA0008, 0x0, 1, 0x0, 1, 0x0, [⟨31, 10, .res⟩, ⟨9, 8, .wo⟩, ⟨7, 0, .wo⟩]⟩,
    ⟨0xA000C, 0x0, 1, 0x0, 1, 0x0, [⟨31, 0, .rc⟩]⟩,
    ⟨0xA0010, 0x0, 1, 0x0, 1, 0x0, [⟨31, 31, .w1c⟩, ⟨30, 12, .res⟩, ⟨11, 9, .res⟩, ⟨8, 8, .hwo⟩, ⟨7, 0, .hwo⟩]⟩,
    ⟨0xA0014, 0x0, 1, 0x0, 1, 0x0, [⟨31, 0, .hwo⟩]⟩,
    ⟨0xA0018, 0x0, 1, 0x0, 1, 0x0, [⟨31, 0, .hwo⟩]⟩,
    ⟨0xA001C, 0x0, 1, 0x0, 1, 0x0, [⟨31, 0, .rc⟩]⟩,
    ⟨0xA0020, 0x0, 1, 0x0, 1, 0x0, [⟨31, 15, .res⟩, ⟨14, 0, .hwo⟩]⟩,
    ⟨0xA0100, 0x4, 64, 0x0, 1, 0x0, [⟨31, 16, .hwo⟩, ⟨15, 8, .hwo⟩, ⟨7, 4, .res⟩, ⟨3, 3, .hwo⟩, ⟨2, 2, .hwo⟩, ⟨1, 1, .hwo⟩, ⟨0, 0, .hwo⟩]⟩,
    ⟨0xA0400, 0x4, 8, 0x0, 1, 0x0, [⟨31, 0, .wo⟩]⟩,
    ⟨0xA0420, 0x4, 8, 0x0, 1, 0x0, [⟨31, 0, .wo⟩]⟩,
    ⟨0xA1000, 0x20, 256, 0x0, 1, 0x0, [⟨31, 12, .rwl⟩, ⟨11, 0, .res⟩]⟩,
    ⟨0xA1004, 0x20, 256, 0x0, 1, 0x0, [⟨31, 14, .res⟩, ⟨13, 0, .rwl⟩]⟩,
    ⟨0xA1008, 0x20, 256, 0x0, 1, 0x0, [⟨31, 12, .rwl⟩, ⟨11, 0, .res⟩]⟩,
    ⟨0xA100C, 0x20, 256, 0x0, 1, 0x0, [⟨31, 14, .res⟩, ⟨13, 0, .rwl⟩]⟩,
    ⟨0xA1010, 0x20, 256, 0x0, 1, 0x0, [⟨31, 16, .res⟩, ⟨15, 8, .rwl⟩, ⟨7, 4, .res⟩, ⟨3, 3, .rwl⟩, ⟨2, 2, .rwl⟩, ⟨1, 1, .rwl⟩, ⟨0, 0, .rwl⟩]⟩ ]

def rowsKINGPOST : List RegRow :=
  [ ⟨0xE0100, 0x0, 1, 0x0, 1, 0x0, [⟨31, 24, .ro⟩, ⟨23, 16, .ro⟩, ⟨15, 8, .ro⟩, ⟨7, 2, .res⟩, ⟨1, 1, .ro⟩, ⟨0, 0, .ro⟩]⟩,
    ⟨0xE0104, 0x0, 1, 0x0, 1, 0x0, [⟨31, 8, .res⟩, ⟨7, 5, .ro⟩, ⟨4, 4, .ro⟩, ⟨3, 2, .ro⟩, ⟨1, 0, .res⟩]⟩,
    ⟨0xE0110, 0x4, 4, 0x0, 1, 0x0, [⟨31, 0, .ro⟩]⟩,
    ⟨0xE0120, 0x4, 12, 0x0, 1, 0x0, [⟨31, 0, .ro⟩]⟩,
    ⟨0xE0150, 0x4, 4, 0x0, 1, 0x0, [⟨31, 0, .ro⟩]⟩,
    ⟨0xE0000, 0x0, 1, 0x0, 1, 0x8, [⟨31, 24, .res⟩, ⟨23, 16, .ro⟩, ⟨15, 8, .ro⟩, ⟨7, 5, .res⟩, ⟨4, 4, .ro⟩, ⟨3, 3, .ro⟩, ⟨2, 2, .ro⟩, ⟨1, 1, .ro⟩, ⟨0, 0, .ro⟩]⟩,
    ⟨0xE0004, 0x0, 1, 0x0, 1, 0x0, [⟨31, 29, .res⟩, ⟨28, 0, .ro⟩]⟩,
    ⟨0xE0008, 0x0, 1, 0x0, 1, 0x0, [⟨31, 29, .res⟩, ⟨28, 0, .ro⟩]⟩,
    ⟨0xE0010, 0x0, 1, 0x0, 1, 0x0, [⟨31, 0, .ro⟩]⟩,
    ⟨0xE0014, 0x0, 1, 0x0, 1, 0x0, [⟨31, 0, .ro⟩]⟩,
    ⟨0xE0018, 0x0, 1, 0x0, 1, 0x0, [⟨31, 0, .ro⟩]⟩,
    ⟨0xE001C, 0x0, 1, 0x0, 1, 0x0, [⟨31, 0, .ro⟩]⟩,
    ⟨0xE0020, 0x0, 1, 0x0, 1, 0x0, [⟨31, 0, .ro⟩]⟩,
    ⟨0xE0024, 0x0, 1, 0x0, 1, 0x0, [⟨31, 0, .ro⟩]⟩,
    ⟨0xE0028, 0x0, 1, 0x0, 1, 0x0, [⟨31, 0, .ro⟩]⟩,
    ⟨0xE002C, 0x0, 1, 0x0, 1, 0x0, [⟨31, 20, .res⟩, ⟨19, 16, .ro⟩, ⟨15, 0, .ro⟩]⟩,
    ⟨0xE0030, 0x0, 1, 0x0, 1, 0x0, [⟨31, 24, .res⟩, ⟨23, 16, .ro⟩, ⟨15, 0, .ro⟩]⟩,
    ⟨0xE0040, 0x4, 4, 0x0, 1, 0x0, [⟨31, 16, .ro⟩, ⟨15, 0, .ro⟩]⟩,
    ⟨0xE0050, 0x0, 1, 0x0, 1, 0x0, [⟨31, 16, .ro⟩, ⟨15, 0, .ro⟩]⟩,
    ⟨0xE0054, 0x0, 1, 0x0, 1, 0x0, [⟨31, 0, .ro⟩]⟩,
    ⟨0xE0058, 0x0, 1, 0x0, 1, 0x0, [⟨31, 0, .ro⟩]⟩,
    ⟨0xE005C, 0x0, 1, 0x0, 1, 0x0, [⟨31, 16, .ro⟩, ⟨15, 4, .res⟩, ⟨3, 0, .ro⟩]⟩,
    ⟨0xE0080, 0x4, 29, 0x0, 1, 0x0, [⟨31, 16, .res⟩, ⟨15, 0, .ro⟩]⟩,
    ⟨0xE0200, 0x0, 1, 0x0, 1, 0x9623, [⟨31, 16, .ro⟩, ⟨15, 8, .ro⟩, ⟨7, 6, .res⟩, ⟨5, 5, .ro⟩, ⟨4, 4, .ro⟩, ⟨3, 3, .ro⟩, ⟨2, 0, .ro⟩]⟩,
    ⟨0xE0204, 0x0, 1, 0x0, 1, 0x1000, [⟨31, 20, .res⟩, ⟨19, 16, .ro⟩, ⟨15, 14, .res⟩, ⟨13, 12, .ro⟩, ⟨11, 11, .res⟩, ⟨10, 8, .ro⟩, ⟨7, 2, .res⟩, ⟨1, 0, .ro⟩]⟩,
    ⟨0xE0208, 0x0, 1, 0x0, 1, 0x2, [⟨31, 9, .res⟩, ⟨8, 8, .ro⟩, ⟨7, 6, .ro⟩, ⟨5, 4, .ro⟩, ⟨3, 2, .ro⟩, ⟨1, 0, .ro⟩]⟩,
    ⟨0xE0210, 0x0, 1, 0x0, 1, 0x0, [⟨31, 20, .res⟩, ⟨19, 8, .ro⟩, ⟨7, 4, .ro⟩, ⟨3, 0, .ro⟩]⟩,
    ⟨0xE0214, 0x0, 1, 0x0, 1, 0x0, [⟨31, 12, .res⟩, ⟨11, 0, .ro⟩]⟩,
    ⟨0xE0218, 0x0, 1, 0x0, 1, 0x0, [⟨31, 0, .ro⟩]⟩,
    ⟨0xE021C, 0x0, 1, 0x0, 1, 0x0, [⟨31, 0, .ro⟩]⟩ ]

def rowsYARD : List RegRow :=
  [ ⟨0xB0000, 0x0, 1, 0x0, 1, 0x0, [⟨31, 15, .res⟩, ⟨14, 8, .hwo⟩, ⟨7, 6, .res⟩, ⟨5, 5, .hwo⟩, ⟨4, 3, .hwo⟩, ⟨2, 1, .hwo⟩, ⟨0, 0, .hwo⟩]⟩,
    ⟨0xB0004, 0x0, 1, 0x0, 1, 0x0, [⟨31, 7, .res⟩, ⟨6, 6, .w1c⟩, ⟨5, 5, .w1c⟩, ⟨4, 4, .w1c⟩, ⟨3, 3, .w1c⟩, ⟨2, 2, .w1c⟩, ⟨1, 1, .w1c⟩, ⟨0, 0, .w1c⟩]⟩,
    ⟨0xB0008, 0x0, 1, 0x0, 1, 0x0, [⟨31, 16, .hwo⟩, ⟨15, 0, .hwo⟩]⟩,
    ⟨0xB000C, 0x0, 1, 0x0, 1, 0x0, [⟨31, 16, .hwo⟩, ⟨15, 0, .hwo⟩]⟩,
    ⟨0xB0010, 0x0, 1, 0x0, 1, 0x2710, [⟨31, 14, .res⟩, ⟨13, 0, .hwo⟩]⟩,
    ⟨0xB0014, 0x0, 1, 0x0, 1, 0x2710, [⟨31, 14, .res⟩, ⟨13, 0, .hwo⟩]⟩,
    ⟨0xB0018, 0x0, 1, 0x0, 1, 0x0, [⟨31, 24, .res⟩, ⟨23, 0, .hwo⟩]⟩,
    ⟨0xB001C, 0x0, 1, 0x0, 1, 0x0, [⟨31, 24, .res⟩, ⟨23, 0, .hwo⟩]⟩,
    ⟨0xB0020, 0x0, 1, 0x0, 1, 0x0, [⟨31, 0, .rc⟩]⟩,
    ⟨0xB0024, 0x0, 1, 0x0, 1, 0x0, [⟨31, 0, .rc⟩]⟩,
    ⟨0xB0028, 0x0, 1, 0x0, 1, 0x0, [⟨31, 0, .rc⟩]⟩,
    ⟨0xB002C, 0x0, 1, 0x0, 1, 0x0, [⟨31, 0, .rc⟩]⟩,
    ⟨0xB0030, 0x0, 1, 0x0, 1, 0x0, [⟨31, 0, .rc⟩]⟩,
    ⟨0xB0034, 0x0, 1, 0x0, 1, 0x0, [⟨31, 0, .rc⟩]⟩,
    ⟨0xB0038, 0x0, 1, 0x0, 1, 0x0, [⟨31, 0, .rc⟩]⟩,
    ⟨0xB003C, 0x0, 1, 0x0, 1, 0x0, [⟨31, 0, .rc⟩]⟩,
    ⟨0xB0040, 0x0, 1, 0x0, 1, 0x0, [⟨31, 0, .rc⟩]⟩,
    ⟨0xB0044, 0x0, 1, 0x0, 1, 0x0, [⟨31, 16, .hwo⟩, ⟨15, 0, .hwo⟩]⟩,
    ⟨0xB0048, 0x0, 1, 0x0, 1, 0x0, [⟨31, 0, .rc⟩]⟩,
    ⟨0xB004C, 0x0, 1, 0x0, 1, 0x0, [⟨31, 0, .rc⟩]⟩,
    ⟨0xB0050, 0x0, 1, 0x0, 1, 0x0, [⟨31, 0, .hwo⟩]⟩,
    ⟨0xB0054, 0x0, 1, 0x0, 1, 0x0, [⟨31, 16, .res⟩, ⟨15, 0, .hwo⟩]⟩,
    ⟨0xB0058, 0x0, 1, 0x0, 1, 0x0, [⟨31, 0, .hwo⟩]⟩,
    ⟨0xB005C, 0x0, 1, 0x0, 1, 0x0, [⟨31, 0, .rc⟩]⟩ ]

def rowsGOVERNOR : List RegRow :=
  [ ⟨0xC0000, 0x0, 1, 0x0, 1, 0x80076, [⟨31, 24, .res⟩, ⟨23, 16, .rw⟩, ⟨15, 8, .res⟩, ⟨7, 0, .rw⟩]⟩,
    ⟨0xC0004, 0x0, 1, 0x0, 1, 0xA5A, [⟨31, 24, .hwo⟩, ⟨23, 16, .hwo⟩, ⟨15, 8, .hwo⟩, ⟨7, 0, .hwo⟩]⟩,
    ⟨0xC0008, 0x0, 1, 0x0, 1, 0x0, [⟨31, 16, .res⟩, ⟨15, 8, .wo⟩, ⟨7, 0, .wo⟩]⟩,
    ⟨0xC000C, 0x0, 1, 0x0, 1, 0x100, [⟨31, 9, .res⟩, ⟨8, 8, .hwo⟩, ⟨7, 7, .hwo⟩, ⟨6, 6, .hwo⟩, ⟨5, 5, .hwo⟩, ⟨4, 0, .hwo⟩]⟩,
    ⟨0xC0010, 0x0, 1, 0x0, 1, 0x0, [⟨31, 16, .hwo⟩, ⟨15, 0, .hwo⟩]⟩,
    ⟨0xC0014, 0x0, 1, 0x0, 1, 0x0, [⟨31, 18, .res⟩, ⟨17, 0, .hwo⟩]⟩,
    ⟨0xC0018, 0x0, 1, 0x0, 1, 0x0, [⟨31, 18, .res⟩, ⟨17, 0, .hwo⟩]⟩,
    ⟨0xC001C, 0x0, 1, 0x0, 1, 0x0, [⟨31, 0, .hwo⟩]⟩,
    ⟨0xC0020, 0x0, 1, 0x0, 1, 0x0, [⟨31, 0, .hwo⟩]⟩,
    ⟨0xC0024, 0x0, 1, 0x0, 1, 0x0, [⟨31, 0, .hwo⟩]⟩,
    ⟨0xC0028, 0x0, 1, 0x0, 1, 0x0, [⟨31, 0, .hwo⟩]⟩,
    ⟨0xC002C, 0x0, 1, 0x0, 1, 0x2710, [⟨31, 14, .res⟩, ⟨13, 0, .hwo⟩]⟩,
    ⟨0xC0030, 0x0, 1, 0x0, 1, 0x0, [⟨31, 16, .res⟩, ⟨15, 8, .wo⟩, ⟨7, 4, .res⟩, ⟨3, 0, .wo⟩]⟩,
    ⟨0xC0034, 0x0, 1, 0x0, 1, 0x0, [⟨31, 0, .rc⟩]⟩,
    ⟨0xC0038, 0x0, 1, 0x0, 1, 0x0, [⟨31, 0, .rc⟩]⟩,
    ⟨0xC003C, 0x0, 1, 0x0, 1, 0x0, [⟨31, 0, .rc⟩]⟩,
    ⟨0xC0040, 0x8, 5, 0x0, 1, 0x0, [⟨31, 0, .ro⟩]⟩,
    ⟨0xC0044, 0x8, 9, 0x0, 1, 0x0, [⟨31, 0, .ro⟩]⟩,
    ⟨0xC0080, 0x0, 1, 0x0, 1, 0x0, [⟨31, 4, .res⟩, ⟨3, 0, .rw⟩]⟩,
    ⟨0xC0084, 0x0, 1, 0x0, 1, 0x0, [⟨31, 16, .hwo⟩, ⟨15, 0, .hwo⟩]⟩,
    ⟨0xC0088, 0x0, 1, 0x0, 1, 0x4000, [⟨31, 17, .res⟩, ⟨16, 16, .hwo⟩, ⟨15, 0, .hwo⟩]⟩,
    ⟨0xC0090, 0x0, 1, 0x0, 1, 0x0, [⟨31, 8, .res⟩, ⟨7, 0, .rw⟩]⟩,
    ⟨0xC0094, 0x0, 1, 0x0, 1, 0x0, [⟨31, 0, .ro⟩]⟩,
    ⟨0xC0098, 0x0, 1, 0x0, 1, 0x0, [⟨31, 0, .ro⟩]⟩,
    ⟨0xC0100, 0x20, 4, 0x0, 1, 0x0, [⟨31, 18, .res⟩, ⟨17, 0, .hwo⟩]⟩,
    ⟨0xC0104, 0x20, 4, 0x0, 1, 0xFFFFFFFF, [⟨31, 24, .hwo⟩, ⟨23, 16, .hwo⟩, ⟨15, 8, .hwo⟩, ⟨7, 0, .hwo⟩]⟩,
    ⟨0xC0108, 0x20, 4, 0x0, 1, 0xFF, [⟨31, 8, .res⟩, ⟨7, 0, .hwo⟩]⟩,
    ⟨0xC010C, 0x20, 4, 0x0, 1, 0x0, [⟨31, 16, .res⟩, ⟨15, 8, .hwo⟩, ⟨7, 6, .res⟩, ⟨5, 0, .hwo⟩]⟩,
    ⟨0xC0110, 0x20, 4, 0x0, 1, 0x40, [⟨31, 8, .res⟩, ⟨7, 0, .rw⟩]⟩,
    ⟨0xC0114, 0x20, 4, 0x0, 1, 0x0, [⟨31, 16, .res⟩, ⟨15, 0, .rc⟩]⟩,
    ⟨0xC0180, 0x0, 1, 0x0, 1, 0x0, [⟨31, 16, .res⟩, ⟨15, 8, .hwo⟩, ⟨7, 6, .res⟩, ⟨5, 0, .hwo⟩]⟩ ]

def rowsRECORDER : List RegRow :=
  [ ⟨0xD0000, 0x0, 1, 0x0, 1, 0x1, [⟨31, 16, .res⟩, ⟨15, 8, .hwo⟩, ⟨7, 3, .res⟩, ⟨2, 2, .hwo⟩, ⟨1, 1, .hwo⟩, ⟨0, 0, .hwo⟩]⟩,
    ⟨0xD0004, 0x0, 1, 0x0, 1, 0x0, [⟨31, 0, .hwo⟩]⟩,
    ⟨0xD0008, 0x0, 1, 0x0, 1, 0x1, [⟨31, 0, .hwo⟩]⟩,
    ⟨0xD000C, 0x0, 1, 0x0, 1, 0x0, [⟨31, 0, .hwo⟩]⟩,
    ⟨0xD0010, 0x0, 1, 0x0, 1, 0x0, [⟨31, 0, .hwo⟩]⟩,
    ⟨0xD0014, 0x0, 1, 0x0, 1, 0x10400104, [⟨31, 24, .rw⟩, ⟨23, 16, .rw⟩, ⟨15, 8, .rw⟩, ⟨7, 0, .rw⟩]⟩,
    ⟨0xD0018, 0x0, 1, 0x0, 1, 0x0, [⟨31, 1, .res⟩, ⟨0, 0, .wo⟩]⟩,
    ⟨0xD001C, 0x0, 1, 0x0, 1, 0x0, [⟨31, 0, .rc⟩]⟩,
    ⟨0xD0020, 0x0, 1, 0x0, 1, 0x0, [⟨31, 0, .rc⟩]⟩,
    ⟨0xD0024, 0x0, 1, 0x0, 1, 0x0, [⟨31, 0, .rc⟩]⟩,
    ⟨0xD0028, 0x0, 1, 0x0, 1, 0x0, [⟨31, 16, .res⟩, ⟨15, 0, .hwo⟩]⟩,
    ⟨0xD002C, 0x0, 1, 0x0, 1, 0x0, [⟨31, 0, .hwo⟩]⟩ ]

/-- The low words of the 64-bit register pairs; the high word follows at the next register (R18). -/
def pairRows : List RegRow :=
  [ ⟨0x10008, 0x0, 1, 0x0, 1, 0, []⟩,
    ⟨0x10020, 0x0, 1, 0x0, 1, 0, []⟩,
    ⟨0x10050, 0x0, 1, 0x0, 1, 0, []⟩,
    ⟨0x14000, 0x20, 1024, 0x0, 1, 0, []⟩,
    ⟨0x10078, 0x0, 1, 0x0, 1, 0, []⟩,
    ⟨0x21030, 0x100, 16, 0x0, 1, 0, []⟩,
    ⟨0x31064, 0x100, 12, 0x0, 1, 0, []⟩,
    ⟨0x40000, 0x0, 1, 0x0, 1, 0, []⟩,
    ⟨0x100080, 0x40000, 4, 0x0, 1, 0, []⟩,
    ⟨0x1000A4, 0x40000, 4, 0x0, 1, 0, []⟩,
    ⟨0x80010, 0x10, 4, 0x0, 1, 0, []⟩,
    ⟨0x80054, 0x0, 1, 0x0, 1, 0, []⟩,
    ⟨0x80064, 0x0, 1, 0x0, 1, 0, []⟩,
    ⟨0x50000, 0x0, 1, 0x0, 1, 0, []⟩,
    ⟨0x90024, 0x0, 1, 0x0, 1, 0, []⟩,
    ⟨0x70004, 0x0, 1, 0x0, 1, 0, []⟩,
    ⟨0x33010, 0x40, 32, 0x0, 1, 0, []⟩,
    ⟨0x33024, 0x40, 32, 0x0, 1, 0, []⟩,
    ⟨0x33810, 0x0, 1, 0x0, 1, 0, []⟩,
    ⟨0x200020, 0x1000, 64, 0x0, 1, 0, []⟩,
    ⟨0x104, 0x0, 1, 0x0, 1, 0, []⟩,
    ⟨0x110010, 0x40000, 4, 0x0, 1, 0, []⟩,
    ⟨0x110024, 0x40000, 4, 0x0, 1, 0, []⟩,
    ⟨0xA0014, 0x0, 1, 0x0, 1, 0, []⟩,
    ⟨0xA1000, 0x20, 256, 0x0, 1, 0, []⟩,
    ⟨0xA1008, 0x20, 256, 0x0, 1, 0, []⟩,
    ⟨0xE0010, 0x0, 1, 0x0, 1, 0, []⟩,
    ⟨0xE0018, 0x0, 1, 0x0, 1, 0, []⟩,
    ⟨0xE0024, 0x0, 1, 0x0, 1, 0, []⟩,
    ⟨0xC0024, 0x0, 1, 0x0, 1, 0, []⟩,
    ⟨0xC0040, 0x8, 5, 0x0, 1, 0, []⟩,
    ⟨0xC0094, 0x0, 1, 0x0, 1, 0, []⟩,
    ⟨0xE0210, 0x0, 1, 0x0, 1, 0, []⟩,
    ⟨0xE0218, 0x0, 1, 0x0, 1, 0, []⟩ ]

end Sys2Proof.Machine
end

