-- ==== Sys2Proof/Machine/State.lean ====
section
/-! DEFINITION. The machine's state: registers, memory, units, and the queue of waiting commands. -/

namespace Sys2Proof.Machine
open Sys2Proof

/-- The state of the block. Every register of the register map has its word in `regs`, or its reset value where `regs` lists
none; `live` holds the configuration words in force where a mode change governs them (R86). -/
structure State where
  /-- Register words by BAR0 address; the mailbox page of function f stands at 0x0020_0000 + 0x1000 × f (R16, R422, R423). -/
  regs : Tab Word := []
  /-- Configuration words in force, where they differ in kind from `regs`: latched by a mode change (R86). -/
  live : Tab Word := []
  /-- The words in force before the last mode change, for a revert (R86). -/
  prevLive : Tab Word := []
  /-- Latched high words by register address (R18, R56). -/
  latch : Tab Word := []
  /-- Low words staged by a write, by register address (R18). -/
  staged : Tab Word := []
  /-- Bytes of DRAM and loft; an unlisted address reads zero (R447, R490). -/
  mem : List Host.Cell := []
  /-- Poisoned aligned 64-bit words, by address / 8 (R463). -/
  poison : List Nat := []
  memory : MemSt := {}
  ridge : RidgeSt := {}
  scribe : ScribeSt := {}
  fab : FabSt := {}
  tensors : TenSt := {}
  out : OutSt := {}
  mb : MbSt := {}
  sec : SecSt := {}
  kp : KpSt := {}
  recd : RecSt := {}
  cam : CamSt := {}
  net : NetSt := {}
  /-- Ingest records on their way to the Planer, oldest first (R144). -/
  ingest : List IngestRec := []
  plan : PlanSt := {}
  raft : RaftSt := {}
  ledger : LedSt := {}
  plumb : PlumbSt := {}
  tally : TallySt := {}
  gov : GovSt := {}
  power : PowerSt := {}
  fw : FwSt := {}
  yard : YardSt := {}
-- UNITS
  /-- What has left the package, newest last. -/
  emitted : List Emission := []
  /-- Free values taken so far. -/
  free : Nat := 0
  /-- Commands that wait, first in, first out. -/
  pending : List Instr := []
  deriving DecidableEq, Repr

/-- How a step can stop with a fault: it never does; every fault of the device is an effect on its state. -/
inductive Fault
  deriving DecidableEq, Repr

/-- Why a command is refused. -/
inductive Refusal
  /-- Raised by `exec` for a row of the table that has no meaning yet. Safe: nothing can be proved of the command's effect. -/
  | notModelled (mnemonic : String)
  deriving DecidableEq, Repr

/-- The machine right after reset: booted from package reset, Foreman serving, default profile not started, nothing queued
(notes/assumptions/1.md). -/
def State.reset : State := {}

end Sys2Proof.Machine
end

