-- ==== Sys2Proof/Machine/Tab.lean ====
section
/-! DEFINITION. Sparse tables and bit fields: reading, writing and removing the entry of a number, and the fields of a
word (R10). -/

namespace Sys2Proof.Machine
open Sys2Proof

/-- The entry of number `k`. -/
def tget {α : Type} (k : Nat) : Tab α → Option α
  | [] => none
  | (j, v) :: r => if j = k then some v else tget k r

/-- Writes the entry of number `k`, keeping rising order. -/
def tput {α : Type} (k : Nat) (v : α) : Tab α → Tab α
  | [] => [(k, v)]
  | (j, w) :: r => if j = k then (k, v) :: r else if k < j then (k, v) :: (j, w) :: r else (j, w) :: tput k v r

/-- Removes the entry of number `k`. -/
def tdel {α : Type} (k : Nat) : Tab α → Tab α
  | [] => []
  | (j, w) :: r => if j = k then tdel k r else (j, w) :: tdel k r

/-- The entry of number `k`, or `d`. -/
def tgetD {α : Type} (k : Nat) (d : α) (t : Tab α) : α := (tget k t).getD d

/-- Applies `f` to the entry of number `k`, if there is one. -/
def tmod {α : Type} (k : Nat) (f : α → α) : Tab α → Tab α
  | [] => []
  | (j, w) :: r => if j = k then (j, f w) :: r else (j, w) :: tmod k f r

/-- The lowest number at or above `n` that has no entry, of the next `fuel` numbers (R633). -/
def tfree {α : Type} (t : Tab α) : Nat → Nat → Option Nat
  | 0, _ => none
  | fuel + 1, n => match tget n t with
    | none => some n
    | some _ => tfree t fuel (n + 1)

/-- The numbers of a table rise strictly: its one canonical form. -/
abbrev Rising {α : Type} (t : Tab α) : Prop := t.Pairwise (fun p q => p.1 < q.1)

/-- Bits [hi:lo] of a word. -/
def bits (w hi lo : Nat) : Nat := w / 2 ^ lo % 2 ^ (hi + 1 - lo)

/-- The word `w` with bits [hi:lo] replaced by `v`. -/
def putBits (w hi lo v : Nat) : Nat :=
  w / 2 ^ (hi + 1) * 2 ^ (hi + 1) + v % 2 ^ (hi + 1 - lo) * 2 ^ lo + w % 2 ^ lo

/-- Bit `i` of a word. -/
def bit (w i : Nat) : Bool := w / 2 ^ i % 2 = 1

/-- `n` as one bit. -/
def b2n (b : Bool) : Nat := if b then 1 else 0

/-- An increment that saturates at `top` (R24). -/
def satAdd (top a n : Nat) : Nat := min top (a + n)

/-- `v` taken within `lo`–`hi` (R630). -/
def clamp (lo hi v : Nat) : Nat := max lo (min hi v)

/-- The signed value of an unsigned number of `w` bits. -/
def toSigned (w v : Nat) : Int := if v < 2 ^ (w - 1) then (v : Int) else (v : Int) - (2 ^ w : Nat)

/-- An integer modulo 2^w. -/
def ofSigned (w : Nat) (i : Int) : Nat := (i % (2 ^ w : Nat)).toNat

/-- The integer nearest to `i` that `w` signed bits hold. -/
def satSigned (w : Nat) (i : Int) : Int := max (-(2 ^ (w - 1) : Nat)) (min ((2 ^ (w - 1) : Nat) - 1) i)

/-- The little-endian number of a list of bytes (R10). -/
def leNat : List Byte → Nat
  | [] => 0
  | b :: r => b.toNat + 256 * leNat r

/-- The `n` little-endian bytes of a number (R10). -/
def leBytes : Nat → Nat → List Byte
  | 0, _ => []
  | n + 1, v => BitVec.ofNat 8 v :: leBytes n (v / 256)

/-- The number in `n` bytes of a structure from offset `o` (R10). -/
def fieldU (d : List Byte) (o n : Nat) : Nat := leNat ((d.drop o).take n)
/-- The signed number there. -/
def fieldS (d : List Byte) (o n : Nat) : Int := toSigned (8 * n) (fieldU d o n)

/-- Division rounding up. -/
def ceilDiv (a b : Nat) : Nat := (a + b - 1) / b

end Sys2Proof.Machine
end

