-- ==== Sys2Proof/Machine/Ops.lean ====
section
/-! DEFINITION. The named operations over registers, memory, the Fence, events, faults and the safe state, which every
meaning is built from. -/

namespace Sys2Proof.Machine
open Sys2Proof

/-- What a meaning answers. -/
abbrev Out := Host.Outcome State Fault Refusal

/-! ### Registers (R16, R18, R24) -/

/-- The word of a register. -/
def rd (s : State) (r : Reg) : Nat :=
  match tget r.addr s.regs with
  | some w => w.toNat
  | none => r.reset

/-- Writes the word of a register. -/
def wr (r : Reg) (v : Nat) (s : State) : State := { s with regs := tput r.addr (BitVec.ofNat 32 v) s.regs }

/-- Field [hi:lo] of a register. -/
def fld (s : State) (r : Reg) (hi lo : Nat) : Nat := bits (rd s r) hi lo

/-- Writes field [hi:lo] of a register. -/
def setFld (r : Reg) (hi lo v : Nat) (s : State) : State := wr r (putBits (rd s r) hi lo v) s

/-- Adds `n` to the counter in field [hi:lo], which saturates (R24). -/
def incFld (r : Reg) (hi lo n : Nat) (s : State) : State :=
  setFld r hi lo (satAdd (2 ^ (hi + 1 - lo) - 1) (fld s r hi lo) n) s

/-- Adds 1 to a 32-bit counter, which saturates (R24). -/
def inc (r : Reg) (s : State) : State := incFld r 31 0 1 s

/-- Sets the bits of `mask` in a register. -/
def setMask (r : Reg) (mask : Nat) (s : State) : State := wr r (rd s r ||| mask) s

/-- Clears the bits of `mask` in a register. -/
def clearMask (r : Reg) (mask : Nat) (s : State) : State := wr r (rd s r - (rd s r &&& mask)) s

/-- The 64-bit quantity of a register pair (R18). -/
def rd64 (s : State) (lo hi : Reg) : Nat := rd s lo + 2 ^ 32 * rd s hi

/-- Writes the 64-bit quantity of a register pair (R18). -/
def wr64 (lo hi : Reg) (v : Nat) (s : State) : State := wr hi (v / 2 ^ 32 % 2 ^ 32) (wr lo (v % 2 ^ 32) s)

/-- The word of a configuration register in force, where a mode change governs it (R86). -/
def live (s : State) (r : Reg) : Nat :=
  match tget r.addr s.live with
  | some w => w.toNat
  | none => r.reset

/-- Field [hi:lo] of a configuration register in force. -/
def liveFld (s : State) (r : Reg) (hi lo : Nat) : Nat := bits (live s r) hi lo

/-- The 64-bit quantity of a configuration register pair in force. -/
def live64 (s : State) (lo hi : Reg) : Nat := live s lo + 2 ^ 32 * live s hi

/-- Puts a word in force. -/
def setLive (r : Reg) (v : Nat) (s : State) : State := { s with live := tput r.addr (BitVec.ofNat 32 v) s.live }

/-- Puts a word in force at once: it is no part of the change in progress, so a revert of that change leaves it (R86). -/
def setLiveNow (r : Reg) (v : Nat) (s : State) : State :=
  let s := setLive r v s
  if s.ridge.phase = .idle then s else { s with prevLive := tput r.addr (BitVec.ofNat 32 v) s.prevLive }

/-- Puts bit 0 of a word in force at once (R86, R142). -/
def setLiveEnable (r : Reg) (b : Nat) (s : State) : State :=
  let old := match tget r.addr s.prevLive with | some w => w.toNat | none => r.reset
  let s := setLive r (putBits (live s r) 0 0 b) s
  if s.ridge.phase = .idle then s else { s with prevLive := tput r.addr (BitVec.ofNat 32 (putBits old 0 0 b)) s.prevLive }

/-- The Plinth is in RUN: before a power-down or an input loss stops doorbells, captures and marks (R601, R620). -/
def inRun (s : State) : Bool := decide (s.power.state = .run)

/-- Records what leaves the package. -/
def emit (e : Emission) (s : State) : State := { s with emitted := s.emitted ++ [e] }

/-- The free value that the next taking gives. -/
def freeNat (s : State) : Nat := (Config.freeWord s.free).toNat

/-- The state after `n` free values are taken. -/
def takeFree (n : Nat) (s : State) : State := { s with free := s.free + n }

/-! ### Bytes of memory and poison (R447, R463–R465) -/

/-- The byte at an address; an address that nothing has written reads zero. -/
def memGet (s : State) (a : Nat) : Byte := (tget a s.mem).getD 0

/-- The canonical form of memory: addresses strictly rising, and no listed byte that reads as an unlisted one does. -/
abbrev Memory.wf (m : List Host.Cell) : Prop := Rising m ∧ ∀ c ∈ m, c.2 ≠ 0

/-- Writes one byte, keeping the canonical form: a zero byte is not listed. -/
def putByte (a : Nat) (b : Byte) (m : List Host.Cell) : List Host.Cell := if b = 0 then tdel a m else tput a b m

/-- Writes consecutive bytes. -/
def putBytes (a : Nat) : List Byte → List Host.Cell → List Host.Cell
  | [], m => m
  | b :: r, m => putBytes (a + 1) r (putByte a b m)

/-- `n` consecutive bytes. -/
def readBytes (s : State) (a : Nat) : Nat → List Byte
  | 0 => []
  | n + 1 => memGet s a :: readBytes s (a + 1) n

/-- The little-endian number of `n` bytes at an address (R10). -/
def readNat (s : State) (a n : Nat) : Nat := leNat (readBytes s a n)

/-- Inserts a number into a rising list. -/
def linsert (k : Nat) : List Nat → List Nat
  | [] => [k]
  | j :: r => if j = k then j :: r else if k < j then k :: j :: r else j :: linsert k r

/-- Removes a number from a list. -/
def lremove (k : Nat) (l : List Nat) : List Nat := l.filter (fun j => j != k)

/-- The indices of the aligned 64-bit words that `n` bytes from `a` touch (R463). -/
def wordsOf (a n : Nat) : List Nat := if n = 0 then [] else (List.range ((a + n - 1) / 8 + 1 - a / 8)).map (· + a / 8)

def stackBytes : Nat := 0x400000000
def loftBase : Nat := 0x3F0000000000
def loftWindow : Nat := 0x8000000
def loftBytes : Nat := 96 * 2 ^ 20

/-- The Bay whose stack or loft holds an address (R447). -/
def bayOf (a : Nat) : Nat := (if a < loftBase then a / stackBytes else (a - loftBase) / loftWindow) % 4

/-- The links on the way of R451 from an agent of the Sill, or of Bay `src`, to the memories of Bay `dst`. -/
def routeOf (src : Option Nat) (dst : Nat) : List Nat :=
  match src with
  | none => [3 * dst]
  | some b => if b = dst then [] else if dst = (b + 1) % 4 then [3 * b + 1] else if b = (dst + 1) % 4 then [3 * dst + 1] else [3 * b, 3 * dst]

/-- A link on the way to an address is down (R460). -/
def cutOff (s : State) (src : Option Nat) (a : Nat) : Bool :=
  !s.memory.downLinks.isEmpty && (routeOf src (bayOf a)).any (fun l => s.memory.downLinks.contains l)

/-- The Bay that an agent code names: codes 1, 9, 17 and 25 are the mortises of Bays 0 to 3; every other agent is of the Sill. -/
def agentBay (agent : Nat) : Option Nat := if agent % 8 = 1 then some (agent / 8) else none

/-- Whether some word of a range reads poisoned for an agent of the Sill: it carries poison, or a link on its way is down (R460,
R464). -/
def poisoned (s : State) (a n : Nat) : Bool :=
  cutOff s none a || (wordsOf a n).any (fun w => s.poison.contains w)

/-- The same for an agent of Bay `b`. -/
def poisonedAt (s : State) (b a n : Nat) : Bool :=
  cutOff s (some b) a || (wordsOf a n).any (fun w => s.poison.contains w)

/-- Poison after a write: a whole word written clears it, a word written in part keeps it, a tagged write sets it (R465). -/
def poisonAfter (a n : Nat) (tag : Bool) (p : List Nat) : List Nat :=
  (wordsOf a n).foldl (fun q w =>
    if tag then linsert w q
    else if a ≤ 8 * w ∧ 8 * w + 8 ≤ a + n then lremove w q else q) p

/-- One write of bytes to device memory (R465). -/
def writeMem (w : MemWrite) (s : State) : State :=
  { s with mem := putBytes w.addr w.data s.mem, poison := poisonAfter w.addr w.data.length w.poison s.poison }

/-- Writes bytes without a poison tag. -/
def writeBytes (a : Nat) (bs : List Byte) (s : State) : State := writeMem ⟨a, bs, false⟩ s

/-- Bytes whose values nothing fixes (R105). -/
def writeFree (a n : Nat) (s : State) : State :=
  takeFree n (writeBytes a ((List.range n).map (fun i => (Config.freeWord (s.free + i)).setWidth 8)) s)

/-- Clears a range to zero, poison included (R469, R490). -/
def zeroRange (a n : Nat) (s : State) : State :=
  { s with mem := s.mem.filter (fun c => c.1 < a ∨ a + n ≤ c.1),
           poison := s.poison.filter (fun w => 8 * w + 8 ≤ a ∨ a + n ≤ 8 * w) }

/-! ### The address map and the Fence (R447–R449, R477–R483) -/

/-- Bay `n` passed self-test (R32). -/
def bayPresent (s : State) (n : Nat) : Bool := bit (fld s SILL_PACKAGE 3 0) n

/-- The stack of Bay `n` is in use (R448). -/
def stackUsed (s : State) (n : Nat) : Bool := bit (fld s SILL_STACKS_USED 3 0) n

/-- An address that some memory answers (R447, R448). -/
def mapped (s : State) (a : Nat) : Bool :=
  if a < 4 * stackBytes then stackUsed s (a / stackBytes)
  else decide (loftBase ≤ a) && decide ((a - loftBase) / loftWindow < 4) &&
    decide ((a - loftBase) % loftWindow < loftBytes) && bayPresent s ((a - loftBase) / loftWindow)

/-- An address in the system region of a stack (R449). -/
def inSystem (s : State) (a : Nat) : Bool :=
  decide (a < 4 * stackBytes) && decide (stackBytes - fld s SILL_SYS_RESERVE 15 0 * 2 ^ 20 ≤ a % stackBytes)

/-- The allocation that holds an address, with its base. -/
def allocAt (s : State) (a : Nat) : Option (Nat × Alloc) :=
  s.memory.allocs.find? (fun p => p.1 ≤ a ∧ a < p.1 + p.2.len)

def winBase (s : State) (w : Nat) : Nat :=
  fld s (FENCE_WIN_BASE_LO w) 31 12 * 4096 + fld s (FENCE_WIN_BASE_HI w) 13 0 * 2 ^ 32
def winLimit (s : State) (w : Nat) : Nat :=
  fld s (FENCE_WIN_LIMIT_LO w) 31 12 * 4096 + fld s (FENCE_WIN_LIMIT_HI w) 13 0 * 2 ^ 32
def winDomain (s : State) (w : Nat) : Nat := fld s (FENCE_WIN_CTRL w) 15 8

/-- A window entry that has an effect (R479). -/
def winValid (s : State) (w : Nat) : Bool :=
  bit (rd s (FENCE_WIN_CTRL w)) 0 && decide (1 ≤ winDomain s w) && decide (winDomain s w ≤ 0x3F) &&
    decide (winBase s w ≤ winLimit s w)

/-- Some valid window of domain `d` holds the range with the rights asked (R479, R481). -/
def windowHolds (s : State) (d a n : Nat) (r w : Bool) : Bool :=
  (List.range 256).any (fun k => winValid s k && decide (winDomain s k = d) && decide (winBase s k ≤ a) &&
    decide (a + n ≤ winLimit s k + 4096) && (!r || bit (rd s (FENCE_WIN_CTRL k)) 1) &&
    (!w || bit (rd s (FENCE_WIN_CTRL k)) 2))

/-- The state word of a domain in the Fence. -/
def closedDomain (s : State) (d : Nat) : Bool := bit (rd s (FENCE_DOMAIN_STATE d)) 0
def quiescedDomain (s : State) (d : Nat) : Bool := bit (rd s (FENCE_DOMAIN_STATE d)) 1
def kpHold (s : State) (d : Nat) : Bool := bit (rd s (FENCE_DOMAIN_STATE d)) 3

/-- The domain's right on the allocation that holds an address: its own, or a share (R480). -/
def granted (s : State) (d a : Nat) (write : Bool) : Bool :=
  match allocAt s a with
  | none => false
  | some (_, g) => decide (d = g.owner) || bit (if write then g.wmask else g.rmask) d

/-- The Fence's decision on one 64-byte line (R482). -/
def admitLine (s : State) (tag line : Nat) (write : Bool) : Bool :=
  if 2 ^ 46 ≤ line || !mapped s line then false
  else if 0xF0 ≤ tag then decide (tag = 0xFB) || inSystem s line
  else if closedDomain s tag then false
  else if inSystem s line then false
  else if !granted s tag line write then false
  else if tag = 0 then true
  else windowHolds s tag line 1 (!write) write

/-- The line addresses of a range. -/
def linesOf (a n : Nat) : List Nat :=
  if n = 0 then [] else (List.range ((a + n - 1) / 64 + 1 - a / 64)).map (fun i => (i + a / 64) * 64)

/-- Every line of a range is admitted. -/
def admitAll (s : State) (tag a n : Nat) (write : Bool) : Bool := (linesOf a n).all (fun l => admitLine s tag l write)

/-- A structure that can be read: no line refused and no word poisoned (R632). -/
def readable (s : State) (tag a n : Nat) : Bool := admitAll s tag a n false && !poisoned s a n

/-- The same for an agent of Bay `b`. -/
def readableAt (s : State) (b tag a n : Nat) : Bool := admitAll s tag a n false && !poisonedAt s b a n

/-- The allocation, starting anywhere, that holds the whole range with the rights asked for domain `d` (R442, R634). -/
def holdsRange (s : State) (d a n : Nat) (r w : Bool) : Bool :=
  match allocAt s a with
  | none => false
  | some (b, g) => decide (a + n ≤ b + g.len) && (!r || decide (d = g.owner) || bit g.rmask d) &&
      (!w || decide (d = g.owner) || bit g.wmask d)

/-! ### Interrupts and notices (R417, R421, R423) -/

/-- Raises an MSI-X vector of a function; none is sent while Bus Master Enable is clear or the link is down (R421). -/
def msix (f v : Nat) (s : State) : State :=
  if s.mb.linkUp && !s.mb.bmeClear.contains f then emit (.msix f v) s else s

/-- Sets notice bits of a function's page, raising vector 1 if notice_irq is 1 (R423). -/
def notice (f mask : Nat) (s : State) : State :=
  let s := setMask (MB_NOTICE f) mask s
  if bit (rd s (MB_IRQ_CFG f)) 1 then msix f 1 s else s

/-- Sets notice bits in every open session (R431). -/
def noticeOpen (mask : Nat) (s : State) : State :=
  (List.range 64).foldl (fun s f => if bit (rd s (MB_SESSION f)) 0 then notice f mask s else s) s

/-! ### Events (R585–R591) -/

/-- The codes of class L (R589). -/
def classL : List Nat :=
  [0x0007, 0x3061, 0x5002, 0x5003, 0x6002, 0x6003, 0x7003, 0x7004, 0x8004, 0x8006, 0x8007, 0x9002, 0x9003, 0x9005,
   0xA001, 0xA037, 0xB003, 0xB004, 0xC002, 0xC003, 0xC006, 0xE004, 0xE008, 0xF006, 0xF010, 0xF011, 0xF022, 0xF027]

/-- Burst of a code's bucket under the rates in force; a zero burst is taken as 1 (R589). -/
def burstOf (s : State) (code : Nat) : Nat :=
  max 1 (if classL.contains code then bits s.recd.rate 7 0 else bits s.recd.rate 23 16)

/-- Refill of a code's bucket (R589). -/
def refillOf (s : State) (code : Nat) : Nat :=
  if classL.contains code then bits s.recd.rate 15 8 else bits s.recd.rate 31 24

/-- The index of the slot of a code, taking the lowest free one at its first occurrence; slot 199 counts the codes that find
none (R588). -/
def slotOf (slots : List EvSlot) (code : Nat) : Nat × List EvSlot :=
  match slots.findIdx? (fun e => e.code = code) with
  | some i => (i, slots)
  | none =>
    if slots.length < 199 then (slots.length, slots ++ [{ code := code }])
    else if slots.length = 199 then (199, slots ++ [{ code := 0xFFFF }])
    else (199, slots)

/-- Sends the notifications that match a recorded occurrence (R591). -/
def notifyEvent (code : Nat) (s : State) : State :=
  s.recd.notifies.foldl (fun s n => if code &&& n.mask = n.code &&& n.mask then msix 0 n.vector s else s) s

/-- One occurrence of an event, counted in its slot and recorded or held back by its bucket (R588–R590). -/
def occur (code arg extra : Nat) (s : State) : State :=
  let (i, slots) := slotOf s.recd.slots code
  let life := s.recd.life
  let tokens := tgetD code (if classL.contains code then s.recd.fullL else s.recd.fullN) s.recd.buckets
  let rec_ := decide (1 ≤ tokens)
  let upd := fun (e : EvSlot) =>
    let e := { e with count := satAdd 0xFFFFFFFF e.count 1, first := if e.first = (⟨0, 0⟩ : Life) then life else e.first }
    if rec_ then { e with arg := arg, last := life, extra := extra } else { e with held := satAdd 0xFFFFFFFF e.held 1 }
  let r := { s.recd with
    slots := slots.modify i upd
    eventsTotal := satAdd 0xFFFFFFFF s.recd.eventsTotal 1
    heldTotal := if rec_ then s.recd.heldTotal else satAdd 0xFFFFFFFF s.recd.heldTotal 1
    buckets := if rec_ then tput code (tokens - 1) s.recd.buckets else s.recd.buckets }
  let s := inc RECORDER_EVENTS { s with recd := r }
  let s := setFld RECORDER_STATUS 15 8 (min 199 (r.slots.length - 1)) s
  let s := setFld RECORDER_STATUS 2 2 (b2n (decide (r.slots.length = 200))) s
  if rec_ then notifyEvent code (wr RECORDER_LAST_ARG arg (wr RECORDER_LAST_EVENT code s))
  else inc RECORDER_HELD s

/-- Raises an event with a stated extra; the first code that finds no slot raises 0xD001 as well (R588). -/
def raiseX (code arg extra : Nat) (s : State) : State :=
  let n := s.recd.slots.length
  let s := occur code arg extra s
  if n = 199 ∧ s.recd.slots.length = 200 then occur 0xD001 code s.ridge.ns s else s

/-- Raises an event at the present Ridge time (R587, R588). -/
def raise (code arg : Nat) (s : State) : State := raiseX code arg s.ridge.ns s

/-! ### CRC-32 (IEEE 802.3) -/

def crcStep : Nat → Nat → Nat
  | 0, c => c
  | k + 1, c => crcStep k (if c % 2 = 1 then c / 2 ^^^ 0xEDB88320 else c / 2)

def crcFold : List Byte → Nat → Nat
  | [], c => c
  | b :: r, c => crcFold r (crcStep 8 (c ^^^ b.toNat))

/-- CRC-32 with the IEEE 802.3 polynomial. -/
def crc32 (l : List Byte) : Nat := crcFold l 0xFFFFFFFF ^^^ 0xFFFFFFFF

/-! ### The VALID_OUT pair and the safe state (R411–R413, R542–R549) -/

/-- The state of stream `k`: 0 OFF, 1 VALID, 2 INVALID, 3 RECOVERING (R410). -/
def streamState (s : State) (k : Nat) : Nat := fld s (NETIN_OUT_STATUS k) 1 0

/-- Bit k set: stream k has safety set and is not VALID (R413). -/
def unsafeStreams (s : State) : Nat :=
  ((List.range 32).map (fun k => if bit (live s (NETIN_OUT_CTRL k)) 4 && decide (streamState s k ≠ 1) then 2 ^ k else 0)).sum

/-- Kingpost holds the safe state. -/
def inSafeState (s : State) : Bool := bit (rd s KINGPOST_SAFETY_STATE) 0

/-- The 32 data bytes of the safe-state message (R413). -/
def safeMessage (s : State) : List Byte :=
  let st := rd s NETIN_VLINK_STATE
  let body := leBytes 1 1 ++ leBytes 1 (if bit st 0 then 0x5A else 0xA5) ++ leBytes 1 (bits st 15 8) ++
    leBytes 1 (bits st 23 16) ++ leBytes 4 (unsafeStreams s) ++
    leBytes 8 (rd64 s NETIN_VLINK_CHANGE_LO NETIN_VLINK_CHANGE_HI) ++ leBytes 8 s.ridge.ns ++ leBytes 4 0
  body ++ leBytes 4 (crc32 body)

/-- Queues the safe-state message in transmit slot 15 and advances its counter, if msg_en is set (R413). -/
def queueSafeMessage (s : State) : State :=
  if bit (rd s NETIN_VLINK_CTRL) 1 then
    setFld NETIN_VLINK_STATE 15 8 (fld s NETIN_VLINK_STATE 15 8 + 1)
      { s with out := { s.out with slot15 := some (safeMessage s) } }
  else s

/-- Kingpost may drive the pair valid (R412, R504, R546). -/
def mayBeValid (s : State) : Bool :=
  bit (rd s NETIN_VLINK_CTRL) 0 && decide (fld s SILL_PACKAGE 3 0 ≠ 0) && !inSafeState s && decide (unsafeStreams s = 0) && !s.sec.fuses.returned &&
    !bit (rd s KINGPOST_SAFETY_STATE) 4

/-- Drives the pair to a level; a change is stamped, counted, raised and followed by a message (R412, R413). -/
def drivePair (valid : Bool) (reason : Nat) (s : State) : State :=
  if bit (rd s NETIN_VLINK_STATE) 0 = valid then s
  else
    let s := setFld NETIN_VLINK_STATE 23 16 reason (setFld NETIN_VLINK_STATE 0 0 (b2n valid) s)
    let s := setFld KINGPOST_SAFETY_STATE 2 2 (b2n valid) s
    let s := wr64 NETIN_VLINK_CHANGE_LO NETIN_VLINK_CHANGE_HI s.ridge.ns (inc NETIN_VLINK_TRANSITIONS s)
    queueSafeMessage (emit (.validOut valid) (raise 0x3063 reason s))

/-- Why the pair is not valid: 1 a deadline miss or 2 an INVALID verdict, where such a miss is the first cause or the last that took
the safe state, 3 Kingpost, 4 valid_out_en clear (R413, R547). -/
def pairReason (s : State) : Nat :=
  if inSafeState s then (if fld s KINGPOST_SAFETY_STATE 15 8 = 19 then s.kp.cause else 3)
  else if !bit (rd s NETIN_VLINK_CTRL) 0 then 4
  else if bit (rd s KINGPOST_SAFETY_STATE) 4 || s.sec.fuses.returned then 3
  else s.kp.cause

/-- Brings the pair to the level that R412 gives, and the reason up to date. -/
def updatePair (s : State) : State :=
  if mayBeValid s then drivePair true 0 s
  else if bit (rd s NETIN_VLINK_STATE) 0 then drivePair false (pairReason s) s
  else setFld NETIN_VLINK_STATE 23 16 (pairReason s) s

/-- The faults whose first report takes the safe state: classes S and P (R542, R543). -/
def safeFaults : List Nat := [0, 1, 13, 14, 18, 19, 20, 21, 22, 24, 25, 27, 28]

/-- The faults with a condition that keeps FAULT_HOLD set (R543). -/
def holdFaults : List Nat := [0, 1, 3, 5, 13, 14, 20, 21, 22, 24, 25, 28]

/-- Entry into the safe state (R547). -/
def enterSafe (f cause : Nat) (s : State) : State :=
  if inSafeState s then s
  else
    let s := wr64 KINGPOST_SAFE_ENTRY_LO KINGPOST_SAFE_ENTRY_HI s.ridge.ns s
    let s := inc KINGPOST_SAFE_ENTRIES (setFld KINGPOST_SAFETY_STATE 15 8 f s)
    let s := setMask KINGPOST_SAFETY_STATE 3 { s with kp := { s.kp with rotated := false, cause := if f = 19 then max 1 cause else s.kp.cause } }
    let s := setFld NETIN_VLINK_STATE 1 1 1 s
    let s := { s with recd := { s.recd with sessions := s.recd.sessions.modify 0 (fun e =>
      if e.firstFault = 0xFF then { e with firstFault := f } else e) } }
    updatePair (raise 0xE001 f s)

/-- A fault report reaches Kingpost: counted, latched, held, and answered by its class (R542, R543). -/
def faultX (f cause : Nat) (s : State) : State :=
  let s := setMask KINGPOST_FAULT_LATCH (2 ^ f) (incFld (KINGPOST_FAULT_COUNT f) 15 0 1 s)
  let s := if holdFaults.contains f then setMask KINGPOST_FAULT_HOLD (2 ^ f) s else s
  if safeFaults.contains f then enterSafe f cause s else s

def fault (f : Nat) (s : State) : State := faultX f 0 s

/-- The condition of a fault no longer holds (R543). -/
def faultEnds (f : Nat) (s : State) : State := clearMask KINGPOST_FAULT_HOLD (2 ^ f) s

/-- A line refused by the Fence: counted, the first captured, raised and reported; of a closed domain only counted; a client domain
with more than 10,000 refusals within 1 s is quiesced by Kingpost, its objects at DOMAIN_SETTLED (R483, R544). `agent` is the code of
FENCE.FIRST_DENIED. -/
def refuseLine (tag line agent : Nat) (write : Bool) (s : State) : State :=
  let agent := agent % 8
  let s := inc FENCE_DENIED s
  let s := if tag < 64 then incFld (FENCE_DOMAIN_STATE tag) 31 16 1 s else s
  if decide (tag < 64) && closedDomain s tag then s
  else
    let s := if bit (rd s FENCE_FIRST_DENIED) 31 then s
      else wr64 FENCE_FIRST_ADDR_LO FENCE_FIRST_ADDR_HI line
        (wr FENCE_FIRST_DENIED (2 ^ 31 + agent * 512 + b2n write * 256 + tag) s)
    let times := (tgetD tag [] s.kp.refusals ++ [s.ridge.ns]).filter (fun t => decide (s.ridge.ns < t + 1000000000))
    let s := fault 12 (raise 0xA001 tag { s with kp.refusals := tput tag times s.kp.refusals })
    if 1 ≤ tag ∧ tag < 64 ∧ 10000 < times.length then
      raise 0xE00D tag (setMask (FENCE_DOMAIN_STATE tag) 0xB { s with kp.quiesceDue := linsert tag s.kp.quiesceDue })
    else s

/-- Refuses every line of a range that the Fence does not let through. -/
def refuseLines (tag a n agent : Nat) (write : Bool) (s : State) : State :=
  (linesOf a n).foldl (fun s' l => if admitLine s tag l write then s' else refuseLine tag l agent write s') s

/-- A checker's self-test: one that fails latches its fault, and 10 correct ones in a row clear it (R111, R132, R545). `c` is
the camera port, or 16 and the scanner port. -/
def checkerTest (c : Nat) (correct : Bool) (s : State) : State :=
  let f := if c < 16 then 3 else 5
  let latched := bit (rd s KINGPOST_CHECKER_LATCH) c
  if !correct then
    let s := setMask KINGPOST_CHECKER_LATCH (2 ^ c) { s with kp.goodTests := tput c 0 s.kp.goodTests }
    fault f (if latched then s else raise 0xE00C c s)
  else if latched then
    let n := tgetD c 0 s.kp.goodTests + 1
    if n < 10 then { s with kp.goodTests := tput c n s.kp.goodTests }
    else
      let s := raise 0xE00C c (clearMask KINGPOST_CHECKER_LATCH (2 ^ c) { s with kp.goodTests := tdel c s.kp.goodTests })
      if (if c < 16 then fld s KINGPOST_CHECKER_LATCH 15 0 else fld s KINGPOST_CHECKER_LATCH 23 16) = 0 then faultEnds f s else s
  else s

/-- The bytes of a read by a domain: a refused line arrives poisoned (R483); the answer also says whether any word did. -/
def fencedPoison (s : State) (tag a n : Nat) : Bool := !admitAll s tag a n false || poisoned s a n

/-- A poisoned word is read: counted for its memory and raised (R464, R475). -/
def poisonRead (w : Nat) (s : State) : State :=
  let a := 8 * w
  if a < loftBase then
    let b := a / stackBytes % 4
    raise 0xF022 (b * 2 ^ 30 + a / 64 % 2 ^ 26) (setMask (BAY_MEM_STATUS b) 4 (inc (BAY_DRAM_POISON_READ b) s))
  else
    let b := (a - loftBase) / loftWindow % 4
    raise 0xF022 (b * 2 ^ 30 + 2 ^ 29 + a / 64 % 2 ^ 26) (setMask (BAY_MEM_STATUS b) 4 (inc (BAY_LOFT_POISON_READ b) s))

/-- What a read of a range by a domain leaves: refused lines and poisoned words are counted and raised (R464, R483). -/
def noteRead (tag a n agent : Nat) (s : State) : State :=
  let s' := refuseLines tag a n agent false s
  (wordsOf a n).foldl (fun s' w => if s.poison.contains w && admitLine s tag (8 * w / 64 * 64) false then poisonRead w s' else s') s'

/-- The same for a list of ranges, each line and each word taken once. -/
def noteSpans (tag agent : Nat) (spans : List (Nat × Nat)) (s : State) : State :=
  let words := (spans.flatMap (fun p => wordsOf p.1 p.2)).eraseDups
  let lines := (words.map (fun w => 8 * w / 64 * 64)).eraseDups
  let s' := lines.foldl (fun s' l => if admitLine s tag l false then s' else refuseLine tag l agent false s') s
  words.foldl (fun s' w => if s.poison.contains w && admitLine s tag (8 * w / 64 * 64) false then poisonRead w s' else s') s'

/-- A write by a domain: a refused line is dropped, and the bytes of the other lines are written (R483); what needs a lost link is
dropped and counted (R460). -/
def fencedWrite (tag agent : Nat) (w : MemWrite) (s : State) : State :=
  if cutOff s (agentBay agent) w.addr then
    refuseLines tag w.addr w.data.length agent true (inc (BAY_LINK_DROP (bayOf w.addr)) s)
  else if admitAll s tag w.addr w.data.length true then writeMem w s
  else
    let parts := (linesOf w.addr w.data.length).map (fun l =>
      let lo := max l w.addr
      let hi := min (l + 64) (w.addr + w.data.length)
      (l, MemWrite.mk lo ((w.data.drop (lo - w.addr)).take (hi - lo)) w.poison))
    parts.foldl (fun s' p => if admitLine s tag p.1 true then writeMem p.2 s' else refuseLine tag p.1 agent true s') s

/-- Copies `n` bytes for a domain, poison carried with them, word by word (R220, R328). -/
def copyMem (tag agent a b n : Nat) (s : State) : State :=
  let s := noteRead tag a n agent s
  (List.range (ceilDiv n 8)).foldl (fun s i =>
    let m := min 8 (n - 8 * i)
    fencedWrite tag agent ⟨b + 8 * i, readBytes s (a + 8 * i) m, fencedPoison s tag (a + 8 * i) m⟩ s) s

/-! ### Epochs and quotas (R85, R438) -/

/-- The epoch that unit `u` runs (R85, R86). -/
def unitEpoch (s : State) (u : Nat) : Nat := tgetD u (fld s RIDGE_EPOCH_STATE 15 0) s.ridge.unitEpoch

/-- The epoch that unit `u` ran, or runs, for something that began at Ridge time `t` (R115). -/
def epochAt (s : State) (u t : Nat) : Nat :=
  if t < tgetD u 0 s.ridge.unitSince then tgetD u 0 s.ridge.unitPrev else unitEpoch s u

/-- The word of a configuration register that governs what began at `t` under unit `u`. -/
def liveAt (s : State) (u t : Nat) (r : Reg) : Nat :=
  if t < tgetD u 0 s.ridge.unitSince then (match tget r.addr s.prevLive with | some w => w.toNat | none => r.reset) else live s r

/-- Epoch `a` is later than epoch `b` by serial-number arithmetic (R85). -/
def epochLater (a b : Nat) : Bool :=
  decide (1 ≤ (a + 65536 - b) % 65536) && decide ((a + 65536 - b) % 65536 ≤ 32767)

/-- The quota of a resource at package reset (R438); the owner's memory is not limited. -/
def quotaReset (d r : Nat) : Nat :=
  if d = 0 then [0xFFFFFFFF, 16384, 8192, 262144, 1016, 32, 64, 64, 256, 320].getD r 0
  else [0, 16384, 64, 1024, 16, 2, 2, 4, 8, 0].getD r 0

def quotaOf (s : State) (d r : Nat) : Nat := tgetD (16 * d + r) (quotaReset d r) s.mb.quotas

/-- Adds one to a bin of a histogram (R592). -/
def histo (id bin : Nat) (s : State) : State :=
  { s with recd := { s.recd with histos := tput (32 * id + bin) (tgetD (32 * id + bin) 0 s.recd.histos + 1) s.recd.histos } }

/-- The bin of a logarithmic histogram (R592). -/
def logBin (v : Nat) : Nat := if v = 0 then 0 else min 31 (Nat.log2 v + 1)

/-- The bin of a linear histogram with the given lowest value and step (R592). -/
def linBin (lo step v : Int) : Nat := min 31 ((v - lo) / step).toNat

/-- Enters a value of an extreme; only a strictly lower or higher value replaces the old one (R593). -/
def extreme (k : Nat) (v : Int) (s : State) : State :=
  let l := s.recd.life
  let e := match tget k s.recd.extremes with
    | none => Extreme.mk v v l l
    | some e =>
      let e := if v < e.min then { e with min := v, minAt := l } else e
      if e.max < v then { e with max := v, maxAt := l } else e
  { s with recd := { s.recd with extremes := tput k e s.recd.extremes } }

end Sys2Proof.Machine
end

