-- ==== Sys2Proof/Machine/LedgerOps.lean ====
section
/-! DEFINITION. The Ledger's tables: caches, pages and slots, sequences and their lists, and the log of a provisional
instance (R316–R336). -/

namespace Sys2Proof.Machine
open Sys2Proof

/-! ### Caches (R316, R317) -/

def cdWindow (d : List Byte) : Bool := bit (fieldU d 1 1) 0
def cdMask (d : List Byte) : Nat := fieldU d 2 1 % 16
def cdLayers (d : List Byte) : Nat := fieldU d 3 1
def cdHeads (d : List Byte) : Nat := fieldU d 4 1
def cdFormat (d : List Byte) : Nat := fieldU d 5 1
def cdHeadDim (d : List Byte) : Nat := fieldU d 6 2
def cdWindowTokens (d : List Byte) : Nat := fieldU d 8 4
def cdSinks (d : List Byte) : Nat := fieldU d 12 2
def cdMaxPages (d : List Byte) : Nat := fieldU d 16 4
def cdSlots (d : List Byte) : Nat := fieldU d 20 4
def cdRing (d : List Byte) : Nat := fieldU d 24 4
def cdPeg (d : List Byte) : Nat := fieldU d 28 2
def cdLimit (d : List Byte) : Nat := fieldU d 32 4
def cdBase (d : List Byte) (arr bay : Nat) : Nat := fieldU d (40 + 32 * arr + 8 * bay) 8
/-- Window caches: the list positions beyond the sink pages (R321). -/
def cdRingPages (d : List Byte) : Nat := ceilDiv (cdWindowTokens d) 64 + 1
/-- Element width in bits, and whether the format is block-scaled. -/
def cdBits (d : List Byte) : Nat := [0, 8, 0, 0, 0, 8, 8, 4, 6, 6, 8, 16, 16].getD (cdFormat d) 0
def cdScaled (d : List Byte) : Bool := decide (7 ≤ cdFormat d) && decide (cdFormat d ≤ 10)
/-- Bytes of a key or value array, and of a scale array (R317). -/
def cdArrayBytes (d : List Byte) : Nat := ceilDiv (cdSlots d * 64 * cdLayers d * cdHeads d * cdHeadDim d * cdBits d) 8
def cdScaleBytes (d : List Byte) : Nat := cdLayers d * cdSlots d * 64 * cdHeads d * (cdHeadDim d / 32)

/-- The arrays of a cache: base and length (R318). -/
def cdArrays (d : List Byte) : List (Nat × Nat) :=
  ((List.range 4).filter (bit (cdMask d))).flatMap (fun b =>
    [(cdBase d 0 b, cdArrayBytes d), (cdBase d 1 b, cdArrayBytes d)] ++
    (if cdScaled d then [(cdBase d 2 b, cdScaleBytes d), (cdBase d 3 b, cdScaleBytes d)] else []))

/-- The cache of a number, if a domain owns it (R316). -/
def cacheOf (s : State) (dom c : Nat) : Option (List Byte) :=
  (tget c s.ledger.caches).bind (fun x => if x.owner = dom then some x.bytes else none)

def cacheDesc (s : State) (c : Nat) : List Byte := ((tget c s.ledger.caches).map (·.bytes)).getD []

/-! ### Pages and slots (R319, R320, R323, R333) -/

def pageOf (s : State) (p : Nat) : Page := tgetD p {} s.ledger.pages
def putPage (p : Nat) (x : Page) (s : State) : State := { s with ledger.pages := tput p x s.ledger.pages }
def modPage (p : Nat) (f : Page → Page) (s : State) : State := putPage p (f (pageOf s p)) s

/-- A page becomes FREE and loses its slot; its generation stays with the record (R323, R331). -/
def freePage (p : Nat) (s : State) : State :=
  modPage p (fun x => { gen := x.gen : Page }) s

/-- Slots of a cache that pages hold. -/
def usedSlots (s : State) (c : Nat) : List Nat :=
  s.ledger.pages.filterMap (fun q => if q.2.cache = c && q.2.state ≠ .free then q.2.slot else none)

def freeSlots (s : State) (c : Nat) : Nat := cdSlots (cacheDesc s c) - (usedSlots s c).length

/-- The lowest number not in a list. -/
def lowestNotIn (l : List Nat) : Nat := ((List.range (l.length + 1)).find? (fun n => !l.contains n)).getD 0

/-- Buffer entries that hold a page are invalidated on every Bay (R332). -/
def labDrop (keep : Nat × Nat × Nat → Bool) (s : State) : State :=
  { s with ledger.lab := s.ledger.lab.map (fun p => (p.1, p.2.filter keep)) }

/-- The (cache, sequence, leaf) triples whose leaf maps a page. -/
def leavesOf (s : State) (p : Nat) : List (Nat × Nat × Nat) :=
  s.ledger.seqs.flatMap (fun q => q.2.list.filterMap (fun e => if e.2 = p then some (q.2.cache, q.1, e.1 / 64) else none))

def labDropPage (p : Nat) (s : State) : State := let l := leavesOf s p; labDrop (fun k => !l.contains k) s

/-- A drop victim: the least recently read full droppable page, ties to the lowest number (R333). -/
def victim (s : State) (c serial : Nat) : Option Nat :=
  let ok := s.ledger.pages.filter (fun q => decide (q.2.cache = c) && decide (q.2.state = .resident) && q.2.droppable &&
    decide (q.2.fill = 64) && decide (q.2.pins = 0))
  let age := fun (x : Page) => (serial + 2 ^ 32 - x.lastRead) % 2 ^ 32
  (ok.foldl (fun (a : Option (Nat × Nat)) q => match a with
    | some (_, g) => if g < age q.2 then some (q.1, age q.2) else a
    | none => some (q.1, age q.2)) none).map (·.1)

/-- A page is dropped: it keeps its record and loses its slot (R323, R333). -/
def dropPage (p : Nat) (s : State) : State :=
  let x := pageOf s p
  let s := labDropPage p (putPage p { x with state := .dropped, slot := none } s)
  raise 0x9002 (x.cache * 2 ^ 24 + x.seq) (setMask LEDGER_STATUS 2 (inc LEDGER_DROPS s))

/-- A slot for a new page: the lowest free one, or that of a page dropped for it (R333). -/
def findSlot (c : Nat) (prov dropEn : Bool) (serial : Nat) (s : State) : Option (Nat × State) :=
  if 0 < freeSlots s c then some (lowestNotIn (usedSlots s c), s)
  else if prov || !dropEn then none
  else match victim s c serial with
    | none => none
    | some v => (pageOf s v).slot.map (fun k => (k, dropPage v s))

/-- Page records of a cache that are not FREE. -/
def pagesUsed (s : State) (c : Nat) : Nat := (s.ledger.pages.filter (fun q => decide (q.2.cache = c) && decide (q.2.state ≠ .free))).length

/-- The lowest page record that is FREE (R327, R633). -/
def lowestFreePage (s : State) : Nat := lowestNotIn ((s.ledger.pages.filter (fun q => decide (q.2.state ≠ .free))).map (·.1))

/-- A reference is taken away: the page is freed, or waits for its pins (R323). -/
def dropRefNow (p : Nat) (s : State) : State :=
  let x := pageOf s p
  let x := { x with refcount := x.refcount - 1 }
  let s := putPage p x s
  if x.refcount ≠ 0 then s
  else match x.state with
    | .resident => if x.pins = 0 then freePage p s else labDropPage p (putPage p { x with state := .retiring } s)
    | .dropped => freePage p s
    | .recomputing => putPage p { x with state := .retiring } s
    | _ => s

/-- A pin, which saturates; a saturated one stays until the page is FREE (R320, R331). -/
def pinPage (p : Nat) (s : State) : State :=
  modPage p (fun x => if x.pins < 65535 then { x with pins := x.pins + 1 } else { x with pinsSat := true }) s

def unpinPage (p : Nat) (s : State) : State :=
  let x := pageOf s p
  if x.pinsSat ∨ x.pins = 0 then s
  else
    let s := putPage p { x with pins := x.pins - 1 } s
    if x.pins = 1 ∧ x.state = .retiring then freePage p s else s

/-- The pins of an instance are released (R331). -/
def releasePins (keep : LedPin → Bool) (s : State) : State :=
  let gone := s.ledger.pins.filter (fun p => !keep p)
  gone.foldl (fun s g => g.pages.foldl (fun s p => unpinPage p s) s) { s with ledger.pins := s.ledger.pins.filter keep }

/-! ### Sequences, as an instance sees them (R336) -/

/-- The entry of a sequence as instance `i` sees it: what it has logged last, or the table (R336). -/
def seqSeen (s : State) (i q : Nat) : Option Seq :=
  match tget i s.scribe.insts with
  | none => tget q s.ledger.seqs
  | some x => x.ledgerLog.foldl (fun a o => match o with | .setSeq q' e => if q' = q then e else a | _ => a) (tget q s.ledger.seqs)

def logOp (i : Nat) (o : LogOp) (s : State) : State :=
  { s with scribe.insts := tmod i (fun x => { x with ledgerLog := x.ledgerLog ++ [o] }) s.scribe.insts }

/-- A change of a sequence entry: at once, or logged by a provisional instance, which then holds the sequence (R336). -/
def setSeq (i q : Nat) (prov : Bool) (e : Option Seq) (s : State) : State :=
  if prov then { logOp i (.setSeq q e) s with ledger.held := tput q i s.ledger.held }
  else
    let old := ((tget q s.ledger.seqs).map (·.list)).getD []
    let new_ := (e.map (·.list)).getD []
    let changed := (old ++ new_).filterMap (fun p => if tget p.1 old = tget p.1 new_ then none else some (p.1 / 64))
    let s := labDrop (fun k => decide (k.2.1 ≠ q) || (!changed.contains k.2.2 && e.isSome)) s
    match e with
    | some x => { s with ledger.seqs := tput q x s.ledger.seqs }
    | none => { s with ledger.seqs := tdel q s.ledger.seqs }

/-- The references of a page as instance `i` sees them (R336). -/
def refSeen (s : State) (i p : Nat) : Nat :=
  match tget i s.scribe.insts with
  | none => (pageOf s p).refcount
  | some x => x.ledgerLog.foldl (fun n o => match o with
      | .addRef q => if q = p then n + 1 else n
      | .dropRef q => if q = p then n - 1 else n
      | _ => n) (pageOf s p).refcount

def addRef (i p : Nat) (prov : Bool) (s : State) : State :=
  if prov then logOp i (.addRef p) s else modPage p (fun x => { x with refcount := x.refcount + 1 }) s
def dropRef (i p : Nat) (prov : Bool) (s : State) : State := if prov then logOp i (.dropRef p) s else dropRefNow p s

/-- A sequence that another instance holds (R336). -/
def heldByOther (s : State) (i q : Nat) : Bool := match tget q s.ledger.held with | some j => decide (j ≠ i) | none => false

/-- Applies one logged change at a commit (R278, R336). -/
def applyLog (o : LogOp) (s : State) : State :=
  match o with
  | .newPage p => modPage p (fun x => if x.state = .prov then { x with state := .resident } else x) s
  | .addRef p => modPage p (fun x => { x with refcount := x.refcount + 1 }) s
  | .dropRef p => dropRefNow p s
  | .setSeq q e => setSeq 0 q false e s
  | .refill p g =>
    let x := pageOf s p
    if x.state = .recomputing ∧ x.gen = g then labDropPage p (putPage p { x with state := .resident } s) else s

/-- What an instance holds is let go. -/
def unhold (i : Nat) (s : State) : State := { s with ledger.held := s.ledger.held.filter (fun p => p.2 ≠ i) }

/-- Step 2 of a commit: the log is applied in order (R278). -/
def commitLedger (i : Nat) (x : Inst) (s : State) : State :=
  unhold i (x.ledgerLog.foldl (fun s o => applyLog o s) s)

/-- Step 2 of a discard: the log is dropped, provisional pages and slots are freed, and the pins released (R279, R336). -/
def discardLedger (i : Nat) (x : Inst) (s : State) : State :=
  let s := x.ledgerLog.foldl (fun s o => match o with
    | .newPage p => if (pageOf s p).state = .prov then freePage p s else s
    | _ => s) s
  releasePins (fun p => decide (p.inst ≠ i)) (unhold i { s with ledger.runs := tdel i s.ledger.runs })

/-- An aborted instance stops between entries: what it has processed stands (R325). -/
def stopLedger (i : Nat) (s : State) : State := { s with ledger.runs := tdel i s.ledger.runs }

/-- Some page that a READ lists is RECOMPUTING (R334). -/
def recomputing (s : State) (r : LedRun) : Bool :=
  r.lists.any (fun l => l.entries.any (fun x => !r.absent.contains x.1 && decide ((pageOf s x.1).state = .recomputing)))

end Sys2Proof.Machine
end

