-- ==== Sys2Proof/Machine/Geometry.lean ====
section
/-! DEFINITION. Fixed-point geometry: rounding, square roots, unit quaternions in Q1.30 and their rotations (R135, R140,
R152, R156). -/

namespace Sys2Proof.Machine
open Sys2Proof

/-- `a / 2^k` rounded to the nearest unit, halves up (R135, R152). -/
def shiftRound (a : Int) (k : Nat) : Int := (a + 2 ^ (k - 1)) / 2 ^ k

/-- `n / d` rounded to the nearest unit, halves up. -/
def divHalfUp (n d : Int) : Int := (2 * n + d) / (2 * d)

/-- One step of Newton's iteration for the integer square root, repeated. -/
def sqrtIter (n : Nat) : Nat → Nat → Nat
  | 0, x => x
  | k + 1, x => let y := (x + n / max 1 x) / 2; if x ≤ y then x else sqrtIter n k y

/-- The integer square root, rounded down. -/
def isqrt (n : Nat) : Nat := sqrtIter n 512 (2 ^ (Nat.log2 n / 2 + 1))

def dot (a b : List Int) : Int := ((a.zip b).map (fun p => p.1 * p.2)).sum

/-- Unit quaternion in Q1.30: each component within one unit in the last place (R152). A zero quaternion has no direction, and
its components stay free. -/
def norm (q : List Int) : List Int :=
  let n := (dot q q).toNat
  (q.zipIdx).map (fun p =>
    let sq := p.1.natAbs * p.1.natAbs * 2 ^ 60
    let r := isqrt (sq / max 1 n)
    let u := Config.normUnit q p.2
    let m := if u = 1 then r + 1 else if u = 2 ∧ r * r * n = sq then r - 1 else r
    if p.1 < 0 then -(m : Int) else m)

/-- The rotation matrix of a unit quaternion (w, x, y, z), row by row, in Q2.30 (R156). -/
def rotation (q : List Int) : List Int :=
  let w := q.getD 0 0; let x := q.getD 1 0; let y := q.getD 2 0; let z := q.getD 3 0
  let h := fun (v : Int) => shiftRound (2 * v) 30
  let one : Int := 2 ^ 30
  [one - h (y * y + z * z), h (x * y - w * z), h (x * z + w * y),
   h (x * y + w * z), one - h (x * x + z * z), h (y * z - w * x),
   h (x * z - w * y), h (y * z + w * x), one - h (x * x + y * y)]

def transpose (m : List Int) : List Int := [0, 3, 6, 1, 4, 7, 2, 5, 8].map (fun i => m.getD i 0)

/-- A Q2.30 matrix times a vector, rounded half up. -/
def matVec (m v : List Int) : List Int :=
  (List.range 3).map (fun r => shiftRound (dot ((m.drop (3 * r)).take 3) v) 30)

/-- The product of two Q2.30 matrices. -/
def matMul (a b : List Int) : List Int :=
  (List.range 9).map (fun k =>
    shiftRound (dot ((a.drop (3 * (k / 3))).take 3) ((List.range 3).map (fun j => b.getD (3 * j + k % 3) 0))) 30)

/-- The signed little-endian numbers of `w` bytes each in a byte list. -/
def signedWords (w : Nat) : Nat → List Byte → List Int
  | 0, _ => []
  | n + 1, bs => toSigned (8 * w) (leNat (bs.take w)) :: signedWords w n (bs.drop w)

end Sys2Proof.Machine
end

