-- ==== Sys2Proof/Machine/PlanerDesc.lean ====
section
/-! DEFINITION. The Planer's descriptor: its fields and the reasons for which it is rejected (R173, R174). -/

namespace Sys2Proof.Machine
open Sys2Proof

def pdSlice (d : List Byte) : Nat := fieldU d 4 2 * 1000
def pdLag (d : List Byte) : Nat := fieldU d 6 2 * 1000
def pdWait (d : List Byte) : Nat := fieldU d 8 4 * 1000
def pdExtrap (d : List Byte) : Nat := fieldU d 12 4 * 1000
def pdPeriod (d : List Byte) : Nat := fieldU d 16 4
def pdPhase (d : List Byte) : Nat := fieldU d 20 4
def pdRef (d : List Byte) : Nat := fieldU d 24 4
def pdCap (d : List Byte) : Nat := fieldU d 28 4
def pdOrigin (d : List Byte) (i : Nat) : Int := fieldS d (32 + 4 * i) 4
def pdVoxel (d : List Byte) (i : Nat) : Nat := fieldU d (44 + 2 * i) 2
def pdCount (d : List Byte) (i : Nat) : Nat := fieldU d (50 + 2 * i) 2
def pdRule (d : List Byte) : Nat := bits (fieldU d 1 1) 2 1
def pdEnabled (d : List Byte) : Bool := bit (fieldU d 1 1) 0
def pdEdge (d : List Byte) (b : Nat) : Nat := fieldU d (80 + 2 * b) 2
def pdPrio (d : List Byte) (b : Nat) : Nat := bits (fieldU d 112 8) (4 * b + 3) (4 * b)
def pdQ (d : List Byte) (p : Nat) : List Int := signedWords 4 4 (d.drop (192 + 32 * p))
def pdT (d : List Byte) (p : Nat) : List Int := signedWords 4 3 (d.drop (208 + 32 * p))
def pdPeg (d : List Byte) : Nat := fieldU d 130 2
def pdRing (d : List Byte) : Nat := fieldU d 132 3
def pdOutBase (d : List Byte) : Nat := fieldU d 152 8
def pdOutStride (d : List Byte) : Nat := fieldU d 160 4
def pdOutSlots (d : List Byte) : Nat := fieldU d 164 1
/-- Bytes of one bitmap: one bit per voxel index, rounded up to 4 KiB (R165, R173). -/
def pdBitmap (d : List Byte) : Nat := ceilDiv (ceilDiv (pdCount d 0 * pdCount d 1 * pdCount d 2) 8) 4096 * 4096

/-- The areas that a descriptor names: offset of the field, base and length (R173). -/
def pdAreas (d : List Byte) : List (Nat × Nat × Nat) :=
  [(120, fieldU d 120 8, 64 * fieldU d 128 2), (136, fieldU d 136 8, 96 * pdCap d), (144, fieldU d 144 8, 2 * pdBitmap d),
   (152, pdOutBase d, pdOutStride d * pdOutSlots d)]

/-- An area is aligned to 64 bytes and lies in memory allocated to the owner domain, with the write right (R174, R472). -/
def areaOk (s : State) (base len : Nat) : Bool := decide (base % 64 = 0) && (len = 0 || holdsRange s 0 base len true true)

/-- The first test that fails, as reason and offset. -/
def firstReason : List (Bool × Nat × Nat) → Option (Nat × Nat)
  | [] => none
  | (bad, r, o) :: l => if bad then some (r, o) else firstReason l

/-- Why a Planer descriptor is rejected: reason and byte offset of the field (R174). -/
def planerReject (s : State) (d : List Byte) : Option (Nat × Nat) :=
  let out := fun (v lo hi : Nat) => decide (v < lo) || decide (hi < v)
  firstReason ([
    (decide (fieldU d 0 1 ≠ 1), 1, 0), (decide (pdRule d = 3), 2, 1),
    (out (fieldU d 4 2) 500 8000, 3, 4), (out (fieldU d 6 2) 500 20000, 3, 6), (decide (50000 < fieldU d 8 4), 3, 8),
    (decide (50000 < fieldU d 12 4), 3, 12),
    (out (pdPeriod d) 10000000 200000000 || decide (pdPeriod d % max 1 (pdSlice d) ≠ 0), 4, 16),
    (decide (250000000 < pdPeriod d + pdLag d + pdWait d), 5, 16),
    (decide (3 * pdPeriod d * 10000 < 4 * (10000 * (pdLag d + pdWait d) + pdCap d * 78125)), 5, 16),
    (decide (pdPeriod d ≤ pdPhase d), 6, 20), (decide (pdPeriod d < pdRef d), 6, 24)] ++
    (List.range 3).map (fun i => (out (pdVoxel d i) 20 1600, 7, 44 + 2 * i)) ++
    [(out (pdCount d 0) 1 4096, 8, 50), (out (pdCount d 1) 1 4096, 8, 52), (out (pdCount d 2) 1 256, 8, 54),
     (decide (2 ^ 28 < pdCount d 0 * pdCount d 1 * pdCount d 2), 8, 50)] ++
    (List.range 14).map (fun b => (decide (pdEdge d (b + 1) ≤ pdEdge d b), 9, 82 + 2 * b)) ++
    [(out (pdCap d) 1 4194304, 10, 28), (decide (pdOutStride d < 64 + 32 * pdCap d) || decide (pdOutStride d % 64 ≠ 0), 11, 160)] ++
    (pdAreas d).map (fun a => (!areaOk s a.2.1 a.2.2, 11, a.1)) ++
    [(decide (8191 < pdPeg d), 12, 130), (decide (262143 < pdRing d), 12, 132)] ++
    (List.range 8).map (fun p => (decide (dot (pdQ d p) (pdQ d p) < 2 ^ 58), 13, 192 + 32 * p)) ++
    [(out (fieldU d 128 2) 16 4096, 14, 128), (out (pdOutSlots d) 2 8, 14, 164)])

/-- A descriptor is read with the owner's rights and judged; one that cannot be read is rejected as an area outside memory
(R174, R632). -/
def planerStage (addr : Nat) (s : State) : Nat × State :=
  let d := readBytes s addr 512
  let r := if addr % 64 ≠ 0 || !readable s 0 addr 512 then some (11, 0) else planerReject s d
  match r with
  | none => (0, { s with plan.staged := some d })
  | some (reason, off) =>
    let e := reason + 65536 * off
    (e, raise 0x4020 reason (setMask PLANER_STATUS 0x40 (wr PLANER_DESC_ERR e s)))

end Sys2Proof.Machine
end

