-- ==== Sys2Proof/Machine/MbOps.lean ====
section
/-! DEFINITION. The mailbox: the layout of requests and responses, the checks at acceptance, and answering a command
(R423–R437). -/

namespace Sys2Proof.Machine
open Sys2Proof

/-- The word at a BAR0 address, with reset value zero: the words of the command slots (R424). -/
def rdWord (s : State) (a : Nat) : Nat := rd s ⟨a, 0⟩
def wrWord (a v : Nat) (s : State) : State := wr ⟨a, 0⟩ v s

/-- The address of slot `k` of function `f` (R424). -/
def slotAddr (f k : Nat) : Nat := 0x200000 + 0x1000 * f + 0x200 + 0xE0 * k

/-- Byte `o` of slot `k` of function `f`, or of the command accepted from it whose page a reset has cleared (R421). -/
def slotByte (s : State) (f k o : Nat) : Nat :=
  match (tget (16 * f + k) s.mb.accepted).bind (·.request) with
  | some b => fieldU b o 1
  | none => bits (rdWord s ((slotAddr f k + o) / 4 * 4)) (8 * (o % 4) + 7) (8 * (o % 4))

/-- `n` bytes of a slot from byte `o`. -/
def slotBytes (s : State) (f k o n : Nat) : List Byte := (List.range n).map (fun i => BitVec.ofNat 8 (slotByte s f k (o + i)))

/-- The little-endian number in `n` bytes of a slot. -/
def slotNat (s : State) (f k o n : Nat) : Nat := leNat (slotBytes s f k o n)

/-- The parameters of each opcode in catalogue order: 1, 2, 4 or 8 for a number of that size, 100 + n for a block of n bytes,
and whether the owner alone may use it and whether it is staged (R437, R440). -/
structure CmdRow where
  opcode : Nat
  params : List Nat
  owner : Bool := false
  staged : Bool := false
  deriving DecidableEq, Repr

/-- The command catalogue (R440). -/
def catalogue : List CmdRow :=
  [ { opcode := 0x0101, params := [2, 2, 8] }, { opcode := 0x0102, params := [] }, { opcode := 0x0103, params := [] },
    { opcode := 0x0104, params := [] }, { opcode := 0x0201, params := [8, 1, 1, 2] }, { opcode := 0x0202, params := [8] },
    { opcode := 0x0203, params := [8, 1, 1] }, { opcode := 0x0204, params := [8, 8, 8] },
    { opcode := 0x0205, params := [8, 8, 8] }, { opcode := 0x0206, params := [8] }, { opcode := 0x0207, params := [4] },
    { opcode := 0x0208, params := [4] }, { opcode := 0x0209, params := [1, 1, 2, 8] }, { opcode := 0x020A, params := [4] },
    { opcode := 0x020B, params := [4] }, { opcode := 0x020C, params := [4, 164] }, { opcode := 0x020D, params := [4] },
    { opcode := 0x020E, params := [8] }, { opcode := 0x020F, params := [1] }, { opcode := 0x0210, params := [1, 1, 4] },
    { opcode := 0x0211, params := [1, 1, 8], owner := true },
    { opcode := 0x0301, params := [] }, { opcode := 0x0302, params := [2] }, { opcode := 0x0303, params := [2, 1, 1] },
    { opcode := 0x0304, params := [2, 1, 4] }, { opcode := 0x0305, params := [2, 8] }, { opcode := 0x0306, params := [2] },
    { opcode := 0x0307, params := [2, 1, 1, 8, 4] }, { opcode := 0x0308, params := [1, 1] },
    { opcode := 0x0309, params := [8] }, { opcode := 0x030A, params := [1, 1, 8] }, { opcode := 0x030B, params := [1, 1] },
    { opcode := 0x030C, params := [1] }, { opcode := 0x030D, params := [1] }, { opcode := 0x030E, params := [1] },
    { opcode := 0x030F, params := [1, 1, 2, 4, 8, 8, 1], staged := true },
    { opcode := 0x0310, params := [1], staged := true },
    { opcode := 0x0311, params := [1, 1, 2, 4, 8, 8, 1], owner := true, staged := true },
    { opcode := 0x0312, params := [1], owner := true, staged := true } ] ++
  [ { opcode := 0x0401, params := [1, 164], owner := true, staged := true }, { opcode := 0x0402, params := [1, 4], owner := true },
    { opcode := 0x0403, params := [1, 1, 1, 1, 4, 1, 132], owner := true },
    { opcode := 0x0404, params := [1, 4, 4, 4, 4, 4, 4, 4, 4, 4, 4, 4], owner := true, staged := true },
    { opcode := 0x0405, params := [2, 1, 2, 2, 106], owner := true, staged := true },
    { opcode := 0x0406, params := [1, 4, 4, 4, 4, 4, 4, 4, 106], owner := true, staged := true },
    { opcode := 0x0407, params := [1, 132], owner := true, staged := true },
    { opcode := 0x0408, params := [1, 4], owner := true, staged := true },
    { opcode := 0x0409, params := [1, 1, 180], owner := true, staged := true },
    { opcode := 0x040A, params := [4, 4, 4, 4, 4, 4, 4, 4, 4, 4], owner := true, staged := true },
    { opcode := 0x040B, params := [1, 8], owner := true, staged := true },
    { opcode := 0x040C, params := [1, 2, 1, 196], owner := true },
    { opcode := 0x0501, params := [] }, { opcode := 0x0502, params := [] }, { opcode := 0x0503, params := [] },
    { opcode := 0x0504, params := [2] }, { opcode := 0x0505, params := [2, 8, 4, 4, 4, 4, 4] },
    { opcode := 0x0506, params := [2] }, { opcode := 0x0507, params := [4, 1, 1, 1, 1, 1, 1, 1, 1, 2], owner := true },
    { opcode := 0x0508, params := [8], owner := true }, { opcode := 0x0509, params := [], owner := true },
    { opcode := 0x050A, params := [] } ] ++
  [ { opcode := 0x0601, params := [1] },
    { opcode := 0x0602, params := [1, 4, 4, 4, 4, 4, 4, 4, 4, 4, 4, 4, 4, 106, 106, 2, 4, 4, 1, 1, 2, 2], staged := true },
    { opcode := 0x0603, params := [1, 8, 4, 2, 8, 8, 1] }, { opcode := 0x0604, params := [1], staged := true },
    { opcode := 0x0605, params := [1] }, { opcode := 0x0606, params := [4, 4], owner := true },
    { opcode := 0x0701, params := [] }, { opcode := 0x0702, params := [1, 2], owner := true, staged := true },
    { opcode := 0x0703, params := [1, 1], owner := true }, { opcode := 0x0704, params := [] },
    { opcode := 0x0705, params := [1, 1], owner := true },
    { opcode := 0x0801, params := [8, 4, 8] }, { opcode := 0x0802, params := [8, 4, 8] }, { opcode := 0x0803, params := [] },
    { opcode := 0x0804, params := [4, 8, 8], owner := true }, { opcode := 0x0805, params := [4, 8, 8] },
    { opcode := 0x0806, params := [] }, { opcode := 0x0901, params := [] },
    { opcode := 0x0902, params := [4, 4, 8], owner := true }, { opcode := 0x0903, params := [2, 2, 1], owner := true },
    { opcode := 0x0A01, params := [] }, { opcode := 0x0A02, params := [], owner := true },
    { opcode := 0x0A03, params := [], owner := true }, { opcode := 0x0B01, params := [8, 4], owner := true },
    { opcode := 0x0B02, params := [], owner := true, staged := true },
    { opcode := 0x0B03, params := [8, 4, 2], owner := true }, { opcode := 0x0B04, params := [1, 2], owner := true, staged := true },
    { opcode := 0x0B05, params := [1], owner := true }, { opcode := 0x0B06, params := [8, 4], owner := true },
    { opcode := 0x0B07, params := [8], owner := true } ]

def cmdRow (op : Nat) : Option CmdRow := catalogue.find? (fun r => r.opcode = op)

/-- The alignment and length of a parameter (R425). -/
def fieldAlign (z : Nat) : Nat := if 100 ≤ z then 8 else z
def fieldLen (z : Nat) : Nat := if 100 ≤ z then z - 100 else z

/-- The offsets of packed fields: each at the next multiple of its alignment (R425). -/
def offsets : List Nat → Nat → List Nat
  | [], _ => []
  | z :: r, o => let a := ceilDiv o (fieldAlign z) * fieldAlign z; a :: offsets r (a + fieldLen z)

/-- The offset in the slot of parameter `i` of an opcode; parameters begin at byte 16 (R425). -/
def paramOff (op i : Nat) : Nat :=
  match cmdRow op with
  | none => 16
  | some r => (offsets r.params 16).getD i 16

/-- Parameter `i`, a number, of the request in slot `k` (R425). -/
def param (s : State) (f k op i : Nat) : Nat :=
  match cmdRow op with
  | none => 0
  | some r => slotNat s f k (paramOff op i) (fieldLen (r.params.getD i 1))

/-- Parameter `i`, a block of bytes. -/
def paramBlock (s : State) (f k op i : Nat) : List Byte :=
  match cmdRow op with
  | none => []
  | some r => slotBytes s f k (paramOff op i) (fieldLen (r.params.getD i 1))

/-- The bytes of a request that carry a listed parameter. -/
def listedByte (op o : Nat) : Bool :=
  match cmdRow op with
  | none => true
  | some r => ((offsets r.params 16).zip r.params).any (fun p => decide (p.1 ≤ o) && decide (o < p.1 + fieldLen p.2))

/-- The request carries a non-zero reserved field (R424, R11). -/
def reservedNonzero (s : State) (f k op : Nat) : Bool :=
  decide (slotByte s f k 1 ≠ 0) || decide (slotNat s f k 8 8 ≠ 0) ||
    (List.range 112).any (fun i => !listedByte op (16 + i) && decide (slotByte s f k (16 + i) ≠ 0))

/-- A result: its alignment and its bytes (R425). -/
abbrev Res := List (Nat × List Byte)

def r8 (v : Nat) : Nat × List Byte := (1, leBytes 1 v)
def r16 (v : Nat) : Nat × List Byte := (2, leBytes 2 v)
def r32 (v : Nat) : Nat × List Byte := (4, leBytes 4 v)
def r64 (v : Nat) : Nat × List Byte := (8, leBytes 8 v)
def rblk (b : List Byte) : Nat × List Byte := (8, b)

/-- Packs results from byte 16 of the response (R425). -/
def packRes : Res → List Byte → List Byte
  | [], acc => acc
  | (al, bs) :: r, acc =>
    packRes r (acc ++ List.replicate (ceilDiv acc.length al * al - acc.length) 0 ++ bs)

/-- Writes bytes into words, four to a word. -/
def wrBytes (a : Nat) : List Byte → State → State
  | b0 :: b1 :: b2 :: b3 :: r, s => wrBytes (a + 4) r (wrWord a (leNat [b0, b1, b2, b3]) s)
  | [], s => s
  | rest, s => wrWord a (leNat rest) s

/-- The 96 response bytes (R424). -/
def responseBytes (flags status tag detail : Nat) (res : Res) : List Byte :=
  let body := packRes res []
  leBytes 1 1 ++ leBytes 1 flags ++ leBytes 2 status ++ leBytes 4 tag ++ leBytes 4 detail ++ leBytes 4 0 ++
    body ++ List.replicate (80 - body.length) 0

/-- Foreman writes a response, clears MB.BUSY, sets MB.DONE, counts it and raises vector 0 if done_irq is 1; a command of a
function that was reset since runs to its end without one (R421, R426). -/
def answerX (f k flags status detail : Nat) (res : Res) (s : State) : State :=
  let key := 16 * f + k
  match tget key s.mb.accepted with
  | none => s
  | some a =>
    let s' := { s with mb.accepted := tdel key s.mb.accepted }
    if a.silent then s'
    else
      let flags := flags + 2 * b2n (reservedNonzero s f k a.opcode)
      let s' := wrBytes (slotAddr f k + 128) (responseBytes flags status (slotNat s f k 4 4) detail res) s'
      let s' := setMask (MB_DONE f) (2 ^ k) (clearMask (MB_BUSY f) (2 ^ k) s')
      let s' := inc (MB_CMDS f) s'
      if bit (rd s' (MB_IRQ_CFG f)) 0 then msix f 0 s' else s'

def answer (f k status detail : Nat) (res : Res) (s : State) : State := answerX f k 0 status detail res s

/-- Foreman answers the mailbox, or Kingpost's ROM does in recovery (R444, R612). -/
def mailboxServes (s : State) : Bool := s.mb.foremanUp || s.fw.recovery

/-- The accepted command in a slot is the one named. -/
def isAccepted (s : State) (f k op : Nat) : Bool :=
  match tget (16 * f + k) s.mb.accepted with
  | some a => mailboxServes s && decide (a.opcode = op) && a.recorded.isNone
  | none => false

/-- What a command answers: status, detail, results and the state it leaves. -/
structure Ans where
  status : Nat
  detail : Nat := 0
  res : Res := []
  st : State

/-- Success with results. -/
def ok (res : Res) (s : State) : Ans := { status := 0, res := res, st := s }
/-- A refusal: the command has no effect (R430). -/
def no (status detail : Nat) (s : State) : Ans := { status := status, detail := detail, st := s }

/-- Carries out an immediate or staged command in a slot and answers it. Where Foreman has not accepted this command the
event does not occur (notes/assumptions/6.md). -/
def immediate (f k op : Nat) (act : State → Ans) (s : State) : State :=
  if isAccepted s f k op then
    let a := act s
    answer f k a.status a.detail a.res a.st
  else s

/-- Carries out the acceptance of a deferred command: a refusal is answered at once, a start is answered later. -/
def deferred (f k op : Nat) (act : State → Ans ⊕ State) (s : State) : State :=
  if isAccepted s f k op then
    match act s with
    | .inl a => answer f k a.status a.detail a.res a.st
    | .inr s' => s'
  else s

/-- An engine records its completion in Foreman's journal, and Foreman answers if it is up (R442, R445). -/
def finish (f k status detail : Nat) (res : Res) (s : State) : State :=
  if mailboxServes s then answer f k status detail res s
  else { s with mb.accepted := tmod (16 * f + k) (fun a => { a with recorded := some (status, detail, packRes res []) }) s.mb.accepted }

/-- Foreman is up and a session is open on the function (R432). -/
def sessionOpen (s : State) (f : Nat) : Bool := bit (rd s (MB_SESSION f)) 0

/-- A change is pending or reverting (R87). -/
def changing (s : State) : Bool := decide (s.ridge.phase ≠ .idle)

/-- The refusal that the checks at acceptance give, if any: version, quiesce, session, opcode, lifecycle, domain and pending
mode change; in recovery only four opcodes exist (R432, R434, R437, R487, R504, R431, R612). -/
def acceptCheck (s : State) (f k : Nat) : Option (Nat × Nat) :=
  let op := slotNat s f k 2 2
  if slotByte s f k 0 ≠ 1 then some (0x1001, 0)
  else if s.fw.recovery && !([0x0101, 0x0103, 0x0A01, 0x0B01].contains op) then some (0x1004, 0)
  else if quiescedDomain s f then some (0x1010, 0)
  else if !sessionOpen s f && decide (op ≠ 0x0101) && decide (op ≠ 0x0103) then some (0x1002, 0)
  else match cmdRow op with
    | none => some (0x1004, 0)
    | some r =>
      if s.sec.fuses.returned && !([0x0101, 0x0103, 0x0104, 0x0901, 0x0902, 0x0A01].contains op) then some (0x1209, 0)
      else if r.owner && decide (f ≠ 0) then some (0x1005, 0)
      else if changing s && (r.staged || decide (op = 0x0508)) then some (0x1009, rd s RIDGE_EPOCH_STATE)
      else none

/-- Sets or clears foreman_up, which every page and Kingpost's state show (R444). -/
def setForemanUp (up : Bool) (s : State) : State := setFld KINGPOST_SAFETY_STATE 3 3 (b2n up) { s with mb.foremanUp := up }

/-- The host reaches function `f`: the link is up, and the function is the physical one or a virtual one below NumVFs (R417). -/
def hostReaches (s : State) (f : Nat) : Bool := s.mb.linkUp && decide (f ≤ s.mb.numVfs)

/-- The byte offset in the slot of parameter `i`, which a refusal gives in detail (R436). -/
def badParam (op i : Nat) (s : State) : Ans := no 0x1006 (paramOff op i) s

end Sys2Proof.Machine
end

