-- ==== Sys2Proof/Machine/TensorOps.lean ====
section
/-! DEFINITION. Tensor descriptors: their fields, their checks, the shards and extents they name, and the address of an
element (R223–R245). -/

namespace Sys2Proof.Machine
open Sys2Proof

/-- The width in bits of an element format code, or 0 for a reserved code (R201). -/
def fmtBits (c : Nat) : Nat :=
  [0, 8, 8, 4, 4, 8, 8, 4, 6, 6, 8, 16, 16, 32, 32, 32, 8, 16, 16].getD c 0

def tdRank (d : List Byte) : Nat := fieldU d 1 1
def tdFormat (d : List Byte) : Nat := fieldU d 2 1
def tdSharded (d : List Byte) : Bool := bit (fieldU d 3 1) 0
def tdScaled (d : List Byte) : Bool := bit (fieldU d 3 1) 1
def tdIndexed (d : List Byte) : Bool := bit (fieldU d 3 1) 2
def tdReadOnly (d : List Byte) : Bool := bit (fieldU d 3 1) 3
def tdFrac (d : List Byte) : Nat := fieldU d 4 1
def tdMask (d : List Byte) : Nat := fieldU d 5 1 % 16
def tdBase (d : List Byte) (n : Nat) : Nat := fieldU d (8 + 8 * n) 8
def tdScaleBase (d : List Byte) (n : Nat) : Nat := fieldU d (40 + 8 * n) 8
def tdShape (d : List Byte) (i : Nat) : Nat := fieldU d (80 + 4 * i) 4
def tdChunk (d : List Byte) (i : Nat) : Nat := fieldU d (112 + 4 * i) 4
def tdStride (d : List Byte) (i : Nat) : Int := fieldS d (144 + 8 * i) 8
def tdTarget (d : List Byte) : Nat := fieldU d 208 4
def tdIndex (d : List Byte) : Nat := fieldU d 212 4
def tdIndexDim (d : List Byte) : Nat := fieldU d 216 1
def tdCollide (d : List Byte) : Nat := fieldU d 217 1
def tdOob (d : List Byte) : Nat := fieldU d 218 1
def tdDims (d : List Byte) : List Nat := List.range (tdRank d)
def tdWidth (d : List Byte) : Nat := fmtBits (tdFormat d)

/-- The factor by which dimension `i` is split, and whether its mode is cyclic (R223, R233). -/
def tdFactor (d : List Byte) (i : Nat) : Nat := if tdSharded d then bits (fieldU d (72 + i) 1) 2 0 else 1
def tdCyclic (d : List Byte) (i : Nat) : Bool := bit (fieldU d (72 + i) 1) 3

/-- The Bays of a descriptor in ascending number; an unsharded one uses entry 0 only (R223, R234). -/
def tdBays (d : List Byte) : List Nat := if tdSharded d then (List.range 4).filter (bit (tdMask d)) else [0]

/-- The number of shards (R232). -/
def tdShards (d : List Byte) : Nat := ((tdDims d).map (tdFactor d)).foldl (· * ·) 1

/-- The shard coordinates of linear shard `k`: row-major over the dimensions, the innermost varying fastest (R234). -/
def shardCoords (d : List Byte) (k : Nat) : List Nat :=
  ((tdDims d).foldr (fun i (acc : List Nat × Nat) => (acc.2 % max 1 (tdFactor d i) :: acc.1, acc.2 / max 1 (tdFactor d i)))
    ([], k)).1

/-- How many global indices of dimension `i` fall to shard coordinate `k` (R233). -/
def localExtent (d : List Byte) (i k : Nat) : Nat :=
  let n := tdShape d i
  let s := tdFactor d i
  if s ≤ 1 then n
  else if tdCyclic d i then
    let h := max 1 (tdChunk d i)
    n / (h * s) * h + min h (n % (h * s) - k * h)
  else let c := ceilDiv n s; min c (n - k * c)

/-- The local shape on a Bay (R233, R234). -/
def localShape (d : List Byte) (bay : Nat) : List Nat :=
  if !tdSharded d then (tdDims d).map (tdShape d)
  else
    let rank := ((tdBays d).findIdx (· = bay))
    let co := shardCoords d (rank % max 1 (tdShards d))
    (co.zipIdx).map (fun p => localExtent d p.2 p.1)

/-- The first and last byte of the stored copy with a base and a local shape (R228). -/
def extentOf (d : List Byte) (base : Nat) (shape : List Nat) : Int × Int :=
  let w : Int := tdWidth d
  let spans := (shape.zipIdx).map (fun p => ((p.1 : Int) - 1) * tdStride d p.2)
  let lo := (spans.filter (· < 0)).sum
  let hi := (spans.filter (0 ≤ ·)).sum
  (base + lo * w / 8, base + (hi * w + w - 1) / 8)

/-- The blocks of the scale array of a local shape (R235). -/
def scaleBytes (shape : List Nat) : Nat :=
  match shape.reverse with
  | [] => 0
  | n :: r => r.foldl (· * ·) (ceilDiv n 32)

/-- Every stored extent of a descriptor, scale arrays included, by entry of base (R228, R235). -/
def extents (d : List Byte) : List (Nat × Int × Int) :=
  if tdIndexed d then []
  else (tdBays d).flatMap (fun b =>
    let sh := localShape d b
    let e := extentOf d (tdBase d b) sh
    (b, e.1, e.2) :: (if tdScaled d then
      [(b, (tdScaleBase d b : Int), (tdScaleBase d b : Int) + scaleBytes sh - 1)] else []))

/-- An allocation that a domain holds, or that is shared to it, holds the bytes from `a` to `b` (R228). -/
def heldOrShared (s : State) (dom : Nat) (a b : Int) : Bool :=
  decide (0 ≤ a) && decide (b < 2 ^ 46) &&
    (match allocAt s a.toNat with
     | none => false
     | some (base, g) => decide (b.toNat < base + g.len) &&
        (decide (g.owner = dom) || bit g.rmask dom || bit g.wmask dom))

/-- Dimensions of extent above 1, by |stride| ascending and then by number: no two indices meet (R226). -/
def noOverlap (d : List Byte) (shape : List Nat) : Bool :=
  let dims := ((shape.zipIdx).filter (fun p => decide (1 < p.1))).map (fun p => ((tdStride d p.2).natAbs, p.1))
  let sorted := dims.foldl (fun l x => (l.takeWhile (fun y => decide (y.1 ≤ x.1))) ++ x :: l.dropWhile (fun y => decide (y.1 ≤ x.1))) []
  (sorted.foldl (fun (acc : Bool × Nat) x => (acc.1 && decide (1 + acc.2 ≤ x.1), acc.2 + x.1 * (x.2 - 1))) (true, 0)).1

/-- The stride rules of a format; a dimension of extent 1 is exempt (R225). -/
def stridesOk (d : List Byte) : Bool :=
  let m : Int := if tdWidth d = 4 then 2 else if tdWidth d = 6 then 4 else 1
  (tdDims d).all (fun i => decide (tdShape d i = 1) || decide (m = 1) ||
    (if i + 1 = tdRank d then decide (tdStride d i = 1) else decide (tdStride d i % m = 0)))

/-- The sharding meets R232 and R233. -/
def shardOk (s : State) (d : List Byte) : Bool :=
  !tdSharded d ||
    ((tdBays d).all (bayPresent s) && !(tdBays d).isEmpty && (tdDims d).all (fun i => decide (1 ≤ tdFactor d i) && decide (tdFactor d i ≤ 4)) &&
     decide (tdShards d ∣ (tdBays d).length) &&
     (tdDims d).all (fun i =>
      let f := tdFactor d i
      let n := tdShape d i
      if tdCyclic d i then decide (1 ≤ tdChunk d i) && (f ≤ 1 || decide ((f - 1) * tdChunk d i < n))
      else decide ((f - 1) * ceilDiv n (max 1 f) < n)))

/-- The descriptor that a handle names for a domain, faulted or not (R230). -/
def heldTensor (s : State) (dom h : Nat) : Option Tensor :=
  match tget (h % 2 ^ 20) s.tensors.table with
  | none => none
  | some t => if h % 2 ^ 20 ≠ 0 ∧ h / 2 ^ 20 % 256 = t.gen ∧ h < 2 ^ 28 ∧ t.owner = dom then some t else none

/-- The descriptor that a handle names for a domain, if the handle is valid there and its entry has not read poisoned (R230, R467). -/
def tensorOf (s : State) (dom h : Nat) : Option Tensor := (heldTensor s dom h).filter (fun t => !t.faulted)

/-- What an indexed descriptor may name (R238–R240). -/
def indexOk (s : State) (dom : Nat) (d : List Byte) : Bool :=
  match tensorOf s dom (tdTarget d), tensorOf s dom (tdIndex d) with
  | some t, some i =>
    let t := t.bytes
    let i := i.bytes
    !tdIndexed t && !tdIndexed i && decide (tdRank i = 1) && [0x0E, 0x12, 0x11].contains (tdFormat i) &&
      decide (tdIndexDim d < tdRank t) && decide (tdCollide d ≤ 3) && decide (tdOob d ≤ 2) &&
      !(tdScaled t && decide (tdIndexDim d + 1 = tdRank t)) &&
      (tdCollide d = 0 || (decide (8 ≤ tdWidth t) && !tdScaled t))
  | _, _ => false

/-- The reason for which a descriptor is refused, read from an address for a domain (R226, R228, R229). -/
def tensorReject (s : State) (dom addr : Nat) : Option Nat :=
  let d := readBytes s addr 256
  let ix := tdIndexed d
  if addr % 64 ≠ 0 || !readable s dom addr 256 then some 0x170E
  else if fieldU d 0 1 ≠ 1 then some 0x1701
  else if (!ix && (tdRank d = 0 || decide (8 < tdRank d))) || (ix && (tdSharded d || tdScaled d)) then some 0x1702
  else if !ix && (tdWidth d = 0 || (if tdFormat d = 0x0F then decide (31 < tdFrac d) else decide (tdFrac d ≠ 0))) then some 0x1703
  else if ix then (if indexOk s dom d then none else some 0x170A)
  else if (tdDims d).any (fun i => decide (tdShape d i = 0)) || decide (2 ^ 40 < ((tdDims d).map (tdShape d)).foldl (· * ·) 1) then some 0x1704
  else if !stridesOk d || (shardOk s d && !tdReadOnly d && (tdBays d).any (fun b => !noOverlap d (localShape d b))) then some 0x1705
  else if decide (8 ≤ tdWidth d) && (tdBays d).any (fun b => decide (tdBase d b % (tdWidth d / 8) ≠ 0)) then some 0x1707
  else if !shardOk s d then some 0x1708
  else if tdScaled d ≠ [7, 8, 9, 10].contains (tdFormat d) ||
      (tdScaled d && (decide (tdStride d (tdRank d - 1) ≠ 1) || (tdBays d).any (fun b => decide (tdScaleBase d b = 0)))) then some 0x1709
  else if (extents d).any (fun e => !heldOrShared s dom e.2.1 e.2.2) then some 0x1706
  else none

/-- The descriptor that carries the storage: an indexed one stands on its target (R238). -/
def storageOf (s : State) (dom : Nat) (d : List Byte) : List Byte :=
  if tdIndexed d then ((tensorOf s dom (tdTarget d)).map (·.bytes)).getD d else d

/-- A binding to a descriptor is read-only (R226, R239). -/
def readOnlyBound (s : State) (dom : Nat) (d : List Byte) : Bool :=
  tdReadOnly d || (tdIndexed d && tdReadOnly (storageOf s dom d))

/-- The entry of base, and with it the copy, that a task on a Bay sees (R234). -/
def copyFor (d : List Byte) (bay : Nat) : Option Nat :=
  if !tdSharded d then some 0 else if bit (tdMask d) bay then some bay else none

/-- The extent of the copy that a task on a Bay sees (R228, R234). -/
def extentFor (s : State) (dom : Nat) (d : List Byte) (bay : Nat) : Option (Nat × Nat) :=
  let t := storageOf s dom d
  (copyFor t bay).map (fun b => let e := extentOf t (tdBase t b) (localShape t b); (e.1.toNat, e.2.toNat))

/-- Pool pages for an extent: one for each 4 KiB from the boundary below its first byte (R275). -/
def pagesOf (e : Nat × Nat) : Nat := e.2 / 4096 + 1 - e.1 / 4096

/-- The bit offset of an element from its base (R224). -/
def elemBit (d : List Byte) (ix : List Nat) : Int :=
  ((ix.zipIdx).map (fun p => (p.1 : Int) * tdStride d p.2)).sum * tdWidth d

/-- The code of `w` bits at bit offset `o` of memory from a byte address (R203, R224). -/
def readCode (s : State) (base : Nat) (o : Int) (w : Nat) : Nat :=
  let at_ := (8 * (base : Int) + o).toNat
  readNat s (at_ / 8) ((at_ % 8 + w + 7) / 8) / 2 ^ (at_ % 8) % 2 ^ w

/-- The write of a code into its bytes, the rest of them kept (R227). -/
def codeWrite (s : State) (base : Nat) (o : Int) (w v : Nat) : MemWrite :=
  let at_ := (8 * (base : Int) + o).toNat
  let n := (at_ % 8 + w + 7) / 8
  ⟨at_ / 8, leBytes n (putBits (readNat s (at_ / 8) n) (at_ % 8 + w - 1) (at_ % 8) v), false⟩

/-- The words that an element's code lies in read poisoned for the Sill, or for the Bay `src`. -/
def codePoisoned (s : State) (src : Option Nat) (base : Nat) (o : Int) (w : Nat) : Bool :=
  let at_ := (8 * (base : Int) + o).toNat
  let n := (at_ % 8 + w + 7) / 8
  match src with
  | none => poisoned s (at_ / 8) n
  | some b => poisonedAt s b (at_ / 8) n

/-- Every index of a shape, in row-major order (R223). -/
def indicesOf : List Nat → List (List Nat)
  | [] => [[]]
  | n :: r => (List.range n).flatMap (fun i => (indicesOf r).map (i :: ·))

/-- The number of elements that an index tensor gives a task on a Bay, and the signed index `j` with its poison (R238, R243). -/
def indexCount (d : List Byte) (bay : Nat) : Nat := (localShape d bay).foldl (· * ·) 1
def indexAt (s : State) (d : List Byte) (bay j : Nat) : Int × Bool :=
  let b := (copyFor d bay).getD 0
  let o := elemBit d [j]
  let v := readCode s (tdBase d b) o (tdWidth d)
  (if tdFormat d = 0x11 then (v : Int) else toSigned (tdWidth d) v, codePoisoned s none (tdBase d b) o (tdWidth d))

end Sys2Proof.Machine
end

