-- ==== Sys2Proof/Machine/ScribeOps.lean ====
section
/-! DEFINITION. The Scribe's engine: adds to pegs and the waiters they release, rings, and the life of an instance from its
first dependence to its completion record (R247–R284). -/

namespace Sys2Proof.Machine
open Sys2Proof

def pegMax : Nat := 0xFFFFFFFFFFFFFFFF

/-- The verdict in slot `j mod 64` of a history (R249). -/
def histGet (h j : Nat) : Nat := bits h (2 * (j % 64) + 1) (2 * (j % 64))

/-- Writes verdict `v` for increments `top`, `top − 1`, … of which there are `n` (R249). -/
def histPut (h v top : Nat) : Nat → Nat
  | 0 => h
  | n + 1 => putBits (histPut h v top n) (2 * ((top - n) % 64) + 1) (2 * ((top - n) % 64)) v

/-- A peg after an add of `a` with verdict `v`: the value saturates, and the last 64 increments applied take the verdict
(R247, R249). -/
def addPeg (p : Peg) (a v : Nat) : Peg :=
  let top := min pegMax (p.value + a)
  { p with value := top, hist := histPut p.hist v top (min 64 (top - p.value)) }

/-- The peg's value, zero where it is free. -/
def pegValue (s : State) (p : Nat) : Nat := match tget p s.scribe.pegs with | some x => x.value | none => 0

/-- The verdict of an entry of window `w` at `target`, and whether its history has been overwritten (R254). -/
def entryVerdict (p : Peg) (target w : Nat) : Nat × Bool :=
  if target = 0 then (0, false)
  else
    let first := max (target + 1 - w) 1
    if 64 ≤ p.value - first then (2, true)
    else (((List.range (target + 1 - first)).map (fun i => histGet p.hist (first + i))).foldl max 0, false)

/-- The target that instance `n` waits for (R254). -/
def depTarget (g : Graph) (d : Dep) (n : Nat) : Nat :=
  ((if d.absolute then 0 else tgetD d.peg 0 g.origins) + d.offset + n / max 1 d.div * d.perIter) % 2 ^ 64

/-- Verdict `v` lies in the accept field of an entry; zero is taken as 0b011 (R254). -/
def accepts (d : Dep) (v : Nat) : Bool := bit (if d.accept % 8 = 0 then 3 else d.accept) v

def nodeOf (s : State) (g i : Nat) : Option Node := match tget g s.scribe.graphs with | some x => x.nodes[i]? | none => none

/-- The graph and the node of an instance. -/
def instParts (s : State) (i : Nat) : Option (Graph × Node) :=
  match tget i s.scribe.insts with
  | none => none
  | some x =>
    match tget x.graph s.scribe.graphs, nodeOf s x.graph x.node with
    | some g, some nd => some (g, nd)
    | _, _ => none

def setInst (i : Nat) (x : Inst) (s : State) : State := { s with scribe.insts := tput i x s.scribe.insts }
def modInst (i : Nat) (f : Inst → Inst) (s : State) : State := { s with scribe.insts := tmod i f s.scribe.insts }
def enqueue (w : Work) (s : State) : State := { s with scribe.work := s.scribe.work ++ [w] }

/-- A domain may add to, or wait on, a peg: the owner domain on any allocated peg, others on their own or by grant (R635). -/
def mayAdd (s : State) (d p : Nat) : Bool :=
  match tget p s.scribe.pegs with
  | none => false
  | some x => decide (d = 0) || decide (x.owner = d) || bit x.addMask d
def mayWait (s : State) (d p : Nat) : Bool :=
  match tget p s.scribe.pegs with
  | none => false
  | some x => decide (d = 0) || decide (x.owner = d) || bit x.waitMask d

/-- Evaluates the entries of an instance that are reached and not yet fixed; the second part lists the pegs whose verdicts have
expired (R254). -/
def evalEntries (s : State) (x : Inst) (g : Graph) (nd : Node) : List (Option Nat) × List Nat :=
  (nd.deps.zipIdx).foldl (fun (acc : List (Option Nat) × List Nat) p =>
    let (es, expired) := acc
    let (d, i) := p
    match (x.entries[i]?).getD none with
    | some v => (es ++ [some v], expired)
    | none =>
      let t := depTarget g d x.n
      match tget d.peg s.scribe.pegs with
      | none => (es ++ [if t = 0 then some 0 else none], expired)
      | some pg =>
        if t ≤ pg.value then
          let (v, ex) := entryVerdict pg t (max 1 d.window)
          (es ++ [some v], if ex then expired ++ [d.peg] else expired)
        else (es ++ [none], expired)) ([], [])

/-- A truss goes on to the run that is named to its shadow configuration (R192). -/
def handOver (t : Truss) : Truss := { t with task := t.shadow, shadow := none, shadowLoaded := false }

/-- Trusses, engines and places in the naming order that are given to some runs come free. -/
def freeRuns (mine : Nat × Nat → Bool) (s : State) : State :=
  let has := fun (o : Option (Nat × Nat)) => match o with | some r => mine r | none => false
  let clear := fun (t : Truss) =>
    let t := if has t.shadow then { t with shadow := none, shadowLoaded := false } else t
    if has t.task then handOver t else t
  { s with fab.trusses := s.fab.trusses.map (fun p => (p.1, clear p.2)),
           fab.order := s.fab.order.filter (fun r => !mine r),
           fab.engine := s.fab.engine.filter (fun p => !mine p.2) }

/-- Everything that the runs of an instance occupy comes free. -/
def freeTrusses (i : Nat) (s : State) : State := freeRuns (fun r => decide (r.1 = i)) s

/-- Pool pages of every run of an instance return (R275, R278, R279). -/
def freePages (i : Nat) (s : State) : State :=
  match tget i s.scribe.insts with
  | none => s
  | some x =>
    let s := x.runs.foldl (fun s r => wr (SCRIBE_PROV_INUSE r.bay) (rd s (SCRIBE_PROV_INUSE r.bay) - r.pooled) s) s
    modInst i (fun y => { y with runs := y.runs.map (fun r => { r with pooled := 0 }) }) s

/-- The runs that an instance of a node needs: one, or copies A and B (R253, R533). -/
def runsFor (nd : Node) : List Run :=
  if bit nd.flags 3 then [{ bay := nd.bay % 4 }, { bay := nd.bay / 4 % 4 }] else [{ bay := nd.bay % 4 }]

/-- The node's effects are held back until resolution: it is provisional or dual (R276, R534). -/
def holds (nd : Node) (x : Inst) : Bool := x.prov || bit nd.flags 3

/-- A run that is stopped ends with status 0x1607; which of its outputs were written is not defined (R194). -/
def stopRun (s : State) (r : Run) : Run :=
  if r.started && !r.ended then { r with ended := true, tEnd := s.ridge.ns, completion := 0x1607, undef := true, io := [], stalled := none }
  else r

/-- The unit that works for an instance stops (R259, R325). -/
def stopUnits (i : Nat) (s : State) : State :=
  let s := stopLedger i s
  let s := if (s.raft.run.map (·.inst)) = some i then setFld RAFT_STATE 1 1 0 { s with raft.run := none } else s
  if (s.plumb.run.bind (·.inst)) = some i then setFld PLUMB_STATE 7 0 0 { s with plumb.run := none } else s

/-! ### Rings (R265–R273) -/

def ringSize (r : Ring) : Nat := 2 ^ r.log2
/-- Entries a ring holds, with those held for provisional pushes (R266). -/
def ringHolds (r : Ring) : Nat := (r.resv + 2 ^ 32 - r.cons) % 2 ^ 32 + r.held
def ringFull (r : Ring) : Bool := decide (ringSize r ≤ ringHolds r)
def ringEmpty (r : Ring) : Bool := decide (r.cons = r.prod)
/-- The address of entry `k` (R266). -/
def entryAddr (r : Ring) (k : Nat) : Nat := r.base + 64 * (k % ringSize r)
def compl32 (v : Nat) : Nat := 0xFFFFFFFF - v

/-- The pointers agree with their duplicates (R272). -/
def pointersAgree (r : Ring) : Bool := decide (r.prodN = compl32 r.prod) && decide (r.consN = compl32 r.cons)

/-- A ring after a reset: pointers zero, `held` kept, open reservations void (R272). -/
def resetRing (r : Ring) : Ring :=
  { r with prod := 0, prodN := 0xFFFFFFFF, cons := 0, consN := 0xFFFFFFFF, resv := 0,
           resets := satAdd 0xFFFFFFFF r.resets 1, open_ := [] }

/-- Resets a ring: loss counted, raised and reported, tasks on the ring flagged (R272). -/
def ringReset (k : Nat) (r : Ring) (s : State) : State :=
  let lost := max ((r.prod + 2 ^ 32 - r.cons) % 2 ^ 32) ((compl32 r.prodN + 2 ^ 32 - compl32 r.consN) % 2 ^ 32)
  let s := { s with scribe.rings := tput k (resetRing r) s.scribe.rings }
  let s := wr SCRIBE_LAST_RING_RESET k (inc SCRIBE_RING_RESETS (incFld SCRIBE_RING_LOST 31 0 lost s))
  let s := { s with scribe.insts := s.scribe.insts.map (fun p =>
    if p.2.runs.any (fun r => r.started && !r.ended) &&
       (match nodeOf s p.2.graph p.2.node with
        | some nd => nd.binds.any (fun b => decide (2 ≤ b.kind) && decide (b.ref % 2 ^ 24 = k))
        | none => false)
    then (p.1, { p.2 with ringReset := true }) else p) }
  fault 9 (raise 0x8001 k s)

/-- A parity error or a pointer that differs from its duplicate resets the ring before the access (R272, R273). -/
def checkRing (k : Nat) (parity : Bool) (s : State) : State :=
  match tget k s.scribe.rings with
  | none => s
  | some r =>
    let s := if parity then raise 0x8002 k (inc SCRIBE_RING_PARITY s) else s
    if parity || !pointersAgree r then ringReset k r s else s

/-- A ring's table entry is found damaged at an access: 1 a pointer differs from its duplicate, 2 another word fails its parity
check (R272, R273). -/
def upsetRing (k upset : Nat) (s : State) : State :=
  match tget k s.scribe.rings with
  | none => s
  | some r => if upset = 1 then ringReset k r s else checkRing k (decide (upset = 2)) s

/-- Sets the publish pointer with its duplicate. -/
def setProd (r : Ring) (v : Nat) : Ring := { r with prod := v % 2 ^ 32, prodN := compl32 (v % 2 ^ 32) }
def setCons (r : Ring) (v : Nat) : Ring := { r with cons := v % 2 ^ 32, consN := compl32 (v % 2 ^ 32) }

/-- The ring's peg gains 1 for an item published (R265). -/
def ringPeg (r : Ring) (s : State) : State := match r.peg with | some p => enqueue (.add p 1 0) s | none => s

/-- Pushes one entry onto a plain ring that has room, with the writes checked by the Fence for `tag` (R267). -/
def pushPlain (k tag agent : Nat) (e : List Byte) (s : State) : State :=
  match tget k s.scribe.rings with
  | none => s
  | some r =>
    let s := fencedWrite tag agent ⟨entryAddr r r.prod, (e ++ List.replicate (64 - e.length) 0).take 64, false⟩ s
    let r' := setProd { r with resv := (r.resv + 1) % 2 ^ 32 } (r.prod + 1)
    ringPeg r { s with scribe.rings := tput k r' s.scribe.rings }

/-- A unit pushes an item: dropped and counted by the unit when the ring is full (R267). The answer says whether it went. -/
def unitPush (k tag : Nat) (e : List Byte) (s : State) : State × Bool :=
  let s := checkRing k false s
  match tget k s.scribe.rings with
  | none => (s, false)
  | some r => if r.packet || ringFull r then (s, false) else (pushPlain k tag 2 e s, true)

/-- Publishes the packets at the head of the reservations whose length words are written (R268). -/
def publish (fuel : Nat) (r : Ring) : Ring × Nat :=
  match fuel with
  | 0 => (r, 0)
  | n + 1 =>
    match r.open_ with
    | [] => (r, 0)
    | p :: rest =>
      match p.word with
      | none => (r, 0)
      | some _ => let (r', c) := publish n (setProd { r with open_ := rest } (p.first + p.payload + 1)); (r', c + 1)

/-- Reserves a packet of `n` payload entries, writes the entries that it has, head first, and its length word, and publishes it
whole; the Scribe's own length word sets truncated (R268, R269, R276). -/
def pushPacket (k tag agent n : Nat) (es : List (List Byte)) (truncated : Bool) (s : State) : State :=
  match tget k s.scribe.rings with
  | none => s
  | some r =>
    let word := 2 ^ 31 + 2 ^ 30 * b2n truncated + (es.length - 1)
    let s := (es.zipIdx).foldl (fun s p => fencedWrite tag agent ⟨entryAddr r (r.resv + p.2), p.1.take 64, false⟩ s) s
    let s := fencedWrite tag agent ⟨entryAddr r r.resv, leBytes 4 word, false⟩ s
    let pk : Packet := { first := r.resv, payload := n, written := es.length - 1, word := some word, instance_ := 0 }
    let (r', c) := publish (r.open_.length + 1) { r with resv := (r.resv + n + 1) % 2 ^ 32, open_ := r.open_ ++ [pk] }
    let s := { s with scribe.rings := tput k r' s.scribe.rings }
    (List.range c).foldl (fun s _ => ringPeg r s) s

/-- What a pop gives: the entry, whether a word of it is poisoned, and the state after (R267, R273). `bad` lists the words
that fail their parity check. -/
def popEntry (k tag agent : Nat) (bad : List Nat) (s : State) : Option (List Byte × Bool × State) :=
  match tget k s.scribe.rings with
  | none => none
  | some r =>
    if ringEmpty r then none
    else
      let a := entryAddr r r.cons
      let p := fencedPoison s tag a 64
      let bs := ((readBytes s a 64).zipIdx).map (fun q =>
        if bad.contains (q.2 / 4) || poisoned s (a + q.2) 1 || !admitLine s tag (a / 64 * 64) false then 0 else q.1)
      let s := noteRead tag a 64 agent s
      let s := if bad.isEmpty then s else raise 0x8002 k (inc SCRIBE_RING_PARITY s)
      some (bs, p || !bad.isEmpty, { s with scribe.rings := tput k (setCons r (r.cons + 1)) s.scribe.rings })

/-! ### Completion of an instance (R278–R284) -/

/-- The worst verdict among the propagating entries, or VALID (R280). -/
def propagated (nd : Node) (x : Inst) : Nat :=
  ((nd.deps.zip x.entries).map (fun p => if p.1.propagate then p.2.getD 0 else 0)).foldl max 0

/-- The run whose effects count; an instance that was skipped has none, and stands for its node's Bay (R284). -/
def theRun (nd : Node) (x : Inst) : Run := (x.runs[x.chosen]?).getD { bay := nd.bay % 4 }

/-- The instance ends void: skipped or discarded. -/
def isVoid (x : Inst) : Bool := x.scribeStatus = 0x1811 || x.scribeStatus = 0x1812 || x.scribeStatus = 0x1813

/-- The verdict that an instance's signals carry (R280). -/
def signalVerdict (nd : Node) (x : Inst) : Nat :=
  if isVoid x then 2 else if (theRun nd x).completion % 65536 ≠ 0 then 2 else propagated nd x

/-- The 64 bytes of a completion record (R284, R540). -/
def completionRecord (s : State) (nd : Node) (x : Inst) : List Byte :=
  let r := theRun nd x
  let dual := bit nd.flags 3
  let started := x.runs.filter (·.started)
  let flags := b2n x.prov + 2 * b2n (x.prov && !isVoid x) + 4 * b2n (x.scribeStatus = 0x1812 || x.scribeStatus = 0x1813) +
    8 * b2n (x.scribeStatus = 0x1811) + 16 * b2n x.ringReset + 32 * b2n dual + 64 * b2n ((x.runs[2]?).any (·.started)) +
    128 * b2n x.noAgree
  let tStart := if x.scribeStatus = 0x1811 then 0 else
    if dual then (started.map (·.tStart)).foldl min r.tStart else r.tStart
  let tEnd := if dual then (started.map (·.tEnd)).foldl max r.tEnd else r.tEnd
  let pages := if dual then (x.runs.map (·.pages)).sum else r.pages
  let steps := if dual then ((x.runs[0]?).getD r).steps else r.steps
  leBytes 1 1 ++ leBytes 1 x.graph ++ leBytes 2 flags ++ leBytes 4 x.node ++ leBytes 8 x.n ++
    leBytes 4 (if started.isEmpty then 0 else r.completion) ++ leBytes 2 x.scribeStatus ++ leBytes 1 (signalVerdict nd x) ++
    leBytes 1 r.bay ++ leBytes 8 tStart ++ leBytes 8 tEnd ++ leBytes 8 (if x.prov then s.ridge.ns else 0) ++
    leBytes 4 (min 0xFFFFFFFF steps) ++ leBytes 4 pages ++ leBytes 2 x.epoch ++ leBytes 6 0

/-- The instance's void signals are not sent: its domain is quiesced (R285). -/
def voidHeld (s : State) (dom : Nat) (x : Inst) : Bool := isVoid x && quiescedDomain s dom

/-- Sends the signals of an instance in table order (R278 step 5, R279 step 5, R280, R285). -/
def sendSignals (dom : Nat) (nd : Node) (x : Inst) (s : State) : State :=
  nd.sigs.foldl (fun s g =>
    if (isVoid x && g.dropVoid) || voidHeld s dom x then s
    else if g.kind = 2 then msix dom g.vector s
    else enqueue (.add g.peg g.amount (signalVerdict nd x)) s) s

/-- Pushes the completion record, dropped and counted on a full ring (R267, R284). -/
def pushRecord (g : Graph) (nd : Node) (x : Inst) (s : State) : State :=
  match g.compRing with
  | none => s
  | some k =>
    let (s', sent) := unitPush k g.domain (completionRecord s nd x) s
    if sent then s' else inc SCRIBE_COMP_DROP s'

/-- The predecessor of an instance has yet to send its signals (R281). -/
def predecessorOpen (s : State) (x : Inst) : Bool :=
  s.scribe.insts.any (fun p => decide (p.2.graph = x.graph) && decide (p.2.node = x.node) && decide (p.2.n < x.n))

/-- Waiting instances of a node are judged again, since one fewer of its instances is unresolved (R260). -/
def recheckNode (g node : Nat) (s : State) : State :=
  (s.scribe.insts.filter (fun p => decide (p.2.graph = g) && decide (p.2.node = node) && decide (p.2.st = .waiting))).foldl
    (fun s p => enqueue (.check p.1) s) s

/-- Signals, record and the step to DONE; the successor that was held back follows (R281, R283). -/
def finishInst (i : Nat) (s : State) : State :=
  match tget i s.scribe.insts with
  | none => s
  | some x =>
    if predecessorOpen s x then modInst i (fun y => { y with heldBack := true }) s
    else
      match tget x.graph s.scribe.graphs, nodeOf s x.graph x.node with
      | some g, some nd =>
        let s := match x.firstSignal with
          | some (p, v) => if voidHeld s g.domain x then s else enqueue (.add p 1 (if isVoid x then 2 else v)) s
          | none => s
        let s := pushRecord g nd x (sendSignals g.domain nd x s)
        let s := { s with scribe.insts := tdel i s.scribe.insts,
                          scribe.starts := lremove i s.scribe.starts,
                          scribe.graphs := tmod x.graph (fun g => { g with done := satAdd 0xFFFFFFFF g.done 1 }) s.scribe.graphs }
        let s := incFld (SCRIBE_INSTANCE_COUNTS 9) 31 0 1 s
        let s := if x.prov then recheckNode x.graph x.node s else s
        match s.scribe.insts.find? (fun p => decide (p.2.graph = x.graph) && decide (p.2.node = x.node) &&
            decide (p.2.n = x.n + 1) && p.2.heldBack) with
        | some p => enqueue (.finish p.1) s
        | none => s
      | _, _ => { s with scribe.insts := tdel i s.scribe.insts }

/-- Instance `n` of a node comes into being, waiting for its dependences; of a stopped graph it is held back (R251, R283,
R286). -/
def spawnInst (g node n : Nat) (s : State) : State :=
  match tget g s.scribe.graphs, nodeOf s g node with
  | some gr, some nd =>
    if gr.iterations ≠ 0 ∧ gr.iterations ≤ n then s
    else if !gr.started then { s with scribe.graphs := tmod g (fun x => { x with next := tput node n x.next }) s.scribe.graphs }
    else
      let i := s.scribe.nextInst
      let x : Inst := { graph := g, node := node, n := n, entries := nd.deps.map (fun _ => none) }
      let s := { s with scribe.nextInst := i + 1 }
      enqueue (.check i) (setInst i x s)
  | _, _ => s

/-- Instances of a node that are provisional and not resolved (R260, R274). -/
def unresolved (s : State) (g node : Nat) : Nat :=
  (s.scribe.insts.filter (fun p => decide (p.2.graph = g) && decide (p.2.node = node) &&
    p.2.prov && [IState.provRunning, .provDone, .committing, .discarding].contains p.2.st)).length

/-- Everything of R260 but the early entries holds. -/
def readyButEarly (s : State) (g : Graph) (nd : Node) (x : Inst) : Bool :=
  g.started && (nd.deps.zip x.entries).all (fun p => p.1.early || p.2.isSome) &&
    (!bit nd.flags 1 || decide (x.n + 1 ≤ tgetD x.node 0 g.releases)) &&
    (!bit nd.flags 2 || x.nbPassed) && decide (unresolved s x.graph x.node < 64)

def earlyOpen (nd : Node) (x : Inst) : Bool := (nd.deps.zip x.entries).any (fun p => p.1.early && p.2.isNone)

def rejected (nd : Node) (x : Inst) : Bool :=
  (nd.deps.zip x.entries).any (fun p => match p.2 with | some v => !accepts p.1 v | none => false)

/-- An instance is skipped: no work, and a start for the next one (R260). -/
def skipInst (i : Nat) (x : Inst) (s : State) : State :=
  let s := raise 0x8007 (x.graph * 2 ^ 24 + x.node % 65536) (inc SCRIBE_SKIPPED s)
  let s := freeTrusses i (freePages i s)
  let s := setInst i { x with st := .skipped, scribeStatus := 0x1811, epoch := unitEpoch s 6, runs := [] } s
  enqueue (.finish i) (enqueue (.spawn x.graph x.node (x.n + 1)) s)

/-- An instance's resolution is decided; resolutions take effect in this order (R281). -/
def resolve (i : Nat) (st : IState) (s : State) : State :=
  modInst i (fun y => { y with st := st }) { s with scribe.resolving := s.scribe.resolving ++ [i] }

/-- An instance that rejects while provisional begins its discard; a running one is stopped with 0x1607 (R277). -/
def beginDiscard (i : Nat) (x : Inst) (s : State) : State :=
  let s := stopUnits i (freeTrusses i (setInst i { x with scribeStatus := 0x1812, runs := x.runs.map (stopRun s) } s))
  resolve i .discarding s

/-- A run starts; the first one starts the instance, which counts, takes the epoch and the configuration in force, and lets the
next instance come into being (R260, R283, R286, R540). -/
def beginRun (i k : Nat) (s : State) : State :=
  match tget i s.scribe.insts with
  | none => s
  | some x =>
    let first := !x.runs.any (·.started)
    let x := { x with runs := x.runs.modify k (fun r => { r with named := true, started := true, tStart := s.ridge.ns }) }
    if !first then setInst i x s
    else
      let x := { x with st := (if x.prov then .provRunning else .running), epoch := unitEpoch s 6,
                        stallLimit := liveFld s SCRIBE_STALL_LIMIT 23 0 }
      let s := inc SCRIBE_TASKS_STARTED (setInst i x s)
      let s := if x.prov then inc SCRIBE_PROV_STARTED s else s
      enqueue (.spawn x.graph x.node (x.n + 1)) { s with scribe.starts := s.scribe.starts ++ [i] }

/-- A run ends with a completion word: its trusses come free, and an instance that is no dual one ends or waits for its guards
(R192, R194, R277, R283). -/
def endRun (i k completion : Nat) (s : State) : State :=
  match tget i s.scribe.insts with
  | none => s
  | some x =>
    let x := { x with runs := x.runs.modify k (fun r =>
      { r with ended := true, tEnd := s.ridge.ns, completion := completion, io := [], stalled := none }) }
    let s := freeRuns (fun r => decide (r = (i, k))) (setInst i x s)
    match nodeOf s x.graph x.node with
    | none => s
    | some nd =>
      if bit nd.flags 3 then s
      else match x.st with
        | .running => enqueue (.finish i) s
        | .provRunning =>
          if earlyOpen nd x then modInst i (fun y => { y with st := .provDone }) s else resolve i .committing s
        | _ => s

/-- Judges an instance: entries are evaluated, and it is skipped, made ready, run if it is a null node, or resolved
(R254, R260, R277, R283). -/
def checkInst (i : Nat) (s : State) : State :=
  match tget i s.scribe.insts with
  | none => s
  | some x =>
    match tget x.graph s.scribe.graphs, nodeOf s x.graph x.node with
    | some g, some nd =>
      if !g.started && decide (x.st = .waiting) then s
      else
        let (es, expired) := evalEntries s x g nd
        let s := expired.foldl (fun s p => raise 0x8005 p (inc SCRIBE_VERDICT_EXPIRED s)) s
        let x := { x with entries := es, guards := x.guards.filter (fun e => ((es[e]?).getD none).isNone) }
        let s := setInst i x s
        match x.st with
        | .waiting | .provReady =>
          if rejected nd x then skipInst i x s
          else if readyButEarly s g nd x && !earlyOpen nd x then
            if nd.kind = 0 then
              let s := setInst i { x with st := .ready, runs := runsFor nd, tReady := s.ridge.ns, prov := false } s
              endRun i 0 0 (beginRun i 0 s)
            else if x.st = .waiting then
              setInst i { x with st := .ready, tReady := s.ridge.ns, runs := runsFor nd } s
            else
              let s := if bit nd.flags 3 then s else freePages i s
              modInst i (fun y => { y with
                st := .ready, prov := false, guards := []
                runs := if bit nd.flags 3 then y.runs else y.runs.map (fun r => { r with pages := 0 }) }) s
          else s
        | .provRunning | .provDone =>
          if rejected nd x then beginDiscard i x s
          else if x.st = .provDone && !earlyOpen nd x then resolve i .committing s
          else s
        | .running => s
        | _ => s
    | _, _ => s

/-- A mailbox wait that is reached: its verdict is that of window 1; an asynchronous wait sets its notice and raises its vector, a
synchronous one responds and frees its entry (R254, R441). -/
def reachWait (key : Nat) (w : MbWait) (pg : Peg) (s : State) : State :=
  let f := key / 64
  let (v, expired) := entryVerdict pg w.target 1
  let s := if expired then raise 0x8005 w.peg (inc SCRIBE_VERDICT_EXPIRED s) else s
  let s := { s with mb.waits := tput key { w with state := 1, value := pg.value, verdict := v } s.mb.waits }
  if w.async then (if w.vector = 0xFF then notice f 8 s else msix f w.vector (notice f 8 s))
  else if s.mb.foremanUp then
    answer f w.slot 0 0 [r64 pg.value, r8 v] { s with mb.waits := tdel key s.mb.waits }
  else s

/-- Applies one add and releases its waiters in one step: they are judged before any other work (R248, R251, R399, R441). -/
def applyAdd (p amount verdict : Nat) (s : State) : State :=
  match tget p s.scribe.pegs with
  | none => inc SCRIBE_FREE_PEG_ADDS s
  | some pg =>
    if quiescedDomain s pg.owner then inc FENCE_FROZEN_ADDS s
    else
      let s := if pegMax < pg.value + amount then raise 0x8009 p (inc SCRIBE_PEG_SATURATED s) else s
      let pg' := addPeg pg amount (min 2 verdict)
      let s := { s with scribe.pegs := tput p pg' s.scribe.pegs }
      let waiting := s.scribe.insts.filterMap (fun q => match nodeOf s q.2.graph q.2.node with
        | some nd => if nd.deps.any (fun d => decide (d.peg = p)) then some q.1 else none
        | none => none)
      let begun := s.scribe.starts.filter (fun i => waiting.contains i)
      let checks := (begun ++ waiting.filter (fun i => !begun.contains i)).map Work.check
      let s := { s with scribe.work := checks ++ s.scribe.work }
      let s := s.mb.waits.foldl (fun s q =>
        if q.2.peg = p && q.2.state = 0 && decide (q.2.target ≤ pg'.value) then
          reachWait q.1 q.2 pg' s
        else s) s
      { s with out.streams := s.out.streams.map (fun q =>
          if q.2.enabled && decide (liveFld s (NETIN_OUT_SRC q.1) 15 0 = p) then
            (q.1, { q.2 with requested := true, again := q.2.again || q.2.requested && q.2.copying.isNone }) else q) }

/-- Applies the work that the Scribe has accepted, one item at a time; what `fuel` items do not reach stays queued. -/
def drain : Nat → State → State
  | 0, s => s
  | fuel + 1, s =>
    match s.scribe.work with
    | [] => s
    | w :: rest =>
      let s := { s with scribe.work := rest }
      drain fuel (match w with
        | .add p a v => applyAdd p a v s
        | .check i => checkInst i s
        | .spawn g n k => spawnInst g n k s
        | .finish i => finishInst i s)

/-- How many items of work one command lets the Scribe apply (notes/assumptions/7.md). -/
def drainFuel : Nat := 4096

def settle (s : State) : State := drain drainFuel s

/-- An add to a peg by a unit, a mark, software or the owner, with everything it releases (R248, R251). -/
def pegAdd (p amount verdict : Nat) (s : State) : State := settle (enqueue (.add p amount verdict) s)

/-- An add for a unit's configured peg, which is made for the owner domain (R635). -/
def unitPegAdd (p verdict : Nat) (s : State) : State := pegAdd p 1 verdict s

/-- A unit signals a result on a configured peg; a stream whose src_peg it is takes the record with it (R398). -/
def unitSignal (p verdict : Nat) (record : List Byte) (s : State) : State :=
  unitPegAdd p verdict { s with out.streams := s.out.streams.map (fun q =>
    if liveFld s (NETIN_OUT_SRC q.1) 15 0 = p then (q.1, { q.2 with record := record }) else q) }

/-- A unit pushes a record and the ring's peg is released at once. -/
def unitPushS (k : Nat) (e : List Byte) (s : State) : State × Bool :=
  let (s, b) := unitPush k 0 e s
  (settle s, b)

/-- Ring entries that a push takes. -/
def pushSize (p : RingPush) : Nat := if p.packet then p.reserved + 1 else 1

/-- Ring space held by an instance's pushes of copy A returns (R276, R279, R534). -/
def dropHeld (x : Inst) (s : State) : State :=
  ((x.runs.take 1).flatMap (·.pushes)).foldl (fun s p =>
    { s with scribe.rings := tmod p.ring (fun r => { r with held := r.held - pushSize p }) s.scribe.rings }) s

/-! ### Effects of a run (R194, R276, R278) -/

/-- The binding of an argument slot, of one of some kinds (R256). -/
def bindOf (binds : List Bind) (arg : Nat) (kinds : List Nat) : Option Nat :=
  (binds.find? (fun b => decide (b.arg = arg) && kinds.contains b.kind)).map (·.ref)

/-- The descriptor bound to an argument slot, if its handle is valid (R230, R256, R467). -/
def boundTensor (s : State) (dom : Nat) (binds : List Bind) (arg : Nat) (kinds : List Nat) : Option (List Byte) :=
  (bindOf binds arg kinds).bind (fun h => (tensorOf s dom h).map (·.bytes))

/-- The address of a held write, and its bytes within the tensor's extent; arguments from 64 stand for the scale array of the
tensor 64 below (R223, R235, R275). -/
def placeWrite (s : State) (dom bay : Nat) (binds : List Bind) (w : HeldWrite) : Option MemWrite :=
  match w.arg with
  | none => some ⟨w.offset, w.data, w.poison⟩
  | some a =>
    if 64 ≤ a then
      (boundTensor s dom binds (a - 64) [1]).bind (fun d =>
        (copyFor (storageOf s dom d) bay).map (fun b => ⟨tdScaleBase (storageOf s dom d) b + w.offset, w.data, w.poison⟩))
    else match (boundTensor s dom binds a [1]).bind (fun d => extentFor s dom d bay) with
    | none => none
    | some (first, last) => some ⟨first + w.offset, w.data.take (last + 1 - (first + w.offset)), w.poison⟩

/-- Writes made by an instance's run take effect: checked by the Fence for the graph's domain (R278, R483). -/
def applyWrites (dom agent bay : Nat) (binds : List Bind) (ws : List HeldWrite) (s : State) : State :=
  ws.foldl (fun s w => match placeWrite s dom bay binds w with
    | some m => fencedWrite dom agent m s
    | none => s) s

/-- Outputs of a stopped run: each byte of the tensors that it writes has a value that nothing fixes (R194). -/
def freeOutputs (dom bay : Nat) (binds : List Bind) (s : State) : State :=
  (binds.filter (fun b => decide (b.kind = 1))).foldl (fun s b =>
    match (tensorOf s dom b.ref).bind (fun t => extentFor s dom t.bytes bay) with
    | none => s
    | some (first, last) =>
      let n := last + 1 - first
      takeFree n (fencedWrite dom (1 + 8 * bay) ⟨first, (List.range n).map (fun i => (Config.freeWord (s.free + i)).setWidth 8), false⟩ s)) s

/-- The agent of the Fence that an instance of a node on a Bay writes as (R482). -/
def runAgent (nd : Node) (r : Run) : Nat := if nd.kind = 1 ∨ nd.kind = 6 then 1 + 8 * r.bay else 2

/-- Writes of run `k` take effect (R276, R278). -/
def releaseWrites (i k : Nat) (s : State) : State :=
  match instParts s i, (tget i s.scribe.insts).bind (fun x => x.runs[k]?) with
  | some (g, nd), some r =>
    if r.undef && (nd.kind = 1 || nd.kind = 6) then freeOutputs g.domain r.bay nd.binds s
    else applyWrites g.domain (runAgent nd r) r.bay nd.binds r.writes s
  | _, _ => s

/-- Pushes of run `k` that were held are published, in the order in which they were made (R276, R278). -/
def releasePushes (i k : Nat) (s : State) : State :=
  match instParts s i, (tget i s.scribe.insts).bind (fun x => x.runs[k]?) with
  | some (g, nd), some r =>
    r.pushes.foldl (fun s p =>
      if p.packet then pushPacket p.ring g.domain (runAgent nd r) p.reserved p.entries p.truncated s
      else p.entries.foldl (fun s e => pushPlain p.ring g.domain (runAgent nd r) e s) s) s
  | _, _ => s

/-- Effects of run `k` at the end of its work, where nothing holds them back: its writes and, after them, its pushes; a held-back
run keeps them until it resolves (R276, R278). -/
def releaseRun (i k : Nat) (s : State) : State := releasePushes i k (releaseWrites i k s)

/-! ### Ending graphs (R259, R285) -/

/-- Steps 1 to 4 of a discard: pages are freed, the Ledger's and Tally's logs dropped, and `held` reduced; the discard is counted and
raised (R279, R288). -/
def discardEffects (i : Nat) (s : State) : State :=
  match tget i s.scribe.insts with
  | none => s
  | some x =>
    let s := discardLedger i x (freePages i s)
    let s := if s.tally.unresolved = some i then setFld TALLY_STATE 3 3 0 { s with tally.unresolved := none } else s
    let s := modInst i (fun y => { y with ledgerLog := [], tallyLog := none, poseHeld := none }) (dropHeld x s)
    let s := if x.prov then inc SCRIBE_PROV_DISCARDED s else s
    raise 0x8006 (x.graph * 2 ^ 24 + x.node % 65536) s

/-- Ends one instance for an abort: a running one ends with 0x1607, an unresolved provisional or dual one is discarded with
0x1813, and one that has not started goes (R259, R279). -/
def abortInst (i : Nat) (s : State) : State :=
  match tget i s.scribe.insts with
  | none => s
  | some x =>
    match x.st with
    | .waiting | .ready | .provReady =>
      let s := freeTrusses i (freePages i s)
      { s with scribe.insts := tdel i s.scribe.insts,
               scribe.graphs := tmod x.graph (fun g => { g with next := tput x.node x.n g.next }) s.scribe.graphs }
    | .running | .provRunning | .provDone | .committing | .discarding => if x.heldBack then s else
      let held := match nodeOf s x.graph x.node with | some nd => holds nd x | none => false
      let s := stopUnits i (freeTrusses i (setInst i { x with runs := x.runs.map (stopRun s) } s))
      let s := { s with scribe.resolving := lremove i s.scribe.resolving }
      if held then
        enqueue (.finish i) (discardEffects i (modInst i (fun y => { y with scribeStatus := 0x1813, st := .discarding }) s))
      else
        let s := (x.runs.zipIdx).foldl (fun s r => if r.1.started && !r.1.ended then releaseRun i r.2 s else s) s
        enqueue (.finish i) s
    | .skipped | .done => s

/-- A stopped graph starts no new instance: those that have not started are held back, and pins of its READ nodes are released
(R259, R286, R331). -/
def stopGraph (g : Nat) (s : State) : State :=
  let s := { s with scribe.graphs := tmod g (fun x => { x with started := false }) s.scribe.graphs }
  let s := (s.scribe.insts.filter (fun p => decide (p.2.graph = g) && [IState.waiting, .ready, .provReady].contains p.2.st &&
    !p.2.runs.any (·.started))).foldl (fun s p => abortInst p.1 s) s
  releasePins (fun p => decide (p.graph ≠ g)) s

/-- Aborts a graph (R259). -/
def abortGraph (g : Nat) (s : State) : State :=
  let s := { s with scribe.graphs := tmod g (fun x => { x with stagedStart := none, stagedStop := false }) s.scribe.graphs }
  let s := stopGraph g s
  settle ((s.scribe.insts.filter (fun p => p.2.graph = g)).foldl (fun s p => abortInst p.1 s) s)

/-- Aborts every graph of a domain (R285, R487). -/
def abortDomain (d : Nat) (s : State) : State :=
  (s.scribe.graphs.filter (fun p => p.2.domain = d)).foldl (fun s p => abortGraph p.1 s) s

/-- A graph goes on from the instances that a stop held back (R286). -/
def resumeGraph (g : Nat) (s : State) : State :=
  match tget g s.scribe.graphs with
  | none => s
  | some x =>
    let s := { s with scribe.graphs := tmod g (fun x => { x with started := true, next := [] }) s.scribe.graphs }
    settle (x.next.foldl (fun s p => enqueue (.spawn g p.1 p.2) s) s)

/-- A graph starts: origin is taken of every peg it names as one snapshot, and instance numbers count from 0 (R258). -/
def startGraph (g t0 : Nat) (s : State) : State :=
  match tget g s.scribe.graphs with
  | none => s
  | some x =>
    let named := x.nodes.flatMap (fun n => n.deps.map (·.peg) ++ (n.sigs.filter (·.kind = 1)).map (·.peg))
    let origins := named.foldl (fun t p => tput p (pegValue s p) t) ([] : Tab Nat)
    let s := { s with scribe.graphs := tput g { x with started := true, t0 := t0, origins := origins, done := 0, next := [], stagedStart := none } s.scribe.graphs }
    settle ((List.range x.nodes.length).foldl (fun s k => enqueue (.spawn g k 0) s) s)

/-! ### Unit cycles as instances (R253, R261, R553) -/

/-- The rank of an instance in its queue: client domains have priority 2 or lower (R261, R553). -/
def queueKey (s : State) (i k : Nat) (x : Inst) : List Nat :=
  match tget x.graph s.scribe.graphs, nodeOf s x.graph x.node with
  | some g, some nd =>
    [if (x.runs[k]?).any (·.front) then 0 else 1, if g.domain = 0 then nd.priority else max nd.priority 2, x.tReady,
     x.graph, x.node, x.n, k]
  | _, _ => [2, i]

/-- `a` comes before `b`, key by key. -/
def keyLess : List Nat → List Nat → Bool
  | a :: r, b :: t => decide (a < b) || (decide (a = b) && keyLess r t)
  | _, _ => false

/-- Runs of a kind of node, on a Bay where one is given, that are ready and not named. -/
def waitingRuns (s : State) (kind : Nat) (bay : Option Nat) : List (Nat × Nat) :=
  s.scribe.insts.flatMap (fun p => match nodeOf s p.2.graph p.2.node with
    | some nd =>
      if nd.kind = kind && [IState.ready, .provReady, .running, .provRunning, .provDone].contains p.2.st then
        (p.2.runs.zipIdx).filterMap (fun r =>
          if !r.1.named && (match bay with | some b => decide (r.1.bay = b) | none => true) then some (p.1, r.2) else none)
      else []
    | none => [])

/-- The head of a queue (R261). -/
def queueHead (s : State) (kind : Nat) (bay : Option Nat) : Option (Nat × Nat) :=
  (waitingRuns s kind bay).foldl (fun a r => match a with
    | none => some r
    | some h =>
      match tget h.1 s.scribe.insts, tget r.1 s.scribe.insts with
      | some x, some y => if keyLess (queueKey s r.1 r.2 y) (queueKey s h.1 h.2 x) then some r else some h
      | _, _ => a) none

/-- A unit instance writes bytes: at once, or into pool pages where the instance is provisional (R276). -/
def unitWrite (i dom : Nat) (a : Nat) (bs : List Byte) (poison : Bool) (s : State) : State :=
  match tget i s.scribe.insts with
  | some x =>
    if x.prov then modInst i (fun y => { y with runs := y.runs.modify 0 (fun r => { r with writes := r.writes ++ [⟨none, a, bs, poison⟩] }) }) s
    else fencedWrite dom 2 ⟨a, bs, poison⟩ s
  | none => fencedWrite dom 2 ⟨a, bs, poison⟩ s

/-- A unit takes an instance from the head of its queue (R261). -/
def unitReady (s : State) (kind i : Nat) : Bool := decide (queueHead s kind none = some (i, 0))

/-- A unit instance that is refused at its start: it starts and ends with the status (R296, R325, R353, R377). -/
def refuseUnit (i status : Nat) (s : State) : State := settle (endRun i 0 status (beginRun i 0 s))

/-- The instances of a graph in a state (R283). -/
def countState (s : State) (g : Option Nat) (st : IState) : Nat :=
  (s.scribe.insts.filter (fun p => decide (p.2.st = st) && (match g with | some k => decide (p.2.graph = k) | none => true))).length

end Sys2Proof.Machine
end

