-- ==== Sys2Proof/Machine/RaftDesc.lean ====
section
/-! DEFINITION. The Raft's grid descriptor: its fields, its checks, and its staging and latch (R289–R293, R312). -/

namespace Sys2Proof.Machine
open Sys2Proof

def gdChannels (d : List Byte) : Nat := fieldU d 2 2
def gdNx (d : List Byte) : Nat := fieldU d 4 2
def gdNy (d : List Byte) : Nat := fieldU d 6 2
def gdCell (d : List Byte) : Nat := fieldU d 8 2
def gdFormat (d : List Byte) : Nat := fieldU d 10 1
def gdGroups (d : List Byte) : Nat := fieldU d 11 1
def gdX0 (d : List Byte) : Int := fieldS d 12 4
def gdY0 (d : List Byte) : Int := fieldS d 16 4
def gdZlo (d : List Byte) : Int := fieldS d 20 4
def gdZhi (d : List Byte) : Int := fieldS d 24 4
def gdCap (d : List Byte) : Nat := fieldU d 28 4
def gdTable (d : List Byte) : Nat := fieldU d 32 8
def gdPoses (d : List Byte) : Nat := fieldU d 40 8
def gdPoseCount (d : List Byte) : Nat := fieldU d 48 2
def gdExtrap (d : List Byte) : Nat := fieldU d 52 4 * 1000
def gdFirst (d : List Byte) (g : Nat) : Nat := fieldU d (56 + 8 * g) 2
def gdCount (d : List Byte) (g : Nat) : Nat := fieldU d (58 + 8 * g) 2
def gdRule (d : List Byte) (g : Nat) : Nat := fieldU d (60 + 8 * g) 1
def gdFill (d : List Byte) (g : Nat) : Nat := fieldU d (61 + 8 * g) 1
def gdEdge (d : List Byte) (b : Nat) : Nat := fieldU d (120 + 2 * b) 2
def gdPrio (d : List Byte) (b : Nat) : Nat := bits (fieldU d 152 8) (4 * b + 3) (4 * b)
def gdEnabled (d : List Byte) : Bool := bit (fieldU d 1 1) 0
/-- Bytes of the index map, and of one entry (R292). -/
def gdMapBytes (d : List Byte) : Nat := ceilDiv (4 * gdNx d * gdNy d) 4096 * 4096
def gdEntryBytes (d : List Byte) : Nat := 64 + 64 * ceilDiv (gdChannels d) 16
def gdTableBytes (d : List Byte) : Nat := gdMapBytes d + gdCap d * gdEntryBytes d

/-- The group that holds a channel (R290). -/
def gdGroupOf (d : List Byte) (c : Nat) : Nat :=
  ((List.range (gdGroups d)).find? (fun g => decide (c < gdFirst d g + gdCount d g))).getD 0

/-- The groups cover the channels consecutively in ascending order (R293). -/
def gdGroupsOk (d : List Byte) : Bool :=
  ((List.range (gdGroups d)).foldl (fun (a : Bool × Nat) g =>
    (a.1 && decide (gdFirst d g = a.2) && decide (1 ≤ gdCount d g), a.2 + gdCount d g)) (true, 0)) = (true, gdChannels d)

/-- All bytes of a range of a structure are zero. -/
def zeroField (d : List Byte) (o n : Nat) : Bool := decide (fieldU d o n = 0)

/-- Why a grid descriptor is rejected: reason and byte offset (R293). -/
def gridReject (s : State) (d : List Byte) : Option (Nat × Nat) :=
  let out := fun (v lo hi : Nat) => decide (v < lo) || decide (hi < v)
  firstReason ([
    (decide (fieldU d 0 1 ≠ 1), 1, 0), (decide (2 ≤ fieldU d 1 1), 1, 1), (!zeroField d 50 2, 1, 50)] ++
    (List.range (gdGroups d)).map (fun g => (!zeroField d (62 + 8 * g) 2, 1, 62 + 8 * g)) ++
    [(!zeroField d 150 2, 1, 150), (!zeroField d 160 96, 1, 160),
    (out (gdChannels d) 1 256, 2, 2), (out (gdNx d) 1 1024, 2, 4), (out (gdNy d) 1 1024, 2, 6), (out (gdCell d) 50 1600, 2, 8),
    (!([0x0B, 0x0C, 0x0D].contains (gdFormat d)), 3, 10), (out (gdGroups d) 1 8, 4, 11), (!gdGroupsOk d, 4, 56)] ++
    (List.range (gdGroups d)).flatMap (fun g => [(decide (2 < gdRule d g), 4, 60 + 8 * g), (decide (1 < gdFill d g), 4, 61 + 8 * g)]) ++
    [(decide (gdZhi d ≤ gdZlo d), 5, 20), (out (gdCap d) 1 262144, 6, 28),
     (decide (gdTable d % 4096 ≠ 0) || !holdsRange s 0 (gdTable d) (gdTableBytes d) true true, 7, 32),
     (out (gdPoseCount d) 16 4096, 8, 48), (decide (50000 < fieldU d 52 4), 8, 52)] ++
    (List.range 14).map (fun b => (decide (gdEdge d (b + 1) ≤ gdEdge d b), 9, 122 + 2 * b)))

/-- A grid descriptor is read with the owner's rights and judged (R291, R293, R632): 0, or the reason and offset. -/
def raftStage (addr : Nat) (s : State) : Nat × State :=
  let d := readBytes s addr 256
  let r := if addr % 64 ≠ 0 || !readable s 0 addr 256 then some (7, 0) else gridReject s d
  let s := noteRead 0 addr 256 2 s
  match r with
  | none => (0, { s with raft.staged := some d })
  | some (reason, off) =>
    let e := reason + 65536 * off
    (e, raise 0x5020 reason (setMask RAFT_STATUS 0x10 (wr RAFT_DESC_ERR e s)))

/-- The Raft latches a grid descriptor (R312). -/
def raftSwitch (d : List Byte) (s : State) : State :=
  let was := gdEnabled s.raft.live
  let s := { s with raft.live := d, raft.cycle := if gdEnabled d && !was then 0 else s.raft.cycle }
  setFld RAFT_STATE 0 0 (b2n (gdEnabled d)) s

end Sys2Proof.Machine
end

