-- ==== Sys2Proof/Machine/TallyDesc.lean ====
section
/-! DEFINITION. Tally's unit descriptor: its fields, its checks, and its staging and latch (R372, R393). -/

namespace Sys2Proof.Machine
open Sys2Proof

def tuEnabled (d : List Byte) : Bool := bit (fieldU d 1 1) 0
def tuCap (d : List Byte) : Nat := fieldU d 2 2
def tuArea (d : List Byte) : Nat := fieldU d 8 8

def tallyReject (s : State) (d : List Byte) : Option Nat :=
  if fieldU d 0 1 ≠ 1 || decide (2 ≤ fieldU d 1 1) || !zeroField d 4 4 || !zeroField d 16 48 then some 1
  else if tuCap d = 0 || decide (4096 < tuCap d) then some 2
  else if tuArea d % 4096 ≠ 0 || !holdsRange s 0 (tuArea d) (8192 + 1040 * tuCap d) true true then some 3
  else none

/-- A unit descriptor is read with the owner's rights and judged (R372, R632): 0, or the reason. -/
def tallyStage (addr : Nat) (s : State) : Nat × State :=
  let d := readBytes s addr 64
  let r := if addr % 64 ≠ 0 || !readable s 0 addr 64 then some 3 else tallyReject s d
  let s := noteRead 0 addr 64 2 s
  match r with
  | none => (0, { s with tally.stagedDesc := some d })
  | some reason => (reason, raise 0x7020 reason (setMask TALLY_STATUS 0x20 (wr TALLY_DESC_ERR reason s)))

/-- Tally is enabled: by its register and its descriptor in force (R372, R393). -/
def tallyEnabled (s : State) : Bool := bit (live s TALLY_CTRL) 0 && tuEnabled s.tally.live

/-- Tally latches a unit descriptor; a changed table is emptied (R393). -/
def tallySwitch (d : List Byte) (wasOn : Bool) (s : State) : State :=
  let old := s.tally.live
  let s := { s with tally.live := d }
  let t := s.tally.table
  let t := if tuArea d ≠ tuArea old ∨ tuCap d ≠ tuCap old then { t with tracks := [], pending := false, wasReset := true } else t
  let t := if tallyEnabled s && !wasOn then { t with cycle := 0 } else t
  { s with tally.table := t }

end Sys2Proof.Machine
end

