-- ==== Sys2Proof/Machine/Registers.lean ====
section
/-! DEFINITION. Software accesses to registers: which register an address names, what a read returns, and what a write does by
the access type of each field (R16–R28, R628–R630). -/

namespace Sys2Proof.Machine
open Sys2Proof

/-- The base of the block window of a BAR0 address: 64 KiB blocks, and 256 KiB Bay windows (R422). -/
def windowOf (a : Nat) : Option Nat :=
  if a < 0xF0000 then some (a / 0x10000 * 0x10000)
  else if 0x100000 ≤ a ∧ a < 0x200000 then some ((a - 0x100000) / 0x40000 * 0x40000 + 0x100000)
  else none

/-- The index of `a` in `n` registers `stride` apart from `base`. -/
def idx (a base stride n : Nat) : Option Nat :=
  if base ≤ a && decide ((a - base) % stride = 0) && decide ((a - base) / stride < n) then some ((a - base) / stride) else none

/-- Whether a row of the map covers an address, and with which indices. -/
def rowHit (r : RegRow) (a : Nat) : Option (Nat × Nat) :=
  ((List.range r.n₂).findSome? (fun j =>
    if a < r.addr + r.s₂ * j then none
    else if r.n₁ = 1 then (if a = r.addr + r.s₂ * j then some (0, j) else none)
    else match idx a (r.addr + r.s₂ * j) r.s₁ r.n₁ with
      | some i => some (i, j)
      | none => none))

/-- The rows of the block that an address lies in. -/
def rowsFor (a : Nat) : List RegRow :=
  if 0x200000 ≤ a then rowsMB
  else if 0x100000 ≤ a then rowsBAY
  else match a / 0x10000 with
    | 0 => rowsSILL | 1 => rowsRIDGE | 2 => rowsCAMIN | 3 => rowsNETIN | 4 => rowsPLANER | 5 => rowsRAFT | 6 => rowsPLUMB
    | 7 => rowsTALLY | 8 => rowsSCRIBE | 9 => rowsLEDGER | 10 => rowsFENCE | 11 => rowsYARD | 12 => rowsGOVERNOR
    | 13 => rowsRECORDER | 14 => rowsKINGPOST | _ => []

/-- The row of the register at an address. -/
def findRow (a : Nat) : Option RegRow := (rowsFor a).find? (fun r => (rowHit r a).isSome)

/-- The register at an address with its reset value. -/
def regAt (a : Nat) : Reg :=
  match findRow a with
  | none => ⟨a, 0⟩
  | some r => ⟨a, if r.addr = 0x200010 then 2 + 256 * ((a - 0x200010) / 0x1000) else r.reset⟩

/-- The low word of a 64-bit pair at an address (R18). -/
def isLow (a : Nat) : Bool := pairRows.any (fun r => (rowHit r a).isSome)

/-- Ridge is pinned (R57). -/
def pinned (s : State) : Bool :=
  s.regs.any (fun p => decide (0x14000 ≤ p.1) && decide (p.1 < 0x14000 + 0x20 * 1016) && decide (p.1 % 0x20 = 0x1C) &&
    decide (bits p.2.toNat 31 30 = 1)) ||
  s.out.streams.any (fun p => p.2.enabled) ||
  s.scribe.insts.any (fun p => decide (p.2.st = .waiting) && !p.2.nbPassed &&
    (match nodeOf s p.2.graph p.2.node with | some nd => bit nd.flags 2 | none => false))

/-- Free bytes of a stack or a loft: its allocatable size less what is allocated and what waits to be cleared (R469). -/
def freeIn (s : State) (base size : Nat) : Nat :=
  size - ((s.memory.allocs.map (fun p => if base ≤ p.1 ∧ p.1 < base + size then p.2.len else 0)).sum +
    (s.memory.zeroing.map (fun p => if base ≤ p.1 ∧ p.1 < base + size then p.2 else 0)).sum)

/-- The allocatable bytes of a stack (R449). -/
def stackSize (s : State) (n : Nat) : Nat :=
  if stackUsed s n then stackBytes - fld s SILL_SYS_RESERVE 15 0 * 2 ^ 20 else 0

/-- `v`, where address `a` is that of register `r`. -/
def one (a : Nat) (r : Reg) (v : Nat) : Option Nat := if a = r.addr then some v else none

/-- `f k`, where address `a` is that of register `k` of an array. -/
def many (a base stride n : Nat) (f : Nat → Nat) : Option Nat := (idx a base stride n).map f

/-- Views of Ridge (R53–R57). -/
def viewRidge (s : State) (a : Nat) : Option Nat :=
  one a RIDGE_STATUS (putBits (rd s RIDGE_STATUS) 7 7 (b2n (pinned s)))
  <|> one a RIDGE_TIME_LO (s.ridge.ns % 2 ^ 32) <|> one a RIDGE_TIME_HI (s.ridge.ns / 2 ^ 32 % 2 ^ 32)
  <|> one a RIDGE_TIME_FRAC s.ridge.frac

/-- Instances that wait on peg `p`, and mailbox waits on it (R250). -/
def waiters (s : State) (p : Nat) : Nat :=
  (s.scribe.insts.filter (fun q => match nodeOf s q.2.graph q.2.node with
    | some nd => (nd.deps.zip q.2.entries).any (fun e => decide (e.1.peg = p) && e.2.isNone)
    | none => false)).length + (s.mb.waits.filter (fun q => q.2.peg = p ∧ q.2.state = 0)).length

/-- Views of the Scribe: the selected peg and ring, and the counts of instances by state (R250, R265, R283). -/
def viewScribe (s : State) (a : Nat) : Option Nat :=
  let p := rd s SCRIBE_PEG_SEL
  let ring := tget (rd s SCRIBE_RING_SEL) s.scribe.rings
  one a SCRIBE_STATUS (s.scribe.graphs.length + 4096 * ((List.range 4).map (fun b =>
      if 0 < live s (SCRIBE_PROV_SIZE b) ∧ live s (SCRIBE_PROV_SIZE b) ≤ rd s (SCRIBE_PROV_INUSE b) then 2 ^ b else 0)).sum)
  <|> one a SCRIBE_PEG_VALUE_LO (pegValue s p % 2 ^ 32) <|> one a SCRIBE_PEG_VALUE_HI (pegValue s p / 2 ^ 32)
  <|> one a SCRIBE_PEG_STATE (match tget p s.scribe.pegs with
      | none => 0
      | some x => 1 + 2 * b2n (decide (0 < waiters s p)) + 256 * x.owner + 65536 * min 65535 (waiters s p))
  <|> one a SCRIBE_RING_STATE (match ring with
      | none => 0
      | some r => 1 + 2 * b2n r.packet + 4 * r.log2 + 256 * r.owner + 65536 * min 65535 r.resets)
  <|> one a SCRIBE_RING_PROD ((ring.map (·.prod)).getD 0) <|> one a SCRIBE_RING_CONS ((ring.map (·.cons)).getD 0)
  <|> many a 0x800C0 4 9 (fun k => countState s none ([IState.waiting, .ready, .provReady, .running, .provRunning, .provDone,
        .committing, .discarding, .skipped].getD k .done))

/-- Views of memory and the Fence (R449, R469, R480). -/
def viewMemory (s : State) (a : Nat) : Option Nat :=
  one a FENCE_GRANTS s.memory.allocs.length
  <|> many a 0xA0100 4 64 (fun d => putBits (rd s (FENCE_DOMAIN_STATE d)) 15 8
        (min 255 ((List.range 256).filter (fun w => winValid s w && decide (winDomain s w = d))).length))
  <|> many a 0x120 4 4 (fun n => freeIn s (n * stackBytes) (stackSize s n) / 2 ^ 20)
  <|> many a 0x130 4 4 (fun n => if bayPresent s n then freeIn s (loftBase + n * loftWindow) loftBytes / 4096 else 0)
  <|> one a SILL_ZERO_PENDING ((s.memory.zeroing.map (·.2)).sum / 2 ^ 20)
  <|> many a 0x110000 0x40000 4 (fun n => putBits (rd s (BAY_DRAM_STATUS n)) 0 0 (b2n (stackUsed s n)))

/-- Views of the recorder and of Kingpost's identity (R491, R585, R594). -/
def viewRecord (s : State) (a : Nat) : Option Nat :=
  one a RECORDER_LIFE_S s.recd.life.s <|> one a RECORDER_CYCLES s.recd.life.cycle
  <|> one a RECORDER_PAGE_SEQ s.recd.pageSeq <|> one a RECORDER_OLDEST_SEQ ((s.recd.pages.head?.map (·.1)).getD 0)
  <|> one a KINGPOST_LIFECYCLE ((if s.sec.fuses.returned then 2 else if s.sec.fuses.returnPending then 1 else 0) +
      4 * (if bit (rd s FENCE_LOCK) 3 then 0 else if s.sec.serviceLevel2 then 2
           else if fld s SILL_IDENT 7 4 = 0 && !s.sec.fuses.returned then 1 else 0) +
      16 * b2n s.sec.fuses.keyKill + 32 * s.sec.fuses.keyRevoke)
  <|> many a 0xE0110 4 4 (fun i => (Config.uid i).toNat)
  <|> many a 0xE0150 4 4 (fun i => (Config.serviceNonce s.sec.nonces i).toNat)

/-- Views of the Bays: steps, and the trusses that are busy (R185, R190). -/
def viewBay (s : State) (a : Nat) : Option Nat :=
  many a 0x100080 0x40000 4 (fun b => tgetD b 0 s.fab.steps % 2 ^ 32)
  <|> many a 0x100084 0x40000 4 (fun b => tgetD b 0 s.fab.steps / 2 ^ 32 % 2 ^ 32)
  <|> many a 0x100030 0x40000 4 (fun b => ((List.range 16).map (fun t => match tget (16 * b + t) s.fab.trusses with
        | some x => if x.task.isSome || x.testing then 2 ^ t else 0
        | none => 0)).sum)

/-- Logical blocks of an object of `n` bytes. -/
def objectBlocks (n : Nat) : Nat := ceilDiv n 4096

/-- DATA blocks of the domains that `p` picks (R510). -/
def dataBlocks (y : YardSt) (p : Nat → Bool) : Nat := (y.blocks.filter (fun b => p (b.1 % 64) && b.2.isSome)).length

/-- Blocks of all model objects. -/
def modelBlocks (y : YardSt) : Nat := (y.models.map (fun m => objectBlocks m.2.length)).sum

/-- 0 NORMAL, 1 LOW, 2 READ_ONLY, from a reserve in 0.01 % (R521). -/
def poolState (reserve : Nat) : Nat := if reserve < 500 then 2 else if reserve < 2500 then 1 else 0

/-- Views of the Yard (R510–R512, R521, R525). -/
def viewYard (s : State) (a : Nat) : Option Nat :=
  let y := s.yard
  one a YARD_STATUS (putBits (putBits (putBits (rd s YARD_STATUS) 2 1 (poolState y.reserveTlc)) 4 3 (poolState y.reservePslc)) 14 8 y.queue.length)
  <|> one a YARD_TLC_WEAR y.wearTlc <|> one a YARD_PSLC_WEAR y.wearPslc <|> one a YARD_RETIRED y.retired
  <|> one a YARD_TLC_RESERVE y.reserveTlc <|> one a YARD_PSLC_RESERVE y.reservePslc
  <|> one a YARD_NS_USED (ceilDiv (dataBlocks y (fun _ => true)) 256) <|> one a YARD_MODEL_USED (ceilDiv (modelBlocks y) 256)

/-- Views of the Ledger: its tables, the selected cache and the selected sequence (R316–R323, R334, R336). -/
def viewLedger (s : State) (a : Nat) : Option Nat :=
  let l := s.ledger
  let c := fld s LEDGER_CACHE_SEL 5 0
  let k := fld s LEDGER_SEQ_SEL 15 0
  let len := match tget k l.seqs with | some q => q.len | none => 0
  one a LEDGER_STATE (l.caches.length + 256 * min 255 l.runs.length)
  <|> one a LEDGER_SEQ_LIVE (l.seqs.filter (fun q => !q.2.faulted)).length
  <|> one a LEDGER_PAGES_USED (l.pages.filter (fun p => decide (p.2.state ≠ .free))).length
  <|> one a LEDGER_CACHE_FREE (freeSlots s c)
  <|> one a LEDGER_CACHE_DROPPED (l.pages.filter (fun p => decide (p.2.cache = c) && decide (p.2.state = .dropped))).length
  <|> one a LEDGER_SEQ_LEN_LO (len % 2 ^ 32) <|> one a LEDGER_SEQ_LEN_HI (len / 2 ^ 32)
  <|> one a LEDGER_SEQ_STATE (8 * b2n (tget k l.held).isSome + (match tget k l.seqs with
      | some q => (if q.faulted then 2 else 1) + 4 * b2n q.droppable + 16 * q.cache + 65536 * min 65535 q.list.length
      | none => 0))

/-- Views of Plumb and Tally (R344, R384–R392). -/
def viewSolvers (s : State) (a : Nat) : Option Nat :=
  let tracks := fun (f : Nat → Bool) => (s.tally.table.tracks.filter (fun t => f t.2.state)).length
  one a PLUMB_STATE (putBits (rd s PLUMB_STATE) 15 8 (min 255 s.plumb.queue.length))
  <|> one a PLUMB_SLOT_STATE (match tget (fld s PLUMB_SLOT_SEL 5 0) s.plumb.slots with
      | some c => 1 + 2 * (c.priority % 8) + 256 * c.owner
      | none => 0)
  <|> one a TALLY_STATE (b2n (tallyEnabled s) + 4 * b2n s.tally.table.pending + 8 * b2n s.tally.unresolved.isSome)
  <|> one a TALLY_LIVE (tracks (fun k => k == 1) + 65536 * tracks (fun k => k == 2 || k == 3))
  <|> one a TALLY_NEXT_ID s.tally.table.nextId

/-- Views of the Governor: energies, durations and the selected rail and account (R560, R563, R571, R578). -/
def viewGovernor (s : State) (a : Nat) : Option Nat :=
  let g := s.gov
  let k := fld s GOVERNOR_RAIL_SEL 3 0
  let d := fld s GOVERNOR_DOMAIN_SEL 7 0
  let open_ := match g.window with | some w => g.inputRead - w.energy | none => 0
  let mj := (if d = 0xF0 then g.system.toNat else tgetD d 0 g.charged) / 1000
  let thr := fun (i : Nat) => tgetD i 0 g.durations / 100
  one a GOVERNOR_WINDOW_E_LO (open_ % 2 ^ 32) <|> one a GOVERNOR_WINDOW_E_HI (open_ / 2 ^ 32)
  <|> many a 0xC0040 8 5 (fun i => thr i % 2 ^ 32) <|> many a 0xC0044 8 5 (fun i => thr i / 2 ^ 32)
  <|> one a GOVERNOR_RAIL_STATE (min 65535 (tgetD k 0 g.railMv) + 65536 * min 65535 (tgetD k 0 g.railMa))
  <|> one a GOVERNOR_RAIL_SCALE (tgetD k 0x4000 g.scales + 65536 * (match tget k g.clamped with
      | some i => b2n (decide (g.intervals < i + 1000))
      | none => 0))
  <|> one a GOVERNOR_DOMAIN_ENERGY_LO (mj % 2 ^ 32) <|> one a GOVERNOR_DOMAIN_ENERGY_HI (mj / 2 ^ 32 % 2 ^ 32)

/-- Views of Kingpost: the running image, the slots, the crash record and Foreman's restarts (R498, R557, R610, R622). -/
def viewKingpost (s : State) (a : Nat) : Option Nat :=
  let x := s.fw.slotA
  let y := s.fw.slotB
  let box := if s.fw.running = 0 then x.box else y.box
  let crash := fun (f : Crash → Nat) => match s.power.retained.crash with | some c => f c | none => 0
  one a KINGPOST_SAFETY_STATE (putBits (rd s KINGPOST_SAFETY_STATE) 23 16
    (min 255 (s.kp.restarts.filter (fun t => decide (s.ridge.ns < t + 600000000000))).length))
  <|> many a 0xE0120 4 12 (fun i => (Config.measure (box.take 208) i).toNat)
  <|> one a KINGPOST_SLOTS (x.state + 4 * x.boots + 16 * y.state + 64 * y.boots + 256 * b2n s.fw.recovery)
  <|> one a KINGPOST_CRASH_LO (crash (fun c => c.rail + 16 * c.phase + 256 * min 4095 c.low))
  <|> one a KINGPOST_CRASH_HI (crash (fun c => min 4095 c.high))
  <|> one a KINGPOST_CRASH_T_LO (crash (fun c => c.t % 2 ^ 32)) <|> one a KINGPOST_CRASH_T_HI (crash (fun c => c.t / 2 ^ 32))

/-- The table of the newest grid epoch that has begun: the two serve in turn (R146, R165). -/
def newestTable (s : State) : Nat :=
  match (s.plan.segs.filter (fun g => decide (g.first * pdPeriod g.desc + pdPhase g.desc ≤ s.ridge.ns))).getLast? with
  | none => 0
  | some g =>
    let n := (s.ridge.ns - pdPhase g.desc) / max 1 (pdPeriod g.desc)
    (match g.last with | some l => min n (l - 1) | none => n) % 2

/-- The value of a register whose home is the state of a unit and no stored word. -/
def unitView (s : State) (a : Nat) : Option Nat :=
  viewRidge s a <|> viewScribe s a <|> viewMemory s a <|> viewRecord s a <|> viewBay s a <|> viewYard s a <|> viewLedger s a
  <|> viewSolvers s a <|> viewGovernor s a <|> viewKingpost s a
  <|> many a 0x200010 0x1000 64 (fun d => putBits (putBits (rd s (regAt a)) 1 1 (b2n s.mb.foremanUp)) 2 2 (b2n (quiescedDomain s d)))
  <|> many a 0x200018 0x1000 64 (fun _ => s.mb.foremanGen) <|> many a 0x20001C 0x1000 64 (fun _ => s.mb.heartbeat)
  <|> one a PLANER_STATE (putBits (rd s PLANER_STATE) 1 1 (newestTable s)) <|> one a NETIN_VLINK_STREAMS (unsafeStreams s)
  <|> many a 0x200020 0x1000 64 (fun _ => s.ridge.ns % 2 ^ 32)
  <|> many a 0x200024 0x1000 64 (fun _ => s.ridge.ns / 2 ^ 32 % 2 ^ 32)

/-- The value of a register in the step of an access, before any latch. -/
def valueAt (s : State) (a : Nat) : Nat := match unitView s a with | some v => v | none => rd s (regAt a)

/-- What a 32-bit read returns: the high word of a pair returns its latch, or its reset value before the first read of the
low word; the fraction of Ridge is latched with it (R18, R56). -/
def readReg (s : State) (a : Nat) : Nat :=
  if (4 ≤ a && isLow (a - 4)) || a = 0x10010 then
    match tget a s.latch with
    | some w => w.toNat
    | none => (regAt a).reset
  else if (findRow a).isNone then 0
  else if (findRow a).any (fun r => r.flds.all (fun f => f.acc = .wo)) then 0
  else valueAt s a

/-- Every bit of a register. -/
def allBits : Nat := 0xFFFFFFFF

/-- Whether the bits of a write that `covered` picks address an RO, RC or HWO field of the register at `a` (R27). -/
def addressesHw (a covered : Nat) : Bool :=
  (windowOf a).any (fun w => decide (a = w + 0xFFF8) || decide (a = w + 0xFFFC)) ||
  (findRow a).any (fun r => r.flds.any (fun f =>
    (decide (f.acc = .ro) || decide (f.acc = .rc) || decide (f.acc = .hwo)) && decide (bits covered f.msb f.lsb ≠ 0)))

/-- A write that a window ignores or accepts in part is counted and its address recorded, with whether a lock was the cause and
whether the bits that it `covered` are of a field that software does not write (R27, R28, R628); mailbox pages count in MB.IGNORED
(R423). -/
def ignoredWrite (f a : Nat) (locked : Bool) (covered : Nat) (s : State) : State :=
  if 0x200000 ≤ a then inc (MB_IGNORED f) s
  else match windowOf a with
    | none => s
    | some w =>
      let s := inc (BLOCK_IGNORED_WRITES w) s
      if a = w + 0xFFFC then s
      else wr (BLOCK_IGNORED_ADDR w) ((a - w) / 4 * 4 % 2 ^ 32 + 2 * b2n locked + b2n (addressesHw a covered)) s

/-- The mark that an address of the RIDGE window belongs to, and the register within it (R72). -/
def markOf (a : Nat) : Option (Nat × Nat) :=
  if 0x14000 ≤ a ∧ a < 0x1C000 then some ((a - 0x14000) / 0x20, (a - 0x14000) % 0x20) else none

/-- A field value "taken as" another (R630). -/
def takenAs (v hi lo frm dest : Nat) : Nat := if bits v hi lo = frm then putBits v hi lo dest else v
def takenWithin (v hi lo mn mx : Nat) : Nat := putBits v hi lo (clamp mn mx (bits v hi lo))

/-- The lock that freezes the RWL fields of a register (R489, R415). -/
def lockOf (s : State) (a : Nat) : Bool :=
  if 0xA1000 ≤ a ∧ a < 0xA3000 then bit (rd s FENCE_LOCK) 0
  else if a = 0x33800 ∨ a = 0x33804 then bit (rd s NETIN_VLINK_CTRL) 31
  else false

/-- The value in force of a written word, or none where its register says that the write is ignored (R629, R630). -/
def valueRule (s : State) (a v : Nat) : Option Nat :=
  match markOf a with
  | some (m, o) =>
    if 1016 ≤ m then none                                                        -- R79
    else if o < 0x18 && fld s (RIDGE_MARK_STATUS m) 31 30 = 1 then none          -- R73
    else some v
  | none =>
  if a = 0x10038 then some (takenWithin v 15 0 1 500)
  else if a = 0x10070 then (if changing s then none else some (clamp 1000000 1000000000 v))
  else if a = 0x20008 then some (takenWithin (takenWithin v 15 0 100 8000) 23 16 60 132)
  else if 0x21000 ≤ a && a < 0x22000 then
    let o := a % 0x100
    if o = 0x20 then
      (if ([0x2A, 0x2B, 0x2C, 0x2D, 0x2E, 0x1E, 0x24].contains (bits v 5 0)) && 1 ≤ bits v 21 8 && bits v 21 8 ≤ 8192
       then some v else none)
    else if o = 0x24 then (if 1 ≤ bits v 13 0 && bits v 13 0 ≤ 8192 then some v else none)
    else if o = 0x28 then (if 8191 < bits v 15 0 then none else some (takenAs v 23 16 0 64))
    else if o = 0x2C then (if 8191 < bits v 15 0 then none else some v)
    else if o = 0x3C then (if 262143 < bits v 23 0 then none else some v)
    else some v
  else if 0x38000 ≤ a && a < 0x3E000 then
    (if bit (rd s (NETIN_GCL_STATUS ((a - 0x38000) / 0x800))) 0 then none
     else some (if a % 8 = 4 then max 100 v else v))
  else if 0x31000 ≤ a && a < 0x31E00 then
    let o := a % 0x100
    if 0x60 ≤ o && o < 0x78 && bit (rd s (NETIN_GCL_STATUS ((a - 0x31000) / 0x100))) 0 then none else
    if o = 0 then some (takenAs v 2 1 3 0)
    else if 0x10 ≤ o && o < 0x30 then some (putBits v 9 0 (min 1000 (bits v 9 0)))
    else if o = 0x60 then some (takenWithin v 24 16 1 256)
    else if o = 0x74 then some (min v (rd s (NETIN_GCL_CYCLE_NS ((a - 0x31000) / 0x100))))
    else some v
  else if 0x32000 ≤ a && a < 0x32800 then (if a % 0x100 = 0x10 then some (takenAs v 15 0 0 1) else some v)
  else if 0x30400 ≤ a && a < 0x30800 then
    (if a % 0x100 = 0 then
      let v := takenAs v 2 1 3 1
      let v := if 3 < bits v 11 8 then putBits v 11 8 2 else v
      some (if 3 < bits v 15 12 then putBits v 15 12 0 else v)
     else some v)
  else if a = 0x30900 then some (takenAs (takenAs v 3 2 3 1) 5 4 3 1)
  else if a = 0x30930 then some (takenAs (takenWithin v 9 0 10 1000) 15 12 0 1)
  else if 0x33000 ≤ a && a < 0x33800 then
    (if a % 0x40 = 0 then some (takenAs (takenAs (takenAs v 7 6 3 0) 18 17 3 0) 31 24 0 1) else some v)
  else if a = 0x80050 then (if 8192 ≤ bits v 15 0 then none else some v)
  else if a = 0x80070 then (if 262144 ≤ bits v 23 0 then none else some v)
  else if 0x100000 ≤ a && a < 0x200000 && a % 0x40000 = 0x1002C then
    some (takenWithin (takenWithin v 15 8 1 168) 31 16 1 3600)
  else if a = 0x90020 then (if 16384 ≤ bits v 15 0 then none else some v)
  else if a = 0xC0080 then (if 11 ≤ bits v 3 0 then none else some v)
  else if a = 0xC0090 then (if bits v 7 0 ≤ 0x3F ∨ bits v 7 0 = 0xF0 then some v else none)
  else if a = 0xC0110 ∨ a = 0xC0130 ∨ a = 0xC0150 ∨ a = 0xC0170 then some (takenAs v 7 0 0 1)
  else if a = 0xC0000 then some (takenWithin (takenWithin v 7 0 85 123) 23 16 4 32)
  else if a = 0xD0014 then some (takenAs (takenAs v 7 0 0 1) 23 16 0 1)
  else some v

/-- Field by field, the word after a write of `v` to a register that holds `old`: software writes by access type, then the
hardware updates that coincide with it (R19, R23, R24). -/
def fieldWrite (locked : Bool) (old v : Nat) (hw : List HwUpdate) (w : Nat) (f : Fld) : Nat :=
  let writable := match f.acc with | .rw => true | .rwl => !locked | _ => false
  let w := match f.acc with
    | .w1c => putBits w f.msb f.lsb (bits old f.msb f.lsb - (bits old f.msb f.lsb &&& bits v f.msb f.lsb))
    | .w1s => putBits w f.msb f.lsb (bits old f.msb f.lsb ||| bits v f.msb f.lsb)
    | _ => if writable then putBits w f.msb f.lsb (bits v f.msb f.lsb) else w
  hw.foldl (fun w u => match u with
    | .incr m l n => if m = f.msb ∧ l = f.lsb then putBits w m l (satAdd (2 ^ (m + 1 - l) - 1) (bits w m l) n) else w
    | .set mask => if f.acc = .w1c then putBits w f.msb f.lsb (bits w f.msb f.lsb ||| bits mask f.msb f.lsb) else w
    | .put m l x =>
      if m = f.msb ∧ l = f.lsb then
        (if writable then w
         else if f.acc = .w1s then putBits w m l (x ||| bits v m l)
         else putBits w m l x)
      else w) w

/-- A field after the hardware updates alone (R23). -/
def hwField (hw : List HwUpdate) (w : Nat) (f : Fld) : Nat :=
  hw.foldl (fun w u => match u with
    | .incr m l n => if m = f.msb ∧ l = f.lsb then putBits w m l (satAdd (2 ^ (m + 1 - l) - 1) (bits w m l) n) else w
    | .set mask => if f.acc = .w1c then putBits w f.msb f.lsb (bits w f.msb f.lsb ||| bits mask f.msb f.lsb) else w
    | .put m l x => if m = f.msb ∧ l = f.lsb then putBits w m l x else w) w

/-- A register after the hardware updates that coincide with a write that is ignored (R23). -/
def hwAlone (a : Nat) (hw : List HwUpdate) (s : State) : State :=
  match findRow a with
  | some r => if hw.isEmpty then s else wr (regAt a) (r.flds.foldl (hwField hw) (valueAt s a)) s
  | none => s

/-- Whether a field accepts software writes. -/
def acceptsWrite (locked : Bool) (f : Fld) : Bool :=
  match f.acc with | .rw => true | .rwl => !locked | .w1c => true | .w1s => true | .wo => true | _ => false

/-- The word after a write to a register with the given fields, and whether the write is counted as ignored (R628). -/
def wordWrite (fs : List Fld) (locked : Bool) (old v : Nat) (hw : List HwUpdate) : Nat × Bool :=
  let fs := fs.filter (fun f => f.acc ≠ .res)
  let w := fs.foldl (fieldWrite locked old v hw) old
  let none_ := !fs.any (acceptsWrite locked)
  let differs := fs.any (fun f => !acceptsWrite locked f && decide (bits v f.msb f.lsb ≠ bits old f.msb f.lsb))
  (w, none_ || differs)

/-- Registers whose write is a row of its own: REGISTER_WRITE of one is no occurrence of that row. -/
def ownRow (a v : Nat) : Bool :=
  [0x10000, 0x10018, 0x10024, 0x1005C, 0x33800, 0x33804, 0x8005C, 0x80068, 0xA0008, 0xA041C, 0xA043C, 0xC0008, 0xC0030, 0xD0018].contains a ||
  (match markOf a with | some (m, o) => decide (o = 0x18) && decide (m < 1016) | none => false) ||
  (match idx a 0x21000 0x100 16 with | some _ => true | none => false) ||
  (match idx a 0x21004 0x100 16 with | some _ => true | none => false) ||
  (match idx a 0x2100C 0x100 16 with | some _ => true | none => false) ||
  (match idx a 0x31060 0x100 12 with | some _ => bit v 1 | none => false) ||
  (match idx a 0x100004 0x40000 4 with | some _ => true | none => false) ||
  (match idx a 0x200000 0x1000 64 with | some _ => true | none => false)

/-- A configuration word of a camera port that is disabled takes effect at once; that of an enabled port through an epoch
(R115). A write of PORT_CTRL has its own meaning. Registers outside the mode change are read from `regs` alone. -/
def atOnce (s : State) (a : Nat) : Bool :=
  if 0x21000 ≤ a ∧ a < 0x22000 ∧ 0x10 ≤ a % 0x100 ∧ a % 0x100 < 0x40 then !bit (rd s (CAMIN_PORT_CTRL ((a - 0x21000) / 0x100))) 0 else false

/-- Stores an accepted word; a low word of a pair is staged and the high word commits both (R18). -/
def commitWord (a w : Nat) (s : State) : State :=
  let put := fun (a w : Nat) (s : State) =>
    let s := wr (regAt a) w s
    if atOnce s a then setLiveNow (regAt a) w s else s
  if isLow a || a = 0x10014 then { s with staged := tput a (BitVec.ofNat 32 w) s.staged }
  else
    match tget (a - 4) s.staged with
    | some lo => if 4 ≤ a ∧ isLow (a - 4) then
        put a w (put (a - 4) lo.toNat { s with staged := tdel (a - 4) s.staged })
      else put a w s
    | none => put a w s

/-- 10 ns in units of 2^−32 ns (R54). -/
def inc10 : Nat := 10 * 2 ^ 32

/-- The greatest departure from 10 ns that trim_limit allows, rounded toward 10 ns (R55). -/
def incSpan (s : State) : Nat := inc10 * fld s RIDGE_TRIM_LIMIT 15 0 / 1000000

/-- An increment within the trim limit (R55). -/
def clampInc (s : State) (i : Nat) : Nat := clamp (inc10 - incSpan s) (inc10 + incSpan s) i

/-- A narrower trim limit replaces an increment outside it by the bound at the next tick (R55). -/
def limitInc (s : State) : State :=
  let i := s.ridge.incNext.getD s.ridge.inc
  if clampInc s i = i then s else { s with ridge.incNext := some (clampInc s i) }

/-- What a write does beside its word: a descriptor's address stages the descriptor (R173, R291, R372), a trim limit binds the increment
(R55), the enable bits of Ethernet ports and CAN channels act at once, and clearing gate_en gives the gates
their administrative states (R81, R142). -/
def postWrite (a : Nat) (s : State) : State :=
  if a = PLANER_DESC_HI.addr then (planerStage (rd64 s PLANER_DESC_LO PLANER_DESC_HI) s).2
  else if a = RAFT_GRID_DESC_HI.addr then (raftStage (rd64 s RAFT_GRID_DESC_LO RAFT_GRID_DESC_HI) s).2
  else if a = TALLY_UNIT_DESC_HI.addr then (tallyStage (rd64 s TALLY_UNIT_DESC_LO TALLY_UNIT_DESC_HI) s).2
  else if a = RIDGE_TRIM_LIMIT.addr then limitInc s
  else match idx a 0x31000 0x100 14, idx a 0x30400 0x100 4, idx a 0x31060 0x100 12 with
  | some p, _, _ => let r := NETIN_PORT_CTRL p; setLiveEnable r (rd s r) s
  | none, some c, _ =>
    let r := NETIN_CAN_CTRL c
    let s := setLiveEnable r (rd s r) s
    if bit (rd s r) 0 then (if fld s (NETIN_CAN_STATUS c) 1 0 = 3 then wr (NETIN_CAN_STATUS c) 0 s else s)
    else setFld (NETIN_CAN_STATUS c) 1 0 3 s
  | none, none, some p =>
    if bit (rd s (NETIN_GCL_CTRL p)) 0 then s
    else
      let g := tgetD p {} s.net.gcl
      let s := { s with net.gcl := tput p { g with on := false } s.net.gcl }
      setFld (NETIN_GCL_STATUS p) 15 8 (fld s (NETIN_GCL_CTRL p) 15 8) (setFld (NETIN_GCL_STATUS p) 1 1 0 s)
  | none, none, none => s

/-- A write that reaches register `a`: by the access type of each field, counted where it is ignored in part (R19, R628). -/
def acceptWrite (a v : Nat) (hw : List HwUpdate) (s : State) : State :=
  match findRow a with
  | none => ignoredWrite 0 a false allBits s
  | some r =>
    let locked := lockOf s a
    let (new, ign) := wordWrite r.flds locked (valueAt s a) v hw
    let s := if ign then ignoredWrite 0 a locked allBits s else s
    if r.flds.any (acceptsWrite locked) then postWrite a (commitWord a new s) else hwAlone a hw s

/-- A 32-bit write to the mailbox page of function `f` (R423, R424, R426). -/
def pageWrite (f a v : Nat) (hw : List HwUpdate) (s : State) : State :=
  let o := a % 0x1000
  if o < 0x200 then
    match findRow a with
    | none => ignoredWrite f a false allBits s
    | some r =>
      let (w, ign) := wordWrite r.flds false (valueAt s a) v hw
      let s := if ign then ignoredWrite f a false allBits s else s
      wr (regAt a) w s
  else
    let k := (o - 0x200) / 0xE0
    if 16 ≤ k || 128 ≤ (o - 0x200) % 0xE0 || bit (rd s (MB_BUSY f)) k then ignoredWrite f a false allBits s
    else wrWord a v s

/-- A 32-bit software write at a BAR0 address of function `f` (R19–R24, R628–R630). -/
def write32 (f a v : Nat) (hw : List HwUpdate) (s : State) : State :=
  if 0x200000 ≤ a then
    if f * 0x1000 + 0x200000 ≤ a ∧ a < f * 0x1000 + 0x201000 then pageWrite f a v hw s
    else if f = 0 ∧ a < 0x240000 then inc (MB_IGNORED 0) s else s
  else if f ≠ 0 then s
  else
    match windowOf a with
    | none => s
    | some w =>
      if a = w + 0xFFF8 ∨ a = w + 0xFFFC then ignoredWrite f a false allBits s
      else if ownRow a v then s
      else match findRow a with
        | none => ignoredWrite f a false allBits s
        | some _ =>
          if 0xE0000 ≤ a ∧ a < 0xF0000 then ignoredWrite f a false allBits (hwAlone a hw s)
          else if 0xA0400 ≤ a ∧ a < 0xA041C then
            (if bit (rd s FENCE_LOCK) 2 then ignoredWrite f a true allBits s
             else { s with sec.secret := tput ((a - 0xA0400) / 4) v s.sec.secret })
          else if 0xA0420 ≤ a ∧ a < 0xA043C then
            (if bit (rd s FENCE_LOCK) 4 then ignoredWrite f a true allBits s
             else { s with sec.rekey := tput ((a - 0xA0420) / 4) v s.sec.rekey })
          else
            match valueRule s a v with
            | none => ignoredWrite f a false allBits (hwAlone a hw s)
            | some v' => acceptWrite a v' hw s

/-- The aligned words that an access of `size` bytes touches, and whether it covers each whole (R17). -/
def coveredWords (a size : Nat) : List (Nat × Bool) :=
  if size = 0 then [] else
    (List.range ((a + size - 1) / 4 + 1 - a / 4)).map (fun i =>
      let w := (a / 4 + i) * 4
      (w, decide (a ≤ w) && decide (w + 4 ≤ a + size)))

/-- REGISTER_WRITE: a software write takes effect by the access type of each field; an access in part of a register is ignored
and counted (R17, R19, R628). -/
def execRegisterWrite (function addr size value : Nat) (hw : List HwUpdate) (s : State) : Out :=
  if !hostReaches s function then .next s
  else .next ((coveredWords addr size).foldl (fun s p =>
    if p.2 then write32 function p.1 (value / 2 ^ (8 * (p.1 - addr)) % 2 ^ 32) hw s
    else if function = 0 ∨ (function * 0x1000 + 0x200000 ≤ p.1 ∧ p.1 < function * 0x1000 + 0x201000) then
      ignoredWrite function p.1 false (2 ^ (8 * (min (addr + size) (p.1 + 4) - p.1)) - 2 ^ (8 * (max addr p.1 - p.1))) (hwAlone p.1 hw s)
    else s) s)

/-- The word after a read that clears the RC fields to those of `clear`, with the increments and values that coincide with it kept
(R19, R25, R362). -/
def rcClear (clear : Nat) (fs : List Fld) (hw : List HwUpdate) (w : Nat) : Nat :=
  fs.foldl (fun w f =>
    if f.acc = .rc then
      hw.foldl (fun w u => match u with
        | .incr m l n => if m = f.msb ∧ l = f.lsb then putBits w m l (satAdd (2 ^ (m + 1 - l) - 1) (bits w m l) n) else w
        | .put m l v => if m = f.msb ∧ l = f.lsb then putBits w m l v else w
        | .set _ => w) (putBits w f.msb f.lsb (bits clear f.msb f.lsb))
    else w) w

/-- The fields of the register at an address. -/
def fieldsAt (a : Nat) : List Fld :=
  if (windowOf a).any (fun w => decide (a = w + 0xFFF8)) then [⟨31, 0, .rc⟩] else ((findRow a).map (·.flds)).getD []

/-- A read by function `f` of the word at `a` clears its RC fields; RING_POP and addresses out of reach have no part in it. -/
def rcClears (f a : Nat) : Bool :=
  (decide (f = 0 ∧ a < 0x201000) || decide (f * 0x1000 + 0x200000 ≤ a ∧ a < f * 0x1000 + 0x201000)) &&
    (fieldsAt a).any (fun x => x.acc = .rc) && decide (a ≠ 0x80080)

/-- RC_READ: the value before the coinciding increment is returned, the register is cleared, which for PLUMB.SLACK_MIN means its reset
value, and the increment kept; a narrower read has the effect of a whole one, a wider one that of a read of each register that it
covers, of which the first carries what coincides (R17, R19, R25, R362). -/
def execRcRead (function addr size : Nat) (hw : List HwUpdate) (s : State) : Out :=
  let ws := (coveredWords addr size).map (·.1)
  if !hostReaches s function then .next s
  else match ws.filter (rcClears function) with
    | [] => .next s
    | a :: rest =>
      let v := (ws.map (fun w => (if rcClears function w then rd s (regAt w) else readReg s w) * 2 ^ (8 * (w - addr / 4 * 4)))).sum
      let clear := fun (hw : List HwUpdate) (s : State) (w : Nat) => wr (regAt w) (rcClear (regAt w).reset (fieldsAt w) hw (rd s (regAt w))) s
      .next (emit (.readValue addr (v / 2 ^ (8 * (addr % 4)) % 2 ^ (8 * size))) (rest.foldl (clear []) (clear hw s a)))

/-- LOW_WORD_READ_LATCH: a read of the low word latches the high word, and for Ridge the fraction, of the same step
(R18, R56). -/
def execLowWordReadLatch (function addr : Nat) (s : State) : Out :=
  if !hostReaches s function then .next s
  else if (function = 0 ∧ addr < 0x200000) ∨ (addr = 0x200020 + 0x1000 * function) then
    if isLow addr then
      let s' := { s with latch := tput (addr + 4) (BitVec.ofNat 32 (valueAt s (addr + 4))) s.latch }
      let s' := if addr = 0x10008 then { s' with latch := tput 0x10010 (BitVec.ofNat 32 s.ridge.frac) s'.latch } else s'
      .next (emit (.readValue addr (valueAt s addr)) s')
    else .next s
  else .next s

end Sys2Proof.Machine
end

