-- ==== Sys2Proof/Machine/CameraOps.lean ====
section
/-! DEFINITION. Camera ports as operations: the power-over-coax switch, the link, frames, and the frame-sync of a mark
(R90–R116). -/

namespace Sys2Proof.Machine
open Sys2Proof

def cam (s : State) (n : Nat) : Cam := tgetD n {} s.cam.ports
def putCam (n : Nat) (c : Cam) (s : State) : State := { s with cam.ports := tput n c s.cam.ports }
def modCam (n : Nat) (f : Cam → Cam) (s : State) : State := putCam n (f (cam s n)) s

def camEnabled (s : State) (n : Nat) : Bool := bit (live s (CAMIN_PORT_CTRL n)) 0
def camUp (s : State) (n : Nat) : Bool := bit (rd s CAMIN_LINK_UP) n
/-- The switch state: 0 OFF, 1 RAMP_UP, 2 STANDBY, 3 ON, 4 RAMP_DOWN, 5 FAULT (R92). -/
def pocState (s : State) (n : Nat) : Nat := fld s (CAMIN_POC_STATUS n) 2 0

/-- The configuration that governs a frame whose t_sync, or t_fs in free-run mode, is `t` (R115). -/
def camCfg (s : State) (n t : Nat) : CamCfg :=
  let r := fun (x : Nat → Reg) => liveAt s 0 t (x n)
  { ctrl := r CAMIN_PORT_CTRL, trigLat := r CAMIN_TRIG_LAT, exposure := r CAMIN_EXPOSURE, lineTime := r CAMIN_LINE_TIME,
    fsWindow := r CAMIN_FS_WINDOW, format := r CAMIN_FORMAT, height := r CAMIN_HEIGHT, stream := r CAMIN_STREAM_CFG,
    verdict := r CAMIN_VERDICT_CFG, buf := r CAMIN_FRAME_BUF_LO + 2 ^ 32 * r CAMIN_FRAME_BUF_HI,
    stride := r CAMIN_LINE_STRIDE, ring := bits (r CAMIN_RECORD_RING) 23 0 }

def camFreeRun (c : CamCfg) : Bool := bit c.ctrl 6
def camRows (c : CamCfg) : Nat := bits c.height 13 0
def camWidth (c : CamCfg) : Nat := bits c.format 21 8
def camDataType (c : CamCfg) : Nat := bits c.format 5 0
def camSlots (c : CamCfg) : Nat := bits c.stream 26 24 + 1
def camBandLines (c : CamCfg) : Nat := if bits c.stream 23 16 = 0 then 64 else bits c.stream 23 16
def camTimeout (c : CamCfg) : Nat := bits c.height 31 16 * 100000

/-- Bytes of a stored pixel: two for RAW10 to RAW16 and YUV422, one for RAW8, three for RGB888 (R103). -/
def pixelBytes (dt : Nat) : Nat := if dt = 0x2A then 1 else if dt = 0x24 then 3 else 2

/-- The bytes of an unpacked line: RAW10 to RAW16 as little-endian u16, the others byte by byte as received (R103). -/
def unpackLine (c : CamCfg) (px : List Nat) : List Byte :=
  if 0x2B ≤ (camDataType c) ∧ (camDataType c) ≤ 0x2E then
    (px.take (camWidth c)).flatMap (fun v => leBytes 2 (v % 2 ^ (10 + 2 * ((camDataType c) - 0x2B))))
  else (px.take ((camWidth c) * pixelBytes (camDataType c))).map (fun v => BitVec.ofNat 8 v)

/-- The address of line `r` of a frame; line `rows` holds embedded data (R102, R103). -/
def lineAddr (f : CamFrame) (r : Nat) : Nat :=
  f.cfg.buf + (f.number % (camSlots f.cfg)) * f.cfg.stride * ((camRows f.cfg) + 1) + r * f.cfg.stride

/-- The time from which the timeout of a frame runs (R101). -/
def frameBase (f : CamFrame) : Nat := if (camFreeRun f.cfg) || f.tSync = 0 then f.tFs else f.tSync

/-- Sets bits of a frame's flags (R106). -/
def setFlag (m : Nat) (f : CamFrame) : CamFrame := { f with flags := f.flags ||| m }

/-- Closes the open frame of a port; `why` is 0 for its frame-end, 1 for a timeout or the next frame-start, and 2 for its link
going down (R101, R105, R108, R110, R113). -/
def closeFrame (n why : Nat) (s : State) : State :=
  let c := cam s n
  match c.open_ with
  | none => s
  | some f =>
    let f := if why = 2 then setFlag 0x100 f
      else if why = 1 ∨ f.received + f.lost < (camRows f.cfg) then setFlag 2 f else f
    let f := { f with pattern := decide (why ≠ 2) && bit f.cfg.ctrl 7 }
    let s := putCam n { c with open_ := none, closed := c.closed ++ [f] } s
    let s := match f.embedded with
      | some _ => s
      | none => fencedWrite 0 2 ⟨lineAddr f (camRows f.cfg), List.replicate f.cfg.stride 0, false⟩ s
    if (f.received + f.lost) % (camBandLines f.cfg) ≠ 0 then unitPegAdd (bits f.cfg.stream 15 0) 0 s else s

/-- The link of a port comes up or goes down (R113). -/
def camLink (n : Nat) (up : Bool) (s : State) : State :=
  if camUp s n = up then s
  else if up then
    raise 0x2031 n (setMask CAMIN_LINK_UP (2 ^ n) (setFld (CAMIN_POC_STATUS n) 3 3 1 (modCam n (fun c => { c with onAt := none }) s)))
  else raise 0x2030 n (closeFrame n 2 (clearMask CAMIN_LINK_UP (2 ^ n) s))

/-- The output and current that a port's switch measures (R92). -/
def measurePort (n mv ma : Nat) (s : State) : State :=
  let s := setFld (CAMIN_POC_STATUS n) 31 16 mv (setFld (CAMIN_POC_STATUS n) 15 6 ma s)
  wr CAMIN_POC_SUM (min 65535 ((List.range 16).map (fun k => fld s (CAMIN_POC_STATUS k) 15 6)).sum) s

/-- The switch goes toward the level that its command names (R92, R93). -/
def rampTo (n : Nat) (s : State) : State :=
  let cmd := fld s (CAMIN_POC_CTRL n) 1 0
  let st := pocState s n
  let dest := fun (k : Nat) (s : State) => setFld (CAMIN_POC_STATUS n) 2 0 k s
  if rd s (CAMIN_POC_FAULT n) ≠ 0 then s
  else if cmd = 2 then (if st = 3 then s else dest 1 s)
  else if cmd = 1 then
    (if st = 2 then s else if st = 3 ∨ 5250 < fld s (CAMIN_POC_STATUS n) 31 16 then dest 4 s else dest 1 s)
  else (if st = 0 then s else if st = 5 then dest 0 s else dest 4 s)

/-- A new value of POC_CTRL, with what its fields take (R92). -/
def putPocCtrl (n v : Nat) (s : State) : State :=
  let v := if bits v 1 0 = 3 then putBits v 1 0 0 else v
  let v := if bits v 11 8 = 0 then putBits v 11 8 1 else v
  let v := putBits v 25 16 (clamp 10 600 (bits v 25 16))
  rampTo n (acceptWrite (CAMIN_POC_CTRL n).addr v [] s)

/-- Clears fault bits; a port without any returns to its commanded state (R93). -/
def clearPocFault (n mask : Nat) (s : State) : State :=
  let s := clearMask (CAMIN_POC_FAULT n) mask s
  if rd s (CAMIN_POC_FAULT n) = 0 ∧ pocState s n = 5 then
    rampTo n (setFld (CAMIN_POC_STATUS n) 2 0 0 (clearMask CAMIN_POC_ANY_FAULT (2 ^ n) s))
  else s

/-- The frame-sync symbol of a kind 0x3 mark leaves the ports of `mask` that are in triggered mode (R98, R99). -/
def camTrigger (mask instant : Nat) (s : State) : State :=
  (List.range 16).foldl (fun s n =>
    if bit mask n && camUp s n && !bit (live s (CAMIN_PORT_CTRL n)) 6 then
      let s := emit (.coaxSync n instant) s
      let s := if (cam s n).sync.isSome then raise 0x2004 n (inc CAMIN_MISSED_TRIG s) else s
      modCam n (fun c => { c with sync := some instant }) s
    else s) s

/-- The times and flags of a frame: t_exp, t_validity, the exposure used, and the flags with those the times give (R100). -/
def frameTimes (f : CamFrame) : Nat × Nat × Nat × Nat :=
  let off := bits f.cfg.ctrl 31 16
  let src := bit f.cfg.ctrl 8
  let (e, fl) := match src, f.embedded with
    | false, _ => (f.cfg.exposure, f.flags)
    | true, some bs => if off + 4 ≤ bs.length then (leNat ((bs.drop off).take 4), f.flags) else (f.cfg.exposure, f.flags ||| 0x200)
    | true, none => (f.cfg.exposure, f.flags ||| 0x200)
  let tExp := if (camFreeRun f.cfg) then (f.tFs + 2 ^ 64 - f.cfg.trigLat) % 2 ^ 64 else (f.tSync + f.cfg.trigLat) % 2 ^ 64
  let fl := if (camFreeRun f.cfg) then fl ||| 0x400
    else if f.tFs < f.tSync + bits f.cfg.fsWindow 15 0 * 1000 ∨ f.tSync + bits f.cfg.fsWindow 31 16 * 1000 < f.tFs then fl ||| 4 else fl
  let off16 := (camRows f.cfg) / 2 * f.cfg.lineTime + e * 8
  (tExp, (tExp + (off16 + 8) / 16) % 2 ^ 64, e, fl)

/-- The verdict of a frame from its flags and lost lines (R107). -/
def frameVerdict (f : CamFrame) (flags : Nat) : Nat :=
  if flags &&& 0x1A4 ≠ 0 ∨ bits f.cfg.verdict 31 16 < f.lost then 2 else if flags &&& 0x85B ≠ 0 then 1 else 0

/-- The 64-byte frame record (R106). -/
def frameRecord (n : Nat) (f : CamFrame) (flags verdict pattern tExp tVal e : Nat) : List Byte :=
  leBytes 1 1 ++ leBytes 1 n ++ leBytes 2 flags ++ leBytes 4 f.number ++ leBytes 8 (if (camFreeRun f.cfg) then 0 else f.tSync) ++
    leBytes 8 tExp ++ leBytes 8 tVal ++ leBytes 8 f.tFs ++ leBytes 4 e ++ leBytes 2 (min 65535 f.received) ++
    leBytes 2 (min 65535 f.lost) ++ leBytes 2 f.epoch ++ leBytes 1 verdict ++ leBytes 1 pattern ++
    leBytes 4 (min 0xFFFFFFFF f.retx) ++ leBytes 1 (f.number % (camSlots f.cfg)) ++ leBytes 7 0

/-- Causes for which a camera configuration is rejected: 1 data type, 2 peg, 3 ring, 4 width or height, 5 line_stride, 6 slots
(R103, R436). `w` are the words at +0x00 to +0x3C. -/
def camCause (w : List Nat) : Nat :=
  let g := fun i => w.getD i 0
  let fm := g 8; let ht := g 9; let sc := g 10; let vd := g 11
  let need := ceilDiv (bits fm 21 8 * pixelBytes (bits fm 5 0)) 64 * 64
  if !([0x2A, 0x2B, 0x2C, 0x2D, 0x2E, 0x1E, 0x24].contains (bits fm 5 0)) then 1
  else if 8191 < bits sc 15 0 ∨ 8191 < bits vd 15 0 then 2
  else if 262143 < bits (g 15) 23 0 then 3
  else if bits fm 21 8 = 0 ∨ 8192 < bits fm 21 8 ∨ bits ht 13 0 = 0 ∨ 8192 < bits ht 13 0 then 4
  else if g 14 % 64 ≠ 0 ∨ g 14 < need then 5
  else if bits sc 26 24 = 0 then 6
  else 0

end Sys2Proof.Machine
end

