-- ==== Sys2Proof/Machine/Camera.lean ====
section
/-! DEFINITION. Commands of the camera ports: power over coax, packets, frames, lines, test patterns and the link
(chapter 3). -/

namespace Sys2Proof.Machine
open Sys2Proof

/-- POC_COMMAND: a write of POC_CTRL starts the ramp toward the commanded level; a port in FAULT stays there (R92, R93). -/
def execPocCommand (port value : Nat) (s : State) : Out := .next (if 16 ≤ port then s else putPocCtrl port value s)

/-- POC_RAMP_COMPLETE: the switch reaches its target level and enters ON, STANDBY or OFF; `mv` and `ma` are what it measures,
`vpoc` the voltage at the balls (R92, R113). -/
def execPocRampComplete (port mv ma vpoc : Nat) (s : State) : Out :=
  let st := pocState s port
  if 16 ≤ port ∨ ¬ (st = 1 ∨ st = 4) then .next s
  else
    let cmd := fld s (CAMIN_POC_CTRL port) 1 0
    let s := wr CAMIN_VPOC_MV (vpoc % 65536) (measurePort port mv ma s)
    if cmd = 2 then
      .next (modCam port (fun c => { c with onAt := if camUp s port then none else some s.ridge.ns })
        (setFld (CAMIN_POC_STATUS port) 2 0 3 s))
    else if cmd = 1 then .next (setFld (CAMIN_POC_STATUS port) 2 0 2 s)
    else .next (setFld (CAMIN_POC_STATUS port) 2 0 0 s)

/-- The fault bits that can arise in a port's present state (R94). -/
def pocPossible (s : State) (n : Nat) : Nat :=
  let st := pocState s n
  let ramp := st = 1 ∨ st = 4
  let last := (List.range 16).all (fun k => decide (k ≤ n) || !([1, 3, 4].contains (pocState s k)))
  if st = 0 ∨ st = 5 then 0
  else 0x47 + (if st = 2 ∨ st = 3 then 8 else 0) + (if ramp then 16 else 0) + (if (st = 3 ∨ ramp) ∧ last then 32 else 0)

/-- POC_FAULT_DETECTED: conditions of R94 have lasted their detection times on a port; the switch goes to FAULT, the link goes
down, and a third failed retry clears auto_retry (R93–R97, R113). -/
def execPocFaultDetected (port conditions : Nat) (s : State) : Out :=
  let m := conditions &&& pocPossible s port
  if 16 ≤ port ∨ m = 0 then .next s
  else
    let s := setMask CAMIN_POC_ANY_FAULT (2 ^ port) (setMask (CAMIN_POC_FAULT port) m s)
    let s := if bit m 4 then raise 0x2011 port s else s
    let s := if m &&& 0x6F = 0 then s else raise 0x2010 (port + 256 * m) s
    let s := measurePort port 0 0 (setFld (CAMIN_POC_STATUS port) 2 0 5 s)
    let c := cam s port
    let again := match c.retryAt with | some t => decide (s.ridge.ns ≤ t + 10000000000) | none => false
    let retries := if again then fld s (CAMIN_POC_STATUS port) 5 4 + 1 else 0
    let s := setFld (CAMIN_POC_STATUS port) 5 4 (min 3 retries) s
    let s := modCam port (fun c => { c with faultAt := s.ridge.ns, retryAt := none, onAt := none,
                                            open_ := c.open_.map (setFlag 0x80) }) s
    let s := camLink port false s
    if 3 ≤ retries ∧ bit (rd s (CAMIN_POC_CTRL port)) 2 then .next (raise 0x2012 port (clearMask (CAMIN_POC_CTRL port) 4 s))
    else .next s

/-- POC_FAULT_CLEAR: a write clears the fault bits that it names, but for those that recur in its handshake window
(R23, R93). -/
def execPocFaultClear (port value recur : Nat) (s : State) : Out :=
  if 16 ≤ port then .next s
  else
    let m := bits value 6 0 - (bits value 6 0 &&& recur)
    let s := modCam port (fun c => { c with retryAt := none }) s
    .next (clearPocFault port m (setFld (CAMIN_POC_STATUS port) 5 4 0 s))

/-- POC_AUTO_RETRY: 1 s after FAULT, auto_retry clears the fault bits and the port ramps again (R97). -/
def execPocAutoRetry (port : Nat) (s : State) : Out :=
  if 16 ≤ port ∨ pocState s port ≠ 5 ∨ !bit (rd s (CAMIN_POC_CTRL port)) 2 ∨ s.ridge.ns < (cam s port).faultAt + 1000000000 then .next s
  else .next (clearPocFault port 0x7F (modCam port (fun c => { c with retryAt := some s.ridge.ns }) s))

/-- APHY_PACKET_RECEIVED: a packet that took `attempts` retransmissions is received, or is lost after retry_max of them, and is
counted by its fate (R112, R114). -/
def execAphyPacketReceived (port attempts : Nat) (received : Bool) (s : State) : Out :=
  if 16 ≤ port ∨ !camUp s port then .next s
  else
    let most := bits (live s (CAMIN_PORT_CTRL port)) 5 3
    let n := if received then min attempts most else most
    let s := incFld (CAMIN_RETX_REQ port) 31 0 n s
    let s := if !received then inc (CAMIN_PKT_LOST port) s
      else if n = 0 then inc (CAMIN_RX_PACKETS port) s else inc (CAMIN_RETX_OK port) s
    .next (modCam port (fun c => { c with open_ := c.open_.map (fun f => { f with packets := f.packets + 1, retx := f.retx + n }) }) s)

/-- APHY_LOCK_LOSS: lock has been lost for 100 µs, and the link goes down (R113). -/
def execAphyLockLoss (port : Nat) (s : State) : Out := .next (if 16 ≤ port then s else camLink port false s)

/-- APHY_LINK_UP: training completes on an enabled port without a power-over-coax fault (R113). -/
def execAphyLinkUp (port : Nat) (s : State) : Out :=
  if 16 ≤ port ∨ !camEnabled s port ∨ rd s (CAMIN_POC_FAULT port) ≠ 0 then .next s else .next (camLink port true s)

/-- CAMERA_ABSENT_TIMEOUT: the link is not up 500 ms after the port reached ON (R113). -/
def execCameraAbsentTimeout (port : Nat) (s : State) : Out :=
  match (cam s port).onAt with
  | none => .next s
  | some t =>
    if s.ridge.ns < t + 500000000 ∨ camUp s port then .next s
    else .next (raise 0x2032 port (setFld (CAMIN_POC_STATUS port) 3 3 0 (modCam port (fun c => { c with onAt := none }) s)))

/-- Counts a CSI-2 header's ECC outcome: 1 corrected, 2 uncorrectable (R112). -/
def countEcc (n ecc : Nat) (s : State) : State :=
  if ecc = 1 then incFld (CAMIN_HDR_ECC n) 15 0 1 s else if ecc = 2 then incFld (CAMIN_HDR_ECC n) 31 16 1 s else s

/-- FRAME_START_RECEIVED: stamped, matched to the unmatched trigger that fired before it, it opens a frame and closes one still
open (R99–R101, R112, R115). -/
def execFrameStartReceived (port vc ecc stamp : Nat) (retransmitted : Bool) (s : State) : Out :=
  if 16 ≤ port ∨ !camUp s port then .next s
  else
    let s := countEcc port ecc s
    let now := camCfg s port stamp
    if vc ≠ bits now.format 7 6 then .next (inc (CAMIN_UNSUPPORTED port) s)
    else
      let s := closeFrame port 1 s
      let c := cam s port
      let m := if (camFreeRun now) then none else match c.sync with | some t => if t < stamp then some t else none | none => none
      let t := m.getD stamp
      let f : CamFrame := { cfg := camCfg s port t, epoch := epochAt s 0 t, number := c.nextFrame, tSync := m.getD 0, tFs := stamp }
      let f := if retransmitted then setFlag 8 f else f
      let f := if ecc = 2 then setFlag 0x40 f else f
      let f := if !(camFreeRun now) && m.isNone then setFlag 4 f else f
      .next (putCam port { c with open_ := some f, sync := if m.isSome then none else c.sync,
                                  nextFrame := (c.nextFrame + 1) % 2 ^ 32, begun := true } s)

/-- LINE_RECEIVED: a long packet of data type `dt` with its pixels, or bytes for the types stored bytewise and for embedded
data (0x12). `fate` is 0 for a good line, 1 with a corrected header, 2 with an uncorrectable one, 3 for a CRC-16 failure, and
4 where an A-PHY packet of it was lost (R90, R101–R105, R112, R114). -/
def execLineReceived (port vc dt fate : Nat) (pixels : List Nat) (s : State) : Out :=
  if 16 ≤ port ∨ !camUp s port then .next s
  else
    let s := countEcc port (if fate = 1 then 1 else if fate = 2 then 2 else 0) s
    let c := cam s port
    let cfg := match c.open_ with | some f => f.cfg | none => camCfg s port s.ridge.ns
    if decide (vc ≠ bits cfg.format 7 6) || (decide (dt ≠ (camDataType cfg)) && decide (dt ≠ 0x12)) then
      .next (if fate = 2 ∨ fate = 4 then s else inc (CAMIN_UNSUPPORTED port) s)
    else
      let s := if fate = 3 then inc (CAMIN_PAYLOAD_CRC port) s else s
      match c.open_ with
      | none =>
        if dt = 0x12 ∨ !c.begun then .next s
        else if 2 ≤ fate then .next (inc (CAMIN_LINES_LOST port) s)
        else .next (modCam port (fun c => { c with closed := match c.closed.reverse with
            | [] => []
            | f :: r => (setFlag 0x800 f :: r).reverse }) (inc (CAMIN_LATE_LINES port) s))
      | some f =>
        if dt = 0x12 then
          if 2 ≤ fate ∨ f.embedded.isSome then .next s
          else
            let bs := pixels.map (fun v => BitVec.ofNat 8 v)
            let s := putCam port { c with open_ := some { f with embedded := some bs } } s
            .next (fencedWrite 0 2 ⟨lineAddr f (camRows cfg), (bs ++ List.replicate cfg.stride 0).take cfg.stride, false⟩ s)
        else
          let r := f.received + f.lost
          if (camRows cfg) ≤ r then .next s
          else
            let s :=
              if 2 ≤ fate then
                let s := inc (CAMIN_LINES_LOST port) (putCam port { c with open_ := some (setFlag 1 { f with lost := f.lost + 1 }) } s)
                if admitAll s 0 (lineAddr f r) ((camWidth cfg) * pixelBytes (camDataType cfg)) true then
                  writeFree (lineAddr f r) ((camWidth cfg) * pixelBytes (camDataType cfg)) s
                else s
              else
                fencedWrite 0 2 ⟨lineAddr f r, unpackLine cfg pixels, false⟩
                  (putCam port { c with open_ := some { f with received := f.received + 1 } } s)
            .next (if (r + 1) % (camBandLines cfg) = 0 then unitPegAdd (bits cfg.stream 15 0) 0 s else s)

/-- FRAME_END_RECEIVED: closes the frame, and the test pattern follows; one with an uncorrectable header only flags it
(R101, R108, R112). -/
def execFrameEndReceived (port vc ecc : Nat) (s : State) : Out :=
  if 16 ≤ port ∨ !camUp s port then .next s
  else
    let s := countEcc port ecc s
    match (cam s port).open_ with
    | none => .next s
    | some f =>
      if ecc = 2 then .next (modCam port (fun c => { c with open_ := some (setFlag 0x40 f) }) s)
      else if vc ≠ bits f.cfg.format 7 6 then .next (inc (CAMIN_UNSUPPORTED port) s)
      else .next (closeFrame port 0 s)

/-- FRAME_TIMEOUT: the frame is still open timeout_us after its start (R101). -/
def execFrameTimeout (port : Nat) (s : State) : Out :=
  match (cam s port).open_ with
  | none => .next s
  | some f => if frameBase f + (camTimeout f.cfg) < s.ridge.ns then .next (closeFrame port 1 s) else .next s

/-- PATTERN_CHECK_DONE: the verdict of the oldest closed frame is fixed, its record pushed and the verdict peg incremented.
`pathFail` says that the checker saw the pattern damaged, `testFail` that its self-test reported PASS (R106–R111, R545). -/
def execPatternCheckDone (port : Nat) (pathFail testFail : Bool) (s : State) : Out :=
  let c := cam s port
  match c.closed with
  | [] => .next s
  | f :: rest =>
    let s := putCam port { c with closed := rest, lastTest := s.ridge.ns } s
    let (tExp, tVal, e, fl) := frameTimes f
    let (pattern, fl) := if !f.pattern then (2, fl ||| 0x10) else if pathFail then (1, fl ||| 0x20) else (0, fl)
    let s := if pattern = 2 then incFld (CAMIN_PATTERN port) 31 16 1 s
      else if pattern = 1 then fault 2 (raise 0x2020 port (incFld (CAMIN_PATTERN port) 15 0 1 s)) else s
    let fl := if bit (rd s KINGPOST_CHECKER_LATCH) port then fl ||| 0x20 else fl
    let v := frameVerdict f fl
    let rec_ := frameRecord port f fl v pattern tExp tVal e
    let (s, sent) := unitPushS f.cfg.ring rec_ s
    let s := if sent then s else raise 0x2005 port (inc (CAMIN_REC_DROP port) s)
    let s := unitSignal (bits f.cfg.verdict 15 0) v (rec_ ++ leBytes 1 (b2n f.embedded.isSome)) s
    let s := incFld (CAMIN_FRAMES port) (10 * v + 9) (10 * v) 1 s
    let s := histo 9 (logBin f.retx) (wr (CAMIN_LAST_FRAME port) (fl + 65536 * v) s)
    let s := if f.packets < f.retx * 100 then raise 0x2001 port s else s
    let s := if 0 < f.lost then raise 0x2002 port s else s
    let s := if v = 2 then raise 0x2003 port s else s
    if f.pattern then
      let s := inc CAMIN_SELFTEST_RUNS s
      .next (checkerTest port (!testFail) (if testFail then raise 0x2021 port s else s))
    else .next s

/-- CAM_PORT_ENABLE_WRITE: a write of PORT_CTRL enables or disables the port at once; the other fields of an enabled port wait
for an epoch (R102, R113, R115). -/
def execCamPortEnableWrite (port value : Nat) (s : State) : Out :=
  if 16 ≤ port then .next s
  else
    let r := CAMIN_PORT_CTRL port
    let was := camEnabled s port
    let s := acceptWrite r.addr value [] s
    let now := bit value 0
    let s := if was && now then s else if was then setLiveEnable r 0 s else setLiveNow r (rd s r) s
    if now && !was then .next (modCam port (fun c => { c with nextFrame := 0, begun := false, sync := none, lastTest := s.ridge.ns }) s)
    else if was && !now then .next (camLink port false s)
    else .next s

end Sys2Proof.Machine
end

