-- ==== Sys2Proof/Machine/NetOps.lean ====
section
/-! DEFINITION. Network, scanner and vehicle-bus operations: egress queues and gates, the jig, sweeps, and samples of the
signal map (R117–R142). -/

namespace Sys2Proof.Machine
open Sys2Proof

/-- The NETIN tables that govern what is stamped at `t` (R142). -/
def netTables (s : State) (t : Nat) : NetTables := if t < tgetD 1 0 s.ridge.unitSince then s.net.prev else s.net.live

/-! ### Switch and gates (R81, R82, R118–R120) -/

def linkUp (s : State) (p : Nat) : Bool := bit (rd s NETIN_LINK_UP) p
def queueAt (s : State) (p q : Nat) : List EthFrame := tgetD (16 * p + q) [] s.net.queues
def setQueue (p q : Nat) (l : List EthFrame) (s : State) : State := { s with net.queues := tput (16 * p + q) l s.net.queues }
def queueBytes (l : List EthFrame) : Nat := (l.map (fun f => f.bytes.length)).sum

/-- The bytes of the shared buffer that the egress queues use beyond their reserves (R118). -/
def sharedUse (s : State) : Nat :=
  (s.net.queues.map (fun p => queueBytes p.2 - (if p.1 / 16 < 12 then 131072 else 0))).sum

/-- A frame of `n` bytes finds egress queue `q` of port `p` full (R118). -/
def queueFull (s : State) (p q n : Nat) : Bool :=
  let l := queueBytes (queueAt s p q)
  let r := if p < 12 then 131072 else 0
  decide (r < l + n) && decide (8388608 < sharedUse s + ((l + n - r) - (l - r)))

/-- Puts a frame in an egress queue, or drops and counts it (R118, R119). -/
def enqueueFrame (p q : Nat) (f : EthFrame) (s : State) : State :=
  if !linkUp s p || queueFull s p q f.bytes.length then inc (NETIN_TX_DROP p) s
  else setQueue p q (queueAt s p q ++ [f]) s

/-- Picoseconds per byte of a port's link (R117). -/
def psPerByte (s : State) (p : Nat) : Nat :=
  if 12 ≤ p then 800000 else if 8 ≤ p then 8000 else [800, 1600, 3200, 800].getD (fld s (NETIN_PORT_STATUS p) 2 1) 800

/-- The time that a frame occupies the wire, preamble and gap included, in ns. -/
def wireTime (s : State) (p bytes : Nat) : Nat := ceilDiv ((bytes + 20) * psPerByte s p) 1000

def gclOf (s : State) (p : Nat) : Gcl := tgetD p {} s.net.gcl
def putGcl (p : Nat) (g : Gcl) (s : State) : State := { s with net.gcl := tput p g s.net.gcl }

/-- Ridge time in units of 2^−32 ns (R53). -/
def ridgeNow (s : State) : Nat := s.ridge.ns * 2 ^ 32 + s.ridge.frac

/-- The administrative list of a port (R120). -/
def adminList (s : State) (p : Nat) : List (Nat × Nat) :=
  let n := fld s (NETIN_GCL_CTRL p) 24 16
  (List.range n).map (fun e =>
    (bits (rd s ⟨0x38000 + 0x800 * p + 8 * e, 0⟩) 7 0, max 100 (rd s ⟨0x38004 + 0x800 * p + 8 * e, 0⟩)))

def gclCycle (s : State) (p : Nat) : Nat :=
  max 1 (rd s (NETIN_GCL_CYCLE_NS p) * 2 ^ 32 + rd s (NETIN_GCL_CYCLE_FRAC p))

/-- What one cycle runs through of a list: the entry in which the cycle ends is cut there, and the last one is held until then
(R81). -/
def fitCycle : Nat → List (Nat × Nat) → List (Nat × Nat)
  | _, [] => []
  | left, e :: r =>
    if r.isEmpty || decide (left ≤ e.2 * 2 ^ 32) then [(e.1, left)] else (e.1, e.2 * 2 ^ 32) :: fitCycle (left - e.2 * 2 ^ 32) r

/-- The time at which the first entry that closes the gate of a queue begins. -/
def firstClosed (q : Nat) : List (Nat × Nat) → Nat → Option Nat
  | [], _ => none
  | e :: r, t => if bit e.1 q then firstClosed q r (t + e.2) else some t

/-- The time for which the last entry of a cycle may be held for a new list: the extension, at most one cycle (R81, R120). -/
def gclHold (g : Gcl) : Nat := g.cycleStart + g.cycle + min (g.ext * 2 ^ 32) g.cycle

/-- The time at which the gate of a queue that is open closes, by the operational list and by the list that follows it (R81). -/
def gateClose (s : State) (p q : Nat) : Option Nat :=
  let g := gclOf s p
  let rest := firstClosed q (g.entries.drop (g.entry + 1)) g.entryEnd
  let old := if !g.on then none else if rest.isSome || g.applyAt.any (· ≤ gclHold g) then rest
    else firstClosed q g.entries (g.cycleStart + g.cycle)
  match g.applyAt with
  | none => old
  | some t =>
    if old.any (· < t) then old
    else if bit (rd s (NETIN_GCL_CTRL p)) 0 then firstClosed q (fitCycle (gclCycle s p) (adminList s p)) t
    else if bit (fld s (NETIN_GCL_CTRL p) 15 8) q then none
    else some t

/-- Whether the gate of a queue is open, and until which Ridge ns it stays so (R81). -/
def gateWindow (s : State) (p q : Nat) : Option (Option Nat) :=
  if 12 ≤ p then some none
  else if !bit (fld s (NETIN_GCL_STATUS p) 15 8) q then none
  else some ((gateClose s p q).map (· / 2 ^ 32))

/-- A frame may start now: the port is idle, the gate is open, and the frame ends before it closes (R81, R82). -/
def mayStart (s : State) (p q bytes : Nat) : Bool :=
  linkUp s p && decide (tgetD p 0 s.net.busy ≤ s.ridge.ns) &&
    (match gateWindow s p q with
     | none => false
     | some none => true
     | some (some t) => decide (s.ridge.ns + wireTime s p bytes ≤ t))

/-- A frame leaves: the port is busy for its time, and it is counted. -/
def sendFrame (p q : Nat) (bytes : List Byte) (s : State) : State :=
  emit (.eth p q bytes) (inc (NETIN_TX_FRAMES p)
    { s with net.busy := tput p (s.ridge.ns + wireTime s p bytes.length) s.net.busy })

/-- A 1 written to config_change at Ridge time `now`: the administrative list is pending until its base time, or until the first
whole cycle after it that is not in the past (R120). -/
def configChangeAt (now p : Nat) (s : State) : State :=
  if bit (rd s (NETIN_GCL_STATUS p)) 0 then s
  else
    let base := rd64 s (NETIN_GCL_BASE_LO p) (NETIN_GCL_BASE_HI p) * 2 ^ 32
    let t := if now ≤ base then base else base + ceilDiv (now - base) (gclCycle s p) * gclCycle s p
    let s := setFld (NETIN_GCL_CTRL p) 1 1 1 (setFld (NETIN_GCL_STATUS p) 0 0 1 s)
    putGcl p { gclOf s p with applyAt := some t } s

def configChange (p : Nat) (s : State) : State := configChangeAt (ridgeNow s) p s

/-- Shows the operational gate states and entry (R81). -/
def showGates (p : Nat) (s : State) : State :=
  let g := gclOf s p
  let s := setFld (NETIN_GCL_STATUS p) 24 16 g.entry (setFld (NETIN_GCL_STATUS p) 1 1 (b2n g.on) s)
  setFld (NETIN_GCL_STATUS p) 15 8 (if g.on then ((g.entries[g.entry]?).getD (0xFF, 0)).1 else fld s (NETIN_GCL_CTRL p) 15 8) s

/-- Kind 0x1 mark: the head frame of an egress queue may leave without waiting for its launch time (R74). -/
def egressRelease (p q : Nat) (s : State) : State :=
  match queueAt s p q with
  | [] => s
  | f :: r => setQueue p q ({ f with launch := none } :: r) s

/-- Kind 0x2 mark: the fire time written to GCL_BASE and a 1 to config_change, both 1 µs before a fire instant that is not late, or
both ignored while a change is pending (R76, R120). -/
def gclMark (p t : Nat) (s : State) : State :=
  if bit (rd s (NETIN_GCL_STATUS p)) 0 then
    ignoredWrite 0 (NETIN_GCL_CTRL p).addr false allBits (ignoredWrite 0 (NETIN_GCL_BASE_HI p).addr false allBits s)
  else
    let s := wr64 (NETIN_GCL_BASE_LO p) (NETIN_GCL_BASE_HI p) t s
    configChangeAt (if s.ridge.ns ≤ t + 40 then min (ridgeNow s) (t * 2 ^ 32) else ridgeNow s) p s

/-! ### The jig and its sweeps (R121–R132) -/

def jig (s : State) (p : Nat) : Jig := tgetD p {} s.net.jigs
def putJig (p : Nat) (j : Jig) (s : State) : State := { s with net.jigs := tput p j s.net.jigs }
def modJig (p : Nat) (f : Jig → Jig) (s : State) : State := putJig p (f (jig s p)) s
def modSweep (p : Nat) (f : Sweep → Sweep) (s : State) : State := modJig p (fun j => { j with sweep := j.sweep.map f }) s
def sweepFlag (m : Nat) (w : Sweep) : Sweep := { w with flags := w.flags ||| m }

/-- The crossing commanded for a sweep: of the last two sent, the nearest to the one observed (R129). -/
def crossCmd (j : Jig) (w : Sweep) : Option Nat :=
  match w.obs with
  | none => none
  | some o => j.crossings.foldl (fun acc c => match acc with
      | none => some c
      | some b => if ((c : Int) - o).natAbs < ((b : Int) - o).natAbs then some c else some b) none

/-- The 64-byte sweep record (R130). -/
def sweepRecord (p : Nat) (w : Sweep) (cmd : Option Nat) (flags verdict synth : Nat) : List Byte :=
  leBytes 1 1 ++ leBytes 1 p ++ leBytes 2 flags ++ leBytes 4 w.number ++ leBytes 8 (w.tFirst.getD 0) ++ leBytes 8 w.tLast ++
    leBytes 8 (cmd.getD 0) ++ leBytes 8 (w.obs.getD 0) ++ leBytes 4 (min 0xFFFFFFFF w.points) ++ leBytes 2 (min 65535 w.packets) ++
    leBytes 2 (min 65535 w.lost) ++ leBytes 2 w.epoch ++ leBytes 1 verdict ++ leBytes 1 synth ++ leBytes 2 (min 65535 w.blocks) ++
    leBytes 2 w.adapter ++ leBytes 2 w.scanner ++ leBytes 6 0

/-- A self-test of a scanner port's checker (R132, R545). -/
def scannerTest (p : Nat) (testFail : Bool) (s : State) : State :=
  let s := incFld (NETIN_SYNTH p) 31 16 1 (modJig p (fun j => { j with lastTest := s.ridge.ns }) s)
  checkerTest (16 + p) (!testFail) (if testFail then raise 0x3021 p s else s)

/-- Closes the open sweep: its flags are judged, its record pushed and the verdict peg incremented (R129, R130, R132). -/
def closeSweep (p : Nat) (testFail : Bool) (s : State) : State :=
  let j := jig s p
  match j.sweep with
  | none => s
  | some w =>
    let cmd := crossCmd j w
    let tol := bits w.timing 31 16 * 1000
    let phase := match w.obs, cmd with
      | some o, some c => decide (tol < ((o : Int) - c).natAbs)
      | none, _ => !j.crossings.isEmpty
      | _, none => false
    let synth := if w.synthFail || bit (rd s KINGPOST_CHECKER_LATCH) (16 + p) then 1 else if w.blocks = 0 then 2 else 0
    let fl := w.flags ||| (if 0 < w.lost then 1 else 0) ||| (if phase then 4 else 0) ||| (if w.blocks = 0 then 8 else 0) |||
      (if synth = 1 then 0x10 else 0) ||| (if j.crossings.isEmpty then 0x400 else 0)
    let v := if fl &&& 0x290 ≠ 0 ∨ bits w.verdict 31 16 < w.lost then 2 else if fl &&& 0x16F ≠ 0 then 1 else 0
    let rec_ := sweepRecord p w cmd fl v synth
    let s := putJig p { j with sweep := none } s
    let (s, sent) := unitPushS w.ring rec_ s
    let s := if sent then s else raise 0x3016 p (inc (NETIN_SCAN_REC_DROP p) s)
    let s := histo 15 (logBin w.lost) (unitSignal (bits w.verdict 15 0) v rec_ s)
    let s := if 0 < w.lost then raise 0x3010 p s else s
    let s := if bit fl 1 then raise 0x3011 p s else s
    let s := if bit fl 2 then raise 0x3012 p s else s
    let s := if v = 2 then raise 0x3013 p s else s
    scannerTest p testFail s

/-- Opens a sweep at a packet stamped `t` (R129, R142). -/
def openSweep (p number t : Nat) (s : State) : State :=
  let w : Sweep := { number := number, start := t, epoch := epochAt s 1 t, adapter := fld s (NETIN_SCAN_ADAPTER p) 15 0,
                     timing := liveAt s 1 t (NETIN_SCAN_SWEEP p), verdict := liveAt s 1 t (NETIN_SCAN_VERDICT p),
                     ring := bits (liveAt s 1 t (NETIN_SCAN_RING p)) 23 0 }
  modJig p (fun j => { j with sweep := some w }) s

/-- The times of the points of a packet: from t0 if they can be trusted, else from the receive stamp (R127). -/
def pointBase (s : State) (p t0 tRx lastDt : Nat) (unsync : Bool) : Int × Bool :=
  let corr := toSigned 32 (liveAt s 1 tRx (NETIN_SCAN_TCORR p))
  let timing := liveAt s 1 tRx (NETIN_SCAN_TIMING p)
  let tLast : Int := (t0 + lastDt : Nat) + corr
  if unsync || decide ((tRx : Int) < tLast) || decide (tLast + (bits timing 15 0 * 1000 : Nat) < (tRx : Int)) then
    ((tRx : Int) - (bits timing 31 16 * 1000 + lastDt : Nat), true)
  else ((t0 : Int) + corr, false)

/-- Takes one point of a packet: its time, a crossing it shows, and its way to the Planer (R122, R127, R129, R144). -/
def takePoint (p : Nat) (base : Int) (pt : List Byte) (s : State) : State :=
  let az := leNat ((pt.drop 4).take 2)
  let t := ofSigned 64 (base + (leNat ((pt.drop 8).take 4) : Int))
  let wrap := match (jig s p).lastAz with | some a => decide (az + 0x8000 < a) | none => false
  let pt := (pt.take 14) ++ leBytes 1 (leNat ((pt.drop 14).take 1) / 2 * 2) ++ (pt.drop 15).take 1
  let s := modSweep p (fun w => { w with
    tFirst := some (match w.tFirst with | some f => min f t | none => t), tLast := max w.tLast t,
    obs := if wrap && w.obs.isNone then some t else w.obs, points := w.points + 1 }) s
  { modJig p (fun j => { j with lastAz := some az }) s with ingest := s.ingest ++ [⟨pt, t, p⟩] }

/-- The 16-byte records that follow a packet's header. -/
def pointList : Nat → List Byte → List (List Byte)
  | 0, _ => []
  | n + 1, bs => bs.take 16 :: pointList n (bs.drop 16)

/-- One step of the Galois LFSR of R108. -/
def lfsr (x : Nat) : Nat := if x % 2 = 1 then (x / 2) ^^^ 0x80200003 else x / 2

/-- `n` words of the LFSR as little-endian bytes (R131). -/
def lfsrBytes : Nat → Nat → List Byte
  | 0, _ => []
  | n + 1, x => leBytes 4 x ++ lfsrBytes n (lfsr x)

/-- The 128 bytes of a synthetic block, with bit 0 of each point's flags set (R131). -/
def synthBlock (port number : Nat) : List (List Byte) :=
  (pointList 8 (lfsrBytes 32 ((port * 2 ^ 24) ^^^ number))).map (fun p =>
    p.take 14 ++ leBytes 1 (leNat ((p.drop 14).take 1) / 2 * 2 + 1) ++ p.drop 15)

/-- A packet is one that R121 allows: version, point format, count, length and CRC. -/
def packetOk (bs : List Byte) : Bool :=
  let n := leNat ((bs.drop 2).take 2)
  decide (leNat (bs.take 1) = 1) && decide (leNat ((bs.drop 1).take 1) = 32) && decide (1 ≤ n) && decide (n ≤ 560) &&
    decide (32 + 16 * n ≤ bs.length) && decide (leNat ((bs.drop 24).take 2) = 1) &&
    decide (leNat ((bs.drop 28).take 4) = crc32 (bs.take 28 ++ (bs.drop 32).take (16 * n)))

/-- One generic packet stamped `tRx`: sequence, sweep, and points (R127–R129). -/
def takePacket (p tRx : Nat) (testFail : Bool) (bs : List Byte) (s : State) : State :=
  let n := leNat ((bs.drop 2).take 2)
  let fl := leNat ((bs.drop 6).take 2)
  let number := leNat ((bs.drop 8).take 4)
  let seq := leNat ((bs.drop 12).take 4)
  let d := match (jig s p).expected with | some x => (seq + 2 ^ 32 - x) % 2 ^ 32 | none => 0
  if 1024 ≤ d then inc (NETIN_OUT_OF_ORDER p) s
  else
    let s := incFld (NETIN_PKT_LOST p) 31 0 d (modJig p (fun j => { j with expected := some ((seq + 1) % 2 ^ 32) }) s)
    let new := bit fl 0 || (match (jig s p).sweep with | some w => decide (w.number ≠ number) | none => true)
    let s := if new then openSweep p number tRx (closeSweep p testFail s) else s
    let pts := pointList n (bs.drop 32)
    let (base, suspect) := pointBase s p (leNat ((bs.drop 16).take 8)) tRx
      (leNat (((pts.getLast?).getD []).drop 8 |>.take 4)) (bit fl 2)
    let s := modSweep p (fun w => { w with packets := w.packets + 1, lost := w.lost + d,
                                           scanner := leNat ((bs.drop 4).take 2),
                                           flags := if suspect then w.flags ||| 2 else w.flags }) s
    let s := incFld (NETIN_SCAN_POINTS p) 31 0 n (pts.foldl (fun s pt => takePoint p base pt s) s)
    if bit fl 1 then closeSweep p testFail s else s

/-- Where the scanner payload of a frame begins and how long it is, for the port's encapsulation; none where the frame is no
scanner frame of the port (R121, R122). -/
def scannerPayload (s : State) (p : Nat) (bs : List Byte) (stamp : Nat) : Option (List Byte) :=
  let ctrl := liveAt s 1 stamp (NETIN_SCAN_CTRL p)
  let be2 := fun (o : Nat) => 256 * leNat ((bs.drop o).take 1) + leNat ((bs.drop (o + 1)).take 1)
  let h := if be2 12 = 0x8100 then 18 else 14
  let src := ((bs.drop 6).take 6).foldl (fun a b => 256 * a + b.toNat) 0
  if 8 ≤ p || !bit ctrl 0 || tget p (netTables s stamp).macs ≠ some src then none
  else if bit ctrl 1 then
    if be2 (h - 2) = 0x88B5 then some ((bs.drop h).take (bs.length - 4 - h)) else none
  else
    let ihl := leNat ((bs.drop h).take 1) % 16 * 4
    if be2 (h - 2) = 0x0800 ∧ leNat ((bs.drop h).take 1) / 16 = 4 ∧ leNat ((bs.drop (h + 9)).take 1) = 17 ∧
        be2 (h + ihl + 2) = bits ctrl 31 16 then
      some ((bs.drop (h + ihl + 8)).take (be2 (h + ihl + 4) - 8))
    else none

/-- Kind 0x4 mark: the jig builds the command from a template with t_cross = fire instant + scan_lead_ns, or counts a command
without one; on a port without a link the frame is dropped and counted (R119, R126). -/
def sweepCommand (p param instant : Nat) (s : State) : State :=
  match ((tget p (netTables s s.ridge.ns).adapters).map (·.image.templates)).bind (fun l => l[param]?) with
  | none => inc (NETIN_CMD_MISSED p) s
  | some (off, bs) =>
    let t := (instant + live s (NETIN_SCAN_LEAD p)) % 2 ^ 64
    if !linkUp s p then inc (NETIN_TX_DROP p) s else
    let s := modJig p (fun j => { j with crossings := (j.crossings ++ [t]).drop ((j.crossings ++ [t]).length - 2) }) s
    sendFrame p 7 (bs.take off ++ leBytes 8 t ++ bs.drop (off + 8)) s

/-! ### Vehicle buses (R133–R138) -/

/-- Bytes of a CAN transmit slot or map entry as a number. -/
def bfield (bs : List Byte) (o n : Nat) : Nat := leNat ((bs.drop o).take n)

/-- Puts the 8-byte time of a slot in its data (R138). -/
def slotData (slot : List Byte) (t : Option Nat) (off : Nat) : List Byte :=
  let d := (slot.drop 16).take (bfield slot 8 2)
  match t with
  | none => d
  | some v => d.take off ++ leBytes 8 v ++ d.drop (off + 8)

/-- Queues transmit slot `k` of a channel, with the time in its data (R84, R138). -/
def queueCan (c k : Nat) (data : List Byte) (s : State) : State :=
  { s with net.canQueue := s.net.canQueue ++ [(c, k, data)] }

/-- Kind 0x5 mark: the slot's message is queued with the fire instant inserted as its time_mode says (R138). -/
def canMark (c k instant : Nat) (s : State) : State :=
  match tget (16 * c + k) (netTables s s.ridge.ns).canSlots with
  | none => s
  | some sl => queueCan c k (slotData sl (if bfield sl 2 1 = 0 then none else some instant) (bfield sl 3 1)) s

/-- Fault confinement of a channel: tec and rec give its state (R133). -/
def canState (c : Nat) (s : State) : State :=
  let st := fld s (NETIN_CAN_STATUS c) 1 0
  let tec := fld s (NETIN_CAN_STATUS c) 15 7
  let n := if 256 ≤ tec then 2 else if 128 ≤ tec ∨ 128 ≤ fld s (NETIN_CAN_STATUS c) 23 16 then 1 else 0
  if st = 3 ∨ st = 2 ∨ st = n then s
  else
    let s := setFld (NETIN_CAN_STATUS c) 1 0 n s
    if n = 2 then raise 0x3030 c (inc (NETIN_BUSOFF c) s) else if n = 1 then raise 0x3031 c s else s

/-- A field of a frame: little-endian upward from its start bit, or big-endian from its most significant bit (R134). -/
def beBits (data : List Byte) : Nat → Nat → Nat → Nat → Nat
  | 0, _, _, acc => acc
  | n + 1, byte, b, acc =>
    beBits data n (if b = 0 then byte + 1 else byte) (if b = 0 then 7 else b - 1)
      (2 * acc + b2n (bit (bfield data byte 1) b))

def rawField (e data : List Byte) : Nat :=
  let st := bfield e 8 2
  let len := bfield e 10 1
  if bit (bfield e 11 1) 0 then beBits data len (st / 8) (st % 8) 0 else leNat data / 2 ^ st % 2 ^ len

/-- The field reaches beyond the frame's data: its value is not stated. -/
def fieldOutside (e data : List Byte) : Bool :=
  let st := bfield e 8 2
  let len := bfield e 10 1
  if bit (bfield e 11 1) 0 then decide (8 * data.length < st / 8 * 8 + (7 - st % 8) + len) else decide (8 * data.length < st + len)

/-- CRC-8 with polynomial 0x1D, initial value 0xFF and final XOR 0xFF (R134). -/
def crc8 (l : List Byte) : Nat :=
  (l.foldl (fun c b => (List.range 8).foldl (fun c _ => if 128 ≤ c then (c * 2 % 256) ^^^ 0x1D else c * 2 % 256) (c ^^^ b.toNat)) 0xFF) ^^^ 0xFF

/-- The 64-byte signal record (R136). -/
def signalRecord (kind index flags channel entry epoch tMeas tStamp : Nat) (values : List Int) : List Byte :=
  leBytes 1 1 ++ leBytes 1 kind ++ leBytes 1 index ++ leBytes 1 flags ++ leBytes 1 channel ++ leBytes 1 entry ++
    leBytes 2 epoch ++ leBytes 8 tMeas ++ leBytes 8 tStamp ++ values.flatMap (fun v => leBytes 4 (ofSigned 32 v)) ++
    List.replicate (40 - 4 * values.length) 0

/-- A sample's record goes to the signal ring, and the peg follows it (R136). -/
def pushSignal (rec_ : List Byte) (s : State) : State :=
  let (s, sent) := unitPushS (bits (live s NETIN_SIGNAL_RING) 23 0) rec_ s
  if sent then unitPegAdd (bits (live s NETIN_SIGNAL_PEG) 15 0) 0 s else inc NETIN_SIG_DROP s

/-- Keeps a sample for the cross-check (R141). -/
def keepImu (x : ImuSample) (s : State) : State :=
  { s with net.imu := (s.net.imu.filter (fun y => decide (x.t < y.t + 3000000000))) ++ [x] }

/-- One match of a received frame with map entry `i`, stamped `t` (R134–R137). -/
def takeSignal (i : Nat) (e data : List Byte) (t : Nat) (s : State) : State :=
  let enc := bfield e 11 1
  let crcAt := bfield e 23 1
  if bit enc 3 && (decide (data.length ≤ crcAt) || decide (crc8 (data.take crcAt ++ data.drop (crcAt + 1)) ≠ bfield data crcAt 1)) then
    raise 0x3042 i (inc NETIN_SIG_CRC_ERR s)
  else
    let (raw, s) := if fieldOutside e data then (freeNat s % 2 ^ bfield e 10 1, takeFree 1 s) else (rawField e data, s)
    let r : Int := if bit enc 1 then toSigned (max 1 (bfield e 10 1)) raw else raw
    let v := (r * toSigned 32 (bfield e 12 4) + 128) / 256 + toSigned 32 (bfield e 16 4)
    let value := satSigned 32 v
    let st := tgetD i {} s.net.sig
    let clen := bfield e 22 1
    let (cnt, s) := if bit enc 2 && decide (8 * data.length < bfield e 20 2 + clen) then (freeNat s % 2 ^ clen, takeFree 1 s)
      else (leNat data / 2 ^ bfield e 20 2 % 2 ^ clen, s)
    let cerr := bit enc 2 && (match st.counter with | some c => decide (cnt ≠ (c + 1) % 2 ^ clen) | none => false)
    let stale := bit (rd s (NETIN_SIG_STALE (i / 32))) (i % 32)
    let tMeas := ofSigned 64 ((t : Int) - bfield e 24 4)
    let s := { s with net.sig := tput i ⟨some cnt, s.ridge.ns⟩ s.net.sig }
    let s := if cerr then raise 0x3040 i (inc NETIN_SIG_COUNTER_ERR s) else s
    let s := if v ≠ value then inc NETIN_SIG_SATURATED s else s
    let s := clearMask (NETIN_SIG_STALE (i / 32)) (2 ^ (i % 32)) s
    let kind := bfield e 2 1
    let s := if kind = 4 ∨ kind = 5 then keepImu ⟨tMeas, kind - 2, bfield e 3 1, value⟩ s else s
    pushSignal (signalRecord kind (bfield e 3 1) (b2n cerr + 2 * b2n (decide (v ≠ value)) + 8 * b2n stale) (bfield e 1 1 % 4) i
      (epochAt s 1 t) tMeas t [value, 0, 0]) s

/-- A kind of the signal table that an entry may name (R134). -/
def signalKindOk (k : Nat) : Bool := (1 ≤ k && k ≤ 6) || k = 0xF

end Sys2Proof.Machine
end

