-- ==== Sys2Proof/Machine/OutOps.lean ====
section
/-! DEFINITION. Output streams: the sources, the metadata and the encodings of a message, its segments, the states of a stream, and
the latch of its configuration (R397–R411, R414). -/

namespace Sys2Proof.Machine
open Sys2Proof

def stream (s : State) (k : Nat) : Stream := tgetD k {} s.out.streams
def putStream (k : Nat) (x : Stream) (s : State) : State := { s with out.streams := tput k x s.out.streams }
def modStream (k : Nat) (f : Stream → Stream) (s : State) : State := putStream k (f (stream s k)) s

/-- The configuration of stream `k` as read through `word`. -/
def streamCfgBy (word : Reg → Nat) (x : Stream) (hdr : WireHdr) (k : Nat) : StreamCfg :=
  { ctrl := word (NETIN_OUT_CTRL k), src := word (NETIN_OUT_SRC k), handle := word (NETIN_OUT_HANDLE k),
    period := word (NETIN_OUT_PERIOD k), base := word (NETIN_OUT_BASE_LO k) + 2 ^ 32 * word (NETIN_OUT_BASE_HI k),
    deadline := word (NETIN_OUT_DEADLINE k), launch := word (NETIN_OUT_LAUNCH k), chan := word (NETIN_OUT_CHAN k),
    area := word (NETIN_OUT_AREA_LO k) + 2 ^ 32 * word (NETIN_OUT_AREA_HI k), areaKib := word (NETIN_OUT_AREA_SIZE k),
    hdr := hdr, dom := x.owner.getD 0 }

/-- The configuration in force. -/
def streamCfg (s : State) (k : Nat) : StreamCfg := streamCfgBy (live s) (stream s k) (stream s k).hdr k

def scKind (c : StreamCfg) : Nat := bits c.ctrl 3 1
def scSafety (c : StreamCfg) : Bool := bit c.ctrl 4
def scTimed (c : StreamCfg) : Bool := bit c.ctrl 5
def scDest (c : StreamCfg) : Nat := if bits c.ctrl 7 6 = 3 then 0 else bits c.ctrl 7 6
def scEth (c : StreamCfg) : Bool := scDest c ≠ 1
def scPcie (c : StreamCfg) : Bool := scDest c ≠ 0
def scPort (c : StreamCfg) : Nat := bits c.ctrl 11 8
def scQueue (c : StreamCfg) : Nat := bits c.ctrl 14 12
def scSeg (c : StreamCfg) : Nat := [1408, 4096, 8192, 1408].getD (bits c.ctrl 18 17) 1408
def scRecover (c : StreamCfg) : Nat := max 1 (bits c.ctrl 31 24)
def scHalf (c : StreamCfg) : Nat := c.areaKib * 512
def scSrcPeg (c : StreamCfg) : Nat := bits c.src 15 0
def scDonePeg (c : StreamCfg) : Nat := bits c.src 31 16

/-- The deadline D_k of window `k` (R409). -/
def windowDue (c : StreamCfg) (k : Int) : Int := c.base + k * c.period + c.deadline

/-- The window of a time of validity: the nearest E_k, a tie to the later (R409). -/
def windowFor (c : StreamCfg) (tov : Nat) : Int := (2 * ((tov : Int) - c.base) + c.period) / (2 * (max 1 c.period : Nat))

/-! ### States and misses (R410, R411) -/

/-- A stream enters a state with a run; a return to VALID is an event (R410, R416). -/
def enterStream (k st run : Nat) (s : State) : State :=
  let s := if st = 1 ∧ streamState s k ≠ 1 then raise 0x3062 k s else s
  setFld (NETIN_OUT_STATUS k) 15 8 (min 255 run) (setFld (NETIN_OUT_STATUS k) 1 0 st s)

/-- A miss: counted, the stream INVALID, or at run 0 where only its verdict failed it while RECOVERING; one of a stream with safety
set is reported to Kingpost. `cause` is 1 for the deadline and 2 for a verdict (R409–R411). -/
def missWindow (k cause : Nat) (safety verdictOnly : Bool) (s : State) : State :=
  let s := raise 0x3060 k (inc (NETIN_OUT_MISS k) s)
  let s := if streamState s k = 0 then s
    else if streamState s k = 3 && verdictOnly then enterStream k 3 0 s else enterStream k 2 0 s
  if safety then faultX 19 cause s else s

/-- A window is met (R410). -/
def meetWindow (k recover : Nat) (s : State) : State :=
  match streamState s k with
  | 2 => enterStream k 3 1 s
  | 3 =>
    let run := fld s (NETIN_OUT_STATUS k) 15 8 + 1
    updatePair (enterStream k (if recover ≤ run then 1 else 3) run s)
  | _ => s

/-- A message is counted as dropped (R400, R408). -/
def dropMessage (k : Nat) (s : State) : State := incFld (NETIN_OUT_DROP k) 15 0 1 s

/-! ### Sources (R398, R401, R402) -/

/-- The bytes of a read by a domain; those of a refused line, which arrives poisoned, are not stated (R483). -/
def fencedBytes (s : State) (tag a n : Nat) : List Byte :=
  if admitAll s tag a n false then readBytes s a n
  else (List.range n).map (fun i => if admitLine s tag ((a + i) / 64 * 64) false then memGet s (a + i)
    else (Config.unstated 483 [((a + i : Nat) : Int)]).setWidth 8)

/-- The bits of the degraded flags that source flags set: `m` gives the bit of each, 16 for none (R402). -/
def mapFlags (m : List Nat) (flags : Nat) : Nat :=
  (List.range m.length).foldl (fun acc i => if bit flags i && decide (m.getD i 16 < 16) then acc ||| 2 ^ m.getD i 16 else acc) 0

def raftFlagMap : List Nat := [3, 1, 2, 0, 1, 1, 5, 4, 4, 6, 11, 11]
def trackFlagMap : List Nat := [1, 0, 1, 3, 13, 13, 10, 13, 6, 14]
def cameraFlagMap : List Nat := [0, 0, 1, 0, 14, 1, 0, 1, 1, 16, 16, 0]
def voxelFlagMap : List Nat := [3, 2, 5, 4, 4, 1, 14, 14]

/-- The difference of a time and an earlier one, saturating at 32 bits; 0 where the second is not earlier (R401). -/
def ageOf (t old : Nat) : Nat := min 0xFFFFFFFF (t - old)

/-- What a capture finds: the ranges that it reads, and the message, if the source can be read; a sparse range beyond the grid's
channels is told apart. -/
structure SourceRead where
  reads : List (Nat × Nat)
  msg : Option SourceMsg := none
  chanError : Bool := false

/-- The sparse encoding of a grid frame (R404). -/
def sparseGrid (c : StreamCfg) (f : List Byte) : List Byte :=
  let first := bits c.chan 7 0
  let count := bits c.chan 16 8
  let chans := fieldU f 46 2
  let w := fmtBits (fieldU f 1 1) / 8
  let pad := (4 - count * w % 4) % 4
  let cells := (List.range (fieldU f 40 2 * fieldU f 42 2)).filter (fun i => fieldU f (fieldU f 140 4 + 8 * i + 7) 1 % 4 ≠ 0)
  f.take 256 ++ leBytes 2 first ++ leBytes 2 count ++ leBytes 4 cells.length ++ leBytes 4 (12 + count * w + pad) ++ leBytes 4 0 ++
    cells.flatMap (fun i => leBytes 4 i ++ (f.drop (fieldU f 140 4 + 8 * i)).take 8 ++
      (f.drop (fieldU f 136 4 + (i * chans + first) * w)).take (count * w) ++ List.replicate pad 0)

/-- A frame at the base of the handle's tensor: its header is read first, and a frame that says it is longer than the tensor cannot be
read (R398, R399, notes/assumptions/60.md). -/
def readFrame (s : State) (c : StreamCfg) (t : Nat × Nat) (header : Nat) (size : List Byte → Nat)
    (make : List Byte → Bool → SourceRead) : SourceRead :=
  let a := t.1
  let h := fencedBytes s c.dom a header
  if t.2 + 1 < a + header || fencedPoison s c.dom a header || decide (fieldU h 0 1 ≠ 1) then ⟨[(a, header)], none, false⟩
  else
    let n := size h
    if t.2 + 1 < a + n || n < header then ⟨[(a, header)], none, false⟩
    else
      let r := make (fencedBytes s c.dom a n) (fencedPoison s c.dom (a + header) (n - header))
      { r with reads := [(a, n)] }

/-- What a capture of stream `k` reads (R398, R399, R401, R404, R405). -/
def readSource (s : State) (k : Nat) (c : StreamCfg) : SourceRead :=
  match (tensorOf s c.dom c.handle).bind (fun t => extentFor s c.dom t.bytes 0) with
  | none => ⟨[], none, false⟩
  | some e =>
    let rec_ := (stream s k).record
    match scKind c with
    | 1 => readFrame s c e 256 (fun h => fieldU h 144 4) (fun f p =>
        let cells := fieldU f 40 2 * fieldU f 42 2
        let chans := fieldU f 46 2
        if bit c.ctrl 16 && (decide (f.length < fieldU f 140 4 + 8 * cells) ||
            decide (f.length < fieldU f 136 4 + cells * chans * (fmtBits (fieldU f 1 1) / 8))) then ⟨[], none, false⟩
        else if bit c.ctrl 16 && decide (chans < bits c.chan 7 0 + bits c.chan 16 8) then ⟨[], none, true⟩
        else ⟨[], some ⟨fieldU f 8 8, fieldU f 16 4, fieldU f 20 2, fieldU f 22 1, mapFlags raftFlagMap (fieldU f 2 2),
          if bit c.ctrl 16 then sparseGrid c f else f, p⟩, false⟩)
    | 2 => readFrame s c e 128 (fun h => 128 + 128 * fieldU h 22 2) (fun f p =>
        ⟨[], some ⟨fieldU f 8 8, fieldU f 16 4, fieldU f 20 2, fieldU f 1 1, mapFlags trackFlagMap (fieldU f 2 2), f, p⟩, false⟩)
    | 3 =>
      let n := bits c.chan 3 0
      let tfs := fieldU rec_ 32 8
      let rows := bits (liveAt s 0 tfs (CAMIN_HEIGHT n)) 13 0
      let stride := bits (liveAt s 0 tfs (CAMIN_LINE_STRIDE n)) 15 0
      let a := e.1 + fieldU rec_ 56 1 * (stride * (rows + 1))
      let len := stride * (rows + fieldU rec_ 64 1)
      if rec_.length < 65 || decide (fieldU rec_ 0 1 ≠ 1) || decide (fieldU rec_ 1 1 ≠ n) || e.2 + 1 < a + len then ⟨[], none, false⟩
      else ⟨[(a, len)], some ⟨fieldU rec_ 24 8, ageOf (fieldU rec_ 24 8) (fieldU rec_ 16 8), fieldU rec_ 48 2, fieldU rec_ 50 1,
        mapFlags cameraFlagMap (fieldU rec_ 2 2), rec_.take 64 ++ fencedBytes s c.dom a len, fencedPoison s c.dom a len⟩, false⟩
    | 4 =>
      let stride := pdOutStride s.plan.live
      let a := e.1 + fieldU rec_ 1 1 * stride
      let len := 64 + 32 * fieldU rec_ 32 4
      if rec_.length ≠ 64 || decide (fieldU rec_ 0 1 ≠ 1) || e.2 + 1 < a + len || fencedPoison s c.dom a 64 ||
          decide (fieldU (fencedBytes s c.dom a 1) 0 1 ≠ 1) then ⟨if rec_.length = 64 then [(a, 64)] else [], none, false⟩
      else ⟨[(a, len)], some ⟨fieldU rec_ 8 8, ageOf (fieldU rec_ 8 8) (fieldU rec_ 16 8), fieldU rec_ 44 2, fieldU rec_ 50 1,
        mapFlags voxelFlagMap (fieldU rec_ 2 2), fencedBytes s c.dom a len, fencedPoison s c.dom a len⟩, false⟩
    | _ => readFrame s c e 64 (fun h => 64 + fieldU h 24 4) (fun f p =>
        ⟨[], some ⟨fieldU f 8 8, ageOf (fieldU f 8 8) (fieldU f 16 8), fieldU f 2 2, min 2 (fieldU f 1 1), fieldU f 4 2, f.drop 64, p⟩,
          false⟩)

/-- The device conditions in the degraded flags (R402). -/
def deviceFlags (s : State) (mix poison : Bool) : Nat :=
  let st := fld s RIDGE_STATUS 2 0
  let src := fld s RIDGE_CTRL 1 0
  64 * b2n mix + 128 * b2n (decide (st = 4)) + 256 * b2n ((src = 1 || src = 2) && decide (st ≠ 2)) +
    512 * b2n (bit (rd s NETIN_XCHK_STATUS) 0) + 2048 * b2n poison

/-- The message that a source gives (R401, R402). -/
def makeMessage (s : State) (c : StreamCfg) (m : SourceMsg) : Message :=
  let e := unitEpoch s 8
  { cfg := c, tov := m.tov, oldestAge := m.age, epoch := if epochLater e m.epoch then e else m.epoch,
    degraded := m.flags ||| deviceFlags s (decide (e ≠ m.epoch)) m.poison, verdict := min 2 m.verdict, bytes := m.bytes }

/-! ### Segments (R403, R406, R407) -/

def segmentCount (m : Message) : Nat := max 1 (ceilDiv m.bytes.length (scSeg m.cfg))

/-- The launch time that the configuration gives, 0 for none (R406). -/
def launchTime (m : Message) : Nat := if scTimed m.cfg then m.tov + m.cfg.launch else 0

/-- The valid bit of what begins to leave now (R407). -/
def validNow (s : State) (k : Nat) (m : Message) : Bool := decide (m.verdict ≠ 2) && decide (streamState s k = 1) && !inSafeState s

/-- The 64-byte segment header (R403). -/
def segmentHeader (s : State) (k : Nat) (m : Message) (seg count off len : Nat) : List Byte :=
  let h := leBytes 1 1 ++ leBytes 1 (scKind m.cfg) ++ leBytes 1 k ++ leBytes 1 (b2n (validNow s k m)) ++ leBytes 4 m.number ++
    leBytes 8 m.tov ++ leBytes 4 m.oldestAge ++ leBytes 2 m.epoch ++ leBytes 2 m.degraded ++ leBytes 2 seg ++ leBytes 2 count ++
    leBytes 4 off ++ leBytes 4 m.bytes.length ++ leBytes 2 len ++ leBytes 1 m.verdict ++ leBytes 1 0 ++ leBytes 8 (launchTime m) ++
    leBytes 4 (crc32 m.bytes)
  h ++ leBytes 4 (crc32 h) ++ leBytes 8 0

/-- `n` bytes of a number, most significant first, as the network orders them. -/
def beBytes (n v : Nat) : List Byte := (leBytes n v).reverse

/-- The ones' complement sum of an IPv4 header (IETF RFC 791). -/
def ipChecksum (l : List Byte) : Nat :=
  let t := (List.range (l.length / 2)).foldl (fun a i => a + 256 * fieldU l (2 * i) 1 + fieldU l (2 * i + 1) 1) 0
  let t := t % 65536 + t / 65536
  65535 - (t % 65536 + t / 65536)

/-- The Ethernet frame of segment `seg`: header, tag where pcp_vid is not 0, encapsulation, segment header, payload and FCS. The IPv4
identification and fragment word and the UDP checksum are not stated (R403, notes/assumptions/61.md). -/
def segmentFrame (s : State) (k : Nat) (m : Message) (seg : Nat) : List Byte :=
  let c := m.cfg
  let h := c.hdr
  let off := seg * scSeg c
  let part := (m.bytes.drop off).take (scSeg c)
  let payload := segmentHeader s k m seg (segmentCount m) off part.length ++ part
  let tag := if h.pcpVid = 0 then [] else beBytes 2 0x8100 ++ beBytes 2 h.pcpVid
  let body := if bit c.ctrl 15 then beBytes 2 0x88B6 ++ payload
    else
      let open_ := fun (i : Int) => (Config.unstated 403 [(k : Int), (m.number : Int), (seg : Int), i]).toNat
      let ip := fun (sum : Nat) => beBytes 1 0x45 ++ beBytes 1 (4 * h.dscp) ++ beBytes 2 (28 + payload.length) ++ beBytes 4 (open_ 0) ++
        beBytes 1 h.ttl ++ beBytes 1 17 ++ beBytes 2 sum ++ beBytes 4 h.ipSrc ++ beBytes 4 h.ipDst
      beBytes 2 0x0800 ++ ip (ipChecksum (ip 0)) ++ beBytes 2 h.udpSrc ++ beBytes 2 h.udpDst ++ beBytes 2 (8 + payload.length) ++
        beBytes 2 (open_ 1) ++ payload
  let frame := beBytes 6 h.dst ++ beBytes 6 h.src ++ tag ++ body
  frame ++ leBytes 4 (crc32 frame)

/-- The time from a frame's start to its last bit at the balls, in ns. -/
def lastBitTime (s : State) (p bytes : Nat) : Nat := ceilDiv ((bytes + 8) * psPerByte s p) 1000

/-- A message that has nothing more to leave is complete, and counted, unless part of it was dropped (R409, R416). -/
def settleLeaving (k : Nat) (s : State) : State :=
  let x := stream s k
  match x.leaving with
  | none => s
  | some m =>
    if (scEth m.cfg && !m.ethDone) || (scPcie m.cfg && !m.pcieDone) then s
    else if m.broken then putStream k { x with leaving := none } s
    else inc (NETIN_OUT_SENT k) (putStream k { x with
      leaving := none, left := x.left ++ [(m.due, decide (m.verdict = 2))]
      slacks := if m.verdict = 2 then x.slacks else x.slacks ++ [(m.due, m.due - m.leftAt)] } s)

/-- The message that begins or goes on to leave (R400). -/
def outgoing (x : Stream) : Option Message := match x.leaving with | some m => some m | none => x.waiting

/-- Puts the outgoing message back, as leaving. -/
def putOutgoing (k : Nat) (m : Message) (s : State) : State :=
  modStream k (fun x => { x with leaving := some m, waiting := if x.leaving.isSome then x.waiting else none }) s

/-- One segment is done with, left or dropped; the first that is dropped loses the message (R406, R416). -/
def segmentDone (k : Nat) (m : Message) (dropped : Bool) (s : State) : State :=
  let lost := dropped && !m.broken
  let m := { m with sent := m.sent + 1, broken := m.broken || dropped, held := false, ethDone := decide (segmentCount m ≤ m.sent + 1) }
  settleLeaving k (putOutgoing k m (if lost then raise 0x3061 k s else s))

/-! ### Configuration (R397, R414) -/

/-- The first reason for which a configuration is refused, 0 for none (R414). -/
def streamError (s : State) (c : StreamCfg) : Nat :=
  let p := scPort c
  let mayPeg := fun (g : Nat) (f : State → Nat → Nat → Bool) => decide (g = 0xFFFF) || (g < 8192 && f s c.dom g)
  if [0, 6, 7].contains (scKind c) then 1
  else if 13 < p || (scTimed c && (12 ≤ p || !bit (live s (NETIN_LAUNCH_CFG p)) (scQueue c))) then 2
  else if (tensorOf s c.dom c.handle).isNone then 3
  else if !mayPeg (scSrcPeg c) mayWait || !mayPeg (scDonePeg c) mayAdd then 4
  else if decide (c.area % 4096 ≠ 0) || decide (c.areaKib = 0) || !holdsRange s c.dom c.area (c.areaKib * 1024) false true then 5
  else if c.period < 1000000 || 1000000000 < c.period || c.deadline < 1 || c.period < c.deadline || c.deadline ≤ c.launch ||
      bits c.chan 16 8 < 1 || 256 < bits c.chan 16 8 then 6
  else 0

/-- A stream is disabled: OFF (R410). -/
def disableStream (k : Nat) (s : State) : State :=
  updatePair (setFld (NETIN_OUT_STATUS k) 15 8 0 (setFld (NETIN_OUT_STATUS k) 1 0 0
    (modStream k (fun x => { x with enabled := false, requested := false, again := false }) s)))

/-- Stream `k` takes up the configuration in force: checked, enabled at state RECOVERING, or disabled (R397, R409, R410, R414). -/
def latchStream (k : Nat) (s : State) : State :=
  let c := streamCfg s k
  let x := stream s k
  let err := if bit c.ctrl 0 then streamError s c else 0
  let s := setFld (NETIN_OUT_STATUS k) 7 4 err s
  if !bit c.ctrl 0 || decide (err ≠ 0) then (if x.enabled then disableStream k s else s)
  else
    let next := ((s.ridge.ns : Int) - c.base - c.deadline) / (max 1 c.period : Nat) + 1
    let s := putStream k { x with enabled := true, nextWindow := next } s
    if x.enabled then s
    else updatePair (enterStream k 3 0
      (modStream k (fun x => { x with nextMsg := 0, lastTov := none, requested := false, again := false, left := [], slacks := [], missed := [] }) s))

/-- Messages of a stream that have not left are discarded and counted (R443, R487). -/
def discardQueued (k : Nat) (s : State) : State :=
  let x := stream s k
  let n := b2n x.copying.isSome + b2n x.waiting.isSome + b2n x.leaving.isSome
  let s := putStream k { x with copying := none, waiting := none, leaving := none } s
  if n = 0 then s else raise 0x3061 k (incFld (NETIN_OUT_DROP k) 15 0 n s)

end Sys2Proof.Machine
end

