-- ==== Sys2Proof/Machine/FenceOps.lean ====
section
/-! DEFINITION. Closing, quiescing and resuming domains, and the check of signed containers (R485–R488, R495, R496). -/

namespace Sys2Proof.Machine
open Sys2Proof

/-- Closure: every checkpoint refuses the domain's lines from now on (R486). -/
def closeDomain (d : Nat) (kp : Bool) (s : State) : State :=
  let s := if closedDomain s d then s else clearMask (FENCE_DOMAIN_STATE d) 4 s
  setMask (FENCE_DOMAIN_STATE d) (1 + 8 * b2n kp) s

/-- What a quiesce does to the objects of a domain: graphs are aborted, its Plumb mark cycles end or are dropped, and the messages
its streams have queued are discarded (R285, R487). -/
def stopObjects (d : Nat) (s : State) : State :=
  let s := abortDomain d s
  let s := { s with plumb.queue := s.plumb.queue.filter (fun m => decide (m.cfg.owner ≠ d)) }
  let s := if s.plumb.run.any (fun r => r.inst.isNone && decide (r.owner = d)) then
      setFld PLUMB_STATE 7 0 0 { s with plumb.run := none }
    else s
  (s.out.streams.filter (fun p => p.2.owner.getD 0 = d)).foldl (fun s p => discardQueued p.1 s) s

/-- Quiesce: closure, frozen pegs, refused commands, and the domain's objects stopped (R487). -/
def quiesceDomain (d : Nat) (kp : Bool) (s : State) : State :=
  let fresh := !quiescedDomain s d
  let s := if fresh then clearMask (FENCE_DOMAIN_STATE d) 4 s else s
  let s := setMask (FENCE_DOMAIN_STATE d) (3 + 8 * b2n kp) s
  if fresh then stopObjects d (notice d 16 s) else s

/-- None of the domain's lines is in flight any more: settled, with the event of its closure or quiesce (R486, R487). -/
def settleDomain (d : Nat) (s : State) : State :=
  if bit (rd s (FENCE_DOMAIN_STATE d)) 2 then s
  else raise (if quiescedDomain s d then 0xA003 else 0xA002) d (setMask (FENCE_DOMAIN_STATE d) 4 s)

/-- A resume lifts closure and quiesce; the domain's objects stay as they are, once those of a domain that
Kingpost quiesced are stopped (R488, R544). -/
def resumeDomain (d : Nat) (s : State) : State :=
  if !closedDomain s d then s
  else
    let was := quiescedDomain s d
    let s := if s.kp.quiesceDue.contains d then
        stopObjects d (notice d 16 { s with kp.quiesceDue := lremove d s.kp.quiesceDue })
      else s
    let s := raise 0xA004 d (clearMask (FENCE_DOMAIN_STATE d) 7 s)
    if was then notice d 16 s else s

/-- The parts of a container's header (R495). -/
def boxPart (c : List Byte) (o n : Nat) : Nat := fieldU c o n

/-- The first check of R496 that a container fails: its kind as the use requires, and the bytes that hold it. -/
def boxStatus (s : State) (kind : Nat) (c : List Byte) : Option Nat :=
  let n := boxPart c 13 1
  let body := boxPart c 48 4
  let slot := boxPart c 6 1
  let zero := fun (o k : Nat) => decide (fieldU c o k = 0)
  let inside := (List.range n).all (fun i =>
    decide (256 ≤ boxPart c (256 + 64 * i + 4) 4) &&
      decide (boxPart c (256 + 64 * i + 4) 4 + boxPart c (256 + 64 * i + 8) 4 ≤ 256 + body) &&
      zero (256 + 64 * i + 2) 2 && zero (256 + 64 * i + 60) 4)
  if c.length < 256 || c.length < 256 + body || decide (boxPart c 0 4 ≠ 0xB01D7240) || decide (boxPart c 4 1 ≠ 1) ||
      decide (boxPart c 5 1 ≠ kind) || !zero 52 12 || !zero 208 48 || decide (8 ≤ boxPart c 9 1) || decide (32 < n) ||
      decide (body < 64 * n) || !inside then some 0x1202
  else if boxPart c 10 2 ≠ 0x7240 ∨ boxPart c 12 1 ≠ 0xB0 then some 0x1203
  else if 2 < slot ∨ bit s.sec.fuses.keyRevoke slot then some 0x1204
  else if !Config.signatureOk slot (c.take 208) then some 0x1205
  else if !Config.hashesOk c then some 0x1206
  else if kind = 1 ∧ (boxPart c 7 1 < s.sec.fuses.secCounter ∨ boxPart c 7 1 < boxPart c 8 1) then some 0x1207
  else if (kind = 3 ∨ kind = 4) ∧ !(List.range 4).all (fun i => decide (boxPart c (16 + 4 * i) 4 = (Config.uid i).toNat)) then some 0x1208
  else if kind = 4 ∧ !(List.range 4).all (fun i =>
      decide (boxPart c (32 + 4 * i) 4 = (Config.serviceNonce s.sec.nonces i).toNat)) then some 0x1208
  else none

/-- The security counter rises to the running image's floor, and the key slots that it revokes are revoked (R500). -/
def raiseCounter (s : State) : State :=
  let n := max s.sec.fuses.secCounter (fld s KINGPOST_BOOT_STATE 31 24)
  let s := { s with sec.raised := true, sec.fuses.secCounter := n, sec.fuses.keyRevoke := s.sec.fuses.keyRevoke ||| s.sec.revoke }
  raise 0xA011 n (setFld KINGPOST_BOOT_STATE 15 8 n s)

/-- The user namespace and the model store are unlocked (R493). -/
def storageUnlocked (s : State) : Bool := bit (rd s FENCE_STATUS) 0

/-- Bytes of device memory that function `f` names as a container: what cannot be read is refused as the first check of R496 refuses
(R632). -/
def boxAt (s : State) (f kind addr n : Nat) : Nat ⊕ List Byte :=
  if !readable s f addr n then .inl 0x1202
  else match boxStatus s kind (readBytes s addr n) with
    | some c => .inl c
    | none => .inr (readBytes s addr n)

end Sys2Proof.Machine
end

