-- ==== Sys2Proof/Machine/Network.lean ====
section
/-! DEFINITION. Commands of the switch, its gates, the scanner ports, the CAN channels and the reference IMU (chapter 4). -/

namespace Sys2Proof.Machine
open Sys2Proof

/-- GCL_CONFIG_CHANGE: a write of GCL_CTRL with config_change 1; ignored and counted while a change is pending (R120). -/
def execGclConfigChange (port value : Nat) (s : State) : Out :=
  if 12 ≤ port || !bit value 1 then .next s
  else if bit (rd s (NETIN_GCL_STATUS port)) 0 then .next (ignoredWrite 0 (NETIN_GCL_CTRL port).addr false allBits s)
  else .next (configChange port (acceptWrite (NETIN_GCL_CTRL port).addr (putBits value 24 16 (clamp 1 256 (bits value 24 16))) [] s))

/-- GCL_CONFIG_APPLY: at the base time the administrative list becomes operational (R81). -/
def execGclConfigApply (port : Nat) (s : State) : Out :=
  match (gclOf s port).applyAt with
  | none => .next s
  | some t =>
    if ridgeNow s < t then .next s
    else
      let l := fitCycle (gclCycle s port) (adminList s port)
      let g : Gcl := { on := bit (rd s (NETIN_GCL_CTRL port)) 0, entries := l, cycle := gclCycle s port,
                       ext := rd s (NETIN_GCL_EXT_NS port), cycleStart := t, entry := 0,
                       entryEnd := t + (l.headD (0xFF, 0)).2, applyAt := none }
      .next (showGates port (putGcl port g (setFld (NETIN_GCL_CTRL port) 1 1 0 (setFld (NETIN_GCL_STATUS port) 0 0 0 s))))

/-- GATE_INTERVAL_END: the next entry's states take over; after the last entry the next cycle begins, unless the new list's base
time lies within the extension of the cycle (R81). -/
def execGateIntervalEnd (port : Nat) (s : State) : Out :=
  let g := gclOf s port
  if !g.on || decide (ridgeNow s < g.entryEnd) then .next s
  else
    let dur := fun (e : Nat) => ((g.entries[e]?).getD (0xFF, 0)).2
    if g.entry + 1 < g.entries.length then
      .next (showGates port (putGcl port { g with entry := g.entry + 1, entryEnd := g.entryEnd + dur (g.entry + 1) } s))
    else if g.applyAt.any (· ≤ gclHold g) then .next s
    else
      let start := g.cycleStart + g.cycle
      .next (showGates port (putGcl port { g with cycleStart := start, entry := 0, entryEnd := start + dur 0 } s))

/-- A higher class of the port has a frame that may start (R118). -/
def higherReady (s : State) (p q : Nat) : Bool :=
  (List.range 8).any (fun c => decide (q < c) && (match queueAt s p c with
    | [] => false
    | f :: _ => (match f.launch with | some t => decide (t ≤ s.ridge.ns) | none => true) && mayStart s p c f.bytes.length))

/-- EGRESS_FRAME_START: the head frame of a queue leaves once its launch time has passed, its gate is open and the port is idle;
past the queue's tolerance it is dropped, and one that its gate would cut is held (R81, R82, R118). -/
def execEgressFrameStart (port queue : Nat) (s : State) : Out :=
  match queueAt s port queue with
  | [] => .next s
  | f :: rest =>
    let tol := bits (live s (NETIN_LAUNCH_TOL port queue)) 9 0 * 1000
    let early := match f.launch with | some t => decide (s.ridge.ns < t) | none => false
    let stale := match f.launch with
      | some t => bit (live s (NETIN_LAUNCH_CFG port)) queue && decide (tol ≠ 0) && decide (t + tol < s.ridge.ns)
      | none => false
    if 14 ≤ port || early then .next s
    else if stale then .next (inc (NETIN_LAUNCH_DROP port) (setQueue port queue rest s))
    else if !mayStart s port queue f.bytes.length then
      let cut := decide (tgetD port 0 s.net.busy ≤ s.ridge.ns) && linkUp s port && (gateWindow s port queue).isSome
      if cut && !f.held then .next (inc (NETIN_GATE_HOLD port) (setQueue port queue ({ f with held := true } :: rest) s))
      else .next s
    else if higherReady s port queue then .next s
    else .next (sendFrame port queue f.bytes (setQueue port queue rest s))

/-- CAN_TX_START: a queued frame starts on the bus and is stamped; with time_mode 2 the next slot follows with the stamp
(R84, R133, R138, R413). -/
def execCanTxStart (channel slot stamp : Nat) (s : State) : Out :=
  if 4 ≤ channel || fld s (NETIN_CAN_STATUS channel) 1 0 ≥ 2 || bit (live s (NETIN_CAN_CTRL channel)) 3 then .next s
  else
    let sent := fun (id : Nat) (d : List Byte) (s : State) =>
      let tec := fld s (NETIN_CAN_STATUS channel) 15 7
      canState channel (setFld (NETIN_CAN_STATUS channel) 15 7 (tec - 1) (emit (.can channel id d) (inc (NETIN_CAN_TX_FRAMES channel) s)))
    if slot = 15 then
      match s.out.slot15 with
      | none => .next s
      | some d =>
        if channel ≠ fld s NETIN_VLINK_CTRL 3 2 then .next s
        else .next (sent (rd s NETIN_VLINK_ID) d { s with out.slot15 := none })
    else
      match s.net.canQueue.find? (fun x => x.1 = channel ∧ x.2.1 = slot) with
      | none => .next s
      | some (_, _, d) =>
        let tabs := (netTables s s.ridge.ns).canSlots
        let sl := tgetD (16 * channel + slot) [] tabs
        let s := { s with net.canQueue := s.net.canQueue.eraseP (fun x => x.1 = channel ∧ x.2.1 = slot) }
        let s := sent (bfield sl 4 4) d s
        if bfield sl 2 1 = 2 then
          match tget (16 * channel + slot + 1) tabs with
          | some nx => .next (queueCan channel (slot + 1) (slotData nx (some stamp) (bfield sl 3 1)) s)
          | none => .next s
        else .next s

/-- ETH_FRAME_RECEIVED: a frame, FCS included, with its stamp: counted and dropped on an error, handed to Ridge or the jig, or
forwarded by the table (R71, R118, R119, R122, R125). -/
def execEthFrameReceived (port stamp : Nat) (fcsOk : Bool) (frame : List Byte) (s : State) : Out :=
  let be2 := fun (o : Nat) => 256 * leNat ((frame.drop o).take 1) + leNat ((frame.drop (o + 1)).take 1)
  let mac := fun (o : Nat) => ((frame.drop o).take 6).foldl (fun a b => 256 * a + b.toNat) 0
  if 14 ≤ port || !bit (live s (NETIN_PORT_CTRL port)) 0 || !linkUp s port then .next s
  else if !fcsOk then .next (inc (NETIN_RX_FCS_ERR port) s)
  else if 9216 < frame.length then .next (inc NETIN_OVERSIZE s)
  else if frame.length < 64 then .next s
  else
    let s := inc (NETIN_RX_FRAMES port) s
    let tagged := decide (be2 12 = 0x8100)
    let etype := if tagged then be2 16 else be2 12
    let pcp := if tagged then be2 14 / 8192 else 0
    let vid := if tagged then be2 14 % 4096 else bits (liveAt s 1 stamp (NETIN_PORT_CTRL port)) 27 16
    if etype = 0x88F7 ∧ port < 12 then .next s
    else match scannerPayload s port frame stamp with
      | some _ =>
        let j := jig s port
        if bit (rd s (NETIN_SCAN_ADAPTER port)) 21 then .next (inc (NETIN_OVERFLOW port) s)
        else if 262144 < (j.queue.map (fun x => x.1.length)).sum + frame.length then
          .next (modSweep port (sweepFlag 0x40) (inc (NETIN_OVERFLOW port) s))
        else .next (putJig port { j with queue := j.queue ++ [(frame, stamp)] } s)
      | none =>
        match (netTables s stamp).fwd.find? (fun e => e.2.mac = mac 0 ∧ e.2.vid = vid) with
        | none => .next (inc NETIN_FWD_MISS s)
        | some (_, e) =>
          let s := if bit e.mask 14 then inc (NETIN_RX_DROP port) s else s
          .next ((List.range 14).foldl (fun s p =>
            if bit e.mask p && decide (p ≠ port) then
              enqueueFrame p (bits (live s (NETIN_PCP_MAP p)) (3 * pcp + 2) (3 * pcp)) { bytes := frame } s
            else s) s)

/-- ETH_LINK_DOWN: queued frames are dropped and counted, and the port's sweep closes (R119, R129). -/
def execEthLinkDown (port : Nat) (testFail : Bool) (s : State) : Out :=
  if 14 ≤ port || !linkUp s port then .next s
  else
    let s := clearMask NETIN_LINK_UP (2 ^ port) (setFld (NETIN_PORT_STATUS port) 0 0 0 s)
    let s := (List.range 8).foldl (fun s q =>
      setQueue port q [] (incFld (NETIN_TX_DROP port) 31 0 (queueAt s port q).length s)) (raise 0x3001 port s)
    if port < 8 then
      .next (modJig port (fun j => { j with expected := none }) (closeSweep port testFail (modSweep port (sweepFlag 0x80) s)))
    else .next s

/-- ETH_LINK_UP: the link comes up with its speed, role and quality (R117, R119). -/
def execEthLinkUp (port speed role quality : Nat) (s : State) : Out :=
  if 14 ≤ port || linkUp s port || !bit (live s (NETIN_PORT_CTRL port)) 0 then .next s
  else .next (raise 0x3002 port (setMask NETIN_LINK_UP (2 ^ port)
    (wr (NETIN_PORT_STATUS port) (1 + 2 * (speed % 4) + 8 * (role % 2) + 16 * (quality % 8)) s)))

/-- JIG_PACKET: the oldest frame of the ingest queue is converted; `packets` are what the adapter image makes of it, and the
native adapter passes its payload on. A fault drops it, and the third within 1 s halts the jig (R122, R124, R127–R130). -/
def execJigPacket (port : Nat) (packets : List (List Byte)) (fault_ testFail : Bool) (s : State) : Out :=
  let j := jig s port
  match j.queue with
  | [] => .next s
  | (frame, stamp) :: rest =>
    let s := putJig port { j with queue := rest } s
    if bit (rd s (NETIN_SCAN_ADAPTER port)) 21 then .next (inc (NETIN_OVERFLOW port) s) else
    let native := decide (fld s (NETIN_SCAN_ADAPTER port) 15 0 = 0)
    let ps := if native then (scannerPayload s port frame stamp).toList else packets
    let faulted := !native && (fault_ || ps.any (fun p => !packetOk p))
    if faulted then
      let times := (j.faults.filter (fun t => decide (s.ridge.ns < t + 1000000000))) ++ [s.ridge.ns]
      let s := modJig port (fun j => { j with faults := times }) (raise 0x3014 port (inc (NETIN_ADAPTER_FAULTS port) s))
      let s := modSweep port (sweepFlag 0x200) s
      if 3 ≤ times.length then .next (raise 0x3015 port (setFld (NETIN_SCAN_ADAPTER port) 21 21 1 s)) else .next s
    else
      .next (ps.foldl (fun s p =>
        if packetOk p then takePacket port stamp testFail p s
        else modSweep port (sweepFlag 0x20) (inc (NETIN_CRC_FAIL port) s)) s)

/-- SWEEP_TIMEOUT: the sweep is still open sweep_timeout_ms after its first packet (R129). -/
def execSweepTimeout (port : Nat) (testFail : Bool) (s : State) : Out :=
  match (jig s port).sweep with
  | none => .next s
  | some w =>
    if s.ridge.ns < w.start + max 1 (bits w.timing 15 0) * 1000000 then .next s
    else .next (closeSweep port testFail (modSweep port (sweepFlag 0x100) s))

/-- SYNTH_BLOCK_INJECT: a block of 8 synthetic points enters the stream to the Planer; `damage` is XORed onto it on its way, a
list of byte positions and masks (R131, R132). -/
def execSynthBlockInject (port : Nat) (damage : List (Nat × Nat)) (s : State) : Out :=
  if 8 ≤ port || !bit (live s (NETIN_SCAN_CTRL port)) 0 || !bit (live s (NETIN_SCAN_CTRL port)) 2 then .next s
  else
    let j := jig s port
    let flat := (synthBlock port j.blockNumber).flatten
    let hit := (flat.zipIdx).map (fun p => match damage.find? (fun d => d.1 = p.2) with
      | some d => p.1 ^^^ BitVec.ofNat 8 d.2
      | none => p.1)
    let recs := (pointList 8 hit).map (fun pt => (⟨pt, s.ridge.ns, port⟩ : IngestRec))
    .next { putJig port { j with blockNumber := (j.blockNumber + 1) % 2 ^ 24 } s with ingest := s.ingest ++ recs }

/-- CHECKER_SELFTEST_IDLE: a port without a frame-end, or a sweep end, for 40 ms tests its checker: camera port `checker`, or
scanner port `checker` − 16 (R111, R132, R545). -/
def execCheckerSelftestIdle (checker : Nat) (testFail : Bool) (s : State) : Out :=
  if checker < 16 then
    if !camEnabled s checker || !bit (live s (CAMIN_PORT_CTRL checker)) 7 || decide (s.ridge.ns < (cam s checker).lastTest + 40000000) then .next s
    else
      let s := inc CAMIN_SELFTEST_RUNS (modCam checker (fun c => { c with lastTest := s.ridge.ns }) s)
      .next (checkerTest checker (!testFail) (if testFail then raise 0x2021 checker s else s))
  else
    let p := checker - 16
    if 8 ≤ p || !bit (live s (NETIN_SCAN_CTRL p)) 0 || !bit (live s (NETIN_SCAN_CTRL p)) 2 ||
        decide (s.ridge.ns < (jig s p).lastTest + 40000000) then .next s
    else .next (scannerTest p testFail s)

/-- CAN_FRAME_RECEIVED: a frame with its identifier word as R134 lays it out, its data, its start-of-frame stamp and its SEC
bit; each entry that it matches gives a sample, in entry order (R133–R137). -/
def execCanFrameReceived (channel id stamp : Nat) (sec : Bool) (data : List Byte) (s : State) : Out :=
  let st := fld s (NETIN_CAN_STATUS channel) 1 0
  if 4 ≤ channel || 2 ≤ st then .next s
  else if sec then .next (inc (NETIN_RX_ERR channel) s)
  else
    let rec_ := fld s (NETIN_CAN_STATUS channel) 23 16
    let s := inc (NETIN_CAN_RX_FRAMES channel) (setFld (NETIN_CAN_STATUS channel) 23 16 (if 127 < rec_ then 127 else rec_ - 1) s)
    let s := canState channel s
    .next ((netTables s stamp).signals.foldl (fun s p =>
      if bfield p.2 1 1 % 4 = channel ∧ bfield p.2 4 4 % 2 ^ 31 = id % 2 ^ 31 then takeSignal p.1 p.2 data stamp s else s) s)

/-- CAN_ERROR_FRAME: an error seen as transmitter or as receiver moves fault confinement (R133). -/
def execCanErrorFrame (channel : Nat) (transmitting : Bool) (s : State) : Out :=
  if 4 ≤ channel || 2 ≤ fld s (NETIN_CAN_STATUS channel) 1 0 then .next s
  else
    let s := inc (NETIN_RX_ERR channel) s
    .next (canState channel (if transmitting then incFld (NETIN_CAN_STATUS channel) 15 7 8 s else incFld (NETIN_CAN_STATUS channel) 23 16 1 s))

/-- CAN_BUSOFF_RECOVERY: a bus-off channel recovers when auto_recover is set (R133). -/
def execCanBusoffRecovery (channel : Nat) (s : State) : Out :=
  if 4 ≤ channel || decide (fld s (NETIN_CAN_STATUS channel) 1 0 ≠ 2) || !bit (live s (NETIN_CAN_CTRL channel)) 4 then .next s
  else .next (wr (NETIN_CAN_STATUS channel) 0 s)

/-- SIGNAL_STALE: an entry has given no sample for max_gap_ms (R137). -/
def execSignalStale (entry : Nat) (s : State) : Out :=
  match tget entry s.net.live.signals with
  | none => .next s
  | some e =>
    let gap := bfield e 28 2 * 1000000
    let last := max (tgetD entry {} s.net.sig).last (tgetD 1 0 s.ridge.unitSince)
    if gap = 0 ∨ bit (rd s (NETIN_SIG_STALE (entry / 32))) (entry % 32) ∨ s.ridge.ns < last + gap then .next s
    else
      let s := setMask (NETIN_SIG_STALE (entry / 32)) (2 ^ (entry % 32)) s
      .next (raise 0x3041 entry (pushSignal (signalRecord (bfield e 2 1) (bfield e 3 1) 4 (bfield e 1 1 % 4) entry
        (unitEpoch s 1) s.ridge.ns s.ridge.ns [0, 0, 0]) s))

/-- The mounting rotation in force, which the apply time has normalised (R140). -/
def mountQ (s : State) : List Int := (List.range 4).map (fun i => toSigned 32 (live s (NETIN_MOUNT_Q i)))

/-- REF_IMU_SAMPLE: one sample of the reference IMU, in the package frame in Q16.16, stamped at data-ready: a record of kind
0x10 and one of kind 0x11 in the vehicle frame (R139, R141). -/
def execRefImuSample (stamp : Nat) (rate acc : List Int) (saturated : Bool) (s : State) : Out :=
  let odr := [200, 400, 800, 1600].getD (bits (liveAt s 1 stamp NETIN_REF_IMU_CFG) 1 0) 800
  let tMeas := stamp - 2000000000 / odr
  let m := rotation (mountQ s)
  let axes := rate ++ acc
  let runs := (axes.zipIdx).map (fun p => if s.net.imuLast[p.2]? = some p.1 then s.net.imuRuns.getD p.2 1 + 1 else 1)
  let s := { s with net.imuLast := axes, net.imuRuns := runs }
  let s := setFld NETIN_REF_IMU_STATUS 2 2 (b2n saturated) s
  let vr := matVec m rate
  let va := matVec m acc
  let keep := fun (src : Nat) (v : List Int) (s : State) => (v.zipIdx).foldl (fun s p => keepImu ⟨tMeas, src, p.2, p.1⟩ s) s
  let s := keep 1 va (keep 0 vr s)
  let e := epochAt s 1 stamp
  let push := fun (k : Nat) (v : List Int) (s : State) =>
    pushSignal (signalRecord k 0 (2 * b2n saturated) 0xFF 0 e tMeas stamp (v.map (satSigned 32))) s
  .next (push 0x11 va (push 0x10 vr s))

/-- REF_IMU_FAULT: a failed self-test in the Plinth, or 50 identical samples in a row on some axis (R141). -/
def execRefImuFault (selftestFailed : Bool) (s : State) : Out :=
  let stuck := s.net.imuRuns.any (fun n => decide (50 ≤ n))
  if (!selftestFailed && !stuck) || bit (rd s NETIN_REF_IMU_STATUS) 0 then .next s
  else .next (fault 7 (raise 0x3051 0 (setMask NETIN_REF_IMU_STATUS (1 + 2 * b2n stuck) s)))

/-- The mean of the samples of one source and axis in a window, rounded down; none without samples (R141). -/
def imuMean (l : List ImuSample) (source axis : Nat) : Option Int :=
  let v := (l.filter (fun x => x.source = source ∧ x.axis = axis)).map (·.value)
  if v.isEmpty then none else some (v.sum / v.length)

/-- XCHK_WINDOW_EVAL: 20 ms after its end, a window compares the reference IMU with the vehicle's; the mean of no reference samples
is not stated (R141). -/
def execXchkWindowEval (s : State) : Out :=
  let cfg := live s NETIN_XCHK_CFG
  let w := max 1 (bits cfg 9 0) * 1000000
  let e := (s.ridge.ns - 20000000) / w * w
  if s.ridge.ns < 20000000 + w ∨ e ≤ s.net.xchkEnd then .next s
  else
    let l := s.net.imu.filter (fun x => decide (e - w ≤ x.t) && decide (x.t < e))
    let s := { s with net.xchkEnd := e }
    if (List.range 3).any (fun a => (imuMean l 2 a).isNone) then
      .next (setFld NETIN_XCHK_STATUS 15 8 0 (setFld NETIN_XCHK_STATUS 0 0 0 s))
    else
      let fails := fun (a : Nat) =>
        let ref := fun (source : Nat) => (imuMean l source a).getD (Config.unstated 141 [source, a, e]).toInt
        let dr := (ref 0 - (imuMean l 2 a).getD 0).natAbs
        let da := match imuMean l 3 a with
          | none => 0
          | some v => (ref 1 - v).natAbs
        -- 0.01 °/s is 11.43818978587003831… units of Q16.16 rad/s, and 0.01 m/s² is 655.36 units.
        decide (bits cfg 31 16 * 1143818978587003831 < dr * 10 ^ 17) || decide (liveFld s NETIN_XCHK_ACC 15 0 * 65536 < da * 100)
      let mask : Nat := ((List.range 3).map (fun a => if fails a then 2 ^ a else 0)).sum
      let n := if mask = 0 then 0 else min 255 (fld s NETIN_XCHK_STATUS 15 8 + 1)
      let dis := decide (max 1 (bits cfg 15 12) ≤ n)
      let was := bit (rd s NETIN_XCHK_STATUS) 1
      let s := wr NETIN_XCHK_STATUS (1 + 2 * b2n dis + 4 * mask + 256 * n) s
      .next (if dis && !was then fault 6 (raise 0x3050 0 s) else s)

end Sys2Proof.Machine
end

