-- ==== Sys2Proof/Machine/RidgeOps.lean ====
section
/-! DEFINITION. The Ridge counter and its discipline as operations: the increment and its limits, the loop, holdover, and the
choice of a grandmaster (R53–R67). -/

namespace Sys2Proof.Machine
open Sys2Proof

/-- Nearest integer to `n / d`. -/
def roundDiv (n d : Int) : Int := (2 * n + d) / (2 * d)

/-- The increment of a trim in units of 2^−8 ppb, rounded to the nearest 2^−32 ns (R60). -/
def trimInc (t : Int) : Nat := ((inc10 : Int) + roundDiv (inc10 * t) 256000000000).toNat

/-- The trim that an increment implies, in units of 2^−8 ppb (R61). -/
def incTrim (i : Nat) : Int := roundDiv (((i : Int) - inc10) * 256000000000) inc10

/-- trim_limit in units of 2^−8 ppb (R60). -/
def trimLimit (s : State) : Int := (fld s RIDGE_TRIM_LIMIT 15 0 : Int) * 256000

/-- The loop state of RIDGE.STATUS: 0 FREE, 1 ACQUIRE, 2 LOCKED, 3 HOLDOVER, 4 HOLDOVER_EXPIRED. -/
def loopState (s : State) : Nat := fld s RIDGE_STATUS 2 0
def setLoop (k : Nat) (s : State) : State :=
  let s := setFld RIDGE_STATUS 2 0 k s
  if k = 1 then { s with ridge.goodRow := 0, ridge.badRow := 0 } else s
def gmActive (s : State) : Bool := bit (rd s RIDGE_STATUS) 5
def ridgeSource (s : State) : Nat := fld s RIDGE_CTRL 1 0
def ridgeRole (s : State) : Nat := fld s RIDGE_CTRL 5 4

/-- Puts an increment in force, shown by INC_INT and INC_FRAC (R55, R630). -/
def putInc (i : Nat) (s : State) : State :=
  wr RIDGE_INC_INT (i / 2 ^ 32) (wr RIDGE_INC_FRAC (i % 2 ^ 32) { s with ridge.inc := i })

/-- Puts a trim in force, with its increment if loop_en is 1 (R60). -/
def putTrim (integ trim : Int) (s : State) : State :=
  if bit (rd s RIDGE_CTRL) 2 then
    wr RIDGE_FREQ_TRIM (ofSigned 32 trim)
      (putInc (clampInc s (trimInc trim)) { s with ridge.integ := integ, ridge.trim := trim })
  else s

/-- The state that source, role and gm_active give at a write, or at a change of gm_active (R63). -/
def enterBySource (s : State) : State :=
  setFld RIDGE_STATUS 6 6 0 (setLoop (if ridgeSource s = 0 ∨ (ridgeSource s = 1 ∧ gmActive s) then 0 else 1) s)

/-- A sample of error `e` ns reaches the loop (R60, R62, R63). -/
def sample (e : Int) (s : State) : State :=
  let s := wr RIDGE_PHASE_ERR (ofSigned 32 (satSigned 32 (max (-(2 ^ 31 - 1)) e))) (histo 14 (logBin e.natAbs) s)
  let s := { s with ridge.sampled := true, ridge.lastSample := s.ridge.ns }
  let s := if loopState s = 0 ∨ 3 ≤ loopState s then setLoop 1 s else s
  let lim := trimLimit s
  if fld s RIDGE_TRIM_LIMIT 31 16 * 1000 < e.natAbs then
    if !pinned s then setLoop 1 (if s.ridge.phase = .idle then { s with ridge.stepNext := some e, ridge.stepSoft := false } else s)
    else if bit (rd s RIDGE_STATUS) 6 then s
    else
      let t := if 0 < e then lim else -lim
      setLoop 1 (putTrim t t (setFld RIDGE_STATUS 6 6 1 s))
  else
    let s := setFld RIDGE_STATUS 6 6 0 s
    let integ := max (-lim) (min lim (s.ridge.integ + fld s RIDGE_DISC_GAIN 31 16 * e))
    let trim := max (-lim) (min lim (integ + fld s RIDGE_DISC_GAIN 15 0 * e))
    let s := putTrim integ trim s
    let window := fld s RIDGE_LOCK_CFG 15 0
    let good := if e.natAbs ≤ window then s.ridge.goodRow + 1 else 0
    let bad := if 10 * window < e.natAbs then s.ridge.badRow + 1 else 0
    let s := { s with ridge.goodRow := good, ridge.badRow := bad }
    if loopState s = 1 ∧ max 1 (fld s RIDGE_LOCK_CFG 31 24) ≤ good then setLoop 2 s
    else if loopState s = 2 ∧ 2 ≤ bad then setLoop 1 s
    else s

/-- The interval between samples of the source, in ns (R63, R65). -/
def sampleInterval (s : State) : Nat :=
  if ridgeSource s = 2 then 1000000000
  else if 0 ≤ s.ridge.logSync then 1000000000 * 2 ^ s.ridge.logSync.toNat else 1000000000 / 2 ^ (-s.ridge.logSync).toNat

/-- gm_active takes a value; a change of it while source is gPTP moves the loop state (R63). -/
def putGm (b : Bool) (s : State) : State :=
  if gmActive s = b then s
  else
    let s := setFld RIDGE_STATUS 5 5 (b2n b) s
    if ridgeSource s = 1 then enterBySource s else s

/-- The number that orders grandmasters: a lower one is better (R65). -/
def gmVector (a : Announce) : Nat :=
  ((((a.priority1 * 256 + a.clockClass) * 256 + a.clockAccuracy) * 65536 + a.variance) * 256 + a.priority2) * 2 ^ 64 + a.identity

/-- The part's own dataset (R65). -/
def ownAnnounce (s : State) : Announce :=
  { priority1 := s.ridge.priority1, clockClass := s.ridge.clockClass, clockAccuracy := s.ridge.clockAccuracy,
    variance := s.ridge.variance, priority2 := s.ridge.priority2, identity := Config.clockIdentity.toNat,
    stepsRemoved := 0, ptpScale := s.ridge.ptpScale }

/-- The best Announce held, with its port: by grandmaster, then by steps removed, then by port (R65). -/
def bestAnnounce (s : State) : Option (Nat × Announce) :=
  s.ridge.announces.foldl (fun acc p => match acc with
    | none => some p
    | some q =>
      if gmVector p.2 < gmVector q.2 ∨ (gmVector p.2 = gmVector q.2 ∧ p.2.stepsRemoved < q.2.stepsRemoved) then some p
      else some q) none

/-- The BMCA decides again under role BMCA (R63, R65). -/
def runBmca (s : State) : State :=
  if ridgeRole s ≠ 2 then s
  else match bestAnnounce s with
    | none => putGm true s
    | some (_, a) => putGm (decide (gmVector (ownAnnounce s) ≤ gmVector a)) s

/-- The gPTP port that Ridge follows, if any (R63, R65). -/
def followed (s : State) : Option Nat :=
  if ridgeRole s = 1 then some (fld s RIDGE_CTRL 11 8)
  else if ridgeRole s = 2 && !gmActive s then (bestAnnounce s).map (·.1)
  else none

/-- The whole second of Ridge nearest to a time (R66). -/
def nearestSecond (t : Nat) : Nat := (t + 500000000) / 1000000000 * 1000000000

/-- The width of a PPS_OUT pulse in ms (R67). -/
def ppsWidth (s : State) : Nat := let w := fld s RIDGE_PPS_OUT_CFG 9 0; if w = 0 ∨ 999 < w then 100 else w

/-- The value that RIDGE.CTRL takes, or none where a reserved code makes the write ignored (R629, R630). -/
def ctrlValue (v : Nat) : Option Nat :=
  if bits v 1 0 = 3 ∨ bits v 5 4 = 3 ∨ 12 ≤ bits v 11 8 then none
  else some (if 127 < bits v 23 16 then putBits v 23 16 127 else v)

/-- A new value of RIDGE.CTRL: a write to source or role moves the loop at once (R63). -/
def putRidgeCtrl (v : Nat) (s : State) : State :=
  let old := rd s RIDGE_CTRL
  let s := acceptWrite RIDGE_CTRL.addr v [] s
  let s := { s with ridge.sampled := false,
                    ridge.ppsSeen := if bits old 1 0 = 2 then s.ridge.ppsSeen else false }
  let gm := match ridgeRole s with
    | 0 => true
    | 1 => false
    | _ => if bits old 5 4 = 2 then gmActive s else true
  let s := setFld RIDGE_STATUS 5 5 (b2n gm) s
  enterBySource s

end Sys2Proof.Machine
end

