-- ==== Sys2Proof/Machine/Arith.lean ====
section
/-! DEFINITION. The arithmetic of tenons, braces and mortises: element formats, exact sums with one rounding, conversions and
fixed point with NaR (R201–R219, R242). -/

namespace Sys2Proof.Machine
open Sys2Proof

/-- A value of a floating-point or integer format: a finite one is ± m × 2^e, exactly. -/
inductive Num
  | nan
  | inf (neg : Bool)
  | fin (neg : Bool) (m : Nat) (e : Int)
  deriving DecidableEq, Repr

/-- Exponent bits, mantissa bits, bias and the code of the largest finite value of a floating-point format (R201, R202). -/
def fpParams (c : Nat) : Option (Nat × Nat × Nat × Nat) :=
  match c with
  | 0x05 => some (4, 3, 7, 0x7E) | 0x06 => some (5, 2, 15, 0x7B) | 0x07 => some (2, 1, 1, 0x7) | 0x08 => some (2, 3, 1, 0x1F)
  | 0x09 => some (3, 2, 3, 0x1F) | 0x0B => some (8, 7, 127, 0x7F7F) | 0x0C => some (5, 10, 15, 0x7BFF)
  | 0x0D => some (8, 23, 127, 0x7F7FFFFF) | _ => none

/-- Signedness and width of an integer format (R201). -/
def intParams (c : Nat) : Option (Bool × Nat) :=
  match c with
  | 0x01 => some (true, 8) | 0x02 => some (false, 8) | 0x03 => some (true, 4) | 0x04 => some (false, 4)
  | 0x0E => some (true, 32) | 0x11 => some (false, 16) | 0x12 => some (true, 16) | _ => none

/-- The canonical NaN of a format (R202). -/
def canonNaN (c : Nat) : Nat :=
  match c with | 0x05 => 0x7F | 0x06 => 0x7F | 0x0B => 0x7FC0 | 0x0C => 0x7E00 | _ => 0x7FC00000

/-- The formats with infinities (R202). -/
def hasInf (c : Nat) : Bool := [0x06, 0x0B, 0x0C, 0x0D].contains c

def NaR : Nat := 0x80000000

/-- The integer value of ± m × 2^e scaled by 2^k, where it is whole. -/
def ofInt (i : Int) : Num := .fin (decide (i < 0)) i.natAbs 0

/-- The value of a code (R201, R202). -/
def decode (c v : Nat) : Num :=
  match fpParams c with
  | some (eb, mb, bias, mx) =>
    let neg := bit v (eb + mb)
    let x := v % 2 ^ (eb + mb)
    let f := x / 2 ^ mb
    if c = 0x05 && x = 0x7F then .nan
    else if hasInf c && decide (mx < x) then (if x % 2 ^ mb = 0 then .inf neg else .nan)
    else if f = 0 then .fin neg x (1 - (bias : Int) - mb)
    else .fin neg (2 ^ mb + x % 2 ^ mb) (f - (bias : Int) - mb)
  | none =>
    if c = 0x0A then (let i := toSigned 8 v; .fin (decide (i < 0)) i.natAbs (-6))
    else match intParams c with
      | some (true, w) => ofInt (toSigned w v)
      | some (false, w) => .fin false (v % 2 ^ w) 0
      | none => .nan

/-- `m × 2^e` rounded to a multiple of 2^l, to nearest with ties to even, in units of 2^l. -/
def roundEven (m : Nat) (e l : Int) : Nat :=
  if l ≤ e then m * 2 ^ (e - l).toNat
  else
    let sh := (l - e).toNat
    let q := m / 2 ^ sh
    let r := m % 2 ^ sh
    if 2 ^ sh < 2 * r ∨ (2 * r = 2 ^ sh ∧ q % 2 = 1) then q + 1 else q

/-- The magnitude code of `m × 2^e` in a floating-point format, which may lie above the largest finite one (R207). -/
def roundCode (c m : Nat) (e : Int) : Nat :=
  match fpParams c with
  | none => 0
  | some (_, mb, bias, _) =>
    let emin : Int := 1 - (bias : Int) - mb
    let l := max emin (e + Nat.log2 (max 1 m) - mb)
    let q := roundEven m e l
    let (q, l) := if 2 ^ (mb + 1) ≤ q then (q / 2, l + 1) else (q, l)
    if q < 2 ^ mb then q else (l - emin + 1).toNat * 2 ^ mb + (q - 2 ^ mb)

/-- What an operation gives: its code, and what it adds to NAR_COUNT, SAT_COUNT and NAN_TO_INT. -/
structure Res1 where
  code : Nat
  nar : Nat := 0
  sat : Nat := 0
  nti : Nat := 0

/-- Rounds a value into a floating-point format: an overflow gives ±∞, or NaN where the format has no infinity; under SAT the
largest finite value (R207, R208, R217). -/
def encodeFp (c : Nat) (sat : Bool) (x : Num) : Res1 :=
  match fpParams c with
  | none => ⟨0, 0, 0, 0⟩
  | some (eb, mb, _, mx) =>
    let sign := fun (b : Bool) => b2n b * 2 ^ (eb + mb)
    let past := fun (b : Bool) => (if sat then ⟨sign b + mx, 0, 1, 0⟩
      else if hasInf c then ⟨sign b + (2 ^ eb - 1) * 2 ^ mb, 0, 0, 0⟩
      else if c = 0x05 then ⟨canonNaN c, 0, 0, 0⟩ else ⟨sign b + mx, 0, 1, 0⟩ : Res1)
    match x with
    | .nan => ⟨canonNaN c, 0, 0, 0⟩
    | .inf b => if hasInf c then ⟨sign b + (2 ^ eb - 1) * 2 ^ mb, 0, 0, 0⟩ else past b
    | .fin b m e => let q := roundCode c m e; if mx < q then past b else ⟨sign b + q, 0, 0, 0⟩

/-- FP32 with round to nearest, ties to even (R207). -/
def toFp32 (x : Num) : Nat := (encodeFp 0x0D false x).code

/-! ### Exact operations -/

def isNeg : Num → Bool | .nan => false | .inf b => b | .fin b _ _ => b
def isZero : Num → Bool | .fin _ 0 _ => true | _ => false

/-- The signed integer of a finite value in units of 2^l, for l at most its exponent. -/
def unitsOf (l : Int) : Num → Int
  | .fin b m e => (if b then -1 else 1) * ((m * 2 ^ (e - l).toNat : Nat) : Int)
  | _ => 0

def expOf : Num → Int | .fin _ _ e => e | _ => 0

/-- The exact product (R207, R208). -/
def mulNum : Num → Num → Num
  | .nan, _ => .nan
  | _, .nan => .nan
  | .inf a, y => if isZero y then .nan else .inf (a != isNeg y)
  | x, .inf b => if isZero x then .nan else .inf (isNeg x != b)
  | .fin a m e, .fin b n f => .fin (a != b) (m * n) (e + f)

/-- The exact sum of a list: NaN for any NaN or for infinities of both signs; a zero sum is +0 unless every term is −0
(R208). -/
def sumNum (l : List Num) : Num :=
  if l.any (fun x => decide (x = .nan)) then .nan
  else
    let p := l.any (fun x => decide (x = .inf false))
    let n := l.any (fun x => decide (x = .inf true))
    if p && n then .nan
    else if p then .inf false
    else if n then .inf true
    else
      let lo := (l.map expOf).foldl min (expOf (l.headD (.fin false 0 0)))
      let s := (l.map (unitsOf lo)).sum
      if s = 0 then .fin (l.all (fun x => isZero x && isNeg x) && !l.isEmpty) 0 0
      else .fin (decide (s < 0)) s.natAbs lo

def negNum : Num → Num
  | .nan => .nan
  | .inf b => .inf !b
  | .fin b m e => .fin (!b) m e

/-- `x < y`; false where either is NaN (R211). -/
def ltNum : Num → Num → Bool
  | .nan, _ => false
  | _, .nan => false
  | .inf a, .inf b => a && !b
  | .inf a, .fin .. => a
  | .fin .., .inf b => !b
  | x, y => let l := min (expOf x) (expOf y); decide (unitsOf l x < unitsOf l y)
def eqNum (x y : Num) : Bool := decide (x ≠ .nan) && decide (y ≠ .nan) && !ltNum x y && !ltNum y x

/-- The quotient, carried to 64 bits beyond its leading one with a sticky last bit. -/
def divNum : Num → Num → Num
  | .nan, _ => .nan
  | _, .nan => .nan
  | .inf _, .inf _ => .nan
  | .inf a, y => .inf (a != isNeg y)
  | x, .inf b => .fin (isNeg x != b) 0 0
  | .fin a m e, .fin b n f =>
    if n = 0 then (if m = 0 then .nan else .inf (a != b))
    else
      let k := 64 + Nat.log2 n
      let q := m * 2 ^ k / n
      .fin (a != b) (2 * q + b2n (decide (m * 2 ^ k % n ≠ 0))) (e - f - k - 1)

/-- The square root, carried in the same way. -/
def sqrtNum : Num → Num
  | .nan => .nan
  | .inf b => if b then .nan else .inf false
  | .fin b m e =>
    if m = 0 then .fin b 0 0
    else if b then .nan
    else
      let k := 128 + (e % 2).toNat
      let r := isqrt (m * 2 ^ k)
      .fin false (2 * r + b2n (decide (r * r ≠ m * 2 ^ k))) ((e - k) / 2 - 1)

/-! ### Tenons (R205–R209) -/

/-- Products per step of an operand pair, or none where the pair is not supported; and whether it accumulates integers
(R205). -/
def pairOf (a b : Nat) : Option (Nat × Bool) :=
  let i8 := fun c => decide (c = 1) || decide (c = 2)
  let i4 := fun c => decide (c = 3) || decide (c = 4)
  let e8 := fun c => decide (c = 5) || decide (c = 6)
  let mx := fun c => decide (7 ≤ c) && decide (c ≤ 10)
  if i8 a && (i8 b || i4 b) then some (4, true)
  else if i4 a && i4 b then some (8, true)
  else if e8 a && e8 b then some (4, false)
  else if mx a && mx b then some (8, false)
  else if (a = 0x0B ∧ b = 0x0B) ∨ (a = 0x0C ∧ b = 0x0C) then some (1, false)
  else none

/-- Adds the sums of neighbours, in pairs, and then the pairs, until one is left (R209, R212). -/
def treeSum {α : Type} (add : α → α → α) : Nat → List α → List α
  | 0, l => l
  | fuel + 1, l =>
    if l.length ≤ 1 then l
    else treeSum add fuel ((List.range (ceilDiv l.length 2)).filterMap (fun i =>
      match l[2 * i]?, l[2 * i + 1]? with | some x, some y => some (add x y) | x, _ => x))

/-- One step of a floating-point accumulation: the exact sum of the accumulator and the scaled products, rounded once to FP32;
NaN stays (R207, R208). -/
def tenonStep (acc : Nat) (ps : List Num) : Nat := toFp32 (sumNum (decode 0x0D acc :: ps))

/-- The partial sum of one truss in FP32: its steps in ascending order (R207). -/
def tenonChain (k : Nat) : Nat → List Num → Nat → Nat
  | 0, _, acc => acc
  | fuel + 1, ps, acc => if ps.isEmpty then acc else tenonChain k fuel (ps.drop k) (tenonStep acc (ps.take k))

/-- Cuts a list into the ranges of the trusses (R209). -/
def cut {α : Type} : List Nat → List α → List (List α)
  | [], l => [l]
  | [_], l => [l]
  | n :: r, l => l.take n :: cut r (l.drop n)

/-- A tenon output over K: `fa`, `fb` the operand formats, `parts` the ranges of a split reduction; the arguments are the A
codes, the B codes and, for MX, one scale of each per block of 32 (R205–R209). -/
def tenon (fa fb kk : Nat) (parts : List Nat) (args : List Nat) : Res1 :=
  let as_ := args.take kk
  let bs := (args.drop kk).take kk
  let sc := args.drop (2 * kk)
  let nb := ceilDiv kk 32
  match pairOf fa fb with
  | none => ⟨0, 0, 0, 0⟩
  | some (_, true) =>
    let v := fun (c x : Nat) => unitsOf 0 (decode c x)
    let s := ((as_.zip bs).map (fun p => v fa p.1 * v fb p.2)).sum
    let r := satSigned 32 s
    ⟨ofSigned 32 r, 0, b2n (decide (r ≠ s)), 0⟩
  | some (k, false) =>
    let mx := decide (7 ≤ fa) && decide (fa ≤ 10)
    let ps := ((as_.zip bs).zipIdx).map (fun p =>
      let x := mulNum (decode fa p.1.1) (decode fb p.1.2)
      if mx then
        let sa := sc.getD (p.2 / 32) 0
        let sb := sc.getD (nb + p.2 / 32) 0
        if sa = 0xFF ∨ sb = 0xFF then .nan
        else match x with | .fin b m e => .fin b m (e + sa + sb - 254) | y => y
      else x)
    let sums := (cut parts ps).map (fun l => tenonChain k (l.length + 1) l 0)
    let add := fun (x y : Nat) => toFp32 (sumNum [decode 0x0D x, decode 0x0D y])
    ⟨((treeSum add sums.length sums).head?).getD 0, 0, 0, 0⟩

/-! ### Fixed point and NaR (R213–R216) -/

/-- `a / 2^k` rounded to nearest, halves up; a negative `k` shifts left exactly (R214). -/
def shiftTo (a : Int) (k : Int) : Int := if k ≤ 0 then a * 2 ^ (-k).toNat else shiftRound a k.toNat

/-- A Q32 result leaves into its word, under the write-out mode (R213, R215). -/
def writeQ (sat : Bool) (v : Option Int) : Res1 :=
  match v with
  | none => ⟨NaR, 1, 0, 0⟩
  | some i =>
    if -(2 ^ 31 : Int) < i ∧ i < 2 ^ 31 then ⟨ofSigned 32 i, 0, 0, 0⟩
    else if sat then ⟨ofSigned 32 (if i < 0 then -(2 ^ 31 - 1) else 2 ^ 31 - 1), 0, 1, 0⟩
    else ⟨NaR, 1, 0, 0⟩

/-- The value of a Q32 word, or none for NaR. -/
def qVal (w : Nat) : Option Int := if w % 2 ^ 32 = NaR then none else some (toSigned 32 (w % 2 ^ 32))

/-- 72 signed bits hold a value (R215). -/
def fits72 (i : Int) : Bool := decide (-(2 ^ 71 : Int) ≤ i) && decide (i < 2 ^ 71)

/-- Multiply-accumulate into a 72-bit accumulator with binary point `g` (R214, R215). -/
def qMac (g fa fb : Nat) : List Nat → Option Int → Option Int
  | a :: b :: r, acc =>
    qMac g fa fb r (match acc, qVal a, qVal b with
      | some s, some x, some y =>
        let p := shiftTo (x * y) ((fa : Int) + fb - g)
        if fits72 p && fits72 (s + p) then some (s + p) else none
      | _, _, _ => none)
  | _, acc => acc

/-- Two Q32 words at one binary point. -/
def qAlign (fa fb : Nat) (a b : Nat) : Option (Int × Int) :=
  match qVal a, qVal b with
  | some x, some y => let f := max fa fb; some (x * 2 ^ (f - fa), y * 2 ^ (f - fb))
  | _, _ => none

/-- The quotient of two values in units of 2^−f, halves up (R214). -/
def qDiv (fa fb f : Nat) (a b : Nat) : Option Int :=
  match qVal a, qVal b with
  | some x, some y =>
    if y = 0 then none
    else
      let n := x * 2 ^ (f + fb) * (if y < 0 then -1 else 1)
      let d : Int := y.natAbs * 2 ^ fa
      some (divHalfUp n d)
  | _, _ => none

/-- The square root in units of 2^−f, halves up (R214). -/
def qSqrt (fa f : Nat) (a : Nat) : Option Int :=
  match qVal a with
  | some x =>
    if x < 0 then none
    else
      let r := isqrt (x.toNat * 2 ^ (2 * f + 2) / 2 ^ fa)
      some ((r + 1) / 2 : Nat)
  | none => none

/-! ### Conversions (R217–R219) -/

/-- A value in an integer format, to nearest with ties to even, always saturated (R217). -/
def encodeInt (c : Nat) (x : Num) : Res1 :=
  match intParams c with
  | none => ⟨0, 0, 0, 0⟩
  | some (sg, w) =>
    let lo : Int := if sg then -(2 ^ (w - 1) : Nat) else 0
    let hi : Int := if sg then (2 ^ (w - 1) : Nat) - 1 else (2 ^ w : Nat) - 1
    match x with
    | .nan => ⟨0, 0, 0, 1⟩
    | .inf b => ⟨ofSigned w (if b then lo else hi), 0, 1, 0⟩
    | .fin b m e =>
      let i : Int := (if b then -1 else 1) * (roundEven m e 0 : Int)
      let r := max lo (min hi i)
      ⟨ofSigned w r, 0, b2n (decide (r ≠ i)), 0⟩

/-- FP32 into Q32 with binary point `f`: to nearest, halves up (R217). -/
def fp32ToQ (f : Nat) (sat : Bool) (v : Nat) : Res1 :=
  match decode 0x0D v with
  | .fin b m e =>
    let u : Int := (if b then -1 else 1) * (m : Int)
    writeQ sat (some (shiftTo u (-(e + f))))
  | _ => ⟨NaR, 1, 0, 0⟩

/-- The conversions of R217; `f` is the binary point of the Q32 side, and an MX source takes its scale as second argument. -/
def convert (src dst f : Nat) (sat : Bool) (v scale : Nat) : Res1 :=
  if src = 0x0D then
    (if dst = 0x0F then fp32ToQ f sat v
     else match intParams dst with
      | some _ => encodeInt dst (decode 0x0D v)
      | none => if dst = 0x0D then ⟨v % 2 ^ 32, 0, 0, 0⟩ else encodeFp dst sat (decode 0x0D v))
  else if src = 0x0F then
    (match qVal v with
     | none => ⟨0x7FC00000, 0, 0, 0⟩
     | some i => ⟨toFp32 (.fin (decide (i < 0)) i.natAbs (-(f : Int))), 0, 0, 0⟩)
  else
    let x := decode src v
    let x := if 7 ≤ src ∧ src ≤ 10 then
        (if scale = 0xFF then .nan else match x with | .fin b m e => .fin b m (e + scale - 127) | y => y)
      else x
    let c := toFp32 x
    ⟨if src = 0x0E ∧ unitsOf (-149) (decode 0x0D c) ≠ unitsOf (-149) x then (Config.s32ToFp32 (BitVec.ofNat 32 v)).toNat else c, 0, 0, 0⟩

/-- Requantisation (R218). -/
def requant (dst s x m z : Nat) : Res1 :=
  match intParams dst with
  | none => ⟨0, 0, 0, 0⟩
  | some (sg, w) =>
    let p := toSigned 32 (x % 2 ^ 32) * toSigned 32 (m % 2 ^ 32)
    let y := (if s = 0 then p else shiftRound p s) + toSigned 64 (z % 2 ^ 64)
    let lo : Int := if sg then -(2 ^ (w - 1) : Nat) else 0
    let hi : Int := if sg then (2 ^ (w - 1) : Nat) - 1 else (2 ^ w : Nat) - 1
    let r := max lo (min hi y)
    ⟨ofSigned w r, 0, b2n (decide (r ≠ y)), 0⟩

/-- The largest finite value of an MX element format and the exponent of its largest normal (R202, R219). -/
def mxMax (c : Nat) : Num := if c = 0x0A then .fin false 127 (-6) else match fpParams c with | some (_, _, _, mx) => decode c mx | none => .nan
def mxEmax (c : Nat) : Int := match c with | 0x07 => 2 | 0x08 => 2 | 0x09 => 4 | _ => 0

/-- The scale of a block of FP32 values (R219). -/
def mxScale (c : Nat) (vals : List Nat) : Nat :=
  let xs := vals.map (decode 0x0D)
  if xs.any (fun x => decide (x = .nan)) then 0xFF
  else
    let mags := xs.map (fun x => match x with | .inf _ => mxMax c | .fin _ m e => .fin false m e | .nan => .nan)
    let amax := mags.foldl (fun a x => if ltNum a x then x else a) (.fin false 0 0)
    match amax with
    | .fin _ 0 _ => 0
    | .fin _ m e => (max (-127) (min 127 (e + Nat.log2 m - mxEmax c)) + 127).toNat
    | _ => 0

/-- Element `i` of the block (R219). -/
def mxElement (c i : Nat) (vals : List Nat) : Res1 :=
  let sc := mxScale c vals
  if sc = 0xFF then ⟨0, 0, 0, 0⟩
  else
    let x := match decode 0x0D (vals.getD i 0) with | .fin b m e => Num.fin b m (e + 127 - sc) | y => y
    if vals.all (fun v => isZero (decode 0x0D v)) then ⟨0, 0, 0, 0⟩
    else if c = 0x0A then
      encodeInt 0x01 (match x with | .fin b m e => .fin b m (e + 6) | y => y)
    else match x with
      | .inf b => encodeFp c true (.inf b)
      | y => encodeFp c true y

/-! ### Brace operations (R211, R212, R216) -/

/-- An operation's result in its format: floating point rounded once, integers saturated, exact where the rule says. -/
def encodeAs (c : Nat) (x : Num) : Res1 := match fpParams c with | some _ => encodeFp c false x | none => encodeInt c x

/-- Minimum or maximum: NaN if either is NaN; two zeros of opposite sign as no rule says. -/
def minMax (lo : Bool) (c a b : Nat) : Nat :=
  let x := decode c a
  let y := decode c b
  if x = .nan ∨ y = .nan then canonNaN c
  else if ltNum x y then (if lo then a else b)
  else if ltNum y x then (if lo then b else a)
  else if a ≠ b ∧ isZero x ∧ isZero y then (if Config.zeroFirst a b then a else b)
  else a

/-- Absolute value or negation of a code. -/
def signOp (neg : Bool) (c v : Nat) : Nat :=
  match fpParams c, intParams c with
  | some (eb, mb, _, _), _ =>
    let h := 2 ^ (eb + mb)
    if neg then (if v % (2 * h) < h then v % h + h else v % h) else v % h
  | none, some (true, w) =>
    let i := toSigned w v
    if i = -(2 ^ (w - 1) : Nat) then (Config.mostNegative c).toNat % 2 ^ w
    else ofSigned w (if neg || decide (i < 0) then -i else i)
  | _, _ => v

def opNumber : AOp → Nat
  | .recip => 0 | .rsqrt => 1 | .exp2 => 2 | .log2 => 3 | .exp => 4 | .log => 5 | .tanh => 6 | _ => 7

/-- The sum of 32 lanes as the fixed tree of R212: lane i with lane i + 16, then with i + 8, and so on. -/
def laneSum : Nat → List Nat → List Nat
  | 0, l => l
  | fuel + 1, l =>
    let h := l.length / 2
    if l.length ≤ 1 then l
    else laneSum fuel (((l.take h).zip (l.drop h)).map (fun p => toFp32 (sumNum [decode 0x0D p.1, decode 0x0D p.2])))

/-- The result of an operation on argument codes (R205–R219). -/
def evalOp (o : ArithOp) (a : List Nat) : Res1 :=
  let p := fun i => o.params.getD i 0
  let x := a.getD 0 0
  let y := a.getD 1 0
  let f := p 0
  let only := fun (c : Nat) => (⟨c, 0, 0, 0⟩ : Res1)
  match o.op with
  | .tenon => tenon (p 0) (p 1) (p 2) (o.params.drop 3) a
  | .add => encodeAs f (sumNum [decode f x, decode f y])
  | .sub => encodeAs f (sumNum [decode f x, negNum (decode f y)])
  | .mul => encodeAs f (mulNum (decode f x) (decode f y))
  | .fma => encodeAs f (sumNum [mulNum (decode f x) (decode f y), decode f (a.getD 2 0)])
  | .div => encodeAs 0x0D (divNum (decode 0x0D x) (decode 0x0D y))
  | .sqrt => encodeAs 0x0D (sqrtNum (decode 0x0D x))
  | .minimum => only (minMax true f x y)
  | .maximum => only (minMax false f x y)
  | .equal => only (b2n (eqNum (decode f x) (decode f y)))
  | .less => only (b2n (ltNum (decode f x) (decode f y)))
  | .select => only (if x = 0 then a.getD 2 0 else y)
  | .absolute => only (signOp false f x)
  | .negate => only (signOp true f x)
  | .recip | .rsqrt | .exp2 | .log2 | .exp | .log | .tanh | .sigmoid =>
    only (Config.approx (opNumber o.op) (BitVec.ofNat 32 x)).toNat
  | .sumLanes => only ((laneSum 6 a).headD 0)
  | .maxLanes => only (a.foldl (minMax false f) x)
  | .minLanes => only (a.foldl (minMax true f) x)
  | .convert => convert (p 0) (p 1) (p 2) o.sat x y
  | .requant => requant (p 0) (p 1) x y (a.getD 2 0)
  | .mxScale => only (mxScale f a)
  | .mxElement => mxElement f (p 1) a
  | .qmac => writeQ o.sat ((qMac (p 0) (p 2) (p 3) a (some 0)).map (fun s => shiftTo s ((p 0 : Int) - p 1)))
  | .qadd => writeQ o.sat ((qAlign (p 0) (p 1) x y).map (fun q => shiftTo (q.1 + q.2) ((max (p 0) (p 1) : Nat) - (p 2 : Int))))
  | .qsub => writeQ o.sat ((qAlign (p 0) (p 1) x y).map (fun q => shiftTo (q.1 - q.2) ((max (p 0) (p 1) : Nat) - (p 2 : Int))))
  | .qdiv => writeQ o.sat (qDiv (p 0) (p 1) (p 2) x y)
  | .qsqrt => writeQ o.sat (qSqrt (p 0) (p 1) x)
  | .qless => only (match qAlign (p 0) (p 1) x y with | some q => b2n (decide (q.1 < q.2)) | none => 0)
  | .qequal => only (match qAlign (p 0) (p 1) x y with | some q => b2n (decide (q.1 = q.2)) | none => 0)
  | .qmin => (match qAlign (p 0) (p 1) x y with | some q => only (if q.2 < q.1 then y else x) | none => ⟨NaR, 1, 0, 0⟩)
  | .qmax => (match qAlign (p 0) (p 1) x y with | some q => only (if q.1 < q.2 then y else x) | none => ⟨NaR, 1, 0, 0⟩)

/-- The code of an argument, given the results so far. -/
def argCode (res : List Nat) : Arg → Nat
  | .lit c => c
  | .res i => res.getD i 0

/-- A task's operations in order: their results, and what they add to the three counters. Results listed in `skip` go to
poisoned outputs only, and are counted in neither NAR_COUNT nor SAT_COUNT (R220). -/
def evalProg (prog : List ArithOp) (skip : List Nat) : List Nat × Nat × Nat × Nat :=
  prog.foldl (fun (acc : List Nat × Nat × Nat × Nat) o =>
    let r := evalOp o (o.args.map (argCode acc.1))
    if skip.contains acc.1.length then (acc.1 ++ [r.code], acc.2.1, acc.2.2.1, acc.2.2.2 + r.nti)
    else (acc.1 ++ [r.code], acc.2.1 + r.nar, acc.2.2.1 + r.sat, acc.2.2.2 + r.nti)) ([], 0, 0, 0)

/-- The bytes of written values. -/
def outBytes (res : List Nat) (d : List OutVal) : List Byte := d.flatMap (fun v => leBytes v.bytes (argCode res v.arg))

/-! ### Folding of scattered contributions (R242) -/

/-- The fold of contributions, in order, onto the prior code of an element of format `c` (R242). -/
def scatterFold (c collide frac : Nat) (sat : Bool) (prior : Nat) (vs : List Nat) : Res1 :=
  match collide with
  | 0 => ⟨(vs.getLast?).getD prior, 0, 0, 0⟩
  | 1 =>
    if c = 0x0F then
      let s := (prior :: vs).foldl (fun (a : Option Int) v => match a, qVal v with
        | some t, some i => if fits72 (t + i) then some (t + i) else none
        | _, _ => none) (some 0)
      writeQ sat (s.map (fun t => shiftTo t ((frac : Int) - frac)))
    else match fpParams c with
      | some _ =>
        let f32 := fun (v : Nat) => (convert c 0x0D 0 false v 0).code
        let acc := vs.foldl (fun a v => toFp32 (sumNum [decode 0x0D a, decode 0x0D (if c = 0x0D then v else f32 v)]))
          (if c = 0x0D then prior else f32 prior)
        if c = 0x0D then ⟨acc, 0, 0, 0⟩ else encodeFp c sat (decode 0x0D acc)
      | none => encodeInt c (sumNum ((prior :: vs).map (decode c)))
  | k =>
    if c = 0x0F then
      let pick := fun (a v : Nat) => match qVal a, qVal v with
        | some x, some y => if k = 2 then (if x < y then v else a) else (if y < x then v else a)
        | _, _ => NaR
      let r := vs.foldl pick prior
      ⟨r, b2n (decide (r = NaR)), 0, 0⟩
    else ⟨vs.foldl (minMax (decide (k = 3)) c) prior, 0, 0, 0⟩

end Sys2Proof.Machine
end

