-- ==== Sys2Proof/Machine/FabOps.lean ====
section
/-! DEFINITION. The tenon fabric as operations: trusses and their naming, the checks of a frame plan, the streams of a task on
rings, copies between tensors, pool pages, and the comparison of duplicated runs (chapter 6, R223–R245, R275, R533–R540). -/

namespace Sys2Proof.Machine
open Sys2Proof

/-! ### Trusses (R180, R196–R199, R261) -/

def truss (s : State) (b t : Nat) : Truss := tgetD (16 * b + t) {} s.fab.trusses
def modTruss (b t : Nat) (f : Truss → Truss) (s : State) : State :=
  { s with fab.trusses := tput (16 * b + t) (f (truss s b t)) s.fab.trusses }

/-- The trusses of a Bay that are available (R198, R199). -/
def available (s : State) (b : Nat) : List Nat :=
  if b < 4 && bayPresent s b then (List.range 16).filter (bit (fld s (BAY_STATUS b) 15 0)) else []

/-- A truss that runs nothing, tests nothing, and has no instance named to it (R197, R261). -/
def trussFree (s : State) (b t : Nat) : Bool :=
  let x := truss s b t
  x.task.isNone && x.shadow.isNone && !x.testing

/-- A busy truss to whose shadow configuration no instance has been named (R261). -/
def trussShadowFree (s : State) (b t : Nat) : Bool :=
  let x := truss s b t
  x.shadow.isNone && (x.task.isSome || x.testing)

/-- The argument of an event of a Bay: Bay and truss (R222). -/
def bayArg (b t : Nat) : Nat := b * 2 ^ 30 + t * 2 ^ 24

/-- The trusses field of a plan (R191). -/
def planTrusses (s : State) (plan : Nat) : Nat := (memGet s (plan + 2)).toNat

/-- The run of an instance. -/
def runOf (s : State) (i k : Nat) : Option Run := (tget i s.scribe.insts).bind (fun x => x.runs[k]?)

def modRun (i k : Nat) (f : Run → Run) (s : State) : State := modInst i (fun x => { x with runs := x.runs.modify k f }) s

/-- An instance with its graph and node. -/
def instOf (s : State) (i : Nat) : Option (Inst × Graph × Node) :=
  match tget i s.scribe.insts with
  | none => none
  | some x =>
    match tget x.graph s.scribe.graphs, nodeOf s x.graph x.node with
    | some g, some nd => some (x, g, nd)
    | _, _ => none

/-! ### Pool pages (R275, R534) -/

/-- Pages that a run of a node takes on a Bay: the extents of the tensors it writes (R275). -/
def pagesFor (s : State) (dom : Nat) (nd : Node) (bay : Nat) : Nat :=
  ((nd.binds.filter (·.kind = 1)).map (·.ref)).eraseDups.map (fun h =>
    match (tensorOf s dom h).bind (fun t => extentFor s dom t.bytes bay) with
    | some e => pagesOf e
    | none => 0) |>.sum

/-- The pool of a Bay can supply pages: nothing beyond the size in force, and a size of 0 disables it (R275, R286). -/
def poolHas (s : State) (bay n : Nat) : Bool :=
  decide (0 < live s (SCRIBE_PROV_SIZE bay)) && decide (rd s (SCRIBE_PROV_INUSE bay) + n ≤ live s (SCRIBE_PROV_SIZE bay))

def takePages (i k bay n : Nat) (s : State) : State :=
  modRun i k (fun r => { r with pages := n, pooled := n }) (wr (SCRIBE_PROV_INUSE bay) (rd s (SCRIBE_PROV_INUSE bay) + n) s)

/-! ### Duplicated runs (R535–R539) -/

/-- The argument of an event of a dual instance (R559). -/
def dualArg (x : Inst) (bay : Nat) : Nat := bay * 2 ^ 30 + x.graph % 256 * 2 ^ 16 + x.node % 65536

/-- No agreement: the instance is to be discarded, and the fault is reported (R539). -/
def noAgreement (i : Nat) (s : State) : State :=
  match tget i s.scribe.insts with
  | none => s
  | some x =>
    let bay := ((x.runs[0]?).map (·.bay)).getD 0
    let s := setInst i { x with compared := true, noAgree := true, scribeStatus := 0x1812, chosen := 0 } s
    fault 16 (raise 0xE005 (dualArg x bay) (incFld KINGPOST_DUAL_NOAGREE 15 0 1 (resolve i .discarding s)))

/-- The tiebreak cannot run (R538). -/
def tiebreakUnavailable (i : Nat) (s : State) : State :=
  match tget i s.scribe.insts with
  | none => s
  | some x =>
    let bay := ((x.runs[0]?).map (·.bay)).getD 0
    noAgreement i (raise 0xE006 (dualArg x bay) (incFld KINGPOST_DUAL_NOAGREE 31 16 1 s))

/-- The tiebreak Bay (R537). -/
def tiebreakBay (s : State) (dom : Nat) (nd : Node) (a b : Nat) : Option Nat :=
  (List.range 4).find? (fun n => bayPresent s n && decide (n ≠ a) && decide (n ≠ b) &&
    nd.binds.all (fun bd => if 2 ≤ bd.kind then true else match tensorOf s dom bd.ref with
      | some t => let d := storageOf s dom t.bytes; !tdSharded d || bit (tdMask d) n
      | none => true))

/-- The written bytes of a run with their poison tags, by argument and offset; a poisoned byte has no value (R535). -/
def writtenBytes (r : Run) : Tab (Byte × Bool) :=
  r.writes.foldl (fun m w => (w.data.zipIdx).foldl (fun m p =>
    tput ((match w.arg with | some a => a + 1 | none => 0) * 2 ^ 64 + w.offset + p.2)
      (if w.poison then 0 else p.1, w.poison) m) m) []

/-- Two copies agree (R535); where one was stopped, which of its outputs were written is not defined (R194). -/
def copiesAgree (s : State) (a b : Run) : Bool :=
  decide (a.completion = b.completion) && decide (a.pages = b.pages) && decide (a.pushes = b.pushes) &&
    (if a.undef || b.undef then bit (freeNat s) 0 else decide (writtenBytes a = writtenBytes b))

/-- The instance resolves with the effects of copy `k` (R536). -/
def agreeOn (i k : Nat) (s : State) : State :=
  match instOf s i with
  | none => s
  | some (x, _, nd) =>
    let s := setInst i { x with compared := true, chosen := k } s
    if x.prov && earlyOpen nd x then modInst i (fun y => { y with st := .provDone }) s else resolve i .committing s

/-- A mismatch attributed to a Bay (R537). -/
def attribute_ (x : Inst) (bay : Nat) (s : State) : State :=
  fault 15 (raise 0xE004 (dualArg x bay) (incFld (KINGPOST_DUAL_FAULTS bay) 15 0 1 s))

/-! ### Naming (R261, R262) -/

/-- Names a run to trusses of its Bay: the free ones in ascending number, then busy ones through their shadow configurations
(R261). -/
def nameRun (i k bay need : Nat) (s : State) : State :=
  let free := ((available s bay).filter (trussFree s bay)).take need
  let busy := ((available s bay).filter (trussShadowFree s bay)).take (need - free.length)
  let taken := (List.range 16).filter (fun t => free.contains t || busy.contains t)
  let s := free.foldl (fun s t => modTruss bay t (fun x => { x with task := some (i, k) }) s) s
  let s := busy.foldl (fun s t => modTruss bay t (fun x => { x with shadow := some (i, k), shadowLoaded := false }) s) s
  let s := modRun i k (fun r => { r with named := true, trusses := taken }) s
  incFld (BAY_PLAN_LOADS bay) 31 0 (b2n (!taken.isEmpty)) { s with fab.order := s.fab.order ++ [(i, k)] }

/-- Enough trusses qualify, or never will: the plan is then refused at load (R194, R261). -/
def enoughTrusses (s : State) (bay need : Nat) : Bool :=
  let q := (available s bay).filter (fun t => trussFree s bay t || trussShadowFree s bay t)
  decide (need = 0) || decide (16 < need) || decide ((available s bay).length < need) || decide (need ≤ q.length)

/-- The trusses to name for a plan; none where its load will be refused. -/
def trussNeed (s : State) (bay need : Nat) : Nat := if 16 < need ∨ (available s bay).length < need then 0 else need

/-! ### Frame plans (R191–R194) -/

/-- Field `o` of section `k` of a plan. -/
def sectionField (d : List Byte) (k o n : Nat) : Nat := fieldU d (32 + 16 * k + o) n

/-- The status for which a plan is refused at load, in the order of R194. -/
def planStatus (s : State) (dom bay a : Nat) (unsupported : Bool) : Option Nat :=
  let h := readBytes s a 32
  if a % 64 ≠ 0 || !readableAt s bay dom a 32 then some 0x1602
  else
    let n := fieldU h 3 1
    let size := fieldU h 4 4
    if fieldU h 0 1 ≠ 1 || 4 ≤ fieldU h 1 1 || fieldU h 2 1 = 0 || 16 < fieldU h 2 1 || n = 0 || 128 < n || fieldU h 8 4 = 0 ||
        size < 32 + 16 * n || fieldU h 28 4 ≠ 0 then some 0x1601
    else if !readableAt s bay dom a (32 + 16 * n) then some 0x1602
    else
      let t := readBytes s a (32 + 16 * n)
      if (List.range n).any (fun k => decide (sectionField t k 2 2 ≠ 0) || decide (sectionField t k 12 4 ≠ 0)) then some 0x1601
      else if !readableAt s bay dom a size ||
          crc32 (readBytes s a 24 ++ leBytes 4 0 ++ readBytes s (a + 28) (size - 28)) ≠ fieldU h 24 4 then some 0x1602
      else if (List.range n).any (fun k => decide (fieldU h 2 1 ≤ sectionField t k 0 1) || decide (sectionField t k 4 4 % 64 ≠ 0) ||
            decide (size < sectionField t k 4 4 + sectionField t k 8 4)) ||
          (List.range 16).any (fun l => decide (128 * 2 ^ 10 <
            ((List.range n).map (fun k => if sectionField t k 0 1 = l then sectionField t k 8 4 else 0)).sum)) ||
          6 * 2 ^ 20 < fieldU h 12 4 then some 0x1603
      else if unsupported || (List.range n).any (fun k => decide (sectionField t k 1 1 = 0) || decide (5 < sectionField t k 1 1)) then
        some 0x1604
      else if (available s bay).length < fieldU h 2 1 then some 0x1605
      else none

/-- Whether the start of a plan leaves lines refused or poisoned words read behind: its header, and then the whole plan. -/
def notePlan (dom bay a : Nat) (s : State) : State :=
  let agent := 1 + 8 * bay
  if readableAt s bay dom a 32 then noteRead dom a (readNat s (a + 4) 4) agent s else noteRead dom a 32 agent s

/-! ### Streams on rings (R266–R270) -/

/-- The ring of a stream's argument. -/
def ringOf (nd : Node) (arg kind : Nat) : Option Nat := (bindOf nd.binds arg [kind]).map (· % 2 ^ 24)

/-- What one access of a stream comes to. -/
inductive IoOut
  | done (s : State) (poison : Bool)
  | stall
  | mismatch (s : State)

/-- Keeps a push of a held run: copy A of a dual instance, and any provisional one, reserves ring space for it (R276, R534). -/
def holdPush (i k : Nat) (p : RingPush) (space : Nat) (s : State) : State :=
  let s := modRun i k (fun r => { r with pushes := r.pushes ++ [p] }) s
  if k = 0 then { s with scribe.rings := tmod p.ring (fun r => { r with held := r.held + space }) s.scribe.rings } else s

/-- One access of a stream of run `k` of an instance; `held` tells whether its effects are held back (R267–R270). -/
def ioStep (i k dom : Nat) (nd : Node) (held : Bool) (io : TaskIo) (s : State) : IoOut :=
  match io with
  | .pop arg =>
    match ringOf nd arg 2 with
    | none => .done s false
    | some q =>
      let s := checkRing q false s
      match popEntry q dom 3 [] s with
      | none => if (tget q s.scribe.rings).isNone then .done s false else .stall
      | some (_, p, s) => .done s p
  | .push arg e =>
    match ringOf nd arg 3 with
    | none => .done s false
    | some q =>
      let s := checkRing q false s
      match tget q s.scribe.rings with
      | none => .done s false
      | some r =>
        if r.packet then .mismatch s
        else if held then
          if k = 0 && ringFull r then .stall else .done (holdPush i k { ring := q, packet := false, entries := [e] } 1 s) false
        else if ringFull r then .stall else .done (pushPlain q dom 3 e s) false
  | .packet arg n es closed =>
    match ringOf nd arg 3 with
    | none => .done s false
    | some q =>
      let s := checkRing q false s
      match tget q s.scribe.rings with
      | none => .done s false
      | some r =>
        if !r.packet then .mismatch s
        else if decide (ringSize r < ringHolds r + n + 1) && (!held || decide (k = 0)) then .stall
        else
          let es := es.take (n + 1)
          let es := if es.isEmpty then [[]] else es
          if held then .done (holdPush i k ⟨q, true, es, n, !closed⟩ (n + 1) s) false
          else .done (pushPacket q dom 3 n es (!closed) s) false

/-- Accesses in order, until one stalls or meets a ring of the other mode: the state, the accesses that remain, whether a
poisoned word was read, and whether a mode was wrong. -/
def ioRun (i k dom : Nat) (nd : Node) (held : Bool) : List TaskIo → State → State × List TaskIo × Bool × Bool
  | [], s => (s, [], false, false)
  | io :: rest, s =>
    match ioStep i k dom nd held io s with
    | .stall => (s, io :: rest, false, false)
    | .mismatch s => (s, [], false, true)
    | .done s p => let (s, left, q, m) := ioRun i k dom nd held rest s; (s, left, p || q, m)

/-- Ends a run that is stopped with a status: nothing is known of which of its outputs were written (R194). -/
def stopWith (i k status : Nat) (s : State) : State :=
  match instOf s i, runOf s i k with
  | some (x, _, nd), some r =>
    let s := modRun i k (fun r => { r with undef := true }) s
    let s := endRun i k (status + r.flags * 65536) s
    settle (if holds nd x then s else releaseRun i k s)
  | _, _ => s

/-- A task's ring accesses go on, and the task ends with them (R194, R270). -/
def continueTask (i k : Nat) (s : State) : State :=
  match instOf s i, runOf s i k with
  | some (x, g, nd), some r =>
    let (s, left, p, bad) := ioRun i k g.domain nd (holds nd x) r.io s
    let flags := if p then r.flags ||| 4 else r.flags
    let s := modRun i k (fun r => { r with flags := flags, io := left }) s
    if bad then stopWith i k 0x1608 s
    else if left.isEmpty then settle (endRun i k (flags * 65536) s)
    else
      let io := left.head?
      let ring := match io with
        | some (.pop a) => (ringOf nd a 2).getD 0
        | some (.push a _) => (ringOf nd a 3).getD 0
        | some (.packet a _ _ _) => (ringOf nd a 3).getD 0
        | none => 0
      settle (modRun i k (fun r => { r with stalled := match r.stalled with | some q => some q | none => some (ring, s.ridge.ns) }) s)
  | _, _ => s

/-! ### Copy nodes (R253, R238–R243) -/

/-- Where an element of a view lies in its storage (R238, R241, R243). -/
inductive ViewAt
  | elem (ix : List Nat)
  | fillZero
  | fillInvalid
  | badIndex
  deriving DecidableEq, Repr

/-- The local shape that a task on a Bay sees through a descriptor (R234, R238). -/
def viewShape (s : State) (dom : Nat) (d : List Byte) (bay : Nat) : List Nat :=
  let t := storageOf s dom d
  let sh := localShape t bay
  if tdIndexed d then
    match tensorOf s dom (tdIndex d) with
    | some i => sh.set (tdIndexDim d) (indexCount i.bytes bay)
    | none => sh
  else sh

/-- The element of the storage that an index of a view names, and whether its index was out of range (R238, R241). -/
def viewAt (s : State) (dom : Nat) (d : List Byte) (bay : Nat) (ix : List Nat) : ViewAt × Bool :=
  if !tdIndexed d then (.elem ix, false)
  else
    match tensorOf s dom (tdIndex d) with
    | none => (.badIndex, false)
    | some i =>
      let n := (localShape (storageOf s dom d) bay).getD (tdIndexDim d) 1
      let (v, bad) := indexAt s i.bytes bay (ix.getD (tdIndexDim d) 0)
      if bad then (.badIndex, false)
      else if 0 ≤ v ∧ v < n then (.elem (ix.set (tdIndexDim d) v.toNat), false)
      else if tdOob d = 2 then (.elem (ix.set (tdIndexDim d) (if v < 0 then 0 else n - 1)), true)
      else (if tdOob d = 1 then .fillInvalid else .fillZero, true)

/-- The code that an invalid slice reads as: the canonical NaN, NaR, or integer zero; the element formats without a NaN have
no such code, and the free value `w` stands for it (R241). -/
def invalidCode (c w : Nat) : Nat :=
  match c with
  | 0x05 => 0x7F | 0x06 => 0x7F | 0x0B => 0x7FC0 | 0x0C => 0x7E00 | 0x0D => 0x7FC00000 | 0x0F => 0x80000000
  | 0x07 => w % 16 | 0x08 => w % 64 | 0x09 => w % 64 | 0x10 => 0xFF | _ => 0

/-- The base of the copy of a descriptor's storage on a Bay. -/
def baseOn (s : State) (dom : Nat) (d : List Byte) (bay : Nat) : Nat :=
  let t := storageOf s dom d
  tdBase t ((copyFor t bay).getD 0)

/-- What a copy has done so far: the state in which its own writes are seen, its writes, contributions gathered for a fold by
destination, and its counts. -/
structure CopySt where
  seen : State
  writes : List HeldWrite := []
  parts : List (List Nat × List (Nat × Bool)) := []
  poison : Bool := false
  oob : Nat := 0
  lost : Nat := 0
  collide : Nat := 0
  nar : Nat := 0
  sat : Nat := 0
  nti : Nat := 0

/-- Adds a contribution to those of its destination element (R242). -/
def addPart (ix : List Nat) (v : Nat × Bool) : List (List Nat × List (Nat × Bool)) → List (List Nat × List (Nat × Bool))
  | [] => [(ix, [v])]
  | (j, l) :: r => if j = ix then (j, l ++ [v]) :: r else (j, l) :: addPart ix v r

/-- A code is written: seen by the copy's later reads, and kept as a write at an offset of the extent (R227). -/
def putCode (dom : Nat) (d : List Byte) (bay arg : Nat) (ix : List Nat) (code : Nat) (poison : Bool) (c : CopySt) : CopySt :=
  let t := storageOf c.seen dom d
  let w := codeWrite c.seen (baseOn c.seen dom d bay) (elemBit t ix) (tdWidth t) code
  let w := { w with poison := poison }
  let first := match extentFor c.seen dom d bay with | some e => e.1 | none => 0
  { c with seen := writeMem w c.seen, writes := c.writes ++ [⟨some arg, w.addr - first, w.data, poison⟩],
           poison := c.poison || poison }

/-- The first byte and the number of bytes in which an element of a view lies, if it lies in memory (R224, R238). -/
def elemBytes (s : State) (dom : Nat) (d : List Byte) (bay : Nat) (ix : List Nat) : Option (Nat × Nat) :=
  match (viewAt s dom d bay ix).1 with
  | .elem ix =>
    let t := storageOf s dom d
    let at_ := (8 * (baseOn s dom d bay : Int) + elemBit t ix).toNat
    some (at_ / 8, (at_ % 8 + tdWidth t + 7) / 8)
  | _ => none

/-- The bytes that a view reaches, where they could meet those of another view (R244). -/
def sharedBytes (s : State) (dom : Nat) (src dst : List Byte) (bay : Nat) : List (Nat × Nat) :=
  match extentFor s dom src bay, extentFor s dom dst bay with
  | some a, some b =>
    if a.1 ≤ b.2 ∧ b.1 ≤ a.2 then (indicesOf (viewShape s dom dst bay)).filterMap (elemBytes s dom dst bay) else []
  | _, _ => []

/-- One element of a copy: read through the source, and written or gathered through the destination; a value read from memory that
the destination reaches too, which `own` lists, is not defined (R238–R244). -/
def copyElem (dom : Nat) (src dst : List Byte) (bay arg : Nat) (own : List (Nat × Nat)) (p : List Nat × Nat) (c : CopySt) : CopySt :=
  let s := c.seen
  let t := storageOf s dom src
  let (v, o) := viewAt s dom src bay p.1
  let (code, bad) := match v with
    | .elem ix => (readCode s (baseOn s dom src bay) (elemBit t ix) (tdWidth t),
        codePoisoned s (some bay) (baseOn s dom src bay) (elemBit t ix) (tdWidth t))
    | .fillZero => (0, false)
    | .fillInvalid => (invalidCode (tdFormat t) (Config.freeWord (s.free + p.2)).toNat, false)
    | .badIndex => (0, true)
  let meets := match elemBytes s dom src bay p.1 with
    | some e => own.any (fun r => decide (r.1 < e.1 + e.2) && decide (e.1 < r.1 + r.2))
    | none => false
  let code := if meets then (Config.freeWord (s.free + p.2)).toNat % 2 ^ tdWidth t else code
  let (w, o') := viewAt s dom dst bay p.1
  let c := { c with oob := c.oob + b2n o + b2n o' }
  match w with
  | .elem ix =>
    if tdIndexed dst then { c with collide := c.collide + b2n (c.parts.any (fun q => q.1 = ix)), parts := addPart ix (code, bad) c.parts }
    else putCode dom dst bay arg ix code bad c
  | .badIndex => { c with lost := c.lost + 1 }
  | _ => c

/-- The contributions to one element are folded (R242); a poisoned one poisons it (R243). -/
def foldElem (dom : Nat) (dst : List Byte) (bay arg : Nat) (q : List Nat × List (Nat × Bool)) (c : CopySt) : CopySt :=
  let s := c.seen
  let t := storageOf s dom dst
  let base := baseOn s dom dst bay
  let prior := readCode s base (elemBit t q.1) (tdWidth t)
  let old := tdCollide dst ≠ 0 && codePoisoned s (some bay) base (elemBit t q.1) (tdWidth t)
  let bad := old || (if tdCollide dst = 0 then (q.2.getLast?.map (·.2)).getD false else q.2.any (·.2))
  let r := scatterFold (tdFormat t) (tdCollide dst) (tdFrac t) false prior (q.2.map (·.1))
  let c := if bad then c else { c with nar := c.nar + r.nar, sat := c.sat + r.sat, nti := c.nti + r.nti }
  putCode dom dst bay arg q.1 r.code bad c

/-- A copy from one tensor to another on a Bay, scale arrays included (R253). -/
def copyTensor (s : State) (dom bay : Nat) (src dst : List Byte) (arg : Nat) : CopySt :=
  let ixs := (indicesOf (viewShape s dom dst bay)).zipIdx
  let own := sharedBytes s dom src dst bay
  let c := ixs.foldl (fun c p => copyElem dom src dst bay arg own p c) ({ seen := s } : CopySt)
  let c := c.parts.foldl (fun c q => foldElem dom dst bay arg q c) c
  let st := storageOf s dom src
  let dt := storageOf s dom dst
  if tdScaled st && tdScaled dt then
    let n := scaleBytes (localShape dt bay)
    let a := tdScaleBase st ((copyFor st bay).getD 0)
    let b := tdScaleBase dt ((copyFor dt bay).getD 0)
    let byte := fun (j : Nat) =>
      if b ≤ a + j ∧ a + j < b + n then (Config.freeWord (s.free + ixs.length + j)).setWidth 8 else memGet s (a + j)
    { c with writes := c.writes ++ (List.range n).map (fun j => ⟨some (64 + arg), j, [byte j], poisonedAt s bay (a + j) 1⟩) }
  else c

/-- The bytes that a copy reads: elements of its source, and the indices of a view on either side (R238). -/
def copySpans (s : State) (dom bay : Nat) (src dst : List Byte) : List (Nat × Nat) :=
  let index := fun (d : List Byte) =>
    if tdIndexed d then
      match tensorOf s dom (tdIndex d) with
      | some i => (List.range (indexCount i.bytes bay)).filterMap (fun j => elemBytes s dom i.bytes bay [j])
      | none => []
    else []
  (indicesOf (viewShape s dom src bay)).filterMap (elemBytes s dom src bay) ++ index src ++ index dst

/-- The source and the destination of a copy node, with the destination's argument (R253). -/
def copyPair (s : State) (dom : Nat) (nd : Node) : Option (List Byte × List Byte × Nat) :=
  match nd.binds.find? (·.kind = 0), nd.binds.find? (·.kind = 1) with
  | some a, some b =>
    match tensorOf s dom a.ref, tensorOf s dom b.ref with
    | some x, some y => some (x.bytes, y.bytes, b.arg)
    | _, _ => none
  | _, _ => none

/-- Adds what a task has counted to its Bay, and raises its events (R215, R217, R241, R243, R246). -/
def countTask (b t : Nat) (nar sat nti oob lost narrow tiles collide : Nat) (s : State) : State :=
  let s := incFld (BAY_NAR_COUNT b) 31 0 nar (incFld (BAY_SAT_COUNT b) 31 0 sat (incFld (BAY_NAN_TO_INT b) 31 0 nti s))
  let s := incFld (BAY_INDEX_OOB b) 31 0 oob (incFld (BAY_INDEX_POISON b) 31 0 lost s)
  let s := incFld (BAY_NARROW_ELEMS b) 31 0 narrow (incFld (BAY_TRANSPOSE_TILES b) 31 0 tiles s)
  let s := incFld (BAY_SCATTER_COLLIDE b) 31 0 collide s
  let s := if nar = 0 then s else raise 0xF006 (bayArg b t) s
  let s := if oob = 0 then s else raise 0xF010 (bayArg b t + oob % 65536) s
  if lost = 0 then s else raise 0xF011 (bayArg b t + lost % 65536) s

/-- The flags of a completion word (R194). -/
def taskFlags (nar sat nti : Nat) (poison : Bool) : Nat :=
  b2n (decide (nar ≠ 0)) + 2 * b2n (decide (sat ≠ 0)) + 4 * b2n poison + 8 * b2n (decide (nti ≠ 0))

/-! ### Set-points (R187) -/

/-- A set-point in range (R187). -/
def setPointOk (v : Nat) : Bool :=
  decide (v % 10 = 0) && decide (620 ≤ v) && decide (v ≤ 800)

/-- A set-point within 120 mV of the staged set-points of a Bay's present neighbours (R187). -/
def neighbourOk (s : State) (b v : Nat) : Bool :=
  [(b + 1) % 4, (b + 3) % 4].all (fun n => !bayPresent s n ||
    (let w := fld s (BAY_SET_POINT n) 9 0; decide (v ≤ w + 120) && decide (w ≤ v + 120)))

end Sys2Proof.Machine
end

