-- ==== Sys2Proof/Machine/Scribe.lean ====
section
/-! DEFINITION. Events of the Scribe: peg registers, ring pops by register, not-before times and provisional starts
(R80, R248–R274). -/

namespace Sys2Proof.Machine
open Sys2Proof

/-- SCRIBE_PEG_ADD_WRITE: adds to the selected peg; an amount of 0, and an add to a free peg, are ignored and counted
(R248, R635). -/
def execScribePegAddWrite (value : Nat) (s : State) : Out :=
  let p := rd s SCRIBE_PEG_SEL
  if bits value 29 0 = 0 then .next (ignoredWrite 0 SCRIBE_PEG_ADD.addr false allBits s)
  else if (tget p s.scribe.pegs).isNone then
    .next (ignoredWrite 0 SCRIBE_PEG_ADD.addr false allBits (inc SCRIBE_FREE_PEG_ADDS s))
  else .next (pegAdd p (bits value 29 0) (min 2 (bits value 31 30)) s)

/-- A peg takes a value, every history slot VALID, and its waiters are released (R250). -/
def setPeg (p v : Nat) (s : State) : State :=
  { s with scribe.pegs := tmod p (fun x => { x with value := v % 2 ^ 64, hist := 0 }) s.scribe.pegs }

/-- PEG_SET_WRITE: sets the selected peg, unless a wait entry, a guard or a mailbox wait refers to it (R250). -/
def execPegSetWrite (value : Nat) (s : State) : Out :=
  let p := rd s SCRIBE_PEG_SEL
  let lo := match tget SCRIBE_PEG_SET_LO.addr s.staged with | some w => w.toNat | none => rd s SCRIBE_PEG_SET_LO
  if (tget p s.scribe.pegs).isNone || decide (0 < waiters s p) then .next (ignoredWrite 0 SCRIBE_PEG_SET_HI.addr false allBits s)
  else
    let s := wr SCRIBE_PEG_SET_HI (value % 2 ^ 32) (wr SCRIBE_PEG_SET_LO lo { s with staged := tdel SCRIBE_PEG_SET_LO.addr s.staged })
    .next (setPeg p (value % 2 ^ 32 * 2 ^ 32 + lo) s)

/-- The sixteen words of a popped entry (R271). -/
def popData (bs : List Byte) (s : State) : State :=
  (List.range 16).foldl (fun s i => wr (SCRIBE_POP_DATA i) (fieldU bs (4 * i) 4) s) s

/-- RING_POP_REGISTER_READ: a read of SCRIBE.RING_POP pops the next entry of the selected ring, or answers that it is empty or
has not been created; `upset` tells of a damaged table entry as at RING_POP, and `bad` lists the words that fail their parity check
(R271–R273). -/
def execRingPopRegisterRead (upset : Nat) (bad : List Nat) (s : State) : Out :=
  let k := rd s SCRIBE_RING_SEL
  let give := fun (v : Nat) (s : State) => emit (.readValue SCRIBE_RING_POP.addr v) s
  match tget k s.scribe.rings with
  | none => .next (give 0x1007 (wr SCRIBE_POP_STATUS 0x1007 s))
  | some r =>
    let s := upsetRing k upset s
    match popEntry k r.owner 6 bad s with
    | none => .next (give 0x1822 (wr SCRIBE_POP_STATUS 0x1822 s))
    | some (bs, p, s) => .next (give 0 (wr SCRIBE_POP_STATUS (2 ^ 31 * b2n p) (popData bs s)))

/-- The not-before time of an instance (R260). -/
def notBefore (g : Graph) (nd : Node) (n : Nat) : Nat := (g.t0 + nd.nbOffset + n * nd.nbPeriod) % 2 ^ 64

/-- NOT_BEFORE_PASSED: Ridge has passed the not-before time of a waiting instance (R80, R260). -/
def execNotBeforePassed (inst : Nat) (s : State) : Out :=
  match instOf s inst with
  | some (x, g, nd) =>
    if x.st = .waiting ∧ bit nd.flags 2 ∧ !x.nbPassed ∧ g.started ∧ notBefore g nd x.n ≤ s.ridge.ns then
      .next (settle (enqueue (.check inst) (setInst inst { x with nbPassed := true } s)))
    else .next s
  | none => .next s

/-- Guards in use (R274). -/
def guardsUsed (s : State) : Nat := (s.scribe.insts.map (fun p => p.2.guards.length)).sum

/-- A provisional start is refused for want of pages or guards: the instance waits for its early entries and then starts
normally (R274). -/
def denyProvisional (i bay : Nat) (x : Inst) (s : State) : State :=
  raise 0x8004 bay (inc SCRIBE_PROV_DENIED (setInst i { x with denied := true } s))

/-- PROVISIONAL_START: an instance that is ready but for early entries takes its pool pages and guards, and queues for its
trusses; a null node ends at once (R274, R275, R283). -/
def execProvisionalStart (i : Nat) (s : State) : Out :=
  match instOf s i with
  | some (x, g, nd) =>
    if !(x.st = .waiting) || x.denied || !bit nd.flags 0 || !bit (live s SCRIBE_CTRL) 0 || !readyButEarly s g nd x || !earlyOpen nd x ||
        rejected nd x then .next s
    else
      let guards := ((nd.deps.zip x.entries).zipIdx).filterMap (fun p => if p.1.1.early && p.1.2.isNone then some p.2 else none)
      let runs := runsFor nd
      let need := runs.map (fun r => (r.bay, pagesFor s g.domain nd r.bay))
      match need.find? (fun p => !poolHas s p.1 p.2) with
      | some p => .next (denyProvisional i p.1 x s)
      | none =>
        if 16384 < guardsUsed s + guards.length then .next (denyProvisional i (nd.bay % 4) x s)
        else
          let s := setInst i { x with st := .provReady, prov := true, guards := guards, tReady := s.ridge.ns, runs := runs } s
          let s := (need.zipIdx).foldl (fun s p => takePages i p.2 p.1.1 p.1.2 s) s
          .next (if nd.kind = 0 then settle (endRun i 0 0 (beginRun i 0 s)) else s)
  | none => .next s

end Sys2Proof.Machine
end

