-- ==== Sys2Proof/Machine/MarkOps.lean ====
section
/-! DEFINITION. The marks of Ridge: their registers, the checks at arming, firing, lateness and the actions (R72–R79). -/

namespace Sys2Proof.Machine
open Sys2Proof

/-- The 96-bit fire time of a mark in units of 2^−32 ns (R72). -/
def markTime (s : State) (m : Nat) : Nat :=
  rd s (RIDGE_MARK_TIME_FRAC m) + 2 ^ 32 * rd64 s (RIDGE_MARK_TIME_LO m) (RIDGE_MARK_TIME_HI m)

def putMarkTime (m t : Nat) (s : State) : State :=
  wr64 (RIDGE_MARK_TIME_LO m) (RIDGE_MARK_TIME_HI m) (t / 2 ^ 32 % 2 ^ 64) (wr (RIDGE_MARK_TIME_FRAC m) (t % 2 ^ 32) s)

/-- The period in units of 2^−32 ns; 0 for a one-shot mark (R72). -/
def markPeriod (s : State) (m : Nat) : Nat := rd s (RIDGE_MARK_PERIOD_FRAC m) + 2 ^ 32 * rd s (RIDGE_MARK_PERIOD_NS m)

/-- The fire instant: the fire time rounded up to a whole nanosecond (R75). -/
def markInstant (s : State) (m : Nat) : Nat := ceilDiv (markTime s m) (2 ^ 32)

def markKind (s : State) (m : Nat) : Nat := fld s (RIDGE_MARK_ACTION m) 31 28
def markTarget (s : State) (m : Nat) : Nat := fld s (RIDGE_MARK_ACTION m) 27 16
def markParam (s : State) (m : Nat) : Nat := fld s (RIDGE_MARK_ACTION m) 15 0
def markDomain (s : State) (m : Nat) : Nat := fld s (RIDGE_MARK_CTRL m) 23 16
def markArmed (s : State) (m : Nat) : Bool := fld s (RIDGE_MARK_STATUS m) 31 30 = 1

/-- The kinds of class Port (R74). -/
def portKind (k : Nat) : Bool := (1 ≤ k && k ≤ 5) || k = 0xB

/-- The marks that are armed, in ascending index. -/
def armedMarks (s : State) : List Nat :=
  s.regs.filterMap (fun p =>
    if 0x14000 ≤ p.1 ∧ p.1 < 0x1C000 ∧ p.1 % 0x20 = 0x1C ∧ bits p.2.toNat 31 30 = 1 then some ((p.1 - 0x14000) / 0x20) else none)

/-- The fault that arming a mark for a domain meets, or 0 (R74, R126, R138, R344, R374). -/
def markFault (s : State) (m domain : Nat) : Nat :=
  let k := markKind s m
  let t := markTarget s m
  let p := markParam s m
  let outside := match k with
    | 1 => decide (13 < t) || decide (7 < p)
    | 2 => decide (11 < t)
    | 4 => decide (7 < t) || decide (fld s (NETIN_SCAN_ADAPTER t) 20 16 ≤ p)
    | 5 => decide (3 < t) || decide (14 < p)
    | 6 => decide (255 < t)
    | 7 => decide (15 < p)
    | 8 => decide (63 < p)
    | 0xA => decide (8191 < p)
    | 0xC => decide (63 < t) || decide (31 < p)
    | _ => false
  if 0xD ≤ k then 1
  else if ((k = 9 ∨ k = 0xB) ∧ m < 1016) ∨ (1 ≤ k ∧ k ≤ 5 ∧ domain ≠ 0) then 2
  else if outside then 3
  else if 0 < markPeriod s m ∧ markPeriod s m < 1000 * 2 ^ 32 then 5
  else 0

/-- A mark stops being armed: its arm bit is 0 and its state as given, with a fault (R74, R77, R78). -/
def putMarkState (m st f : Nat) (s : State) : State :=
  let s := { s with ridge.due := lremove m s.ridge.due, ridge.skipped := lremove m s.ridge.skipped }
  setFld (RIDGE_MARK_STATUS m) 29 27 f (setFld (RIDGE_MARK_STATUS m) 31 30 st (setFld (RIDGE_MARK_CTRL m) 31 31 0 s))

/-- A mark is disarmed (R73). -/
def disarmMark (m : Nat) (s : State) : State :=
  if markArmed s m then putMarkState m 0 0 s else setFld (RIDGE_MARK_CTRL m) 31 31 0 s

/-- Kind 0x6: one release of a node, or one that is ignored and counted (R263). -/
def releaseNode (g node : Nat) (s : State) : State :=
  match nodeOf s g node with
  | none => inc SCRIBE_RELEASE_IGNORED s
  | some nd =>
    if !bit nd.flags 1 then inc SCRIBE_RELEASE_IGNORED s
    else
      let s := { s with scribe.graphs := tmod g (fun x =>
        { x with releases := tput node (satAdd 0xFFFFFFFF (tgetD node 0 x.releases) 1) x.releases }) s.scribe.graphs }
      settle ((s.scribe.insts.filter (fun p => decide (p.2.graph = g) && decide (p.2.node = node))).foldl
        (fun s p => enqueue (.check p.1) s) s)

/-- Kind 0x7: a cycle of a Tally configuration is queued, or missed (R374). -/
def queueTally (k t : Nat) (s : State) : State :=
  match tget k s.tally.slots with
  | none => raise 0x7006 s.tally.table.cycle (inc TALLY_MARK_MISSED s)
  | some c =>
    if s.tally.queue.any (fun q => decide (q.slot = k)) then raise 0x7006 s.tally.table.cycle (inc TALLY_MARK_MISSED s)
    else
      let n := tgetD k 0 s.tally.counts
      { s with tally.queue := s.tally.queue ++ [{ slot := k, at_ := t, count := n, cfg := c }], tally.counts := tput k (n + 1) s.tally.counts }

/-- Kind 0x8: a cycle of a Plumb problem slot is queued, or missed (R344). -/
def queuePlumb (k t : Nat) (s : State) : State :=
  let busy := s.plumb.queue.any (fun q => decide (q.slot = k)) ||
    (match s.plumb.run with
     | some r => (match r.mark with | some q => decide (q.slot = k) | none => false)
     | none => false)
  match tget k s.plumb.slots with
  | none => raise 0x6006 (k * 2 ^ 24) (inc PLUMB_MARK_MISSED s)
  | some c =>
    if busy then raise 0x6006 (k * 2 ^ 24) (inc PLUMB_MARK_MISSED s)
    else
      let n := tgetD k 0 s.plumb.counts
      { s with plumb.queue := s.plumb.queue ++ [{ slot := k, at_ := t, count := n, cfg := c }], plumb.counts := tput k (n + 1) s.plumb.counts }

/-- Kind 0xB: a PPS_OUT pulse of width_ms (R67). -/
def ppsRise (t : Nat) (s : State) : State :=
  emit (.pps true) { s with ridge.ppsEnd := some (t + ppsWidth s * 1000000) }

/-- The action of a mark with fire instant `t` (R74). -/
def markAction (m t : Nat) (s : State) : State :=
  let g := markTarget s m
  let p := markParam s m
  match markKind s m with
  | 1 => egressRelease g p s
  | 2 => gclMark g t s
  | 3 => camTrigger p t s
  | 4 => sweepCommand g p t s
  | 5 => canMark g p t s
  | 6 => releaseNode g p s
  | 7 => queueTally p t s
  | 8 => queuePlumb p t s
  | 0xA => pegAdd p 1 0 s
  | 0xB => ppsRise t s
  | 0xC => msix g p s
  | _ => s

/-- The Fence allows the action of a mark at its firing (R78). -/
def markAllowed (s : State) (m : Nat) : Bool :=
  let d := markDomain s m
  let p := markParam s m
  let mine := fun (c : Option CycleSlot) => match c with | some c => decide (c.owner = d) | none => true
  !closedDomain s d && !quiescedDomain s d &&
  (match markKind s m with
   | 6 => decide (d = 0) || (match tget (markTarget s m) s.scribe.graphs with | some g => decide (g.domain = d) | none => true)
   | 7 => mine (tget p s.tally.slots)
   | 8 => mine (tget p s.plumb.slots)
   | 0xA => decide (d = 0) || (tget p s.scribe.pegs).isNone || mayAdd s d p
   | 0xC => decide (d = 0) || decide (markTarget s m = d)
   | _ => true)

/-- Counts a late firing (R76). -/
def countLate (m : Nat) (s : State) : State := inc RIDGE_MARK_LATE (incFld (RIDGE_MARK_STATUS m) 26 16 1 s)

/-- One firing of an armed mark: its action, unless it is late under skip or the Fence refuses it; then its count, its time and its
end (R75–R78). -/
def fireMark (m : Nat) (late : Bool) (s : State) : State :=
  let s := { s with ridge.due := lremove m s.ridge.due, ridge.skipped := lremove m s.ridge.skipped }
  let s := if late then countLate m s else s
  let t := markInstant s m
  let skip := late && decide (fld s (RIDGE_MARK_CTRL m) 30 29 = 1)
  if !skip && decide (m < 1016) && !markAllowed s m then putMarkState m 2 4 s
  else
    let s := if skip then s else markAction m t s
    let s := incFld (RIDGE_MARK_STATUS m) 15 0 1 s
    let s := putMarkTime m ((markTime s m + markPeriod s m) % 2 ^ 96) s
    let count := fld s (RIDGE_MARK_CTRL m) 15 0
    if markPeriod s m = 0 ∨ (count ≠ 0 ∧ count ≤ fld s (RIDGE_MARK_STATUS m) 15 0) then putMarkState m 0 0 s else s

/-- Arming a mark for a domain: its counts restart, an action that is not valid faults it, and a mark that is late at arming fires
in the same step (R72, R74, R76). -/
def armMark (m domain : Nat) (s : State) : State :=
  let s := putMarkState m 0 0 s
  let s := setFld (RIDGE_MARK_CTRL m) 23 16 domain (setFld (RIDGE_MARK_STATUS m) 26 0 0 s)
  let f := markFault s m domain
  if f ≠ 0 then putMarkState m 2 f s
  else
    let s := setFld (RIDGE_MARK_CTRL m) 31 31 1 (setFld (RIDGE_MARK_STATUS m) 31 30 1 s)
    let lead := if portKind (markKind s m) then 1000 else 0
    if inRun s && decide (markInstant s m < s.ridge.ns + b2n (decide (s.ridge.frac ≠ 0)) + lead) then fireMark m true s else s

/-- A value written to MARK_CTRL on behalf of a domain: a late policy of 0b1x is taken as 0b00 (R72, R73). -/
def putMarkCtrl (m v domain : Nat) (s : State) : State :=
  let policy := if 2 ≤ bits v 30 29 then 0 else bits v 30 29
  let s := setFld (RIDGE_MARK_CTRL m) 15 0 (bits v 15 0) (setFld (RIDGE_MARK_CTRL m) 30 29 policy s)
  if bit v 31 then armMark m domain s else setFld (RIDGE_MARK_CTRL m) 23 16 domain (disarmMark m s)

/-- A one-shot system mark of the device's own, armed for a mode change (R79, R86). -/
def armSystem (m t param : Nat) (s : State) : State :=
  let s := putMarkTime m (t * 2 ^ 32) s
  let s := wr (RIDGE_MARK_PERIOD_NS m) 0 (wr (RIDGE_MARK_PERIOD_FRAC m) 0 s)
  let s := wr (RIDGE_MARK_ACTION m) (9 * 2 ^ 28 + param) s
  let s := { s with ridge.due := lremove m s.ridge.due, ridge.skipped := lremove m s.ridge.skipped }
  wr (RIDGE_MARK_STATUS m) (2 ^ 30) (wr (RIDGE_MARK_CTRL m) (2 ^ 31) s)

/-- A system mark of a mode change fires (R86). -/
def fireSystem (m : Nat) (s : State) : State :=
  { putMarkState m 0 0 (incFld (RIDGE_MARK_STATUS m) 15 0 1 s) with ridge.delivered := s.ridge.delivered + 1 }

/-- The mark that fires next: due marks in their order, where internal actions wait once eight were delivered in the tick, and
none fires once a power-down has begun (R75, R620). -/
def nextDue (s : State) : Option Nat :=
  if !inRun s then none
  else if s.ridge.delivered < 8 then s.ridge.due.head? else s.ridge.due.find? (fun m => portKind (markKind s m))

/-- Marks that an addition to Ridge makes due join the queue in ascending index; those that a step jumps over are late (R59, R75). -/
def marksDue (before skipTo : Nat) (s : State) : State :=
  let new := (armedMarks s).filter (fun m => decide (markInstant s m ≤ s.ridge.ns) && !s.ridge.due.contains m)
  let skipped := new.filter (fun m => decide (before < markInstant s m) && decide (markInstant s m < skipTo))
  { s with ridge := { s.ridge with due := s.ridge.due ++ new, skipped := s.ridge.skipped ++ skipped, delivered := 0 } }

end Sys2Proof.Machine
end

