-- ==== Sys2Proof/Machine/Poses.lean ====
section
/-! DEFINITION. The pose table: which records are usable, and the pose at a time (R151–R155). -/

namespace Sys2Proof.Machine
open Sys2Proof

/-- A pose record of the table: sequence, time, rotation, position. -/
structure PoseRec where
  seq : Nat
  t : Nat
  q : List Int
  p : List Int
  deriving DecidableEq, Repr

/-- The record at an address if it is whole and marked valid, whatever its order and its rotation (R151). -/
def poseRaw (s : State) (a : Nat) : Option PoseRec :=
  let b := readBytes s a 64
  if readable s 0 a 64 && decide (fieldU b 0 1 = 1) && bit (fieldU b 1 1) 0 && decide (fieldU b 4 4 = fieldU b 60 4) then
    some ⟨fieldU b 4 4, fieldU b 8 8, signedWords 4 4 (b.drop 16), signedWords 8 3 (b.drop 32)⟩
  else none

/-- Whole records of the pose table, each at its own entry. -/
def poseWhole (s : State) (base n : Nat) : List PoseRec :=
  (List.range n).filterMap (fun i => (poseRaw s (base + 64 * i)).bind (fun r => if r.seq % n = i then some r else none))

/-- A record fails the tests on t or on q (R151). -/
def poseBad (l : List PoseRec) (r : PoseRec) : Bool :=
  r.q.contains (-(2 ^ 31 : Int)) || l.any (fun x => decide ((x.seq + 1) % 2 ^ 32 = r.seq) && decide (r.t ≤ x.t))

def posesOf (s : State) (base n : Nat) : List PoseRec :=
  let l := poseWhole s base n
  l.filter (fun r => !poseBad l r)

/-- The newest of the records at or before `t`. -/
def newest (l : List PoseRec) (t : Nat) : Option PoseRec :=
  l.foldl (fun a r => if r.t ≤ t then (match a with | some x => if x.t ≤ r.t then some r else some x | none => some r) else a) none
/-- The oldest of the records after `t`. -/
def oldest (l : List PoseRec) (t : Nat) : Option PoseRec :=
  l.foldl (fun a r => if t < r.t then (match a with | some x => if r.t < x.t then some r else some x | none => some r) else a) none

def towards (a b : List Int) : List Int := if dot a b < 0 then b.map (- ·) else b

/-- The pose at a time (R152). -/
def poseAt (l : List PoseRec) (extrap t : Nat) : Pose :=
  match newest l t, oldest l t with
  | some a, some b =>
    let f : Int := ((t - a.t) * 2 ^ 32 / (b.t - a.t) : Nat)
    let qb := towards a.q b.q
    ⟨norm ((a.q.zip qb).map (fun x => x.1 + shiftRound (f * (x.2 - x.1)) 32)),
     (a.p.zip b.p).map (fun x => x.1 + shiftRound (f * (x.2 - x.1)) 32), 0⟩
  | some a, none =>
    match newest (l.filter (fun r => decide (r.t < a.t))) t with
    | some a0 =>
      if t - a.t ≤ extrap then
        let f : Int := ((t - a.t) * 2 ^ 32 / (a.t - a0.t) : Nat) % 2 ^ 48
        let q0 := towards a.q a0.q
        ⟨norm ((a.q.zip q0).map (fun x => x.1 + shiftRound (f * (x.1 - x.2)) 32)),
         (a.p.zip a0.p).map (fun x => x.1 + shiftRound (f * (x.1 - x.2)) 32), 1⟩
      else ⟨a.q, a.p, 2⟩
    | none => ⟨a.q, a.p, 2⟩
  | none, some b => ⟨b.q, b.p, 2⟩
  | none, none => ⟨[2 ^ 30, 0, 0, 0], [0, 0, 0], 3⟩

/-- The frame flag of how a pose was obtained (R153). -/
def howFlag (how : Nat) : Nat := [0, 4, 8, 16].getD how 0

end Sys2Proof.Machine
end

