-- ==== Sys2Proof/Machine/PlanerOps.lean ====
section
/-! DEFINITION. The Planer's operations: grid epochs and slices, poses, the transform, and the voxel table (R144–R177). -/

namespace Sys2Proof.Machine
open Sys2Proof

/-! ### Grid epochs (R147–R149) -/

def gridStart (d : List Byte) (n : Nat) : Nat := n * pdPeriod d + pdPhase d
def gridRef (d : List Byte) (n : Nat) : Nat := gridStart d n + pdRef d
def gridSlices (d : List Byte) : Nat := pdPeriod d / max 1 (pdSlice d)
def sliceClose (d : List Byte) (n k : Nat) : Nat := gridStart d n + (k + 1) * pdSlice d + pdLag d
def sliceTime (d : List Byte) (n k : Nat) : Nat := gridStart d n + k * pdSlice d + pdSlice d / 2
def gridClose (d : List Byte) (n : Nat) : Nat := sliceClose d n (gridSlices d - 1)

/-- Grid epoch `n` belongs to a run and is open or still to come. -/
def inSeg (g : PlanSeg) (n : Nat) : Bool := decide (g.first ≤ n) && (match g.last with | some l => decide (n < l) | none => true)

/-- The open or coming grid epoch that contains a time: its descriptor and its index (R146, R176). -/
def gridOf (s : State) (t : Nat) : Option (List Byte × Nat) :=
  s.plan.segs.findSome? (fun g =>
    let d := g.desc
    let n := (t - pdPhase d) / max 1 (pdPeriod d)
    if pdPhase d ≤ t && inSeg g n then some (d, n) else none)

def gridAt (s : State) (d : List Byte) (n : Nat) : GridEpoch := tgetD (gridStart d n) {} s.plan.epochs
def putGrid (d : List Byte) (n : Nat) (e : GridEpoch) (s : State) : State :=
  { s with plan.epochs := tput (gridStart d n) e s.plan.epochs }

/-- The oldest run whose grid epoch `n` is open or to come and as asked. -/
def segWith (n : Nat) (ask : GridEpoch → Bool) (s : State) : Option PlanSeg :=
  s.plan.segs.find? (fun g => inSeg g n && ask (gridAt s g.desc n))

/-- A time lies in a grid epoch that is over (R146). -/
def pastGrid (s : State) (t : Nat) : Bool := s.plan.spans.any (fun i => decide (i.1 ≤ t) && decide (t < i.2))

/-! ### Poses (R151–R155) -/

def usablePoses (s : State) (d : List Byte) : List PoseRec := posesOf s (fieldU d 120 8) (fieldU d 128 2)

/-- Counts records rejected on t or q, each once (R151). -/
def countPoseRejects (d : List Byte) (s : State) : State :=
  let l := poseWhole s (fieldU d 120 8) (fieldU d 128 2)
  (l.filter (fun r => poseBad l r)).foldl (fun s r =>
    if s.plan.rejected.contains r.seq then s
    else raise 0x4005 s.plan.frame (inc PLANER_POSE_REJECT { s with plan.rejected := linsert r.seq s.plan.rejected })) s

/-! ### The transform (R156) -/

/-- A scanner point in the vehicle frame of its own instant, before it is held to s32. -/
def vehiclePoint (d : List Byte) (port range az el : Nat) : List Int :=
  let c := fun (a : Nat) => (Config.cosTurn a).toInt
  let n := fun (a : Nat) => (Config.sinTurn a).toInt
  let r : Int := range * 4
  let h := shiftRound (r * c el) 30
  let xs := [shiftRound (h * c az) 30, shiftRound (h * n az) 30, shiftRound (r * n el) 30]
  ((matVec (rotation (norm (pdQ d port))) xs).zip (pdT d port)).map (fun p => p.1 + p.2)

/-- A scanner point in the vehicle frame of its own instant. -/
def toVehicle (d : List Byte) (port range az el : Nat) : List Int := (vehiclePoint d port range az el).map (satSigned 32)

/-- A coordinate lies outside the s32 range (R156). -/
def outsideS32 (v : List Int) : Bool := v.any (fun x => decide (satSigned 32 x ≠ x))

/-- The point lies inside the body box: inclusive at its minima, exclusive at its maxima; all zero for none (R146, R156). -/
def inBody (d : List Byte) (v : List Int) : Bool :=
  (fieldU d 56 24 ≠ 0) && (List.range 3).all (fun i =>
    decide (fieldS d (56 + 8 * i) 4 ≤ v.getD i 0) && decide (v.getD i 0 < fieldS d (60 + 8 * i) 4))

/-- The slice's rotation and translation into the vehicle frame at t_ref (R156). -/
def sliceMove (ref ps : Pose) : List Int × List Int :=
  let rt := transpose (rotation ref.q)
  (matMul rt (rotation ps.q), matVec rt ((ps.p.zip ref.p).map (fun x => x.1 - x.2)))

/-- The voxel index of a point, if it lies in the grid (R157). -/
def voxelIndex (d : List Byte) (v : List Int) : Option Nat :=
  let i := fun (k : Nat) => (v.getD k 0 - pdOrigin d k) / (16 * pdVoxel d k : Int)
  if (List.range 3).all (fun k => decide (0 ≤ i k) && decide (i k < pdCount d k)) then
    some ((i 0).toNat + pdCount d 0 * ((i 1).toNat + pdCount d 1 * (i 2).toNat))
  else none

/-! ### The voxel table (R158–R165) -/

/-- The key of a point under the rule (R158). -/
def pointKey (rule : Nat) (p : PlanPoint) : List Nat :=
  if rule = 0 then [p.range, p.t, p.port, p.ord]
  else if rule = 1 then [255 - p.intensity, p.range, p.t, p.port, p.ord]
  else [p.t, p.port, p.ord]

def lexLess : List Nat → List Nat → Bool
  | a :: r, b :: t => decide (a < b) || (decide (a = b) && lexLess r t)
  | _, _ => false

/-- The order key of a voxel: the priority of its range bin, then its index (R164). -/
def okey (d : List Byte) (index : Nat) : Nat :=
  let cx : Int := pdOrigin d 0 + ((index % pdCount d 0 : Nat) : Int) * (16 * pdVoxel d 0 : Nat) + (8 * pdVoxel d 0 : Nat)
  let cy : Int := pdOrigin d 1 + ((index / max 1 (pdCount d 0) % max 1 (pdCount d 1) : Nat) : Int) * (16 * pdVoxel d 1 : Nat) + (8 * pdVoxel d 1 : Nat)
  let bin := ((List.range 15).find? (fun b => decide (cx * cx + cy * cy < ((pdEdge d b * 1600 : Nat) : Int) ^ 2))).getD 15
  pdPrio d bin * 2 ^ 28 + index

/-- The voxel of the table with the highest order key. -/
def worstVoxel (d : List Byte) (t : Tab (Nat × PlanPoint)) : Option (Nat × Nat × PlanPoint) :=
  t.foldl (fun a x => match a with | none => some x | some y => if okey d y.1 < okey d x.1 then some x else some y) none

/-- Marks an index as dropped, counting the cell once (R164). -/
def markDropped (v : Nat) (e : GridEpoch) : GridEpoch :=
  if e.marked.contains v then e else { e with marked := linsert v e.marked, cells := e.cells + 1 }

/-- A point reaches a voxel (R158, R160, R164). -/
def admitPoint (d : List Byte) (index : Nat) (p : PlanPoint) (e : GridEpoch) : GridEpoch :=
  match tget index e.table with
  | some (c, b) =>
    { e with table := tput index (satAdd 0xFFFFFFFF c 1, if lexLess (pointKey (pdRule d) p) (pointKey (pdRule d) b) then p else b) e.table }
  | none =>
    if e.table.length < pdCap d then { e with table := tput index (1, p) e.table }
    else match worstVoxel d e.table with
      | none => e
      | some (w, c, _) =>
        if okey d index < okey d w then
          let e := markDropped w { e with dropped := e.dropped + c }
          { e with table := tput index (1, p) (tdel w e.table) }
        else markDropped index { e with dropped := e.dropped + 1 }

/-! ### The frame (R166–R170) -/

/-- One 32-byte voxel entry (R169). -/
def voxelEntry (tRef index count : Nat) (p : PlanPoint) : List Byte :=
  leBytes 4 index ++ p.xyz.flatMap (fun v => leBytes 4 (ofSigned 32 v)) ++ leBytes 4 (ofSigned 32 ((p.t : Int) - tRef)) ++
    leBytes 4 p.range ++ leBytes 2 (min 65535 count) ++ leBytes 1 p.intensity ++ leBytes 1 (p.port + 8 * p.ret) ++
    leBytes 1 (b2n p.saturated + 2 * b2n p.moved) ++ leBytes 3 0

/-- The Planer starts a run of grid epochs under a new descriptor; the open ones run to their end under the old (R176, R177). -/
def planerSwitch (t : Nat) (d : List Byte) (s : State) : State :=
  let cut := fun (g : PlanSeg) =>
    let n := ceilDiv (t - pdPhase g.desc) (max 1 (pdPeriod g.desc))
    { g with last := some (match g.last with | some l => min l (max g.first n) | none => max g.first n) }
  let segs := (s.plan.segs.map cut).filter (fun g => match g.last with | some l => decide (g.first < l) | none => true)
  let after := match segs.getLast? with | some g => gridStart g.desc (g.last.getD 0) | none => t
  let first := ceilDiv (max t after - pdPhase d) (max 1 (pdPeriod d))
  let was := pdEnabled s.plan.live
  let s := { s with plan.live := d, plan.segs := if pdEnabled d then segs ++ [⟨d, first, none, was⟩] else segs }
  let s := setFld PLANER_STATE 0 0 (b2n (pdEnabled d)) s
  if pdEnabled d && !was then
    let s := { s with plan.frame := 0 }
    ((List.range 16).map (fun i => 0x40020 + 4 * i)).foldl (fun s a => wr ⟨a, 0⟩ 0 s) s
  else s

/-- The intervals of the grid epochs that are over, with one more. -/
def addOver (l : List (Nat × Nat)) (a b : Nat) : List (Nat × Nat) :=
  match l.getLast? with
  | some i => if i.2 = a then l.dropLast ++ [(i.1, b)] else l ++ [(a, b)]
  | none => [(a, b)]

/-- After a frame, or a void one, of the oldest run, the next grid epoch follows; the run that is over gives way to the next
(R176). -/
def gridDone (s : State) : State :=
  match s.plan.segs with
  | [] => s
  | g :: rest =>
    let a := gridStart g.desc g.first
    let g' := { g with first := g.first + 1, gap := false }
    { s with plan := { s.plan with
      epochs := tdel a s.plan.epochs, spans := addOver s.plan.spans a (a + pdPeriod g.desc), frame := (s.plan.frame + 1) % 2 ^ 32
      segs := if g.last = some (g.first + 1) then rest else g' :: rest } }

end Sys2Proof.Machine
end

