-- ==== Sys2Proof/Machine/RecOps.lean ====
section
/-! DEFINITION. The Event Recorder's operations: the page, its commit, and what each firing of mark 1,021 does (R585–R597). -/

namespace Sys2Proof.Machine
open Sys2Proof

def stampBytes (l : Life) : List Byte := leBytes 4 l.s ++ leBytes 4 l.cycle
def padTo (n : Nat) (l : List Byte) : List Byte := l.take n ++ List.replicate (n - l.length) 0

/-- The header of a page, for a cause and a sequence (R594). -/
def pageHeader (s : State) (cause seq : Nat) : List Byte :=
  let r := s.recd
  padTo 64 (leBytes 1 1 ++ leBytes 1 cause ++ leBytes 2 (b2n r.fresh + 2 * b2n r.skippedSince + 4 * b2n r.windowsLost) ++
    leBytes 4 seq ++ stampBytes r.life ++ leBytes 8 s.ridge.ns ++ leBytes 2 (fld s RIDGE_EPOCH_STATE 15 0) ++
    leBytes 1 s.fw.running ++ leBytes 1 0 ++ leBytes 4 r.eventsTotal ++ leBytes 4 r.heldTotal ++ leBytes 4 r.skippedTotal ++
    leBytes 2 r.slots.length)

/-- The persistent settings with the throttle durations since delivery in ms (R579, R594). -/
def pageSettings (s : State) : List Byte :=
  let g := s.power.retained
  padTo 64 (leBytes 1 g.cap ++ leBytes 1 g.secs ++ leBytes 2 0 ++ leBytes 4 g.seq ++
    (List.range 5).flatMap (fun i => leBytes 8 ((tgetD i 0 s.recd.throttled + tgetD i 0 s.gov.durations) / 100000)))

def extremeBytes (e : Option Extreme) : List Byte :=
  match e with
  | none => List.replicate 32 0
  | some e => padTo 32 (leBytes 4 (ofSigned 32 e.min) ++ leBytes 4 (ofSigned 32 e.max) ++ stampBytes e.minAt ++ stampBytes e.maxAt)

def slotBytes40 (e : EvSlot) : List Byte :=
  leBytes 2 e.code ++ leBytes 2 (b2n (classL.contains e.code) + 2 * b2n (decide (e.count = 0xFFFFFFFF))) ++ leBytes 4 e.count ++
    leBytes 4 e.held ++ leBytes 4 e.arg ++ stampBytes e.first ++ stampBytes e.last ++ leBytes 8 e.extra

def sessionBytes (e : Session) : List Byte :=
  padTo 32 (leBytes 4 e.cycle ++ leBytes 1 e.kind ++ leBytes 1 e.end_ ++ leBytes 1 e.slot ++ leBytes 1 e.firstFault ++
    leBytes 4 e.startS ++ leBytes 4 e.endS ++ leBytes 8 e.ridgeEnd)

/-- A page as it stands (R594); histogram 12 is a snapshot (R592). -/
def buildPage (s : State) (cause seq : Nat) : List Byte :=
  let r := s.recd
  let ws := r.windows ++ (if s.gov.partial_ = [] then [] else [s.gov.partial_])
  let body := padTo 16380 (pageHeader s cause seq ++ padTo 512 ((ws.drop (ws.length - 8)).flatMap id) ++ pageSettings s ++
    (List.range 48).flatMap (fun i => extremeBytes (tget i r.extremes)) ++
    (List.range 512).flatMap (fun i => leBytes 8 (if i / 32 = 12 then tgetD (i % 32) 0 s.yard.erases else tgetD i 0 r.histos)) ++
    padTo 8000 (r.slots.flatMap slotBytes40) ++ padTo 1024 ((r.sessions.take 32).flatMap sessionBytes))
  body ++ leBytes 4 (crc32 body)

/-- The commits of the last 3,600 s of powered time (R595). -/
def recentCommits (s : State) : List Nat := s.recd.commits.filter (fun t => decide (s.recd.life.s < t + 3600))

/-- Both NAND dies passed their self-test (R32, R607). -/
def nandWhole (s : State) : Bool := decide (fld s SILL_PACKAGE 9 8 = 2)

/-- A page is committed, or skipped at the limit: 1,000 pages for a periodic or requested commit, 1,024 for the others (R595,
R597); with a NAND die failed nothing is committed (R607). -/
def commitPage (cause : Nat) (s : State) : State :=
  let recent := recentCommits s
  let limit := if cause = 0 ∨ cause = 3 then 1000 else 1024
  if !nandWhole s then s
  else if limit ≤ recent.length then
    let s := setFld RECORDER_STATUS 1 1 1 (inc RECORDER_SKIPPED s)
    raise 0xD002 ((s.recd.pageSeq + 1) % 2 ^ 32)
      { s with recd := { s.recd with skippedSince := true, skippedTotal := s.recd.skippedTotal + 1, commits := recent } }
  else
    let seq := s.recd.pageSeq + 1
    let pages := tput seq (buildPage s cause seq) s.recd.pages
    let s := setFld RECORDER_STATUS 1 1 (b2n (decide (1000 ≤ recent.length + 1))) (inc YARD_PROG_PSLC s)
    let r := s.recd
    let total := (List.range 5).foldl (fun t i => tput i (tgetD i 0 r.throttled + tgetD i 0 s.gov.durations) t) ([] : Tab Nat)
    { s with recd := { s.recd with
        saved := some ⟨r.slots, r.histos, r.extremes, r.life, r.eventsTotal, r.heldTotal, r.skippedTotal, total, r.sessions⟩
        pages := pages.drop (pages.length - 245760), pageSeq := seq, commits := recent ++ [s.recd.life.s], sinceCommit := 0,
        windows := [], windowsLost := false, skippedSince := false, fresh := false } }

/-- A closed window joins the pending page; of more than eight the oldest gives way (R578, R594). -/
def keepWindow (w : List Byte) (s : State) : State :=
  let ws := s.recd.windows ++ [w]
  { s with recd := { s.recd with windows := ws.drop (ws.length - 8), windowsLost := s.recd.windowsLost || decide (8 < ws.length) } }

/-- Every bucket gains its class's refill, under the rates that take effect now (R589). -/
def refillBuckets (s : State) : State :=
  let s := { s with recd := { s.recd with rate := rd s RECORDER_RATE } }
  let gain := fun (code v : Nat) => min (burstOf s code) (v + refillOf s code)
  let l := gain 0x0007 s.recd.fullL
  let n := gain 0 s.recd.fullN
  { s with recd := { s.recd with
      fullL := l, fullN := n
      buckets := (s.recd.buckets.map (fun p => (p.1, gain p.1 p.2))).filter (fun p =>
        decide (p.2 ≠ if classL.contains p.1 then l else n)) } }

/-- One second of powered time (R585, R592, R609). -/
def powerSecond (s : State) : State :=
  let life := { s.recd.life with s := satAdd 0xFFFFFFFF s.recd.life.s 1 }
  let s := { s with recd := { s.recd with life := life, sinceCommit := s.recd.sinceCommit + 1 }, power.retained.powered := life.s }
  let s := refillBuckets s
  if life.s % 3600 = 0 then
    histo 10 (logBin s.recd.dramErrors) (histo 11 (logBin s.recd.loftErrors) { s with recd := { s.recd with dramErrors := 0, loftErrors := 0 } })
  else s

end Sys2Proof.Machine
end

