-- ==== Sys2Proof/Machine/YardOps.lean ====
section
/-! DEFINITION. The Yard's operations: what blocks and models hold, its queue, the journal, and the care of the pools
(R507–R523). -/

namespace Sys2Proof.Machine
open Sys2Proof

/-! ### Pools (R521) -/

/-- Sets a bit of YARD.EVENTS. -/
def yardEvent (i : Nat) (s : State) : State := setMask YARD_EVENTS (2 ^ i) s

/-- The reserve of pool 0 (TLC) or 1 (pSLC). -/
def reserveOf (y : YardSt) (p : Nat) : Nat := if p = 0 then y.reserveTlc else y.reservePslc

/-- The reserve of a pool falls to `r`; the state that it enters is raised (R521). -/
def putReserve (p r : Nat) (s : State) : State :=
  let old := reserveOf s.yard p
  let r := min old r
  let s := if p = 0 then { s with yard.reserveTlc := r } else { s with yard.reservePslc := r }
  if poolState r = poolState old then s
  else if poolState r = 2 then yardEvent 5 (raise 0xB006 (p * 2 ^ 31) s)
  else yardEvent 4 (raise 0xB005 (p * 2 ^ 31) s)

/-- A block of a pool is retired, which leaves reserve `r` (R521). -/
def retireBlock (p r : Nat) (s : State) : State :=
  let w := s.yard.retired
  let w := if p = 0 then putBits w 15 0 (satAdd 0xFFFF (bits w 15 0) 1) else putBits w 31 16 (satAdd 0xFFFF (bits w 31 16) 1)
  putReserve p r (yardEvent 1 (raise 0xB001 (p * 2 ^ 31) { s with yard.retired := w }))

/-- `n` programs of a pool failed before one verified: each retires its block (R521). -/
def failedPrograms (p n r : Nat) (s : State) : State :=
  (List.range n).foldl (fun s _ => retireBlock p r (inc YARD_PROG_FAIL s)) s

/-- Blocks relocated for read disturb or for retention (R522, R523). -/
def relocate (p : Nat) (disturb : Bool) (s : State) : State :=
  if disturb then raise 0xB003 (p * 2 ^ 31) (inc YARD_RELOC_DISTURB s) else raise 0xB004 (p * 2 ^ 31) (inc YARD_RELOC_RETENTION s)

/-! ### Blocks and models (R509–R511, R520) -/

/-- The key of block `lba` of domain `d`'s namespace, and of block `i` of a model object. -/
def nsKey (d lba : Nat) : Nat := 64 * lba + d
def objectKey (name i : Nat) : Nat := 2 ^ 96 + 2 ^ 23 * name + i

def recCmd : JRec → Nat
  | .block _ _ c => c
  | .model _ _ c => c

def recData : JRec → Option (List Byte)
  | .block _ d _ => d
  | .model _ d _ => d

/-- What a record is about: a block or a name, told apart. -/
def recKey : JRec → Nat
  | .block k _ _ => 2 * k
  | .model n _ _ => 2 * n + 1

/-- Logical blocks that a record commits. -/
def recBlocks : JRec → Nat
  | .block _ _ _ => 1
  | .model _ d _ => (d.map (fun b => objectBlocks b.length)).getD 0

/-- A record commits (R510, R511, R520). -/
def applyRec (y : YardSt) : JRec → YardSt
  | .block k d _ => { y with blocks := tput k d y.blocks, unreadable := lremove k y.unreadable }
  | .model n d _ => { y with
      models := match d with | some b => tput n b y.models | none => tdel n y.models
      unreadable := y.unreadable.filter (fun k => decide (k < objectKey n 0) || decide (objectKey (n + 1) 0 ≤ k)) }

/-- Records of the open page and of those being programmed, oldest first (R515). -/
def journalled (y : YardSt) : List JRec := y.closing.flatMap id ++ y.page

/-- Every record that is still to commit. -/
def pendingRecs (y : YardSt) : List JRec := journalled y ++ y.queue.flatMap (·.todo)

/-- What a command still has to commit. -/
def openRecs (y : YardSt) (c : StoreCmd) : List JRec := (journalled y).filter (fun r => decide (recCmd r = c.serial)) ++ c.todo

/-- The Yard as every command accepted so far will leave it. -/
def afterAll (y : YardSt) : YardSt := (pendingRecs y).foldl applyRec y

/-! ### The queue (R511, R512) -/

def modCmd (serial : Nat) (g : StoreCmd → StoreCmd) (s : State) : State :=
  { s with yard.queue := s.yard.queue.map (fun c => if c.serial = serial then g c else c) }

/-- The Yard serves (R516, R519). -/
def yardServes (s : State) : Bool :=
  bit (rd s YARD_STATUS) 0 && !s.yard.stopped && (inRun s || decide (s.power.state = .powerDown))

/-- Storage cannot be mounted: no checkpoint could be read, or a NAND die failed (R516, R607). -/
def unmountable (s : State) : Bool := s.yard.failed || !nandWhole s

/-- The blocks of a write whose device lines the Fence lets through, from the first (R514). -/
def admittedBlocks (s : State) (f dev : Nat) : Nat → Nat → Nat
  | 0, i => i
  | n + 1, i => if admitAll s f (dev + 4096 * i) 4096 false then admittedBlocks s f dev n (i + 1) else i

/-- Bytes of device memory as the Yard takes them in; what a poisoned word stores is not stated. -/
def takenBytes (s : State) (a n : Nat) : List Byte :=
  if !poisoned s a n then readBytes s a n
  else (readBytes s a n).zipIdx.map (fun p =>
    if poisoned s (a + p.2) 1 then (Config.unstated 514 [(a + p.2 : Nat), s.ridge.ns]).setWidth 8 else p.1)

/-- A block's new state: ZERO where the write carries zero bytes (R510). -/
def blockData (b : List Byte) : Option (List Byte) := if b.all (fun x => decide (x = 0)) then none else some b

/-- A write ends with a refusal, having committed nothing more. -/
def refuseCmd (serial status detail : Nat) (s : State) : State :=
  modCmd serial (fun c => { c with started := true, status := status, detail := detail, todo := [] }) s

/-- NS_WRITE reads its device range, and its quota and the room of the namespace are checked (R510, R514). -/
def startNsWrite (c : StoreCmd) (s : State) : State :=
  let f := c.slot / 16
  let n := admittedBlocks s f c.c c.b 0
  let recs := (List.range n).map (fun i => JRec.block (nsKey f (c.a + i)) (blockData (takenBytes s (c.c + 4096 * i) 4096)) c.serial)
  let y := afterAll s.yard
  let grow := (recs.filter (fun r => (recData r).isSome && match r with
    | .block k _ _ => (tgetD k none y.blocks).isNone
    | .model _ _ _ => false)).length
  let s := noteRead f c.c (4096 * min c.b (n + 1)) 5 s
  let total := dataBlocks y (fun _ => true)
  if quotaOf s f 9 * 262144 < dataBlocks y (fun d => decide (d = f)) + grow then refuseCmd c.serial 0x1008 9 s
  else if 83886080 < total + grow then refuseCmd c.serial 0x1D04 ((83886080 - total) / 256) s
  else modCmd c.serial (fun c => { c with started := true, todo := recs, status := if n < c.b then 0x1D08 else 0, detail := n }) s

/-- MODEL_PUT reads its object, and the directory and the room of the model store are checked (R511). -/
def startModelPut (c : StoreCmd) (s : State) : State :=
  let f := c.slot / 16
  let y := afterAll s.yard
  let used := modelBlocks s.yard + ((pendingRecs s.yard).map (fun r => match r with
    | .model _ d _ => (d.map (fun b => objectBlocks b.length)).getD 0
    | .block _ _ _ => 0)).sum
  if c.c = 0 then
    if (tget c.a y.models).isNone then refuseCmd c.serial 0x1D06 0 s
    else modCmd c.serial (fun c => { c with started := true, todo := [.model c.a none c.serial] }) s
  else if (tget c.a y.models).isNone && decide (4096 ≤ y.models.length) then refuseCmd c.serial 0x1D07 0 s
  else
    let ok := admitAll s f c.b c.c false
    let n := admittedBlocks s f c.b (c.c / 4096) 0
    let b := takenBytes s c.b c.c
    let s := noteRead f c.b c.c 5 s
    if !ok then refuseCmd c.serial 0x1D08 n s
    else if 16777216 < used + objectBlocks c.c then refuseCmd c.serial 0x1D04 ((16777216 - used) / 256) s
    else modCmd c.serial (fun c => { c with started := true, todo := [.model c.a (some b) c.serial] }) s

/-- A write command begins; a read begins once what it waits for has committed. -/
def startCmd (c : StoreCmd) (s : State) : State :=
  if c.started then s
  else if c.opcode = 0x0802 then startNsWrite c s
  else if c.opcode = 0x0804 then startModelPut c s
  else modCmd c.serial (fun c => { c with started := true }) s

/-! ### The journal (R515) -/

/-- A record is appended to the open page; a page of 510 records is programmed (R515). -/
def appendRec (r : JRec) (s : State) : State :=
  let y := s.yard
  let page := y.page ++ [r]
  if page.length < 510 then { s with yard := { y with page := page, since := if y.page = [] then s.ridge.ns else y.since } }
  else { s with yard := { y with page := [], closing := y.closing ++ [page] } }

/-- Records of commands accepted before command `serial` that are not appended yet. -/
def earlierTodo (y : YardSt) (serial : Nat) : List JRec := (y.queue.filter (fun c => decide (c.serial < serial))).flatMap (·.todo)

/-- The first records of a list that need no NAND, and the rest (R510). -/
def freeRecs (blocked : Nat → Bool) : List JRec → List JRec × List JRec
  | [] => ([], [])
  | r :: t =>
    if (recData r).isNone && !blocked (recKey r) then
      let q := freeRecs blocked t
      (r :: q.1, q.2)
    else ([], r :: t)

/-- Records with `n` programmed blocks, and the rest. -/
def programmedRecs : Nat → List JRec → List JRec × List JRec
  | 0, l => ([], l)
  | _ + 1, [] => ([], [])
  | n + 1, r :: t =>
    let q := programmedRecs (if (recData r).isSome then n else n + 1) t
    (r :: q.1, q.2)

/-- What a read returns at this moment, where everything that it waits for has committed (R512). -/
def snapshot (y : YardSt) (c : StoreCmd) : List JRec × List Nat :=
  let f := c.slot / 16
  if c.opcode = 0x0801 then
    ((List.range c.b).filterMap (fun i => (tget (nsKey f (c.a + i)) y.blocks).map (fun d => JRec.block (nsKey f (c.a + i)) d c.serial)),
     (List.range c.b).filter (fun i => y.unreadable.contains (nsKey f (c.a + i))))
  else match tget c.a y.models with
    | none => ([], [])
    | some b => ([.model c.a (some b) c.serial], (List.range (objectBlocks b.length)).filter (fun i => y.unreadable.contains (objectKey c.a i)))

/-- The blocks or the name that a read reads, as the keys of records. -/
def readsKey (c : StoreCmd) (k : Nat) : Bool :=
  let f := c.slot / 16
  if c.opcode = 0x0801 then (List.range c.b).any (fun i => decide (k = 2 * nsKey f (c.a + i))) else decide (k = 2 * c.a + 1)

/-- One command goes as far as it can without a program: records that need no NAND are appended, and a read whose blocks have nothing
earlier to commit takes their versions (R510, R512, R515). -/
def settleCmd (serial : Nat) (s : State) : State :=
  match s.yard.queue.find? (fun c => decide (c.serial = serial)) with
  | none => s
  | some c =>
    if c.opcode = 0x0801 ∨ c.opcode = 0x0805 then
      let before := (s.yard.queue.filter (fun e => decide (e.serial < serial))).flatMap (openRecs s.yard)
      if c.snap.isSome || before.any (fun r => readsKey c (recKey r)) then s
      else modCmd serial (fun c => { c with snap := some (snapshot s.yard c).1, lost := (snapshot s.yard c).2 }) s
    else
      let q := freeRecs (fun k => (earlierTodo s.yard serial).any (fun r => decide (recKey r = k))) c.todo
      q.1.foldl (fun s r => appendRec r s) (modCmd serial (fun c => { c with todo := q.2 }) s)

/-- Every command of the queue, in order. -/
def settleYard (s : State) : State := s.yard.queue.foldl (fun s c => settleCmd c.serial s) s

/-- A command joins the queue; where storage is mounted it begins (R512, R516). -/
def queueCmd (f slot opcode a b c : Nat) (s : State) : State :=
  let cmd : StoreCmd := { serial := s.yard.serial, at_ := s.ridge.ns, slot := 16 * f + slot, opcode := opcode, a := a, b := b, c := c }
  let s := { s with yard.serial := s.yard.serial + 1, yard.queue := s.yard.queue ++ [cmd] }
  if yardServes s then settleYard (startCmd cmd s) else s

/-- A command leaves the queue with its response (R513, R527). -/
def endCmd (c : StoreCmd) (status detail : Nat) (res : Res) (s : State) : State :=
  let s := { s with yard.queue := s.yard.queue.filter (fun e => decide (e.serial ≠ c.serial)) }
  let s := wr YARD_LAT_MAX (max (rd s YARD_LAT_MAX) (min 0xFFFFFFFF ((s.ridge.ns - c.at_) / 1000))) s
  if c.silent then s else finish (c.slot / 16) (c.slot % 16) status detail res s

/-- A slot's command is in the queue. -/
def inYard (s : State) (f slot : Nat) : Bool := s.yard.queue.any (fun c => decide (c.slot = 16 * f + slot) && !c.silent)

/-- A logical block becomes unreadable: partition 3 or 4 and the block number (R520, R529). -/
def markUnreadable (key part block : Nat) (s : State) : State :=
  raise 0xB002 (part * 2 ^ 28 + block % 2 ^ 28) (yardEvent 0 (inc YARD_UNREADABLE { s with yard.unreadable := linsert key s.yard.unreadable }))

/-- The Yard has nothing left of the commands it accepted (R620). -/
def yardIdle (s : State) : Bool := s.yard.queue.isEmpty && s.yard.page.isEmpty && s.yard.closing.isEmpty

/-- The Yard is cut off: what has not committed is lost, and records of the journal page being programmed are torn (R517). -/
def yardCut (y : YardSt) : YardSt :=
  { y with queue := [], page := [], closing := [], since := 0, stopped := false, lastCheckpoint := 0, failed := false
           torn := (y.closing.head?.map (·.length)).getD y.torn }

/-- Step 3 of a power-down: the rails of R605's step 8 fall first (R620). -/
def railsFall (s : State) : State := { s with power.step := 3, yard := { yardCut s.yard with stopped := true } }

/-- Step 2 of a power-down ends once the Yard has completed what it accepted (R620). -/
def powerDownYard (s : State) : State :=
  if s.power.state = .powerDown ∧ s.power.step = 2 ∧ yardIdle s = true then railsFall s else s

end Sys2Proof.Machine
end

