-- ==== Sys2Proof/Machine/Session.lean ====
section
/-! DEFINITION. Ringing and accepting, sessions, resets of functions and of the link, and Foreman's heartbeat and restart
(R421, R426–R434, R438, R444, R445, R557). -/

namespace Sys2Proof.Machine
open Sys2Proof

/-- MB_DOORBELL: rings the named slots; a bit of a busy slot is ignored and counted (R426); none is accepted during a
power-down (R620). -/
def execMbDoorbell (f value : Nat) (s : State) : Out :=
  if 64 ≤ f || !hostReaches s f || !inRun s then .next s
  else
    let busy := fld s (MB_BUSY f) 15 0
    let again := (List.range 16).filter (fun k => bit value k && bit busy k)
    .next (setMask (MB_BUSY f) (bits value 15 0) (incFld (MB_IGNORED f) 31 0 again.length s))

/-- The rung slots of a function that Foreman has not accepted. -/
def rungSlots (s : State) (f : Nat) : List Nat :=
  (List.range 16).filter (fun k => bit (rd s (MB_BUSY f)) k && (tget (16 * f + k) s.mb.accepted).isNone)

/-- The slot that Foreman accepts next: the functions in turn after the one served last, and of each its lowest rung slot (R427); in recovery, and on a RETURNED part, function 0
alone (R504, R612). -/
def nextRung (s : State) : Option (Nat × Nat) :=
  (List.range 64).findSome? (fun i =>
    let f := if s.fw.recovery || s.sec.fuses.returned then 0 else (s.mb.lastServed + 1 + i) % 64
    ((rungSlots s f).head?).map (fun k => (f, k)))

/-- COMMAND_ACCEPT: Foreman accepts the next rung slot; a command that the checks at acceptance refuse is answered at once
(R426, R427, R432, R434, R437, R446). -/
def execCommandAccept (s : State) : Out :=
  if !mailboxServes s then .next s
  else match nextRung s with
    | none => .next s
    | some (f, k) =>
      let s := { s with mb.lastServed := f, mb.accepted := tput (16 * f + k) { opcode := slotNat s f k 2 2 } s.mb.accepted }
      match acceptCheck s f k with
      | none => .next s
      | some (st, d) => .next (answer f k st d [] (if st = 0x1005 then raise 0x0007 f s else s))

/-- The other slots of a function are idle (R432). -/
def alone (s : State) (f k : Nat) : Bool := decide (fld s (MB_BUSY f) 15 0 = 2 ^ k)

/-- HELLO: the revision is negotiated and the session opened (R432, R433, R612). -/
def execHello (f slot : Nat) (s : State) : Out :=
  .next (immediate f slot 0x0101 (fun s =>
    let top := if s.fw.recovery then 0x0100 else 0x0102
    let rev := min (param s f slot 0x0101 1) top
    if !alone s f slot then no 0x100A 0 s
    else if rev < max (param s f slot 0x0101 0) 0x0100 then no 0x1003 (0x0100 + 65536 * top) s
    else
      let n := (tgetD f 0 s.mb.sessions + 1) % 2 ^ 32
      let n := if n = 0 then 1 else n
      let caps := b2n (decide (f = 0)) + 2 * b2n (bit (live s SCRIBE_CTRL) 0) + 4 * b2n s.mb.ptm +
        8 * b2n (bit (rd s KINGPOST_BOOT_STATE) 0)
      let s := setFld (MB_SESSION f) 31 16 rev (setMask (MB_SESSION f) 1 { s with mb.sessions := tput f n s.mb.sessions })
      ok ([r16 rev, r16 0x0100, r16 top, r8 f, r8 f, r32 Config.firmwareWord.toNat, r32 (rd s SILL_IDENT), r8 6, r8 13, r8 18, r8 46,
           r32 caps, r32 n, r32 s.mb.foremanGen, r64 s.ridge.ns, r8 16, r8 32, r8 64]) (raise 0x0002 f s)) s)

/-- A session closes (R432, R446). -/
def closeSession (f : Nat) (s : State) : State :=
  if bit (rd s (MB_SESSION f)) 0 then raise 0x0003 f (setFld (MB_SESSION f) 31 16 0 (clearMask (MB_SESSION f) 1 s)) else s

/-- GOODBYE: the session is closed (R432). -/
def execGoodbye (f slot : Nat) (s : State) : Out :=
  .next (immediate f slot 0x0102 (fun s => if !alone s f slot then no 0x100A 0 s else ok [] (closeSession f s)) s)

/-- PING: Ridge time and foreman_gen (R440). -/
def execPing (f slot : Nat) (s : State) : Out :=
  .next (immediate f slot 0x0103 (fun s => ok [r64 s.ridge.ns, r32 s.mb.foremanGen] s) s)

/-- Bytes of memory that a domain's allocations hold (R470). -/
def memoryUse (s : State) (d : Nat) : Nat := (s.memory.allocs.map (fun p => if p.2.owner = d then p.2.len else 0)).sum

/-- What a domain uses of a resource, memory in whole MiB and DATA blocks in whole GiB (R438, R510). -/
def useOf (s : State) (d r : Nat) : Nat :=
  match r with
  | 0 => ceilDiv (memoryUse s d) (2 ^ 20)
  | 1 => (s.tensors.table.filter (fun p => p.2.owner = d)).length
  | 2 => (s.scribe.pegs.filter (fun p => p.2.owner = d)).length
  | 3 => (s.scribe.rings.filter (fun p => p.2.owner = d)).length
  | 4 => (s.ridge.markOwner.filter (fun p => p.2 = d)).length
  | 5 => (s.out.streams.filter (fun p => p.2.owner = some d)).length
  | 6 => (s.ledger.caches.filter (fun p => p.2.owner = d)).length
  | 7 => ((List.range 64).filter (fun k => match tget k s.plumb.staged with
      | some c => c.any (fun c => decide (c.owner = d))
      | none => (tget k s.plumb.slots).any (fun c => decide (c.owner = d)))).length
  | 8 => (s.scribe.graphs.filter (fun p => p.2.domain = d)).length
  | _ => ceilDiv (dataBlocks s.yard (fun k => decide (k = d))) 262144

/-- LIMITS: the domain's quota and use of each resource (R438, R440). -/
def execLimits (f slot : Nat) (s : State) : Out :=
  .next (immediate f slot 0x0104 (fun s => ok ((List.range 10).flatMap (fun r => [r32 (min 0xFFFFFFFF (quotaOf s f r)), r32 (min 0xFFFFFFFF (useOf s f r))])) s) s)

/-- QUOTA_SET: the owner sets a domain's quota, unless quota_lock is set (R438, R439, R489). -/
def execQuotaSet (f slot : Nat) (s : State) : Out :=
  .next (immediate f slot 0x0211 (fun s =>
    let d := param s f slot 0x0211 0
    let r := param s f slot 0x0211 1
    let q := param s f slot 0x0211 2
    if bit (rd s FENCE_LOCK) 1 then no 0x100E 0 s
    else if 63 < d then badParam 0x0211 0 s
    else if 9 < r then badParam 0x0211 1 s
    else ok [] { s with mb.quotas := tput (16 * d + r) q s.mb.quotas }) s)

/-! ### Resets of functions and of the link (R421) -/

/-- What a reset of a function does: the session closed, the page at its reset values, commands rung and not accepted discarded,
accepted ones run on without a response, and the host rings of its streams unregistered (R421). -/
def resetFunction (f : Nat) (s : State) : State :=
  let s := closeSession f s
  let page := fun (a : Nat) => decide (0x200000 + 0x1000 * f ≤ a) && decide (a < 0x201000 + 0x1000 * f)
  { s with
    regs := s.regs.filter (fun p => !page p.1),
    latch := s.latch.filter (fun p => !page p.1),
    mb.accepted := s.mb.accepted.map (fun p => if p.1 / 16 = f then
      (p.1, { p.2 with silent := true, request := some (slotBytes s f (p.1 % 16) 0 128) }) else p),
    out.streams := s.out.streams.map (fun p => if p.2.owner.getD 0 = f then (p.1, { p.2 with hostRing := none }) else p) }

/-- FUNCTION_LEVEL_RESET (R421). -/
def execFunctionLevelReset (f : Nat) (s : State) : Out :=
  if 64 ≤ f || !hostReaches s f then .next s else .next (raise 0x0004 f (resetFunction f s))

/-- A copy ends with 0x100F at a byte offset that nothing fixes, or without a response; what it was to write is not defined
(R421, R442, R446). -/
def failCopy (key : Nat) (c : HostCopy) (s : State) : State :=
  let at_ := freeNat s % max 1 c.bytes
  let s := takeFree 1 { s with memory.copies := tdel key s.memory.copies }
  let s := if c.toDevice then writeFree c.device c.bytes s else s
  finish c.function c.slot 0x100F at_ [] (raise 0x0006 (c.function + 65536 * 0x100F) s)

/-- BUS_MASTER_DISABLE: DMA commands of the function end with 0x100F, and its deliveries and interrupts are dropped (R421). -/
def execBusMasterDisable (f : Nat) (s : State) : Out :=
  if 64 ≤ f then .next s
  else .next ((s.memory.copies.filter (fun p => p.2.function = f)).foldl (fun s p => failCopy p.1 p.2 s)
    { s with mb.bmeClear := linsert f s.mb.bmeClear })

/-- NUMVFS_LOWERED: as an FLR of each function removed (R421). -/
def execNumvfsLowered (n : Nat) (s : State) : Out :=
  if s.mb.numVfs ≤ n then .next s
  else .next ((List.range 64).foldl (fun s f =>
      if n < f ∧ f ≤ s.mb.numVfs then raise 0x0004 f (resetFunction f s) else s) s |> fun s => { s with mb.numVfs := n })

/-- NUMVFS_RAISED: the host enables more virtual functions (R417). -/
def execNumvfsRaised (n : Nat) (s : State) : Out :=
  if n ≤ s.mb.numVfs || 63 < n || !s.mb.linkUp then .next s else .next { s with mb.numVfs := n }

/-- PCIE_LINK_RESET: hot reset, link down or PERST_N held low: as an FLR of every function, and NumVFs returns to 0 (R421). -/
def execPcieLinkReset (s : State) : Out :=
  .next (raise 0x0005 0 { (List.range 64).foldl (fun s f => resetFunction f s) s with mb.numVfs := 0, mb.linkUp := false })

/-- PCIE_LINK_TRAINED: the link is up again, with PTM or without (R417, R490). -/
def execPcieLinkTrained (ptm : Bool) (s : State) : Out := .next { s with mb.linkUp := true, mb.ptm := ptm }

/-! ### Foreman (R444, R445, R557) -/

/-- FOREMAN_HEARTBEAT: MB.HEARTBEAT advances on every page, and Kingpost takes it as a heartbeat (R423, R557). -/
def execForemanHeartbeat (s : State) : Out :=
  if s.mb.foremanUp then .next { s with mb.heartbeat := (s.mb.heartbeat + 1) % 2 ^ 32, kp.lastBeat := s.ridge.ns } else .next s

/-- Kingpost restarts Foreman: counted, reported as fault 23, and from the fourth restart within 600 s as class S
(R444, R543, R557). -/
def restartForeman (s : State) : State :=
  let times := (s.kp.restarts.filter (fun t => decide (s.ridge.ns < t + 600000000000))) ++ [s.ridge.ns]
  let s := setForemanUp false { s with kp.restarts := times }
  let s := setFld KINGPOST_SAFETY_STATE 23 16 (min 255 times.length) (inc KINGPOST_FOREMAN_RESTARTS s)
  let s := fault 23 (raise 0xE007 0 s)
  if 4 ≤ times.length then enterSafe 23 0 (setMask KINGPOST_FAULT_HOLD (2 ^ 23) s) else s

/-- FOREMAN_WATCHDOG: 20 ms without a heartbeat (R557). -/
def execForemanWatchdog (s : State) : Out :=
  if s.mb.foremanUp && decide (s.kp.lastBeat + 20000000 ≤ s.ridge.ns) then .next (restartForeman s) else .next s

/-- Every command that was accepted and not answered is answered once: with what its engine recorded, or with 0x100B; a copy so
cancelled leaves its destination undefined, a synchronous wait frees its entry, and a storage or cap command runs on (R441, R442, R445, R514). -/
def answerJournal (s : State) : State :=
  s.mb.accepted.foldl (fun s p =>
    let f := p.1 / 16
    let k := p.1 % 16
    match p.2.recorded with
    | some (st, d, res) => answerX f k 1 st d [rblk res] s
    | none =>
      let s := match tget p.1 s.memory.copies with
        | some c =>
          let s := { s with memory.copies := tdel p.1 s.memory.copies }
          if c.toDevice then writeFree c.device c.bytes s else s
        | none => s
      let s := { s with cam.control := tdel p.1 s.cam.control }
      let s := { s with yard.queue := s.yard.queue.map (fun (c : StoreCmd) => if c.slot = p.1 then { c with silent := true } else c) }
      let s := { s with gov.requests := s.gov.requests.map (fun (r : CapReq) => if r.by_ = some p.1 then { r with by_ := none } else r) }
      let s := { s with mb.waits := s.mb.waits.filter (fun w => w.2.async || decide (w.1 / 64 ≠ f) || decide (w.2.slot ≠ k)) }
      answer f k 0x100B 0 [] s) s

/-- FOREMAN_RESUME: a restarted Foreman serves again: the generation advances, foreman_up reads 1, every page is told, and the
journal is answered; the 60 s of a trial slot begin (R444, R445, R614). -/
def execForemanResume (s : State) : Out :=
  if s.mb.foremanUp || !s.power.released || !inRun s || bit (rd s KINGPOST_SAFETY_STATE) 4 then .next s
  else
    let s := { s with mb.foremanGen := (s.mb.foremanGen + 1) % 2 ^ 32, kp.lastBeat := s.ridge.ns, kp.foremanSince := s.ridge.ns }
    let k := s.fw.switching.getD s.fw.running
    let s := { s with fw.trial := if (if k = 0 then s.fw.slotA.state else s.fw.slotB.state) = 1 then some s.ridge.ns else none }
    let s := setForemanUp true s
    let s := (List.range 64).foldl (fun s f => notice f 1 s) s
    .next (answerJournal (raise 0x0001 s.mb.foremanGen s))

/-- FOREMAN_LOG: Foreman's log is copied to device memory; no rule gives its content or its length (R440). -/
def execForemanLog (f slot : Nat) (s : State) : Out :=
  .next (immediate f slot 0x0B06 (fun s =>
    let a := param s f slot 0x0B06 0
    let n := param s f slot 0x0B06 1
    if !holdsRange s f a n false true then no 0x1007 0 s
    else
      let w := freeNat s % (n + 1)
      let bs := (List.range w).map (fun i => (Config.freeWord (s.free + 1 + i)).setWidth 8)
      ok [r32 w] (takeFree (1 + w) (fencedWrite f 0 ⟨a, bs, false⟩ s))) s)

end Sys2Proof.Machine
end

