-- ==== Sys2Proof/Machine/EpochOps.lean ====
section
/-! DEFINITION. Mode changes as operations: which configuration each unit latches, the latch, its acknowledgement, and the return to
the configuration before (R85–R87, R115, R142, R175, R188, R286, R312, R340, R368, R393, R397, R582). -/

namespace Sys2Proof.Machine
open Sys2Proof

/-- The unit bit of the mode change that governs a configuration register, by BAR0 address (R86, R115, R142, R188, R286, R340, R368,
R393, R397, R582). -/
def governed (a : Nat) : Option Nat :=
  let o := a % 0x100
  if 0x21000 ≤ a ∧ a < 0x22000 then (if o = 0 ∨ (0x10 ≤ o ∧ o < 0x40) then some 0 else none)
  else if a = 0x30004 ∨ a = 0x30008 ∨ a = 0x30900 ∨ (0x30910 ≤ a ∧ a < 0x30938) then some 1
  else if 0x30400 ≤ a ∧ a < 0x30800 then (if o = 0 then some 1 else none)
  else if 0x31000 ≤ a ∧ a < 0x31E00 then (if o = 0 ∨ (8 ≤ o ∧ o < 0x30) then some 1 else none)
  else if 0x32000 ≤ a ∧ a < 0x32800 then (if o < 0x1C then some 1 else none)
  else if 0x33000 ≤ a ∧ a < 0x33800 then (if a % 0x40 < 0x30 then some 8 else none)
  else if a = 0x60000 then some 4
  else if a = 0x70000 then some 5
  else if a = 0x80000 ∨ a = 0x80008 ∨ (0x80010 ≤ a ∧ a < 0x80050 ∧ a % 16 ≠ 12) then some 6
  else if a = 0x90000 then some 7
  else if a = 0xC0000 ∨ a = 0xC0110 ∨ a = 0xC0130 ∨ a = 0xC0150 ∨ a = 0xC0170 then some 9
  else if 0x100000 ≤ a ∧ a < 0x200000 ∧ a % 0x40000 = 4 then some (10 + (a - 0x100000) / 0x40000)
  else none

/-- Table `a` with its entries of a unit replaced by those of table `b`. -/
def takePart (u : Nat) (a b : Tab Word) : Tab Word :=
  (b.filter (fun p => decide (governed p.1 = some u))).foldl (fun t p => tput p.1 p.2 t)
    (a.filter (fun p => decide (governed p.1 ≠ some u)))

/-- A register whose word in force is listed apart: every one that a mode change governs but a Bay's set-point (R86). -/
def shadowed (a : Nat) : Bool := match governed a with | some u => decide (u < 10) | none => false

/-- Every such entry replaced by that of another table. -/
def takeGoverned (a b : Tab Word) : Tab Word :=
  (b.filter (fun p => shadowed p.1)).foldl (fun t p => tput p.1 p.2 t) (a.filter (fun p => !shadowed p.1))

/-- The staged words of a unit are in force, and those before them are kept (R86). -/
def latchRegs (u : Nat) (s : State) : State :=
  { s with prevLive := takePart u s.prevLive s.live, live := takePart u s.live s.regs }

/-- The words of a unit from before the change are in force again, and the registers show them (R86). -/
def restoreRegs (u : Nat) (s : State) : State :=
  { s with live := takePart u s.live s.prevLive, prevLive := takePart u s.prevLive s.live, regs := takePart u s.regs s.prevLive }

/-- A camera port that the configuration in force enables, or no longer enables (R113, R115). -/
def switchCameras (was : Nat → Bool) (s : State) : State :=
  (List.range 16).foldl (fun s n =>
    if camEnabled s n && !was n then modCam n (fun c => { c with nextFrame := 0, begun := false, sync := none, lastTest := s.ridge.ns }) s
    else if !camEnabled s n && was n then camLink n false s else s) s

/-- The images that a change loads are verified again; one that fails is reported, and its port keeps the adapter before (R496). -/
def verifyAdapters (s : State) : State :=
  s.net.reload.foldl (fun s p =>
    match tget p s.net.live.adapters with
    | none => s
    | some a =>
      match boxStatus s 2 a.image.box with
      | none => s
      | some c =>
        let t := match tget p s.net.prev.adapters with
          | some b => tput p b s.net.live.adapters
          | none => tdel p s.net.live.adapters
        raise 0xA010 c { s with net := { s.net with live := { s.net.live with adapters := t } } }) s

/-- The adapters of the ports whose image the change loads run again (R123, R124). -/
def reloadAdapters (s : State) : State :=
  s.net.reload.foldl (fun s p =>
    let v := match tget p s.net.live.adapters with
      | some a => a.id % 65536 + 65536 * min 16 a.image.templates.length
      | none => 0
    wr (NETIN_SCAN_ADAPTER p) v { s with net.jigs := tmod p (fun j => { j with faults := [] }) s.net.jigs }) s

/-- Scanner ports that the configuration in force enables expect any sequence number and count their synthetic blocks and their
points from 0 (R128, R131, R146). -/
def switchScanners (was : Nat → Bool) (s : State) : State :=
  (List.range 8).foldl (fun s p =>
    if bit (live s (NETIN_SCAN_CTRL p)) 0 && !was p then
      { s with plan.ord := tdel p s.plan.ord, plan.block := tdel p s.plan.block, plan.blockNo := tdel p s.plan.blockNo, net.jigs := tmod p (fun j => { j with expected := none, blockNumber := 0, lastTest := s.ridge.ns }) (tput p (tgetD p {} s.net.jigs) s.net.jigs) }
    else s) s

def scanEnabled (s : State) (p : Nat) : Bool := bit (live s (NETIN_SCAN_CTRL p)) 0

/-- The mounting quaternion in force is normalised; one whose squared norm is below 0.25 gives way to the identity (R140). -/
def normaliseMount (s : State) : State :=
  let q := (List.range 4).map (fun i => toSigned 32 (live s (NETIN_MOUNT_Q i)))
  let bad := decide ((q.map (fun x => x * x)).sum < 2 ^ 58)
  let q' := if bad then [2 ^ 30, 0, 0, 0] else norm q
  let s := (List.range 4).foldl (fun s i => setLive (NETIN_MOUNT_Q i) (ofSigned 32 (q'.getD i 0)) s) s
  let s := setFld NETIN_REF_IMU_STATUS 3 3 (b2n bad) s
  if bad then raise 0x3052 0 s else s

/-- Registrations after the staged ones and releases are taken up (R344, R368, R374). -/
def takeSlots (staged : Tab (Option CycleSlot)) (slots : Tab CycleSlot) : Tab CycleSlot :=
  staged.foldl (fun t p => match p.2 with | none => tdel p.1 t | some c => tput p.1 c t) slots

/-- Stream `k` takes up its staged header fields, or closes (R397). -/
def switchStream (k : Nat) (s : State) : State :=
  let x := stream s k
  let s := putStream k { x with prevHdr := x.hdr, hdr := x.stagedHdr, closing := false, closed := none } s
  let s := if x.closing then
      let s := putStream k { stream s k with owner := none, closed := x.owner } s
      setFld (NETIN_OUT_CTRL k) 0 0 0 (setLive (NETIN_OUT_CTRL k) (putBits (live s (NETIN_OUT_CTRL k)) 0 0 0) s)
    else s
  latchStream k s

/-- Graph starts and stops that were staged (R286). -/
def switchGraphs (s : State) : State :=
  s.scribe.graphs.foldl (fun s p =>
    let mark := fun (k : Nat) (s : State) =>
      { s with scribe.graphs := tmod p.1 (fun g => { g with undo := k, stagedStop := false, stagedStart := none }) s.scribe.graphs }
    match p.2.stagedStart with
    | some t0 => if p.2.started then mark 0 s else mark 1 (startGraph p.1 t0 s)
    | none => if p.2.stagedStop && p.2.started then mark 2 (stopGraph p.1 s) else mark 0 s) s

/-- Kingpost applies a set-point only while neither fault 24 nor fault 25 holds (R555). -/
def setPointsHeld (s : State) : Bool := bit (rd s KINGPOST_FAULT_HOLD) 24 || bit (rd s KINGPOST_FAULT_HOLD) 25

/-- A Bay's set-point in force, kept where a revert finds it (R188). -/
def putSetPoint (n v : Nat) (s : State) : State :=
  let old := fld s (BAY_SET_POINT n) 25 16
  setFld (BAY_SET_POINT n) 25 16 v { s with prevLive := tput (BAY_SET_POINT n).addr (BitVec.ofNat 32 old) s.prevLive }

/-- Unit `u` takes up its staged configuration at time `t` (R86 step 2). -/
def switchUnit (u t : Nat) (s : State) : State :=
  match u with
  | 0 => let was := camEnabled s; switchCameras was (latchRegs 0 s)
  | 1 =>
    let was := scanEnabled s
    let s := switchScanners was (latchRegs 1 s)
    normaliseMount (reloadAdapters (verifyAdapters { s with net.prev := s.net.live, net.live := s.net.staged }))
  | 2 => (match s.plan.staged with
      | some d => let old := s.plan.live
                  planerSwitch t d { s with plan.prev := some old, plan.staged := none }
      | none => { s with plan.prev := none })
  | 3 => (match s.raft.staged with
      | some d => let old := s.raft.live
                  raftSwitch d { s with raft.prev := some old, raft.staged := none }
      | none => { s with raft.prev := none })
  | 4 =>
    let s := latchRegs 4 s
    { s with plumb.prev := s.plumb.slots, plumb.slots := takeSlots s.plumb.staged s.plumb.slots, plumb.staged := [] }
  | 5 =>
    let was := tallyEnabled s
    let s := latchRegs 5 s
    let old := s.tally.live
    let s := tallySwitch (s.tally.stagedDesc.getD old) was
      { s with tally.prevDesc := s.tally.stagedDesc.map (fun _ => old), tally.stagedDesc := none }
    { s with tally.prev := s.tally.slots, tally.slots := takeSlots s.tally.staged s.tally.slots, tally.staged := [] }
  | 6 => switchGraphs (latchRegs 6 s)
  | 7 => latchRegs 7 s
  | 8 => (List.range 32).foldl (fun s k => switchStream k s) (latchRegs 8 s)
  | 9 => latchRegs 9 s
  | _ => putSetPoint (u - 10) (fld s (BAY_SET_POINT (u - 10)) 9 0) s

/-- Unit `u` takes up again, from time `t`, the configuration that the change replaced (R86 step 4). -/
def restoreUnit (u t : Nat) (s : State) : State :=
  match u with
  | 0 => let was := camEnabled s; switchCameras was (restoreRegs 0 s)
  | 1 =>
    let was := scanEnabled s
    let s := switchScanners was (restoreRegs 1 s)
    reloadAdapters { s with net.live := s.net.prev, net.prev := s.net.live }
  | 2 => (match s.plan.prev with | some d => planerSwitch t d { s with plan.prev := none } | none => s)
  | 3 => (match s.raft.prev with | some d => raftSwitch d { s with raft.prev := none } | none => s)
  | 4 => let s := restoreRegs 4 s; { s with plumb.slots := s.plumb.prev }
  | 5 =>
    let was := tallyEnabled s
    let s := restoreRegs 5 s
    let s := tallySwitch (s.tally.prevDesc.getD s.tally.live) was { s with tally.prevDesc := none }
    { s with tally.slots := s.tally.prev }
  | 6 =>
    let s := restoreRegs 6 s
    s.scribe.graphs.foldl (fun s p =>
      let s' := { s with scribe.graphs := tmod p.1 (fun g => { g with undo := 0 }) s.scribe.graphs }
      if p.2.undo = 1 then stopGraph p.1 s' else if p.2.undo = 2 then resumeGraph p.1 s' else s') s
  | 7 => restoreRegs 7 s
  | 8 => (List.range 32).foldl (fun s k =>
      let x := stream s k
      latchStream k (putStream k { x with
        hdr := x.prevHdr, closed := none
        owner := match x.owner, x.closed with | none, some d => some d | o, _ => o } s)) (restoreRegs 8 s)
  | 9 => restoreRegs 9 s
  | _ =>
    let r := BAY_SET_POINT (u - 10)
    let v := match tget r.addr s.prevLive with | some w => w.toNat | none => fld s r 25 16
    setFld r 9 0 v (setFld r 25 16 v s)

/-- What was staged and is not in force is dropped: registers show the configuration in force (R440, R86). -/
def dropStaged (s : State) : State :=
  let s := { s with regs := takeGoverned s.regs s.live,
                    plan.staged := none, raft.staged := none, tally.stagedDesc := none, plumb.staged := [], tally.staged := [],
                    net.staged := s.net.live, net.reload := [], fw.staged := false }
  let s := (List.range 4).foldl (fun s n => setFld (BAY_SET_POINT n) 9 0 (fld s (BAY_SET_POINT n) 25 16) s) s
  let s := { s with scribe.graphs := s.scribe.graphs.map (fun (p : Nat × Graph) => (p.1, { p.2 with stagedStart := none, stagedStop := false })) }
  { s with out.streams := s.out.streams.map (fun (p : Nat × Stream) => (p.1, { p.2 with stagedHdr := p.2.hdr, closing := false })) }

/-- The units that take part (R86). -/
def requiredUnits (s : State) : List Nat := (List.range 14).filter (bit (rd s RIDGE_EPOCH_REQUIRED))

/-- Unit `u` is at its safe point: the Raft is not while a cycle runs, and a Bay's set-point waits while Kingpost holds it
(R312, R555). -/
def atSafePoint (s : State) (u : Nat) : Bool := !(decide (u = 3) && s.raft.run.isSome)

/-- Unit `u` has acknowledged the change in progress. -/
def acked (s : State) (u : Nat) : Bool := bit (rd s RIDGE_EPOCH_ACK) u

/-- The revert has reached its boundary B (R86 step 4). -/
def reverted (s : State) : Bool := decide (s.ridge.phase = .reverting) && decide (fld s RIDGE_EPOCH_STATE 15 0 = fld s RIDGE_EPOCH_STATE 31 16)

/-- The epoch number that a latch gives: the pending one, and between a failed check and B the E + 1 of the change that failed (R86). -/
def latchEpoch (s : State) : Nat :=
  let p := fld s RIDGE_EPOCH_STATE 31 16
  if s.ridge.phase = .reverting ∧ !reverted s then (p + 65535) % 65536 else p

/-- The unit's epoch number is that of the latch from time `t`, and its bit of RIDGE.EPOCH_ACK is set; outputs carry the epoch-mix flag
until every required unit has acknowledged (R85–R87). -/
def acknowledge (u t : Nat) (s : State) : State :=
  let s := { s with ridge := { s.ridge with
    unitPrev := tput u (unitEpoch s u) s.ridge.unitPrev
    unitSince := tput u t s.ridge.unitSince
    unitEpoch := tput u (latchEpoch s) s.ridge.unitEpoch } }
  let s := setMask RIDGE_EPOCH_ACK (2 ^ u) s
  if rd s RIDGE_EPOCH_ACK = rd s RIDGE_EPOCH_REQUIRED ∧ (s.ridge.phase = .pending ∨ reverted s) then { s with ridge.mixing := false } else s

/-- A unit latches the change at its safe point, from time `t` (R86 step 2). -/
def latchUnit (t : Nat) (s : State) (u : Nat) : State :=
  if !atSafePoint s u || (decide (10 ≤ u) && setPointsHeld s) then s else acknowledge u t (switchUnit u t s)

/-- A unit returns to the configuration of the current epoch E under number E + 2, from time `t` (R86 step 4). -/
def revertUnit (t : Nat) (s : State) (u : Nat) : State :=
  let applied := decide (unitEpoch s u = (fld s RIDGE_EPOCH_STATE 31 16 + 65535) % 65536)
  if !atSafePoint s u || (decide (10 ≤ u) && applied && setPointsHeld s) then s
  else acknowledge u t (if applied then restoreUnit u t s else s)

/-- The first boundary of the grid at or after a Ridge time (R85). -/
def boundaryFrom (s : State) (t : Nat) : Nat := let g := max 1 (rd s RIDGE_EPOCH_GRID); ceilDiv t g * g

/-- Staging is complete: apply time A is set, and marks 1,016 and 1,017 are armed (R86 step 1). -/
def beginChange (a : Nat) (s : State) : State :=
  let e := (fld s RIDGE_EPOCH_STATE 15 0 + 1) % 65536
  let s := setFld RIDGE_EPOCH_STATE 31 16 e { s with ridge.phase := .pending, ridge.applyAt := a }
  let s := wr RIDGE_EPOCH_ACK 0 (wr64 RIDGE_EPOCH_APPLY_LO RIDGE_EPOCH_APPLY_HI a s)
  armSystem 1017 (a + 1000000) 1 (armSystem 1016 a 0 s)

/-- The persisted set that Foreman records after a confirmed change (R616). -/
def persistSet (s : State) : State :=
  let keep := fun (a : Nat) => decide (a = 0x30900) || (decide (0x30910 ≤ a) && decide (a < 0x30938)) ||
    (decide (0x30400 ≤ a) && decide (a < 0x30800) && decide (a % 0x100 = 0)) ||
    (decide (0x32000 ≤ a) && decide (a < 0x32800) && decide (a % 0x100 < 0x1C))
  let link := s.regs.filter (fun p => decide (p.1 = NETIN_VLINK_CTRL.addr) || decide (p.1 = NETIN_VLINK_ID.addr))
  { s with yard.persisted := some { regs := s.live.filter (fun p => keep p.1) ++ link,
                                    net := s.net.live, plan := s.plan.live } }

end Sys2Proof.Machine
end

