-- ==== Sys2Proof/Machine/Epochs.lean ====
section
/-! DEFINITION. Commands of mode changes: EPOCH_APPLY and the firings of marks 1,016 to 1,018 (R85–R87, R431). -/

namespace Sys2Proof.Machine
open Sys2Proof

/-- EPOCH_APPLY_TIME: at A each unit latches at its safe point; a staged firmware switch begins (R86 step 2, R613). -/
def execEpochApplyTime (s : State) : Out :=
  if nextDue s ≠ some 1016 ∨ s.ridge.phase ≠ .pending then .next s
  else
    let a := s.ridge.applyAt
    let s := fireSystem 1016 { s with ridge.mixing := true }
    let s := (requiredUnits s).foldl (latchUnit a) s
    if s.fw.staged then
      let other := 1 - s.fw.running
      let trial := fun (x : FwSlot) => { x with state := 1, boots := 0, writes := x.writes + 1 }
      let fw := if other = 0 then { s.fw with slotA := trial s.fw.slotA } else { s.fw with slotB := trial s.fw.slotB }
      .next (setForemanUp false { s with fw := { fw with staged := false, switching := some other, trial := none, switchedAt := s.ridge.ns } })
    else .next s

/-- A unit whose revert was still missing at B + 1 ms (R86 step 5). -/
def revertMissing (s : State) (u : Nat) : Bool := decide (s.ridge.phase = .idle) && decide (unitEpoch s u ≠ fld s RIDGE_EPOCH_STATE 15 0)

/-- EPOCH_UNIT_LATCH: a unit that was held back reaches its safe point; a revert is latched there even after its check (R86, R312). -/
def execEpochUnitLatch (unit : Nat) (s : State) : Out :=
  if !(s.ridge.mixing || revertMissing s unit) || !bit (rd s RIDGE_EPOCH_REQUIRED) unit || acked s unit || 10 ≤ unit then .next s
  else if reverted s || revertMissing s unit then .next (revertUnit s.ridge.ns s unit)
  else .next (latchUnit s.ridge.ns s unit)

/-- EPOCH_CHECK: at A + 1 ms the change is complete, or mark 1,018 is armed for its revert (R86 steps 3 and 4, R87, R616). -/
def execEpochCheck (s : State) : Out :=
  if nextDue s ≠ some 1017 ∨ s.ridge.phase ≠ .pending then .next s
  else
    let s := fireSystem 1017 s
    if rd s RIDGE_EPOCH_ACK = rd s RIDGE_EPOCH_REQUIRED then
      let s := setFld RIDGE_EPOCH_STATE 15 0 (fld s RIDGE_EPOCH_STATE 31 16) { s with ridge.phase := .idle, ridge.mixing := false, net.reload := [] }
      .next (noticeOpen 2 (persistSet s))
    else
      let fail := rd s RIDGE_EPOCH_REQUIRED - (rd s RIDGE_EPOCH_REQUIRED &&& rd s RIDGE_EPOCH_ACK)
      let b := boundaryFrom s (s.ridge.applyAt + 1000000 + 1)
      let s := setFld RIDGE_EPOCH_STATE 31 16 ((fld s RIDGE_EPOCH_STATE 15 0 + 2) % 65536)
        (wr RIDGE_EPOCH_FAIL (2 ^ 31 + fail) { s with ridge.phase := .reverting, ridge.revertAt := b })
      .next (armSystem 1018 b 2 (raise 0x1E01 fail s))

/-- EPOCH_REVERT: at B every unit runs the configuration of E under number E + 2 (R86 step 4, R85). -/
def execEpochRevert (s : State) : Out :=
  if nextDue s ≠ some 1018 ∨ s.ridge.phase ≠ .reverting then .next s
  else
    let b := s.ridge.revertAt
    let s := fireSystem 1018 s
    let s := { s with ridge.unitEpoch := (requiredUnits s).foldl (fun t u => tput u (unitEpoch s u) t) s.ridge.unitEpoch }
    let s := setFld RIDGE_EPOCH_STATE 15 0 (fld s RIDGE_EPOCH_STATE 31 16) (wr RIDGE_EPOCH_ACK 0 s)
    let s := dropStaged ((requiredUnits s).foldl (revertUnit b) s)
    .next (armSystem 1017 (b + 1000000) 1 (noticeOpen 4 s))

/-- EPOCH_REVERT_CHECK: at B + 1 ms the revert ends; a unit that has not acknowledged it is fault 1 (R86 step 5, R87). -/
def execEpochRevertCheck (s : State) : Out :=
  if nextDue s ≠ some 1017 ∨ s.ridge.phase ≠ .reverting then .next s
  else
    let s := fireSystem 1017 { s with ridge.phase := .idle, ridge.mixing := false }
    if rd s RIDGE_EPOCH_ACK = rd s RIDGE_EPOCH_REQUIRED then .next s
    else .next (fault 1 (setMask RIDGE_EPOCH_FAIL (2 ^ 30) s))

/-- EPOCH_APPLY: A is the first boundary at least 2 ms away and not before not_before, and at most 60 s away (R86 step 1, R431). -/
def execEpochApply (f slot : Nat) (s : State) : Out :=
  .next (immediate f slot 0x0508 (fun s =>
    let a := boundaryFrom s (max (s.ridge.ns + 2000000) (param s f slot 0x0508 0))
    if s.ridge.ns + 60000000000 < a then badParam 0x0508 0 s
    else
      let s := beginChange a s
      ok [r64 a, r16 (fld s RIDGE_EPOCH_STATE 31 16)] s) s)

/-- EPOCH_DISCARD: every staged value is dropped (R440). -/
def execEpochDiscard (f slot : Nat) (s : State) : Out :=
  .next (immediate f slot 0x0509 (fun s =>
    if changing s then no 0x1009 (rd s RIDGE_EPOCH_STATE) s else ok [] (dropStaged s)) s)

/-- EPOCH_STATUS (R440). -/
def execEpochStatus (f slot : Nat) (s : State) : Out :=
  .next (immediate f slot 0x050A (fun s =>
    ok [r32 (rd s RIDGE_EPOCH_STATE), r32 (rd s RIDGE_EPOCH_APPLY_LO), r32 (rd s RIDGE_EPOCH_APPLY_HI), r32 (rd s RIDGE_EPOCH_FAIL)] s) s)

end Sys2Proof.Machine
end

