-- ==== Sys2Proof/Machine/Fabric.lean ====
section
/-! DEFINITION. Events of the tenon fabric: set-points, naming and loading of tasks, their start and end, truss tests, stalls,
and the comparison of duplicated runs (chapters 6 and 7, R260–R270, R533–R540). -/

namespace Sys2Proof.Machine
open Sys2Proof

/-- BAY_SET_POINT_WRITE: a write through BAR0 stages the value, or is ignored and counted (R187, R221). -/
def execBaySetPointWrite (bay value : Nat) (s : State) : Out :=
  if 4 ≤ bay then .next s
  else if setPointOk (bits value 9 0) && neighbourOk s bay (bits value 9 0) then
    .next (acceptWrite (BAY_SET_POINT bay).addr value [] s)
  else .next (ignoredWrite 0 (BAY_SET_POINT bay).addr false allBits s)

/-- INSTANCE_NAMED: the head of a Bay's queue is named to its trusses once enough qualify; a copy of a dual instance takes its
pool pages with them, and a tiebreak copy whose pool is short is unavailable (R261, R262, R534, R538). -/
def execInstanceNamed (bay : Nat) (s : State) : Out :=
  match queueHead s 1 (some bay) with
  | none => .next s
  | some (i, k) =>
    match instOf s i with
    | none => .next s
    | some (x, g, nd) =>
      let need := planTrusses s nd.plan
      let pages := pagesFor s g.domain nd bay
      let takes := bit nd.flags 3 && decide (((runOf s i k).map (·.pages)).getD 0 = 0)
      if takes && !poolHas s bay pages then
        if (x.runs[k]?).any (·.front) then .next (settle (tiebreakUnavailable i s)) else .next s
      else if enoughTrusses s bay need then
        let s := if takes then takePages i k bay pages s else s
        let s := if (x.runs[k]?).any (·.front) then incFld (KINGPOST_DUAL_FAULTS bay) 31 16 1 s else s
        .next (nameRun i k bay (trussNeed s bay need) s)
      else .next s

/-- SHADOW_LOAD_COMPLETE: a truss has loaded the sections of the task that is named to its shadow configuration (R192). -/
def execShadowLoadComplete (bay t : Nat) (s : State) : Out :=
  if (truss s bay t).shadow.isSome then .next (modTruss bay t (fun x => { x with shadowLoaded := true }) s) else .next s

/-- Every truss of a run has reached it, and no run named ahead of it on its Bay has yet to start (R192, R261). -/
def taskMayStart (s : State) (i k : Nat) (r : Run) : Bool :=
  r.named && !r.started && r.trusses.all (fun t => decide ((truss s r.bay t).task = some (i, k))) &&
    decide (s.fab.order.find? (fun q => (runOf s q.1 q.2).any (fun z => decide (z.bay = r.bay))) = some (i, k))

/-- The start of a copy node's run on the commit engine of its Bay (R253, R534). -/
def startCopy (i k : Nat) (x : Inst) (g : Graph) (nd : Node) (r : Run) (s : State) : State :=
  if queueHead s 6 (some r.bay) ≠ some (i, k) ∨ (tget r.bay s.fab.engine).isSome then s
  else
    let pages := pagesFor s g.domain nd r.bay
    let takes := bit nd.flags 3 && decide (r.pages = 0)
    if takes && !poolHas s r.bay pages then
      if r.front then settle (tiebreakUnavailable i s) else s
    else
      let s := if takes then takePages i k r.bay pages s else s
      let s := if (x.runs[k]?).any (·.front) then incFld (KINGPOST_DUAL_FAULTS r.bay) 31 16 1 s else s
      settle (beginRun i k { s with fab.engine := tput r.bay (i, k) s.fab.engine })

/-- TASK_START: the last truss of run `k` of an instance is ready; the plan's checks are made, and the task starts or is refused
at load. `unsupported` tells whether a section names what tenons or braces do not support (R191–R194, R261, R632). -/
def execTaskStart (i k : Nat) (unsupported : Bool) (s : State) : Out :=
  match instOf s i, runOf s i k with
  | some (x, g, nd), some r =>
    if nd.kind = 6 then .next (if r.started then s else startCopy i k x g nd r s)
    else if nd.kind ≠ 1 || !taskMayStart s i k r then .next s
    else
      let status := planStatus s g.domain r.bay nd.plan unsupported
      let s := notePlan g.domain r.bay nd.plan s
      let s := { s with fab.order := s.fab.order.filter (fun q => q ≠ (i, k)) }
      let s := beginRun i k s
      match status with
      | none => .next (settle (modRun i k (fun r => { r with bound := readNat s (nd.plan + 8) 4 }) s))
      | some st =>
        let s := raise 0xF005 (bayArg r.bay (r.trusses.headD 0) + st) (incFld (BAY_TASK_ABORTS r.bay) 31 16 1 s)
        .next (settle (endRun i k st s))
  | _, _ => .next s

/-- A write of a task: the bytes of its values, or bytes that nothing fixes where it is poisoned (R220). -/
def taskWrite (res : List Nat) (w : TaskWrite) (s : State) : HeldWrite × State :=
  let bs := outBytes res w.data
  if w.poison then
    (⟨some w.arg, w.offset, (List.range bs.length).map (fun i => (Config.freeWord (s.free + i)).setWidth 8), true⟩, takeFree bs.length s)
  else (⟨some w.arg, w.offset, bs, false⟩, s)

/-- The end of a copy: its elements are copied as its tensors stand, and it ends (R253, R276). -/
def endCopy (i k : Nat) (x : Inst) (g : Graph) (nd : Node) (r : Run) (s : State) : State :=
  match copyPair s g.domain nd with
  | none => settle (endRun i k 0x1607 s)
  | some (src, dst, arg) =>
    let c := copyTensor s g.domain r.bay src dst arg
    let s := takeFree ((viewShape s g.domain dst r.bay).foldl (· * ·) 2) s
    let s := noteSpans g.domain (1 + 8 * r.bay) (copySpans s g.domain r.bay src dst) s
    let s := countTask r.bay 0 c.nar c.sat c.nti c.oob c.lost 0 0 c.collide s
    let flags := taskFlags c.nar c.sat c.nti (c.poison || decide (c.lost ≠ 0))
    let s := modRun i k (fun r => { r with writes := c.writes, flags := flags }) s
    let s := endRun i k (flags * 65536) s
    settle (if holds nd x then s else releaseRun i k s)

/-- TASK_END: the work of run `k` has drained; what it computed is written, its ring accesses are made in order, and it ends with
its completion word, or stalls on a ring (R194, R215, R220, R267–R270, R276). -/
def execTaskEnd (i k : Nat) (res : TaskResult) (s : State) : Out :=
  match instOf s i, runOf s i k with
  | some (x, g, nd), some r =>
    if !r.started || r.ended || r.stalled.isSome then .next s
    else if nd.kind = 6 then .next (endCopy i k x g nd r s)
    else if nd.kind ≠ 1 ∨ r.bound < res.steps then .next s
    else
      let skip := res.writes.flatMap (fun w => if w.poison then w.data.filterMap (fun v => match v.arg with | .res n => some n | .lit _ => none) else [])
      let (codes, n, z, t) := evalProg res.prog skip
      let nar := n + res.nar
      let sat := z + res.sat
      let nti := t + res.nanToInt
      let (ws, s) := res.writes.foldl (fun (acc : List HeldWrite × State) w =>
        let (h, s) := taskWrite codes w acc.2
        (acc.1 ++ [h], s)) ([], s)
      let s := countTask r.bay (r.trusses.headD 0) nar sat nti res.indexOob res.indexPoison res.narrow res.tiles res.collide s
      let flags := taskFlags nar sat nti (res.poison || decide (res.indexPoison ≠ 0) || res.writes.any (·.poison))
      let held := holds nd x
      let s := modRun i k (fun r => { r with steps := res.steps, flags := flags, io := res.io, writes := ws }) s
      let s := if held then s else applyWrites g.domain (1 + 8 * r.bay) r.bay nd.binds ws s
      .next (continueTask i k s)
  | _, _ => .next s

/-- STEP_BOUND_REACHED: a truss of the run has counted step_bound steps, and the task stops (R194, R195). -/
def execStepBoundReached (i k : Nat) (s : State) : Out :=
  match instOf s i, runOf s i k with
  | some (_, _, nd), some r =>
    if nd.kind ≠ 1 || !r.started || r.ended || r.stalled.isSome then .next s
    else
      let s := modRun i k (fun r => { r with steps := r.bound }) (incFld (BAY_TASK_ABORTS r.bay) 15 0 1 s)
      .next (stopWith i k 0x1606 (raise 0xF004 (bayArg r.bay (r.trusses.headD 0)) s))
  | _, _ => .next s

/-- TRUSS_SELFTEST_START: a truss is tested at an idle gap 500 ms after its last test started, or at a task boundary after 1 s;
a task that waits at the boundary starts after the test (R197). -/
def execTrussSelftestStart (bay t : Nat) (s : State) : Out :=
  let x := truss s bay t
  let idle := trussFree s bay t
  let boundary := !x.testing && x.shadow.isNone && (match x.task with
    | some (i, k) => (runOf s i k).any (fun r => !r.started)
    | none => true)
  if !(available s bay).contains t then .next s
  else if (idle && decide (x.lastTest + 500000000 ≤ s.ridge.ns)) || (boundary && decide (x.lastTest + 1000000000 ≤ s.ridge.ns)) then
    .next (modTruss bay t (fun x =>
      { x with testing := true, lastTest := s.ridge.ns, shadow := x.task, shadowLoaded := x.task.isSome, task := none }) s)
  else .next s

/-- The bypassed position of a chain of a truss, or 31 (R196). -/
def spareOf (s : State) (bay t chain : Nat) : Nat := fld s (BAY_SPARE_MAP bay t) (8 * chain + 4) (8 * chain)

/-- A truss is retired: its available bit goes, and a run that was named to it is named again (R198, R199). -/
def retireTruss (bay t : Nat) (s : State) : State :=
  let last := (truss s bay t).lastPass
  let named := (truss s bay t).task <|> (truss s bay t).shadow
  let s := match named with
    | some (i, k) => modRun i k (fun r => { r with named := false, trusses := [] }) (freeRuns (fun q => decide (q = (i, k))) s)
    | none => s
  raiseX 0xF002 (bayArg bay t) last (setMask (BAY_RETIRED bay) (2 ^ t) (clearMask (BAY_STATUS bay) (2 ^ t) s))

/-- TRUSS_SELFTEST_DONE: a test that passes is counted; one that fails is reported, and the end of the test is the task boundary
at which the truss takes a bypass or is retired (R197, R198, R200). -/
def execTrussSelftestDone (bay t : Nat) (res : TestResult) (s : State) : Out :=
  let x := truss s bay t
  if 4 ≤ bay || 16 ≤ t || !x.testing then .next s
  else
    let s := modTruss bay t (fun x => handOver { x with testing := false }) s
    match res with
    | .pass =>
      let s := inc (BAY_SELFTEST_RUNS bay) (modTruss bay t (fun x => { x with lastPass := s.ridge.ns }) s)
      let m := tgetD bay 0 s.fab.passed ||| 2 ^ t
      if (available s bay).all (bit m) then
        .next (wr64 (BAY_LAST_TEST_LO bay) (BAY_LAST_TEST_HI bay) (s.ridge.ns % 2 ^ 64) { s with fab.passed := tput bay 0 s.fab.passed })
      else .next { s with fab.passed := tput bay m s.fab.passed }
    | _ =>
      let s := setMask (BAY_SELFTEST_FAIL bay) (2 ^ t) { s with fab.passed := tput bay 0 s.fab.passed }
      let s := fault 8 (raiseX 0xF003 (bayArg bay t) x.lastPass s)
      match res with
      | .tenon c p =>
        if c < 4 ∧ p ≤ 16 ∧ spareOf s bay t c = 31 then
          .next (raiseX 0xF001 (bayArg bay t + c * 2 ^ 16 + p * 256) x.lastPass
            (setFld (BAY_SPARE_MAP bay t) (8 * c + 4) (8 * c) p s))
        else .next (retireTruss bay t s)
      | _ => .next (retireTruss bay t s)

/-- The stalled access of a run has an item or space. -/
def stallOver (s : State) (i k : Nat) (r : Run) : Bool :=
  match instOf s i, r.io with
  | some (x, g, nd), io :: _ =>
    (match ioStep i k g.domain nd (holds nd x) io s with | .stall => false | _ => true)
  | _, _ => false

/-- STREAM_STALL_END: the ring has an item or space, and the task goes on (R270). -/
def execStreamStallEnd (i k : Nat) (s : State) : Out :=
  match runOf s i k with
  | some r =>
    if r.stalled.isSome && stallOver s i k r then
      .next (continueTask i k (modRun i k (fun r => { r with stalled := none }) s))
    else .next s
  | none => .next s

/-- STALL_TIMEOUT: one stall has lasted longer than the limit, and the task ends (R270). -/
def execStallTimeout (i k : Nat) (s : State) : Out :=
  match instOf s i, runOf s i k with
  | some (x, _, _), some r =>
    match r.stalled with
    | none => .next s
    | some (_, t) =>
      if x.stallLimit = 0 ∨ s.ridge.ns ≤ t + x.stallLimit * 1000 then .next s
      else
        let s := raise 0x8003 (x.graph * 2 ^ 24 + x.node % 65536) (inc SCRIBE_STALL_TIMEOUTS s)
        .next (stopWith i k 0x1607 (modInst i (fun y => { y with scribeStatus := 0x1810 }) s))
  | _, _ => .next s

/-- DUAL_COMPARE: both copies have ended; they agree, or a tiebreak copy is queued ahead on the tiebreak Bay (R535–R538). -/
def execDualCompare (i : Nat) (s : State) : Out :=
  match instOf s i with
  | some (x, g, nd) =>
    match x.runs with
    | [a, b] =>
      if !(bit nd.flags 3) || !a.ended || !b.ended || x.compared || !([IState.running, .provRunning].contains x.st) then .next s
      else
        let s' := takeFree 1 s
        if copiesAgree s a b then .next (settle (agreeOn i 0 s'))
        else match tiebreakBay s g.domain nd a.bay b.bay with
          | none => .next (settle (tiebreakUnavailable i s'))
          | some n => .next (setInst i { x with compared := true, runs := [a, b, { bay := n, front := true }] } s')
    | _ => .next s
  | none => .next s

/-- TIEBREAK_COMPARE: copy C is compared with A and then with B, and the mismatch is attributed (R537, R539). -/
def execTiebreakCompare (i : Nat) (s : State) : Out :=
  match instOf s i with
  | some (x, _, _) =>
    match x.runs with
    | [a, b, c] =>
      if !c.ended || !([IState.running, .provRunning].contains x.st) then .next s
      else
        let s' := takeFree 2 s
        if copiesAgree s c a then .next (settle (agreeOn i 0 (attribute_ x b.bay s')))
        else if copiesAgree (takeFree 1 s) c b then .next (settle (agreeOn i 1 (attribute_ x a.bay s')))
        else .next (settle (noAgreement i s'))
    | _ => .next s
  | none => .next s

end Sys2Proof.Machine
end

