-- ==== Sys2Proof/Machine/Fence.lean ====
section
/-! DEFINITION. Commands of the Fence, of the owner secret and of the service port (chapter 16). -/

namespace Sys2Proof.Machine
open Sys2Proof

/-- A command on domain 0x00, or above 0x3F, is ignored and counted (R485). -/
def badDomain (d : Nat) : Bool := d = 0 || 0x3F < d

def ignoreDomainCmd (s : State) : State := ignoredWrite 0 FENCE_DOMAIN_CMD.addr false allBits s

/-- DOMAIN_CLOSE: a close op of FENCE.DOMAIN_CMD (R485, R486). -/
def execDomainClose (domain : Nat) (s : State) : Out :=
  if badDomain domain then .next (ignoreDomainCmd s) else .next (closeDomain domain false s)

/-- DOMAIN_QUIESCE: a quiesce op (R487). -/
def execDomainQuiesce (domain : Nat) (s : State) : Out :=
  if badDomain domain then .next (ignoreDomainCmd s) else .next (quiesceDomain domain false s)

/-- DOMAIN_RESUME: a resume op; ignored and counted while Kingpost holds the domain (R488). -/
def execDomainResume (domain : Nat) (s : State) : Out :=
  if badDomain domain || kpHold s domain then .next (ignoreDomainCmd s) else .next (resumeDomain domain s)

/-- DOMAIN_SETTLED: a closed or quiesced domain has no line in flight; the objects of one that Kingpost quiesced are stopped before
(R486, R487, R544). -/
def execDomainSettled (domain : Nat) (s : State) : Out :=
  if badDomain domain || !closedDomain s domain || bit (rd s (FENCE_DOMAIN_STATE domain)) 2 then .next s
  else
    let s := if s.kp.quiesceDue.contains domain then
        stopObjects domain (notice domain 16 { s with kp.quiesceDue := lremove domain s.kp.quiesceDue })
      else s
    .next (settleDomain domain s)

/-- The eight words staged in OWNER_SECRET or OWNER_REKEY, with the word 7 that submits them (R494). -/
def secretWords (staged : Tab Nat) (last : Nat) : List Nat := (List.range 7).map (fun i => tgetD i 0 staged) ++ [last]

/-- OWNER_SECRET_SUBMIT: a write of FENCE.OWNER_SECRET[7]; ignored and counted while locked or while a decision is pending
(R489, R494). -/
def execOwnerSecretSubmit (value : Nat) (s : State) : Out :=
  if bit (rd s FENCE_LOCK) 2 || s.sec.deciding.isSome then
    .next (ignoredWrite 0 (FENCE_OWNER_SECRET 7).addr (bit (rd s FENCE_LOCK) 2) allBits s)
  else .next (setMask FENCE_STATUS 4 { s with sec.deciding := some (secretWords s.sec.secret (value % 2 ^ 32)) })

/-- OWNER_SECRET_DECISION: Kingpost provisions, unlocks, or rejects the secret; without an owner key nothing is unlocked
(R492, R494). -/
def execOwnerSecretDecision (s : State) : Out :=
  match s.sec.deciding with
  | none => .next s
  | some ws =>
    let s := clearMask FENCE_STATUS 4 { s with sec.deciding := none }
    let unlock := fun (s : State) => setMask FENCE_LOCK 4 (setMask FENCE_STATUS 3 s)
    if s.sec.fuses.keyKill then .next s
    else match s.sec.check with
      | none => .next (raise 0xA013 0 (unlock { s with sec.check := some (Config.ownerCheck ws).toNat }))
      | some c =>
        if c = (Config.ownerCheck ws).toNat then .next (unlock s)
        else
          let n := satAdd 3 (fld s FENCE_STATUS 4 3) 1
          let s := raise 0xA012 0 (setFld FENCE_STATUS 4 3 n s)
          .next (if 3 ≤ n then setMask FENCE_LOCK 4 s else s)

/-- OWNER_REKEY_SUBMIT: a write of FENCE.OWNER_REKEY[7] rewraps every data key under the new secret; ignored and counted while
rekey_lock is set or storage is locked (R489, R494). -/
def execOwnerRekeySubmit (value : Nat) (s : State) : Out :=
  if bit (rd s FENCE_LOCK) 4 || !storageUnlocked s || s.sec.fuses.keyKill then
    .next (ignoredWrite 0 (FENCE_OWNER_REKEY 7).addr (bit (rd s FENCE_LOCK) 4) allBits s)
  else
    .next (raise 0xA013 0 { s with sec.check := some (Config.ownerCheck (secretWords s.sec.rekey (value % 2 ^ 32))).toNat })

/-- SERVICE_TOKEN: a token presented at the service port is accepted on a RETURNED part under R496, and else refused; a fresh
challenge follows (R501). -/
def execServiceToken (container : List Byte) (s : State) : Out :=
  let st := if !s.sec.fuses.returned then some 0x1209 else boxStatus s 4 container
  let s := { s with sec.nonces := s.sec.nonces + 1 }
  match st with
  | some c => .next (emit (.service c) (raise 0xA021 0 s))
  | none => .next (emit (.service 0) (raise 0xA020 0 { s with sec.serviceLevel2 := true }))

/-- SEC_COUNTER_RAISE: Foreman has run for 60 s without a restart (R500). -/
def execSecCounterRaise (s : State) : Out :=
  if s.sec.raised || !s.mb.foremanUp || decide (s.ridge.ns < s.kp.foremanSince + 60000000000) then .next s else .next (raiseCounter s)

end Sys2Proof.Machine
end

