-- ==== Sys2Proof/Machine/PowerOps.lean ====
section
/-! DEFINITION. The Plinth's operations: its states and its judgement of VIN, the end of a session, what a loss of power and a package
reset clear and keep, and the boot with its choice of a firmware slot (R490, R497, R585, R586, R596, R601–R613). -/

namespace Sys2Proof.Machine
open Sys2Proof

/-! ### States and the input (R601, R602) -/

/-- The code of a state in KINGPOST.POWER_STATE. -/
def plinthCode : Plinth → Nat
  | .off => 0 | .standby => 1 | .sequencing => 2 | .run => 3 | .powerDown => 4 | .holdUp => 5 | .crash => 6

/-- The Plinth enters a state. -/
def putPlinth (p : Plinth) (s : State) : State := setFld KINGPOST_POWER_STATE 2 0 (plinthCode p) { s with power.state := p }

/-- VIN as one sample finds it: how long each condition of R602 has held, in samples of 1 µs, the bits of POWER_STATE with event
0xA037, and the change between OFF and STANDBY (R601, R602). -/
def judgeVin (vin : Nat) (s : State) : State :=
  let count := fun (b : Bool) (n : Nat) => if b then min 1000000 (n + 1) else 0
  let p : PowerSt := { s.power with
    vin := vin
    highEnough := min 10000 (count (decide (10200 ≤ vin)) s.power.highEnough)
    low := count (decide (9000 ≤ vin) && decide (vin < 10800)) s.power.low
    under := count (decide (vin < 9000)) s.power.under
    past := count (decide (13200 < vin)) s.power.past
    over14 := count (decide (14500 < vin)) s.power.over14
    switchOpen := s.power.switchOpen || decide (1000 ≤ count (decide (14500 < vin)) s.power.over14)
    locked := s.power.locked && decide (6000 ≤ vin) }
  let s := { s with power := p }
  let s := if p.low = 1 then incFld KINGPOST_POWER_STATE 31 16 1 s else s
  let s := setFld KINGPOST_POWER_STATE 3 3 (b2n (decide (0 < p.low))) (setFld KINGPOST_POWER_STATE 4 4 (b2n (decide (0 < p.past))) s)
  let s := if p.state = .run ∧ p.low = 10000 then raise 0xA037 0 s else s
  let s := if p.state = .run ∧ p.past = 10000 then raise 0xA037 1 s else s
  if p.state = .standby ∧ vin < 6000 then putPlinth .off s
  else if p.state = .off ∧ 6000 ≤ vin then putPlinth .standby s
  else s

/-- Input loss is declared: the condition of a row of R602 has lasted its time. -/
def inputLost (s : State) : Bool :=
  decide (100000 ≤ s.power.low) || decide (20 ≤ s.power.under) || decide (1000 ≤ s.power.over14)

/-- VIN has been at 10.2 V or above for 10 ms (R603). -/
def inputGood (s : State) : Bool := decide (10000 ≤ s.power.highEnough)

/-- The power-on sequence starts from its first step; it is one power-on more of the part's life (R585, R603, R605). -/
def startSequencing (s : State) : State :=
  let s := { s with recd.life := { s.recd.life with cycle := satAdd 0xFFFFFFFF s.recd.life.cycle 1 } }
  putPlinth .sequencing (setFld KINGPOST_POWER_STATE 5 5 0
    { s with power := { s.power with step := 1, attempts := 1, waiting := false, due := false, switchOpen := false, released := false } })

/-! ### What ends with a session (R490, R517, R586, R596, R609) -/

/-- The open session is closed with an end code, and the end record written; the entry that the newest page carries is closed with
it at the next boot (R596, R609). -/
def endSession (code : Nat) (s : State) : State :=
  let close := fun (e : Session) => { e with end_ := code, endS := s.recd.life.s, ridgeEnd := s.ridge.ns }
  let now := s.recd.sessions.head?
  let same := fun (e : Session) => match now with
    | some n => decide (e.cycle = n.cycle) && decide (e.kind = n.kind) && decide (e.startS = n.startS)
    | none => false
  { s with
    recd := { s.recd with
      sessions := s.recd.sessions.modify 0 close
      saved := s.recd.saved.map (fun k => match k.sessions with
        | e :: r => if same e then { k with sessions := close e :: r } else k
        | [] => k) }
    power := { s.power with retained := { s.power.retained with ended := some (code, s.recd.life.s, s.ridge.ns) } } }

/-- The recorder after a loss of power: what the newest page carries (R586), with the powered time of the retained store (R609). -/
def restoreRecorder (s : State) : RecSt :=
  let kept := { pages := s.recd.pages, pageSeq := s.recd.pageSeq, saved := s.recd.saved, commits := s.recd.commits : RecSt }
  match s.recd.saved with
  | none => { kept with life := ⟨s.power.retained.powered, 0⟩, fresh := true, sessions := [] }
  | some k => { kept with
      slots := k.slots, histos := k.histos, extremes := k.extremes, eventsTotal := k.eventsTotal, heldTotal := k.heldTotal,
      skippedTotal := k.skippedTotal, throttled := k.throttled, sessions := k.sessions, fresh := false
      life := ⟨max k.life.s s.power.retained.powered, k.life.cycle⟩ }

/-- The recorder after a package reset, which keeps it (R490); what its notifications, its rate and the throttle counters held is
gone. -/
def keepRecorder (s : State) : RecSt :=
  { s.recd with
    notifies := [], rate := 0x10400104
    throttled := (List.range 5).foldl (fun t i => tput i (tgetD i 0 s.recd.throttled + tgetD i 0 s.gov.durations) t) [] }

/-- Registers that a reset leaves, because metadata or the retained store holds them: retired trusses and bypasses (R199). -/
def keptReg (a : Nat) : Bool :=
  decide (0x100000 ≤ a) && decide (a < 0x200000) &&
    (decide (a % 0x40000 = 0x34) || (decide (0x40 ≤ a % 0x40000) && decide (a % 0x40000 < 0x80)))

/-- Everything that a reset clears is as after a first boot; NAND, the one-time store, the Plinth and the record of what has left the
package stay (R490). -/
def cleared (rec_ : RecSt) (s : State) : State :=
  { regs := s.regs.filter (fun p => keptReg p.1)
    recd := rec_
    sec := { fuses := s.sec.fuses, check := s.sec.check, nonces := s.sec.nonces }
    fw := { s.fw with staged := false, switching := none, trial := none, recoverAt := none }
    power := s.power
    gov := { input := s.gov.input, rails := s.gov.rails, inputRead := s.gov.input / 1000000
             railsRead := s.gov.rails.map (fun p => (p.1, p.2 / 1000000)), railMv := s.gov.railMv, railMa := s.gov.railMa }
    yard := yardCut s.yard
    emitted := s.emitted, free := s.free, pending := s.pending }

/-- The rails are down: the Plinth alone remains, in STANDBY or OFF; a power-on that became due in the meantime starts
(R601, R603). -/
def losePower (s : State) : State :=
  let s := setForemanUp false (cleared (restoreRecorder s) s)
  let s := { s with mb.linkUp := false, power := { s.power with released := false, step := 0, ending := 2 } }
  let s := setFld KINGPOST_POWER_STATE 15 5 0 s
  let s := if s.power.vin < 6000 then putPlinth .off s else putPlinth .standby s
  if s.power.due && s.power.en && inputGood s && decide (s.power.state = .standby) then startSequencing s else s

/-! ### The boot (R32, R448, R449, R497, R546, R604, R607, R610–R612) -/

def fwSlot (s : State) (k : Nat) : FwSlot := if k = 0 then s.fw.slotA else s.fw.slotB

/-- Writes the record of a firmware slot: the other page of its two, with a higher write count (R610). -/
def putFwSlot (k : Nat) (x : FwSlot) (s : State) : State :=
  let x := { x with writes := (fwSlot s k).writes + 1 }
  { s with fw := if k = 0 then { s.fw with slotA := x } else { s.fw with slotB := x } }

/-- The image that a slot holds passes R496 and its hashes; of an image whose container the model does not hold, `b` tells. -/
def slotGood (b : BootResult) (s : State) (k : Nat) : Bool :=
  !bit b.slotFails k && (decide ((fwSlot s k).box = []) || decide (boxStatus s 1 (fwSlot s k).box = none))

/-- A slot that the boot engine may choose: its die works, its record reads valid, and it is trial or confirmed (R610, R611). -/
def candidate (b : BootResult) (s : State) (k : Nat) : Bool :=
  let x := fwSlot s k
  bit b.nand k && x.valid && (decide (x.state = 1) || decide (x.state = 2))

/-- A trial slot that has used its boots becomes rejected (R611). -/
def expireTrial (b : BootResult) (s : State) (k : Nat) : State :=
  let x := fwSlot s k
  if candidate b s k && decide (x.state = 1) && decide (2 ≤ x.boots) then raise 0xA033 k (putFwSlot k { x with state := 3 } s) else s

/-- The choice among candidates: a trial slot first, then the confirmed slot with the higher seq (R611). -/
def pickSlot (b : BootResult) (s : State) : Option Nat :=
  match [0, 1].find? (fun k => candidate b s k && decide ((fwSlot s k).state = 1)) with
  | some k => some k
  | none =>
    match candidate b s 0, candidate b s 1 with
    | true, true => some (if (fwSlot s 0).seq < (fwSlot s 1).seq then 1 else 0)
    | true, false => some 0
    | false, true => some 1
    | false, false => none

/-- The status of the check that the image of a slot fails; where its header does not show it, none is stated (R496, R506). -/
def failStatus (s : State) (k : Nat) : Nat :=
  match (if (fwSlot s k).box = [] then none else boxStatus s 1 (fwSlot s k).box) with
  | some c => c
  | none => (Config.unstated 506 [(k : Int), (s.recd.life.cycle : Int)]).toNat

/-- The slot that boots: one that fails is rejected, and the other is tried (R497, R611). -/
def chooseSlot (b : BootResult) : Nat → State → Option Nat × State
  | 0, s => (none, s)
  | n + 1, s =>
    let s := expireTrial b (expireTrial b s 0) 1
    match pickSlot b s with
    | none => (none, s)
    | some k =>
      let x := fwSlot s k
      let s := if x.state = 1 then putFwSlot k { x with boots := x.boots + 1 } s else s
      if slotGood b s k then (some k, s)
      else
        let s := putFwSlot k { fwSlot s k with state := 3 } s
        chooseSlot b n (raise 0xA031 k (raise 0xA010 (failStatus s k) (setFld KINGPOST_BOOT_STATE 1 1 1 s)))

/-- The image of a slot runs: KINGPOST.BOOT_STATE and the fuses that it may blow (R497, R500, R613). -/
def runImage (k : Nat) (s : State) : State :=
  let box := (fwSlot s k).box
  let s := setFld KINGPOST_BOOT_STATE 0 0 k (setFld KINGPOST_BOOT_STATE 15 8 s.sec.fuses.secCounter s)
  let s := setFld KINGPOST_BOOT_STATE 31 24 (boxPart box 8 1) (setFld KINGPOST_BOOT_STATE 23 16 (boxPart box 7 1) s)
  { s with fw.running := k, sec.revoke := boxPart box 9 1, sec.raised := false }

/-- Ones in the low `n` bits of a mask. -/
def ones (n m : Nat) : Nat := ((List.range n).filter (bit m)).length

/-- What the self-tests found: SILL.PACKAGE, the stacks in use with their system regions, the units that take part in a mode change,
and event 0xA030 for each die that failed (R32, R448, R449, R607). -/
def dieResults (b : BootResult) (s : State) : State :=
  let s := setFld SILL_PACKAGE 9 8 (ones 2 b.nand) (setFld SILL_PACKAGE 7 0 (b.bays % 16 + 16 * (b.drams % 16)) s)
  let used := (b.bays &&& b.drams) % 16
  let n := ones 4 used
  let s := wr SILL_STACKS_USED used (wr SILL_SYS_RESERVE (if n = 0 then 0 else ceilDiv (ceilDiv 2048 n) 4 * 4) s)
  let s := wr RIDGE_EPOCH_REQUIRED (0x3FF + 1024 * (b.bays % 16)) s
  let s := (List.range 4).foldl (fun s n => setFld (BAY_STATUS n) 15 0 (0xFFFF - fld s (BAY_RETIRED n) 15 0) s) s
  let failed := (List.range 4).filter (fun n => !bit b.bays n) ++
    ((List.range 4).filter (fun n => !bit b.drams n)).map (· + 4) ++ ((List.range 2).filter (fun n => !bit b.nand n)).map (· + 8)
  failed.foldl (fun s d => raise 0xA030 d s) s

/-- What the retained store brings: the cap, the age trims, the causes of the reset, and the events of the session before with their
Ridge times (R567, R579, R580, R605, R608, R609, R622, R626). -/
def recallRetained (cause : Nat) (s : State) : State :=
  let r := s.power.retained
  let s := setFld GOVERNOR_CAP 15 0 (r.cap + 256 * r.secs) s
  let s := (List.range 4).foldl (fun s n => setFld (GOVERNOR_BAY_AGE n) 5 0 (tgetD n 0 r.ageTrim) s) s
  let s := setFld GOVERNOR_SILL_AGE 5 0 (tgetD 4 0 r.ageTrim) s
  let code := match r.ended with | some (c, _, _) => c | none => 0
  let at_ := match r.ended with | some (_, _, t) => t | none => 0
  let s := wr KINGPOST_RESET_CAUSE (cause + 256 * code + 4096 * s.power.attempts + 65536 * r.failedRail.getD 0) s
  let s := if code = 6 then (match r.crash with
      | some c => raiseX 0xA035 (c.rail + 16 * c.phase) c.t s
      | none => s) else s
  let s := match r.failedRail with | some k => raiseX 0xA036 k 0 s | none => s
  let s := if code = 1 then raiseX 0xA038 0 at_ s else s
  { s with power := { s.power with retained := { r with ended := none, failedRail := none } } }

/-- RECORDER.STATUS as a boot finds the recorder; one that started without a readable page is an event (R586, R588, R595, R600). -/
def recorderFound (kind : Nat) (s : State) : State :=
  let n := s.recd.slots.length
  let s := wr RECORDER_STATUS (b2n s.recd.fresh + 2 * b2n (decide (1000 ≤ (recentCommits s).length)) + 4 * b2n (decide (n = 200)) +
    256 * min 199 (n - 1)) s
  if kind = 0 ∧ s.recd.fresh = true then raise 0xD004 0 s else s

/-- Dies test themselves, memory is clear, and the boot chain runs: Foreman is released from the slot chosen, or recovery is entered.
A part without its Sill, its Plinth or NAND does not boot; one whose Kingpost fails its self-test, or whose return erase is still to
end, does not release Foreman (R497, R503, R546, R604, R607, R611, R612). -/
def bootDevice (b : BootResult) (cause kind : Nat) (s : State) : State :=
  let s := setForemanUp false (dieResults b (recorderFound kind s))
  let s := { s with mb.linkUp := false, power.released := false }
  let s := recallRetained cause s
  let entry : Session := ⟨s.recd.life.cycle, kind, 0, s.fw.running, 0xFF, s.recd.life.s, 0, 0⟩
  let open_ := fun (s : State) => { s with recd.sessions := { entry with slot := s.fw.running } :: s.recd.sessions.take 31 }
  if !b.core || decide (ones 2 b.nand = 0) then putPlinth .sequencing (open_ s)
  else
    let s := putPlinth .run s
    if !b.kingpost then raise 0xE00F 0 (setFld KINGPOST_SAFETY_STATE 4 4 1 (open_ s))
    else if s.sec.fuses.returnPending && !s.sec.fuses.returned then open_ { s with sec.fuses.keyKill := true }
    else match chooseSlot b 3 s with
      | (none, s) => open_ { s with fw.recovery := true }
      | (some k, s) =>
        let s := runImage k s
        let s := if s.fw.recovery then raise 0xA039 0 s else s
        let trial := if (fwSlot s k).state = 1 then some s.ridge.ns else none
        setForemanUp true (open_ { s with fw := { s.fw with recovery := false, trial := trial }, power.released := true })

/-- The dies as the last boot found them. -/
def lastBoot (s : State) : BootResult :=
  { bays := fld s SILL_PACKAGE 3 0, drams := fld s SILL_PACKAGE 7 4, nand := if nandWhole s then 3 else 2 ^ s.fw.running }

/-- A package reset: the pair is driven invalid, the session ends, what the reset clears is cleared, and the device boots from step 2
of R604 (R490, R596, R608). -/
def packageReset (b : BootResult) (cause code : Nat) (s : State) : State :=
  let s := endSession code (drivePair false 4 s)
  bootDevice b cause 1 (cleared (keepRecorder s) s)

/-- A package reset that Kingpost makes, after a page of the recorder (R595, R608). -/
def kingpostReset (cause code : Nat) (s : State) : State := packageReset (lastBoot s) cause code (commitPage 2 s)

end Sys2Proof.Machine
end

