-- ==== Sys2Proof/Machine/Firmware.lean ====
section
/-! DEFINITION. Firmware slots, adapter images and the return of a part: staging, switching, trials and the return erase
(R123, R496, R503, R526, R612–R614). -/

namespace Sys2Proof.Machine
open Sys2Proof

/-- The pSLC pool is READ_ONLY: every metadata change is refused (R521). -/
def metadataRefused (s : State) : Bool := decide (s.yard.reservePslc < 500)

/-- FW_STAGE: a container of at most 1 GiB is verified and written into the slot that does not run, or in recovery into slot A, which
becomes trial (R496, R521, R526, R612). -/
def execFwStage (f slot : Nat) (s : State) : Out :=
  .next (immediate f slot 0x0B01 (fun s =>
    let n := param s f slot 0x0B01 1
    let k := if s.fw.recovery then 0 else 1 - s.fw.running
    if 2 ^ 30 < n then badParam 0x0B01 1 s
    else match boxAt s f 1 (param s f slot 0x0B01 0) n with
      | .inl c => no c 0 s
      | .inr box =>
        if metadataRefused s then no 0x1D05 0 s
        else
          let x := fwSlot s k
          let s := putFwSlot k { x with
            valid := true, box := box, state := if s.fw.recovery then 1 else x.state, boots := if s.fw.recovery then 0 else x.boots } s
          ok [r8 k] (if s.fw.recovery then { s with fw.recoverAt := some s.ridge.ns } else s)) s)

/-- FW_ACTIVATE: a switch to the slot that does not run is staged (R613). -/
def execFwActivate (f slot : Nat) (s : State) : Out :=
  .next (immediate f slot 0x0B02 (fun s =>
    let x := fwSlot s (1 - s.fw.running)
    if !x.valid then no 0x1202 0 s
    else match (if x.box = [] then none else boxStatus s 1 x.box) with
      | some c => no c 0 s
      | none => ok [] { s with fw.staged := true }) s)

/-- KINGPOST_FW_SWITCH: between two slots of the rotation Kingpost switches to its component of the new slot (R613 steps 3
and 4). -/
def execKingpostFwSwitch (s : State) : Out :=
  match s.fw.switching with
  | none => .next s
  | some k => if s.kp.running.isSome then .next s else .next (raise 0xA032 k (runImage k { s with fw.switching := none }))

/-- The slot that a trial is about: the one switched to, or the one that runs. -/
def trialSlot (s : State) : Nat := s.fw.switching.getD s.fw.running

/-- FW_TRIAL_CONFIRM: Foreman of a trial slot has run 60 s without a restart: the slot is confirmed, and the security counter is raised
(R500, R614). -/
def execFwTrialConfirm (s : State) : Out :=
  let k := s.fw.running
  let x := fwSlot s k
  match s.fw.trial with
  | none => .next s
  | some t =>
    if decide (s.ridge.ns < t + 60000000000) || !s.mb.foremanUp || s.fw.switching.isSome || decide (x.state ≠ 1) then .next s
    else
      let s := putFwSlot k { x with state := 2, seq := (fwSlot s (1 - k)).seq + 1 } { s with fw.trial := none }
      let s := raise 0xA034 k s
      .next (if s.sec.raised then s else raiseCounter s)

/-- FW_TRIAL_REVERT: a trial slot whose Foreman restarts within the 60 s, does not serve within 250 ms, or whose Kingpost component
fails a self-test is rejected, and both processors return to the old slot (R613, R614). -/
def execFwTrialRevert (selftestFailed : Bool) (s : State) : Out :=
  let k := trialSlot s
  let x := fwSlot s k
  let old := fwSlot s (1 - k)
  let restarted := !s.mb.foremanUp && (match s.fw.trial with
    | some _ => true
    | none => decide (s.fw.switchedAt + 250000000 ≤ s.ridge.ns))
  let inTrial := s.fw.trial.all (fun t => decide (s.ridge.ns < t + 60000000000))
  if x.state ≠ 1 ∨ !(inTrial && (restarted || selftestFailed)) ∨ !(old.valid && decide (old.state = 2)) then .next s
  else
    let s := raise 0xA033 k (putFwSlot k { x with state := 3 } s)
    .next (setForemanUp false { s with fw := { s.fw with
      trial := none, switchedAt := s.ridge.ns, switching := if s.fw.running = k then some (1 - k) else none } })

/-- RECOVERY_PACKAGE_RESET: 100 ms after a successful FW_STAGE in recovery; which cause and which of the end codes 3 to 5 it shows is
not stated (R608, R612). -/
def execRecoveryPackageReset (s : State) : Out :=
  match s.fw.recoverAt with
  | none => .next s
  | some t => if s.ridge.ns < t + 100000000 then .next s
    else
      let open_ := fun (i : Int) => (Config.unstated 612 [i, (s.ridge.ns : Int)]).toNat
      .next (kingpostReset (1 + open_ 0 % 3) (3 + open_ 1 % 3) { s with fw.recoverAt := none })

/-! ### Adapter images (R123) -/

/-- ADAPTER_STORE: a container of kind 2 is verified and stored in the metadata under an adapter number; `image` is what it holds
(R123, R496, R521, R526). -/
def execAdapterStore (f slot : Nat) (image : AdapterImage) (s : State) : Out :=
  .next (immediate f slot 0x0B03 (fun s =>
    let a := param s f slot 0x0B03 2
    if a = 0 then badParam 0x0B03 2 s
    else match boxAt s f 2 (param s f slot 0x0B03 0) (param s f slot 0x0B03 1) with
      | .inl c => no c 0 s
      | .inr box =>
        if unmountable s then no 0x1D0A 0 s
        else if metadataRefused s then no 0x1D05 0 s
        else ok [] { s with yard.adapters := tput a { image with templates := image.templates.take 16, box := box } s.yard.adapters }) s)

/-- ADAPTER_STAGE: a port's adapter from the next mode change on: the native one, or a stored image, verified again (R122–R124,
R496). -/
def execAdapterStage (f slot : Nat) (s : State) : Out :=
  .next (immediate f slot 0x0B04 (fun s =>
    let p := param s f slot 0x0B04 0
    let a := param s f slot 0x0B04 1
    let put := fun (t : Tab PortAdapter) => ok [] { s with net := { s.net with
      staged := { s.net.staged with adapters := t }, reload := linsert p s.net.reload } }
    if 7 < p then badParam 0x0B04 0 s
    else if a = 0 then put (tdel p s.net.staged.adapters)
    else match tget a s.yard.adapters with
      | none => no 0x1007 0 s
      | some image =>
        match boxStatus s 2 image.box with
        | some c => no c 0 s
        | none => put (tput p ⟨a, image⟩ s.net.staged.adapters)) s)

/-! ### The return of a part (R503) -/

/-- RETURN_PREPARE: a return authorisation is verified; RETURN_PENDING is blown, every client domain is quiesced, the safe state is
taken and key_kill is blown; the erase then runs (R503, R543). -/
def execReturnPrepare (f slot : Nat) (s : State) : Out :=
  if s.sec.returnBy.isSome then .next s
  else .next (deferred f slot 0x0B07 (fun s =>
    let a := param s f slot 0x0B07 0
    if s.sec.fuses.returnPending || s.sec.fuses.returned then .inl (no 0x1209 0 s)
    else if !readable s f a 256 then .inl (no 0x1202 0 s)
    else match boxAt s f 3 a (256 + boxPart (readBytes s a 256) 48 4) with
      | .inl c => .inl (no c 0 s)
      | .inr _ =>
        let s := { s with sec.returnBy := some (16 * f + slot), sec.fuses.returnPending := true }
        let s := (List.range 63).foldl (fun s i => quiesceDomain (i + 1) false s) s
        let s := fault 28 s
        .inr (clearMask FENCE_STATUS 1 { s with sec.fuses.keyKill := true })) s)

/-- RETURN_ERASE_COMPLETE: the namespaces, the model store and the metadata but for the recorder and the retirements are erased;
RETURNED is blown, the response is written, and a package reset follows (R503, R608). -/
def execReturnEraseComplete (s : State) : Out :=
  if !s.sec.fuses.returnPending || !s.sec.fuses.keyKill || s.sec.fuses.returned then .next s
  else
    let y := { s.yard with blocks := [], unreadable := [], models := [], adapters := [], persisted := none, queue := [], page := [], closing := [] }
    let s := raise 0xA022 0 { s with yard := y, sec := { s.sec with check := none, fuses := { s.sec.fuses with returned := true } } }
    let s := match s.sec.returnBy with
      | some k => finish (k / 16) (k % 16) 0 0 [] s
      | none => s
    .next (kingpostReset 3 5 { s with sec.returnBy := none })

end Sys2Proof.Machine
end

