-- ==== Sys2Proof/Machine/GovOps.lean ====
section
/-! DEFINITION. The Governor's operations: ceilings and tokens, calibration and attribution, the averaging window, the limiter and
the thermal state (R560–R580). -/

namespace Sys2Proof.Machine
open Sys2Proof

/-- The present Bays. -/
def presentBays (s : State) : List Nat := (List.range 4).filter (fun n => bayPresent s n)

def tokFloor (s : State) : Nat := liveFld s GOVERNOR_CTRL 23 16
def tTarget (s : State) : Nat := liveFld s GOVERNOR_CTRL 7 0

/-- The five ceilings of a Bay in the bit order of R570; 0xFF is none. -/
def ceilings (s : State) (n : Nat) : List Nat :=
  (List.range 4).map (fun i => fld s (GOVERNOR_BAY_CEIL n) (8 * i + 7) (8 * i)) ++ [fld s (GOVERNOR_BAY_EXT n) 7 0]

/-- Writes ceiling `i` of a Bay. -/
def putCeiling (n i v : Nat) (s : State) : State := setFld (GOVERNOR_BAY_CEIL n) (8 * i + 7) (8 * i) v s

/-- The Governor writes BAYn.TOKENS from the ceilings (R570). -/
def putTokens (n : Nat) (s : State) : State :=
  let m := (ceilings s n).foldl min 0xFF
  let t := if m = 0xFF then 0xFF else max (tokFloor s) m
  wr (BAY_TOKENS n) (t + 256 * 64 + (if t = 0xFF then 0 else 2 ^ 31)) s

/-- The BAYn.TOKENS word in force since the last reference tick (R190). -/
def tokensInForce (s : State) (n : Nat) : Nat := tgetD n (BAY_TOKENS n).reset s.fab.tokens

/-- Whether reason `i` accrues on Bay `n`: its ceiling holds the tokens in force (R571). -/
def reasonAccrues (s : State) (n i : Nat) : Bool :=
  let c := (ceilings s n).getD i 0xFF
  decide (c ≠ 0xFF) && decide (c ≤ bits (tokensInForce s n) 7 0)

/-- What a reference tick adds to the durations of the throttle reasons (R571); event 0xC004 after 10 s of the thermal reason on a
Bay without a break (R576). -/
def accrueReasons (s : State) : State :=
  let bays := presentBays s
  let mask := ((List.range 5).map (fun i => if bays.any (fun n => reasonAccrues s n i) then 2 ^ i else 0)).sum
  let s := { s with gov := { s.gov with
      ticks := s.gov.ticks + 1, accrued := s.gov.accrued ||| mask
      durations := (List.range 5).foldl (fun t i => if bit mask i then tput i (tgetD i 0 t + 1) t else t) s.gov.durations } }
  bays.foldl (fun s n =>
    let k := if reasonAccrues s n 2 then tgetD n 0 s.gov.hotTicks + 1 else 0
    if k = 0 ∧ tgetD n 0 s.gov.hotTicks = 0 then s
    else
      let s := { s with gov.hotTicks := tput n k s.gov.hotTicks }
      if k = 1000000000 then raise 0xC004 n s else s) s

/-! ### Measurement and calibration (R560–R564) -/

/-- The activity of a rail in a control interval: the estimated energy by domain tag, and that of its regions' static terms, in
units of 2^−16 µJ. Their coefficients are constants of the firmware, so the sums are operands (R562, R563). -/
def railSum (a : List (Nat × Nat)) : Nat := (a.map (·.2)).sum

/-- The input energy in µJ that the Plinth's counter shows. -/
def inputUj (s : State) : Nat := s.gov.input / 1000000
def railUj (s : State) (r : Nat) : Nat := tgetD r 0 s.gov.rails / 1000000
def railScale (s : State) (r : Nat) : Nat := tgetD r 0x4000 s.gov.scales

/-- An estimate of 2^−16 µJ scaled to whole µJ, halves up (R563). -/
def scaled (sc e : Nat) : Nat := (sc * e + 2 ^ 29) / 2 ^ 30

/-- The scale of a rail after an interval, and whether it was clamped to 0.80–1.25 (R563). -/
def nextScale (sc sum m : Nat) : Nat × Bool :=
  let n : Int := if m * 2 ^ 16 ≤ 20 * sum ∧ 0 < sum then
      (sc : Int) + Int.tdiv (((m * 2 ^ 30 / sum : Nat) : Int) - sc) 16
    else sc
  if n < 13108 then (13108, true) else if 20480 < n then (20480, true) else (n.toNat, false)

/-- Calibrates and attributes rail `r` (R563). -/
def calibrateRail (r : Nat) (act : List (Nat × Nat)) (static : Nat) (s : State) : State :=
  let m := railUj s r - tgetD r 0 s.gov.railsRead
  let (sc, clamped) := nextScale (railScale s r) (railSum act + static) m
  let s := if clamped then raise 0xC006 r { s with gov.clamped := tput r s.gov.intervals s.gov.clamped } else s
  let mine := act.filter (fun p => decide (p.1 < 64))
  let total := (mine.map (fun p => scaled sc p.2)).sum
  let g := { s.gov with
    scales := tput r sc s.gov.scales
    charged := mine.foldl (fun t p => tput p.1 (tgetD p.1 0 t + scaled sc p.2) t) s.gov.charged
    system := s.gov.system + (m : Int) - total
    railsRead := tput r (railUj s r) s.gov.railsRead }
  if r < 4 then
    let steps := tgetD r 0 s.fab.steps - tgetD r 0 g.stepsRead
    wr (GOVERNOR_BAY_MW r) (min 262143 (scaled sc (railSum act + static)))
      { s with gov := { g with
          perStep := if steps = 0 then g.perStep else tput r (scaled sc (railSum act), steps) g.perStep
          stepsRead := tput r (tgetD r 0 s.fab.steps) g.stepsRead
          staticMw := tput r (scaled sc static) g.staticMw } }
  else { s with gov := g }

/-! ### The averaging window (R572, R573, R578) -/

/-- P_t in mW: the power that would bring the window to its cap (R573). -/
def windowTarget (s : State) (w : Window) : Nat :=
  let total := w.secs * 100000000
  let rem := max 100000 (total - (s.gov.ticks - w.ticks))
  let p : Int := ((w.cap * 1000 * total : Nat) : Int) - ((inputUj s - w.energy : Nat) : Int) * 100000
  (max 0 (min 160000 (p / (rem : Int)))).toNat

/-- The average-power ceiling of Bay `n`, from the power left to all Bays (R573). -/
def averageCode (s : State) (n : Nat) (pBay : Int) : Nat :=
  let share := fun (k : Nat) => max 1 (liveFld s (GOVERNOR_BAY_SHARE k) 7 0)
  let a : Int := Int.tdiv (pBay * share n) (((presentBays s).map share).sum : Nat)
  match tget n s.gov.perStep with
  | none => (Config.unstated 573 [n, a]).toNat % 256
  | some (e, steps) =>
    let past : Int := a - ((tgetD n 0 s.gov.staticMw : Nat) : Int)
    if e = 0 then (if past < 0 then 0 else 0xFF)
    else
      let r := Int.tdiv (past * steps) (16000 * e : Nat)
      if 3175 ≤ r then 0xFF else (max 0 (8 * r / 100)).toNat

/-- The 64-byte record of a window, closed or partial, at a closing time (R578). -/
def windowRecord (s : State) (w : Window) (part unmet : Bool) : List Byte :=
  let ticks := s.gov.ticks - w.ticks
  let uj := inputUj s - w.energy
  padTo 64 (leBytes 1 1 ++ leBytes 1 (b2n part + 2 * b2n unmet + 4 * b2n w.changed) ++ leBytes 1 w.cap ++ leBytes 1 w.secs ++
    leBytes 4 w.number ++ leBytes 8 w.tOpen ++ leBytes 8 s.ridge.ns ++ leBytes 8 ticks ++ leBytes 8 uj ++
    leBytes 4 (uj * 100000 / max 1 ticks) ++ leBytes 4 w.peak ++
    (List.range 5).flatMap (fun i => leBytes 2 (min 65535 ((tgetD i 0 s.gov.durations - tgetD i 0 w.durations) / 1000000))) ++
    leBytes 2 (fld s RIDGE_EPOCH_STATE 15 0))

/-- cap_unmet: for at least 1 % of the window's intervals every present Bay was held at tok_floor above P_t (R573). -/
def capUnmet (w : Window) : Bool := decide (0 < w.intervals) && decide (w.intervals ≤ 100 * w.held)

/-- The next window opens under the pending cap, or the one in force (R572, R580). -/
def openWindow (s : State) : State :=
  let (cap, secs) := s.gov.pending.getD (fld s GOVERNOR_CAP 7 0, fld s GOVERNOR_CAP 15 8)
  let n := s.gov.windows + 1
  let changed := match s.gov.lastCap with | some c => decide (c ≠ cap) | none => false
  let w : Window := { number := n, cap := cap, secs := secs, tOpen := s.ridge.ns, ticks := s.gov.ticks, energy := inputUj s,
                      durations := s.gov.durations, left := secs, changed := changed }
  let new := decide (s.power.retained.governed ≠ cap)
  let s := { s with gov := { s.gov with window := some w, windows := n, pending := none, lastCap := some cap },
                    power.retained.governed := cap }
  let s := setFld GOVERNOR_STATUS 5 5 0 (wr GOVERNOR_WINDOW_NUM n (wr GOVERNOR_CAP (cap + 256 * secs) s))
  if new then raise 0xC007 n s else s

/-- A window closes: its record, its average and cap_unmet (R572, R573, R578, R592). -/
def closeWindow (w : Window) (s : State) : State :=
  let unmet := capUnmet w
  let avg := (inputUj s - w.energy) * 100000 / max 1 (s.gov.ticks - w.ticks)
  let s := keepWindow (windowRecord s w false unmet) s
  let s := wr GOVERNOR_WINDOW_MW avg (setFld GOVERNOR_STATUS 7 7 (b2n unmet) s)
  let s := histo 7 (linBin 400 25 (avg / max 1 w.cap : Nat)) s
  if unmet then raise 0xC001 w.number (inc GOVERNOR_CAP_UNMET s) else s

/-- A firing of mark 1,021 as the averaging window sees it (R572). -/
def windowSecond (s : State) : State :=
  match s.gov.window with
  | none => openWindow s
  | some w => if w.left ≤ 1 then openWindow (closeWindow w s) else { s with gov.window := some { w with left := w.left - 1 } }

/-! ### Ceilings of the control interval (R573–R576) -/

/-- The highest Tj that bears on Bay `n`, in 0.1 °C: its own regions, the Sill's and the Plinth's (R576). -/
def hottest (s : State) (n : Nat) : Option Int :=
  let l := (List.range 23).filterMap (fun i => if i < 6 ∨ i = 22 ∨ (6 + 4 * n ≤ i ∧ i < 10 + 4 * n) then tget i s.gov.tj else none)
  l.foldl (fun a t => match a with | none => some t | some b => some (max b t)) none

/-- The thermal ceiling of Bay `n` (R576). -/
def thermalCeiling (n : Nat) (s : State) : State :=
  match hottest s n with
  | none => s
  | some t =>
    let c := (ceilings s n).getD 2 0xFF
    let past : Int := t - 10 * tTarget s
    if 0 < past then
      putCeiling n 2 (c - max 1 (ceilDiv (2 * past.toNat) 10)) { s with gov.coolMs := tput n 0 s.gov.coolMs }
    else if past ≤ -20 then
      let k := tgetD n 0 s.gov.coolMs + 1
      if k < 10 then { s with gov.coolMs := tput n k s.gov.coolMs }
      else putCeiling n 2 (min 0xFF (c + 1)) { s with gov.coolMs := tput n 0 s.gov.coolMs }
    else { s with gov.coolMs := tput n 0 s.gov.coolMs }

/-- The ageing ceiling of Bay `n` (R574). -/
def ageCeiling (n : Nat) (s : State) : State :=
  let c := (ceilings s n).getD 3 0xFF
  let trim := fld s (GOVERNOR_BAY_AGE n) 5 0
  let head := fld s (GOVERNOR_BAY_AGE n) 15 8
  if trim = 30 ∧ head < 8 then
    let k := tgetD n 0 s.gov.fallMs + 1
    if k < 10 then { s with gov := { s.gov with fallMs := tput n k s.gov.fallMs, riseMs := tput n 0 s.gov.riseMs } }
    else putCeiling n 3 (c - 1) { s with gov := { s.gov with fallMs := tput n 0 s.gov.fallMs, riseMs := tput n 0 s.gov.riseMs } }
  else if 10 ≤ head then
    let k := tgetD n 0 s.gov.riseMs + 1
    if k < 1000 then { s with gov := { s.gov with riseMs := tput n k s.gov.riseMs, fallMs := tput n 0 s.gov.fallMs } }
    else putCeiling n 3 (min 0xFF (c + 1)) { s with gov := { s.gov with riseMs := tput n 0 s.gov.riseMs, fallMs := tput n 0 s.gov.fallMs } }
  else { s with gov := { s.gov with fallMs := tput n 0 s.gov.fallMs, riseMs := tput n 0 s.gov.riseMs } }

/-- The input-current ceiling that the two clamps of the limiter give (R574). -/
def inputCeiling (s : State) : Nat :=
  min (if s.gov.peak then tokFloor s else 0xFF) (if s.gov.excursion then s.gov.excursionCode else 0xFF)

/-- The input-current ceiling of every present Bay, which acts within microseconds (R574). -/
def putInputCeiling (s : State) : State :=
  (presentBays s).foldl (fun s n => if (ceilings s n).getD 1 0xFF = inputCeiling s then s else putTokens n (putCeiling n 1 (inputCeiling s) s)) s

/-- The external ceilings that were asked for take effect (R575). -/
def takeExternal (s : State) : State :=
  let l := s.gov.ext
  l.foldl (fun s p => setFld (GOVERNOR_BAY_EXT p.1) 7 0 (if p.2 = 0xFF then 0xFF else max (tokFloor s) p.2) s)
    { s with gov.ext := [] }

/-- A request for external ceilings, from the mailbox or BAR0: taken at the next control interval, or refused where it names no
present Bay (R575). -/
def externalRequest (mask tokens : Nat) (s : State) : Option State :=
  let bays := (presentBays s).filter (fun n => bit mask n)
  if bays = [] then none
  else some (raise 0xC00A 0 { s with gov.ext := bays.foldl (fun t n => tput n tokens t) s.gov.ext })

/-- A cap request is valid (R579). -/
def capOk (cap : Nat) : Bool := decide (30 ≤ cap) && decide (cap ≤ 125)
def secsOk (secs : Nat) : Bool := decide (1 ≤ secs) && decide (secs ≤ 60)

/-- A valid cap request is on its way to the latch (R579). -/
def capRequest (cap secs : Nat) (by_ : Option Nat) (s : State) : State :=
  setFld GOVERNOR_STATUS 6 6 0 { s with gov.requests := s.gov.requests ++ [⟨cap, secs, by_⟩] }

end Sys2Proof.Machine
end

