-- ==== Sys2Proof/Machine/Governor.lean ====
section
/-! DEFINITION. Commands of the Governor: samples, control intervals, the averaging window, age trims, caps and external ceilings
(chapter 19). -/

namespace Sys2Proof.Machine
open Sys2Proof

/-- The limits of a rail's sense point in mV: the set-point or nominal value and its margins (R560). -/
def railLimits (s : State) (r : Nat) : Nat × Nat :=
  let trim := fun (n : Nat) => if n < 4 then fld s (GOVERNOR_BAY_AGE n) 5 0 else fld s GOVERNOR_SILL_AGE 5 0
  if r < 4 then
    let v := fld s (BAY_SET_POINT r) 25 16
    (v, v + 160 + trim r)
  else if r = 4 then (720, 880 + trim 4)
  else
    let v := [850, 1100, 1800, 1800, 3300, 900].getD (r - 5) 0
    (v - v * 3 / 100, v + v * 3 / 100)

/-- Every rail's lowest sense voltage is within its limits. -/
def railsGood (s : State) : Bool :=
  (List.range 11).all (fun r => match tget r s.gov.railMv with
    | none => true
    | some v => decide ((railLimits s r).1 ≤ v) && decide (v ≤ (railLimits s r).2))

/-- INPUT_SAMPLE: VIN, the input current in mA, and of each rail the lowest sense voltage in mV with the current in units of 10 mA:
energies, the peak and excursion clamps, the judgement of VIN, and extremes (R560, R574, R593, R602). -/
def execInputSample (vin ma : Nat) (rails : List (Nat × Nat)) (s : State) : Out :=
  let idxd := (List.range 11).zip rails
  let s := { s with gov := { s.gov with
    input := s.gov.input + vin * ma
    rails := idxd.foldl (fun t p => tput p.1 (tgetD p.1 0 t + p.2.1 * p.2.2 * 10) t) s.gov.rails
    railMv := idxd.foldl (fun t p => tput p.1 p.2.1 t) s.gov.railMv
    railMa := idxd.foldl (fun t p => tput p.1 p.2.2 t) s.gov.railMa } }
  let s := wr GOVERNOR_INPUT (min 65535 vin + 65536 * min 65535 ma) s
  let s := (idxd.take 4).foldl (fun s p => (List.range 4).foldl (fun s r => setFld (BAY_REGION_ENV p.1 r) 11 0 (min 4095 p.2.1) s) s) s
  let s := idxd.foldl (fun s p => extreme (27 + p.1) p.2.1 s) (extreme 26 ma (extreme 23 vin s))
  let s := if bit (rd s KINGPOST_FAULT_HOLD) 24 && railsGood s then faultEnds 24 s else s
  let high := decide (160000000 < vin * ma) || decide (14900 < ma)
  let below := if vin * ma < 150000000 then s.gov.below + 1 else 0
  let s := { s with gov.below := below }
  let s := if high && !s.gov.peak then raise 0xC002 0 (inc GOVERNOR_PEAK_CLAMPS { s with gov.peak := true })
    else if s.gov.peak && decide (100 ≤ below) then { s with gov.peak := false } else s
  let credit := if 11600 < ma then s.gov.credit - 100 else min 1000000 (s.gov.credit + 1)
  let s := setFld GOVERNOR_EXCURSION 13 0 (credit / 100) { s with gov.credit := credit }
  let s := if credit = 0 ∧ s.gov.excursion = false then
      raise 0xC003 0 (inc GOVERNOR_EXCURSION_CLAMPS
        { s with gov := { s.gov with excursion := true, excursionCode := (Config.unstated 574 [vin, ma]).toNat % 256 } })
    else if s.gov.excursion && decide (500000 ≤ credit) then { s with gov.excursion := false } else s
  .next (judgeVin vin (putInputCeiling s))

/-- RAIL_FAULT: a rail outside its limits for more than 2 µs (R569). -/
def execRailFault (rail : Nat) (s : State) : Out :=
  if 10 < rail ∨ s.power.state ≠ .run then .next s else .next (fault 24 (raise 0xC008 rail s))

/-- TJ_REPORT: a region, by the index of R593, reports its Tj in 0.1 °C (R576, R577). The die in the argument of 0xC009 is the
number of the Bay, 4 for the Sill and 5 for the Plinth (notes/assumptions/52.md). -/
def execTjReport (region : Nat) (t : Int) (s : State) : Out :=
  if 23 ≤ region then .next s
  else
    let s := extreme region t { s with gov.tj := tput region t s.gov.tj }
    let bay := (region - 6) / 4
    let s := if 6 ≤ region ∧ region < 22 then
        let old := toSigned 16 (fld s (GOVERNOR_BAY_TJ_MAX bay) 15 0)
        let s := setFld (BAY_REGION_ENV bay ((region - 6) % 4)) 31 16 (ofSigned 16 (satSigned 16 t)) s
        if old < t then setFld (GOVERNOR_BAY_TJ_MAX bay) 15 0 (ofSigned 16 (satSigned 16 t)) s else s
      else s
    let since := if t < 1300 then none else some (tgetD region s.ridge.ns s.gov.hot)
    let s := { s with gov.hot := match since with | none => tdel region s.gov.hot | some x => tput region x s.gov.hot }
    let limit := decide (1400 ≤ t) || (match since with | some x => decide (x + 1000000 ≤ s.ridge.ns) | none => false)
    let arg := if region < 6 then 64 + region else if region = 22 then 80 else bay * 16 + (region - 6) % 4
    if limit && !bit (rd s KINGPOST_FAULT_HOLD) 25 then .next (fault 25 (raise 0xC009 arg s))
    else if bit (rd s KINGPOST_FAULT_HOLD) 25 && s.gov.tj.all (fun p => decide (p.2 ≤ 1250)) then .next (faultEnds 25 s)
    else .next s

/-- What the links of a Bay did in the last 1 ms: their replays are counted, more than 64 of one are raised, and the load is shown
(R450, R453, R460, R475). -/
def linkInterval (b : Nat) (replays : List Nat) (load : Nat) (s : State) : State :=
  let s := wr (BAY_PURLIN_LOAD b) load (incFld (BAY_PURLIN_REPLAY b) 31 0 replays.sum s)
  (replays.take 3).zipIdx.foldl (fun s p =>
    if 64 < p.1 then raise 0xF024 (b * 2 ^ 30 + p.2 * 2 ^ 28) (setMask (BAY_MEM_STATUS b) 8 s) else s) s

/-- The temperature of a stack in 0.1 °C is shown in °C; the temperature from which a stack counts as hot is not stated (R593,
notes/assumptions/67.md). -/
def dramInterval (b : Nat) (t : Int) (s : State) : State :=
  let s := setFld (BAY_DRAM_STATUS b) 15 8 (ofSigned 8 (satSigned 8 (t / 10))) s
  setFld (BAY_DRAM_STATUS b) 1 1 ((Config.unstated 453 [(b : Int), t]).toNat % 2) s

/-- CONTROL_INTERVAL: `activity` gives, rail by rail, the estimated energy by tag and the static term, `headroom` the lowest headroom
of rails 0–4 in %, `dram` the temperatures of the stacks, and `links`, for each Bay, the replays of its three links in the last 1 ms
and its load word (R453, R460, R562–R564, R570, R573–R576, R593). -/
def execControlInterval (activity : List (List (Nat × Nat) × Nat)) (headroom : List Nat) (dram : List Int)
    (links : List (List Nat × Nat)) (s : State) : Out :=
  if s.ridge.ns < s.gov.nextInterval || !inRun s then .next s
  else
    let s := { s with gov := { s.gov with nextInterval := s.gov.nextInterval + 1000000, intervals := s.gov.intervals + 1 } }
    let pin := inputUj s - s.gov.inputRead
    let rails := ((List.range 11).map (fun r => railUj s r - tgetD r 0 s.gov.railsRead)).sum
    let s := (List.range 11).foldl (fun s r => let a := activity.getD r ([], 0); calibrateRail r a.1 a.2 s) s
    let s := { s with gov := { s.gov with system := s.gov.system + (pin : Int) - rails, inputRead := inputUj s } }
    let calib := s.gov.clamped.all (fun p => decide (p.2 + 1000 ≤ s.gov.intervals))
    let s := setFld GOVERNOR_STATUS 8 8 (b2n calib) (wr GOVERNOR_INPUT_MW (min 262143 pin) s)
    let s := extreme 42 (fld s RIDGE_SKEW_MAX 15 0) (extreme 24 (fld s CAMIN_VPOC_MV 15 0) (extreme 25 pin s))
    let s := ((List.range 4).zip dram).foldl (fun s p => dramInterval p.1 p.2 (extreme (38 + p.1) p.2 s)) s
    let s := ((List.range 4).zip links).foldl (fun s p => linkInterval p.1 p.2.1 p.2.2 s) s
    let s := ((List.range 5).zip headroom).foldl (fun s p =>
      let s := setFld (if p.1 < 4 then GOVERNOR_BAY_AGE p.1 else GOVERNOR_SILL_AGE) 15 8 p.2 s
      if 12 ≤ p.2 then { s with gov.lowHeadroom := tput p.1 0 s.gov.lowHeadroom } else s) s
    let bays := presentBays s
    let s := match s.gov.window with
      | none => s
      | some w =>
        let pt := windowTarget s w
        let pBay : Int := (pt : Int) - ((pin : Int) - ((bays.map (fun n => fld s (GOVERNOR_BAY_MW n) 17 0)).sum : Nat))
        let held := bays.all (fun n => decide (bits (tokensInForce s n) 7 0 = tokFloor s)) && decide (pt < pin)
        let w := { w with peak := max w.peak pin, intervals := w.intervals + 1, held := w.held + b2n held }
        let s := wr GOVERNOR_TARGET_MW pt { s with gov.window := some w }
        let s := bays.foldl (fun s n => putCeiling n 0 (averageCode s n pBay) s) s
        { s with gov.partial_ := windowRecord s w true (capUnmet w) }
    let s := takeExternal s
    let s := bays.foldl (fun s n => ageCeiling n (thermalCeiling n (putCeiling n 1 (inputCeiling s) s))) s
    let s := setFld GOVERNOR_STATUS 4 0 s.gov.accrued { s with gov.accrued := 0 }
    .next (bays.foldl (fun s n => putTokens n s) s)

/-- SECOND_MARK: mark 1,021 fires at a whole second: powered time, buckets, samples of the histograms, and the averaging window
(R572, R585, R589, R592). -/
def execSecondMark (s : State) : Out :=
  if s.ridge.ns < s.gov.nextSecond || !inRun s then .next s
  else
    let s := powerSecond { s with gov.nextSecond := s.gov.nextSecond + 1000000000 }
    let top := fun (l : List Nat) => (l.filterMap (fun i => tget i s.gov.tj)).foldl
      (fun (a : Option Int) t => match a with | none => some t | some b => some (max b t)) none
    let sampleTj := fun (id : Nat) (l : List Nat) (s : State) => match top l with
      | none => s
      | some t => histo id (linBin (-400) 50 t) s
    let s := (presentBays s).foldl (fun s n => sampleTj n ((List.range 4).map (fun r => 6 + 4 * n + r)) s) s
    let s := sampleTj 4 [0, 1, 2, 3, 4, 5, 22] s
    let s := histo 5 (linBin 9000 150 s.power.vin) (histo 6 (linBin 0 5000 (fld s GOVERNOR_INPUT_MW 17 0)) s)
    let s := histo 13 (linBin 0 8 ((presentBays s).foldl (fun m n => min m (bits (tokensInForce s n) 7 0)) 0xFF : Nat)) s
    let s := inc YARD_PASS_AGE s
    let below := fun (r : Nat) => decide (fld s (if r < 4 then GOVERNOR_BAY_AGE r else GOVERNOR_SILL_AGE) 15 8 < 12)
    let low := (List.range 5).map (fun r => (r, if below r then tgetD r 0 s.gov.lowHeadroom + 1 else 0))
    let s := { s with gov.lowHeadroom := low }
    let s := if bit (rd s KINGPOST_FAULT_HOLD) 23 && s.kp.restarts.all (fun t => decide (t + 600000000000 ≤ s.ridge.ns)) then
        faultEnds 23 s else s
    .next (windowSecond s)

/-- AGE_TRIM_RISE: 1 h of powered time below 12 % raises the age_trim of rail 0–4 by 5 mV, to at most 30 mV; the Plinth's retained
store takes it (R567, R605). -/
def execAgeTrimRise (rail : Nat) (s : State) : Out :=
  let r := if rail < 4 then GOVERNOR_BAY_AGE rail else GOVERNOR_SILL_AGE
  if 4 < rail ∨ tgetD rail 0 s.gov.lowHeadroom < 3600 then .next s
  else
    let v := min 30 (fld s r 5 0 + 5)
    let reaches := decide (v = 30) && decide (fld s r 5 0 < 30)
    let s := setFld r 5 0 v { s with gov.lowHeadroom := tput rail 0 s.gov.lowHeadroom,
                                     power.retained.ageTrim := tput rail v s.power.retained.ageTrim }
    .next (if reaches then raise 0xC005 rail s else s)

/-- CAP_LATCH: the Plinth latches the oldest request, which is pending and acknowledged from then on, with its settings in the
retained store (R579, R580). -/
def execCapLatch (s : State) : Out :=
  match s.gov.requests with
  | [] => .next s
  | q :: rest =>
    let s := { s with gov := { s.gov with requests := rest, pending := some (q.cap, q.secs) } }
    let s := { s with power.retained.cap := q.cap, power.retained.secs := q.secs,
                      power.retained.seq := (s.power.retained.seq + 1) % 2 ^ 32 }
    let s := setMask GOVERNOR_STATUS 0x60 (setFld GOVERNOR_CAP 31 16 (q.cap + 256 * q.secs) s)
    match q.by_ with
    | none => .next s
    | some k => .next (finish (k / 16) (k % 16) 0 0 [r8 1] s)

/-- GOVERNOR_CAP_REQ_WRITE: as CAP_SET; a value out of range is ignored and counted (R579). -/
def execGovernorCapReqWrite (value : Nat) (s : State) : Out :=
  if capOk (bits value 7 0) && secsOk (bits value 15 8) then .next (capRequest (bits value 7 0) (bits value 15 8) none s)
  else .next (ignoredWrite 0 GOVERNOR_CAP_REQ.addr false allBits s)

/-- GOVERNOR_EXT_REQ_WRITE: as THROTTLE_REQUEST; one that names no present Bay is ignored and counted (R575). -/
def execGovernorExtReqWrite (value : Nat) (s : State) : Out :=
  match externalRequest (bits value 3 0) (bits value 15 8) s with
  | some s' => .next s'
  | none => .next (ignoredWrite 0 GOVERNOR_EXT_REQ.addr false allBits s)

/-! ### Mailbox commands -/

/-- POWER_READ (R565). -/
def execPowerRead (f slot : Nat) (s : State) : Out :=
  .next (immediate f slot 0x0701 (fun s =>
    ok [r32 (rd s GOVERNOR_INPUT_MW), r32 (rd s GOVERNOR_WINDOW_MW), r64 (tgetD f 0 s.gov.charged / 1000)] s) s)

/-- SET_POINT_STAGE: a Bay's set-point is staged, or refused (R187). -/
def execSetPointStage (f slot : Nat) (s : State) : Out :=
  .next (immediate f slot 0x0702 (fun s =>
    let b := param s f slot 0x0702 0
    let v := param s f slot 0x0702 1
    if 3 < b || !bayPresent s b then badParam 0x0702 0 s
    else if !setPointOk v || !neighbourOk s b v then badParam 0x0702 1 s
    else ok [] (setFld (BAY_SET_POINT b) 9 0 v s)) s)

/-- CAP_SET: the request goes to the latch, whose completion is answered (R579). -/
def execCapSet (f slot : Nat) (s : State) : Out :=
  if s.gov.requests.any (fun q => decide (q.by_ = some (16 * f + slot))) then .next s
  else .next (deferred f slot 0x0703 (fun s =>
    let cap := param s f slot 0x0703 0
    let secs := param s f slot 0x0703 1
    if !capOk cap then .inl (no 0x1301 (paramOff 0x0703 0) s)
    else if !secsOk secs then .inl (no 0x1301 (paramOff 0x0703 1) s)
    else .inr (capRequest cap secs (some (16 * f + slot)) s)) s)

/-- THROTTLE_READ: the reasons of the last control interval and the five durations in µs (R571). -/
def execThrottleRead (f slot : Nat) (s : State) : Out :=
  .next (immediate f slot 0x0704 (fun s =>
    ok (r8 (fld s GOVERNOR_STATUS 4 0) :: (List.range 5).map (fun i => r64 (tgetD i 0 s.gov.durations / 100))) s) s)

/-- THROTTLE_REQUEST (R575). -/
def execThrottleRequest (f slot : Nat) (s : State) : Out :=
  .next (immediate f slot 0x0705 (fun s =>
    match externalRequest (param s f slot 0x0705 0) (param s f slot 0x0705 1) s with
    | some s' => ok [] s'
    | none => no 0x1302 0 s) s)

end Sys2Proof.Machine
end

