-- ==== Sys2Proof/Machine/Health.lean ====
section
/-! DEFINITION. The health of memories, links and crossings: the patrol scrubber, purlin links, and regions outside their limits
(R460–R467). -/

namespace Sys2Proof.Machine
open Sys2Proof

/-- The event argument of R475. -/
def wordArg (a : Nat) : Nat := bayOf a * 2 ^ 30 + b2n (decide (loftBase ≤ a)) * 2 ^ 29 + a / 64 % 2 ^ 26

/-- A single-bit error is corrected: counted, and a stack with more than 1,000 within an hour is raised (R464, R466). -/
def correctedWord (a : Nat) (s : State) : State :=
  let b := bayOf a
  let s := setMask (BAY_MEM_STATUS b) 1 s
  if loftBase ≤ a then { inc (BAY_LOFT_CE b) s with recd.loftErrors := s.recd.loftErrors + 1 }
  else
    let s := { inc (BAY_DRAM_CE b) s with recd.dramErrors := s.recd.dramErrors + 1 }
    let times : List Nat := (tgetD b [] s.memory.ceTimes ++ [s.ridge.ns]).filter (fun t => decide (s.ridge.ns < t + 3600000000000))
    let s := { s with memory.ceTimes := tput b times s.memory.ceTimes }
    if 1000 < times.length then raise 0xF027 (wordArg a) s else s

/-- An uncorrectable pattern: the word is poisoned, its address latched, and the error raised (R464). -/
def lostWord (a : Nat) (s : State) : State :=
  let b := bayOf a
  let s := setMask (BAY_MEM_STATUS b) 2 { s with poison := linsert (a / 8) s.poison }
  if loftBase ≤ a then
    raise 0xF021 (wordArg a) (wr64 (BAY_LOFT_ERR_ADDR_LO b) (BAY_LOFT_ERR_ADDR_HI b) a (inc (BAY_LOFT_UE b) s))
  else raise 0xF020 (wordArg a) (wr64 (BAY_DRAM_ERR_ADDR_LO b) (BAY_DRAM_ERR_ADDR_HI b) a (inc (BAY_DRAM_UE b) s))

/-- A poisoned word of a structure in the system region (R467). -/
def poisonedStructure (x : SysWord) (s : State) : State :=
  match x with
  | .tensor k =>
    match tget k s.tensors.table with
    | none => s
    | some t =>
      if t.faulted then s
      else raise 0xF023 (k + t.gen * 2 ^ 20) { s with tensors.table := tput k { t with faulted := true } s.tensors.table }
  | .graph g => if (tget g s.scribe.graphs).isNone then s else fault 11 (abortGraph g s)
  | .journal f k =>
    if (tget (16 * f + k) s.mb.accepted).isNone then s
    else if s.mb.foremanUp then answer f k 0x100B 0 [] s
    else { s with mb.accepted := tmod (16 * f + k) (fun a => { a with recorded := some (0x100B, 0, []) }) s.mb.accepted }

/-- SCRUB_READ: the scrubber reads the word at `addr` and finds it whole (0), with a single-bit error (1) or with an uncorrectable one
(2), which may lie in a structure of the system region; `passEnds` says that a pass of the memory is complete (R464, R466, R467). -/
def execScrubRead (addr found : Nat) (structure_ : Option SysWord) (passEnds : Bool) (s : State) : Out :=
  let b := bayOf addr
  let loft := decide (loftBase ≤ addr)
  let exists_ := if loft then decide (addr < loftBase + 4 * loftWindow) && decide ((addr - loftBase) % loftWindow < loftBytes) && bayPresent s b
    else decide (addr < 4 * stackBytes) && stackUsed s b
  if !exists_ || decide (addr % 8 ≠ 0) || !bit (rd s (BAY_SCRUB_CFG b)) (b2n loft) then .next s
  else
    let s := if s.poison.contains (addr / 8) then poisonRead (addr / 8) s
      else if found = 1 then correctedWord addr s
      else if found = 2 then lostWord addr s
      else s
    let s := match structure_ with
      | some x => if inSystem s addr && s.poison.contains (addr / 8) then poisonedStructure x s else s
      | none => s
    .next (if !passEnds then s
      else if loft then incFld (BAY_SCRUB_PASSES b) 31 16 1 s else incFld (BAY_SCRUB_PASSES b) 15 0 1 s)

/-! ### Purlin links (R450, R460) -/

/-- The link at port `p` of Bay `b`: 0 to the Sill, 1 to the next Bay, 2 to the previous one. -/
def linkOf (b p : Nat) : Nat := if p = 0 then 3 * b else if p = 1 then 3 * b + 1 else 3 * ((b + 3) % 4) + 1

/-- The ends of a link: each Bay with its port. -/
def linkEnds (b p : Nat) : List (Nat × Nat) :=
  if p = 0 then [(b, 0)] else if p = 1 then [(b, 1), ((b + 1) % 4, 2)] else [(b, 2), ((b + 3) % 4, 1)]

/-- PURLIN_LINK_DOWN: a link loses training: it is shown at its ends, raised, and reported to Kingpost (R460, R475, R543). -/
def execPurlinLinkDown (bay port : Nat) (s : State) : Out :=
  if 4 ≤ bay ∨ 3 ≤ port ∨ !((linkEnds bay port).all (fun e => bayPresent s e.1)) ∨ s.memory.downLinks.contains (linkOf bay port) then .next s
  else
    let s := { s with memory.downLinks := linsert (linkOf bay port) s.memory.downLinks }
    let s := (linkEnds bay port).foldl (fun s e => setMask (BAY_MEM_STATUS e.1) 16 (clearMask (BAY_PURLIN_STATUS e.1) (2 ^ e.2) s)) s
    .next (fault 13 (raise 0xF025 (bay * 2 ^ 30 + port * 2 ^ 28) s))

/-- PURLIN_LINK_UP: a link that was down is trained again, with a number of repaired lanes at the Bay (R450, R543). -/
def execPurlinLinkUp (bay port lanes : Nat) (s : State) : Out :=
  if 4 ≤ bay ∨ 3 ≤ port ∨ !s.memory.downLinks.contains (linkOf bay port) then .next s
  else
    let s := { s with memory.downLinks := lremove (linkOf bay port) s.memory.downLinks }
    let s := (linkEnds bay port).foldl (fun s e => setMask (BAY_PURLIN_STATUS e.1) (2 ^ e.2) s) s
    let s := setFld (BAY_PURLIN_STATUS bay) 11 8 (min 15 lanes) s
    .next (if s.memory.downLinks.isEmpty then faultEnds 13 s else s)

/-! ### Crossings (R461, R462) -/

/-- Every region is within its crossing limits. -/
def crossingsGood (s : State) : Bool :=
  (List.range 4).all (fun b => decide (fld s (BAY_STATUS b) 19 16 = 15)) && decide (rd s SILL_REGION_ALERT = 0)

/-- REGION_CROSSING_ALERT: region `region` of Bay `die`, or of the Sill for die 4, leaves the limits against a neighbour or is within
them again (R462, R475, R543). -/
def execRegionCrossingAlert (die region : Nat) (outside : Bool) (s : State) : Out :=
  if 4 < die ∨ (die < 4 ∧ (4 ≤ region ∨ !bayPresent s die)) ∨ (die = 4 ∧ 6 ≤ region) then .next s
  else
    let out := if die < 4 then !bit (rd s (BAY_STATUS die)) (16 + region) else bit (rd s SILL_REGION_ALERT) region
    if out = outside then .next s
    else if outside then
      if die < 4 then .next (fault 14 (raise 0xF007 (bayArg die 0) (clearMask (BAY_STATUS die) (2 ^ (16 + region)) s)))
      else .next (fault 14 (raise 0xF026 region (setMask SILL_REGION_ALERT (2 ^ region) s)))
    else
      let s := if die < 4 then setMask (BAY_STATUS die) (2 ^ (16 + region)) s else clearMask SILL_REGION_ALERT (2 ^ region) s
      .next (if crossingsGood s then faultEnds 14 s else s)

end Sys2Proof.Machine
end

