-- ==== Sys2Proof/Machine/RaftOps.lean ====
section
/-! DEFINITION. The Raft's operations: the cycle descriptor with its checks, the candidates of an input,
and the fold of contributions into cells (R289–R313). -/

namespace Sys2Proof.Machine
open Sys2Proof

/-! ### The cycle descriptor (R294–R296) -/

def cyInputs (c : List Byte) : Nat := fieldU c 3 1
def cyTimeMode (c : List Byte) : Nat := fieldU c 1 1 % 4
def cyMaxAge (c : List Byte) : Nat := fieldU c 16 4 * 1000
def cyLead (c : List Byte) : Nat := fieldU c 20 4 * 1000
def cyPeg (c : List Byte) : Nat := fieldU c 6 2
/-- Input entry `i` (R295). -/
def cyEntry (c : List Byte) (i : Nat) : List Byte := (c.drop (256 + 64 * i)).take 64
def inCamera (e : List Byte) : Bool := decide (fieldU e 0 1 = 1)
def inGeometric (e : List Byte) : Bool := bit (fieldU e 1 1) 1
def inTable (e : List Byte) : Bool := bit (fieldU e 1 1) 2
def inBase (e : List Byte) : Nat := fieldU e 2 2
def inCount (e : List Byte) : Nat := fieldU e 4 2
def inBins (e : List Byte) : Nat := fieldU e 6 1

/-- The age weights: each finite, from 0 to 1 (R294). -/
def ageOk (c : List Byte) : Bool :=
  (List.range 16).all (fun i => let w := fieldU c (32 + 4 * i) 4; decide (w ≤ 0x3F800000) || decide (w = 0x80000000))

/-- A reserved field of the header, or of an entry, is not zero; so for fields that do not apply to the entry's kind
(R294, R295). -/
def cyReserved (c : List Byte) : Bool := decide (4 ≤ fieldU c 1 1) || !zeroField c 5 1 || !zeroField c 96 160
def inReserved (e : List Byte) : Bool :=
  decide (8 ≤ fieldU e 1 1) || !zeroField e 7 1 || !zeroField e 13 3 ||
  (if fieldU e 0 1 = 1 then bit (fieldU e 1 1) 0 || bit (fieldU e 1 1) 1 || (if inTable e then !zeroField e 28 8 else !zeroField e 12 1)
   else if fieldU e 0 1 = 2 then
     inTable e || !zeroField e 6 1 || !zeroField e 9 2 || !zeroField e 12 1 || !zeroField e 24 40
   else false)

/-- The lowest Bay of a descriptor: units read the copy of lowest rank. -/
def unitBay (s : State) (dom : Nat) (d : List Byte) : Nat := (tdBays (storageOf s dom d)).headD 0

/-- The descriptor bound to an argument for reading. -/
def argRead (s : State) (nd : Node) (arg : Nat) : Option (List Byte) := boundTensor s 0 nd.binds arg [0]

/-- The address at which the bytes of a tensor begin, as a unit reads it. -/
def tensorBase (s : State) (dom : Nat) (d : List Byte) : Nat := baseOn s dom d (unitBay s dom d)

/-- The arguments of an input are bound for reading (R295). -/
def inBound (s : State) (nd : Node) (e : List Byte) : Bool :=
  let ok := fun (o : Nat) => (argRead s nd (fieldU e o 1)).isSome
  ok 11 && (if inCamera e then ok 8 && ok 9 && ok 10 && (!inTable e || ok 12) else inGeometric e || ok 8)

/-- Bytes of the grid frame, and the offset of its info plane (R307). -/
def frameInfoOff (g : List Byte) : Nat := ceilDiv (256 + gdNx g * gdNy g * gdChannels g * (fmtBits (gdFormat g) / 8)) 64 * 64
def frameBytes (g : List Byte) : Nat := frameInfoOff g + 8 * gdNx g * gdNy g

/-- The 64 bytes of an input's stamp, if they can be read and have version 0x01 (R298). -/
def stampOf (s : State) (nd : Node) (e : List Byte) : Option (List Byte) :=
  (argRead s nd (fieldU e 11 1)).bind (fun d =>
    let a := tensorBase s 0 d
    let b := readBytes s a 64
    if readable s 0 a 64 && decide (fieldU b 0 1 = 1) then some b else none)

/-- The time of an input's stamp (R297), its verdict and its epoch (R298, R309). -/
def stampTime (e b : List Byte) : Nat := fieldU b (if inCamera e then 24 else 8) 8
def stampVerdict (e b : List Byte) : Nat :=
  if inCamera e then fieldU b 50 1
  else let f := fieldU b 2 2; if f &&& 0x30 ≠ 0 then 2 else if f &&& 0xCB ≠ 0 then 1 else 0
def stampEpoch (e b : List Byte) : Nat := fieldU b (if inCamera e then 48 else 60) 2

/-- Why an instance is refused: status and byte offset in the cycle descriptor (R296). -/
def cycleRefusal (s : State) (g : Graph) (nd : Node) : Option (Nat × Nat) :=
  let a := nd.plan
  let h := readBytes s a 256
  let n := cyInputs h
  let grid := s.raft.live
  if !gdEnabled grid then some (0x1901, 0)
  else if g.domain ≠ 0 then some (0x1902, 0)
  else if a % 64 ≠ 0 || !readable s 0 a 256 || fieldU h 0 1 ≠ 1 || cyReserved h then some (0x1903, 0)
  else if n = 0 || 32 < n then some (0x1904, 3)
  else if !readable s 0 a (256 + 64 * n) then some (0x1903, 256)
  else
    let c := readBytes s a (256 + 64 * n)
    let es := (List.range n).map (cyEntry c)
    let out := fun (v lo hi : Nat) => decide (v < lo) || decide (hi < v)
    firstReason (
      (es.zipIdx).map (fun p => (inReserved p.1, 0x1903, 256 + 64 * p.2)) ++
      [(decide (1 < cyTimeMode c), 0x1904, 1), (decide (cyTimeMode c = 0) && decide (n ≤ fieldU c 2 1), 0x1904, 2),
       (out (fieldU c 16 4) 1 1000000, 0x1904, 16), (decide (100000 < fieldU c 20 4), 0x1904, 20),
       (out (fieldU c 24 4) 1 1000000, 0x1904, 24), (!ageOk c, 0x1904, 32),
       ((boundTensor s 0 nd.binds (fieldU c 4 1) [1]).isNone, 0x1905, 4)] ++
      (es.zipIdx).map (fun p => ((fieldU p.1 0 1 = 1 || fieldU p.1 0 1 = 2) && !inBound s nd p.1, 0x1905, 256 + 64 * p.2 + 8)) ++
      (es.zipIdx).map (fun p => (decide (fieldU p.1 0 1 ≠ 1) && decide (fieldU p.1 0 1 ≠ 2), 0x1906, 256 + 64 * p.2)) ++
      (es.zipIdx).map (fun p => (inCount p.1 = 0 || 256 < inCount p.1 || gdChannels grid < inBase p.1 + inCount p.1, 0x1906, 256 + 64 * p.2 + 2)) ++
      [(match boundTensor s 0 nd.binds (fieldU c 4 1) [1] with
        | some d =>
          let sh := viewShape s 0 d (unitBay s 0 d)
          decide (sh.length ≠ 1) || decide (tdFormat (storageOf s 0 d) ≠ 2) || decide (sh.getD 0 0 < frameBytes grid)
        | none => true, 0x1907, 4),
       (decide (cyPeg c ≠ 0xFFFF) && (decide (8192 ≤ cyPeg c) || !mayAdd s 0 (cyPeg c)), 0x1908, 6),
       (decide (cyTimeMode c = 1) && !bit nd.flags 2, 0x1909, 1),
       (decide (cyTimeMode c = 0) && (stampOf s nd (cyEntry c (fieldU c 2 1))).isNone, 0x190A, 2)])

/-! ### Tensors of an input (R295, R298) -/

/-- An element as a unit reads it: its code, and whether it is poisoned (R220, R238, R241). -/
def readElem (s : State) (dom : Nat) (d : List Byte) (ix : List Nat) : Nat × Bool :=
  let bay := unitBay s dom d
  let t := storageOf s dom d
  match (viewAt s dom d bay ix).1 with
  | .elem jx => (readCode s (baseOn s dom d bay) (elemBit t jx) (tdWidth t), codePoisoned s none (baseOn s dom d bay) (elemBit t jx) (tdWidth t))
  | .fillZero => (0, false)
  | .fillInvalid => (invalidCode (tdFormat t) 0, false)
  | .badIndex => (0, true)

/-- A tensor has a shape and one of some formats. -/
def hasShape (s : State) (nd : Node) (arg : Nat) (shape : List Nat) (fmts : List Nat) : Bool :=
  match argRead s nd arg with
  | none => false
  | some d => decide (viewShape s 0 d (unitBay s 0 d) = shape) && fmts.contains (tdFormat (storageOf s 0 d))

def floatFormats : List Nat := [0x0B, 0x0C, 0x0D]

/-- Height and width of a camera input's features (R295). -/
def camSize (s : State) (nd : Node) (e : List Byte) : Nat × Nat :=
  match argRead s nd (fieldU e 8 1) with
  | some d => let sh := viewShape s 0 d (unitBay s 0 d); (sh.getD 0 0, sh.getD 1 0)
  | none => (0, 0)

/-- The tensors of a slot meet R295; a voxel frame has no more voxels than its features have rows (R298). -/
def tensorsMatch (s : State) (nd : Node) (e stamp : List Byte) : Bool :=
  if inCamera e then
    let (h, w) := camSize s nd e
    decide (1 ≤ inBins e) && decide (inBins e ≤ 128) && hasShape s nd (fieldU e 8 1) [h, w, inCount e] floatFormats &&
      hasShape s nd (fieldU e 9 1) [h, w, inBins e] floatFormats && hasShape s nd (fieldU e 10 1) [h, w, 3] [0x0F] &&
      (match argRead s nd (fieldU e 10 1) with | some d => decide (tdFrac (storageOf s 0 d) = 30) | none => false) &&
      (!inTable e || hasShape s nd (fieldU e 12 1) [inBins e] [0x0E])
  else if inGeometric e then decide (inCount e = 4)
  else
    match argRead s nd (fieldU e 8 1) with
    | none => false
    | some d =>
      let v := (viewShape s 0 d (unitBay s 0 d)).getD 0 0
      hasShape s nd (fieldU e 8 1) [v, inCount e] floatFormats && decide (fieldU stamp 32 4 ≤ v)

/-! ### Contributions (R299–R302) -/

/-- A candidate of an input: pruned or not, its point at T, its time, weight and values with their poison. -/
structure Cand where
  pruned : Bool := false
  t : Int := 0
  p : List Int := []
  w : Nat := 0
  vals : List (Nat × Bool) := []
  poison : Bool := false

def fMul (a b : Nat) : Nat := toFp32 (mulNum (decode 0x0D a) (decode 0x0D b))
def fAdd (a b : Nat) : Nat := toFp32 (sumNum [decode 0x0D a, decode 0x0D b])
def fFma (a b c : Nat) : Nat := toFp32 (sumNum [mulNum (decode 0x0D a) (decode 0x0D b), decode 0x0D c])
def fDiv (a b : Nat) : Nat := toFp32 (divNum (decode 0x0D a) (decode 0x0D b))
def fOfInt (i : Int) : Nat := toFp32 (ofInt i)
def toF32 (c v : Nat) : Nat := (convert c 0x0D 0 false v 0).code

/-- The age weight at a contribution time (R301). -/
def ageWeight (c : List Byte) (t : Nat) (tc : Int) : Nat :=
  let delta : Int := t - tc
  let i := if delta ≤ 0 then 0 else min (delta.toNat / (fieldU c 24 4 * 1000)) 15
  fieldU c (32 + 4 * i) 4

/-- The rotation and translation from the vehicle frame at an input's time to that at T (R299). -/
def toT (ref at_ : Pose) : List Int × List Int :=
  let rt := transpose (rotation ref.q)
  (matMul rt (rotation at_.q), matVec rt ((at_.p.zip ref.p).map (fun x => x.1 - x.2)))

/-- A camera candidate (R299). -/
def camCand (s : State) (nd : Node) (c e : List Byte) (run : RaftRun) (inp : RaftInput) (m d : List Int) (v u k : Nat) : Cand :=
  let arg := fun o => (argRead s nd (fieldU e o 1)).getD []
  let fd := storageOf s 0 (arg 8)
  let dd := storageOf s 0 (arg 9)
  let (pc, pBad) := readElem s 0 (arg 9) [v, u, k]
  let p := if pBad then (Config.unstated 299 [v, u, k, inp.t]).toNat % 2 ^ 32 else toF32 (tdFormat dd) pc
  let pmin := fieldU e 24 4
  if ltNum (decode 0x0D p) (decode 0x0D pmin) || decide (decode 0x0D p = .nan) || decide (decode 0x0D pmin = .nan) then { pruned := true, poison := pBad }
  else
    let (z, zBad) := if inTable e then (let q := readElem s 0 (arg 12) [k]; (toSigned 32 q.1, q.2))
      else (fieldS e 28 4 + k * fieldS e 32 4, false)
    let rays := (List.range 3).map (fun i => readElem s 0 (arg 10) [v, u, i])
    let xc := rays.map (fun r => shiftRound (((qVal r.1).getD (Config.unstated 299 [r.1]).toInt) * (z * 16)) 30)
    let qc := rotation (norm (signedWords 4 4 (e.drop 36)))
    let xv := ((matVec qc xc).zip (signedWords 4 3 (e.drop 52))).map (fun x => x.1 + x.2)
    let xr := ((matVec m xv).zip d).map (fun x => x.1 + x.2)
    let vals := (List.range (inCount e)).map (fun i => let q := readElem s 0 (arg 8) [v, u, i]; (toF32 (tdFormat fd) q.1, q.2))
    { t := inp.t, p := xr, w := fMul (fMul p (fieldU e 20 4)) (ageWeight c run.t inp.t), vals := vals,
      poison := pBad || zBad || rays.any (·.2) }

/-- A voxel candidate (R300). -/
def voxCand (s : State) (nd : Node) (c e : List Byte) (run : RaftRun) (inp : RaftInput) (m d : List Int) (j : Nat) : Cand :=
  let arg := fun o => (argRead s nd (fieldU e o 1)).getD []
  let a := tensorBase s 0 (arg 11) + 64 + 32 * j
  let b := readBytes s a 32
  let tc : Int := inp.t + fieldS b 16 4
  let xr := ((matVec m (signedWords 4 3 (b.drop 4))).zip d).map (fun x => x.1 + x.2)
  let w := fMul (fMul 0x3F800000 (fieldU e 20 4)) (ageWeight c run.t tc)
  let w := if bit (fieldU e 1 1) 0 then fMul w (fOfInt (fieldU b 24 2)) else w
  let vals := if inGeometric e then
      [(0x3F800000, false), (toFp32 (divNum (ofInt (xr.getD 2 0)) (ofInt 16000)), false),
       (toFp32 (divNum (ofInt (fieldU b 26 1)) (ofInt 255)), false), (toFp32 (divNum (ofInt (fieldU b 20 4)) (ofInt 4000)), false)]
    else
      let fd := storageOf s 0 (arg 8)
      (List.range (inCount e)).map (fun i => let q := readElem s 0 (arg 8) [j, i]; (toF32 (tdFormat fd) q.1, q.2))
  { t := tc, p := xr, w := w, vals := vals, poison := fencedPoison s 0 a 32 }

/-- The candidates of a used input in canonical order (R299, R300, R304). -/
def candidates (s : State) (nd : Node) (c e : List Byte) (run : RaftRun) (inp : RaftInput) : List Cand :=
  let (m, d) := toT run.pose inp.pose
  if inCamera e then
    let (h, w) := camSize s nd e
    (List.range h).flatMap (fun v => (List.range w).flatMap (fun u => (List.range (inBins e)).map (fun k =>
      camCand s nd c e run inp m d v u k)))
  else
    let n := fieldU ((stampOf s nd e).getD []) 32 4
    (List.range n).map (fun j => voxCand s nd c e run inp m d j)

/-! ### Cells (R303–R306) -/

/-- A cell of the working table (R292): accumulators by channel, weight sums by group, and the channels that are poisoned. -/
structure RaftCell where
  contribs : Nat := 0
  tOld : Int := 0
  tNew : Int := 0
  src : Nat := 0
  touched : Nat := 0
  nan : Bool := false
  poison : Bool := false
  wsum : Tab Nat := []
  acc : Tab Nat := []
  bad : List Nat := []

/-- What a cycle has folded so far, with the counts of R307. -/
structure RaftAcc where
  cells : Tab RaftCell := []
  marked : List Nat := []
  contribsIn : Nat := 0
  pruned : Nat := 0
  aged : Nat := 0
  height : Nat := 0
  outside : Nat := 0
  dropped : Nat := 0
  nan : Nat := 0
  poison : Bool := false
  consumed : Bool := false

/-- The order key of a cell (R306). -/
def cellKey (g : List Byte) (cell : Nat) : Nat :=
  let c := 16 * gdCell g
  let cx : Int := gdX0 g + ((cell % max 1 (gdNx g) : Nat) : Int) * (c : Nat) + (c / 2 : Nat)
  let cy : Int := gdY0 g + ((cell / max 1 (gdNx g) : Nat) : Int) * (c : Nat) + (c / 2 : Nat)
  let bin := ((List.range 15).find? (fun b => decide (cx * cx + cy * cy < ((gdEdge g b * 1600 : Nat) : Int) ^ 2))).getD 15
  gdPrio g bin * 2 ^ 28 + cell

/-- The accumulator with which a group's channels begin (R303). -/
def accStart (rule : Nat) : Nat := if rule = 1 then 0xFF800000 else 0

/-- Folds a contribution of slot `i` into a cell (R303). -/
def foldCell (g e : List Byte) (i : Nat) (x : Cand) (c : RaftCell) : RaftCell :=
  let chans := (x.vals.zipIdx).map (fun p => (inBase e + p.2, p.1))
  let groups := (List.range (gdGroups g)).filter (fun k => chans.any (fun p => decide (gdGroupOf g p.1 = k)))
  let acc := chans.foldl (fun a p =>
    let rule := gdRule g (gdGroupOf g p.1)
    let old := tgetD p.1 (accStart rule) a
    tput p.1 (if rule = 1 then minMax false 0x0D old (fMul x.w p.2.1) else fFma x.w p.2.1 old) a) c.acc
  let wsum := groups.foldl (fun a k => if gdRule g k = 2 then tput k (fAdd (tgetD k 0 a) x.w) a else a) c.wsum
  let bad := (chans.filter (fun p => x.poison || p.2.2)).map (·.1)
  { contribs := satAdd 0xFFFFFFFF c.contribs 1
    tOld := if c.contribs = 0 then x.t else min c.tOld x.t
    tNew := if c.contribs = 0 then x.t else max c.tNew x.t
    src := c.src ||| 2 ^ i
    touched := groups.foldl (fun m k => m ||| 2 ^ k) c.touched
    nan := c.nan || chans.any (fun p => decide (decode 0x0D p.2.1 = .nan))
    poison := c.poison || !bad.isEmpty
    wsum := wsum, acc := acc, bad := bad.foldl (fun l b => linsert b l) c.bad }

def markCell (cell : Nat) (a : RaftAcc) : RaftAcc := if a.marked.contains cell then a else { a with marked := linsert cell a.marked }

/-- The cell of the table with the highest order key. -/
def worstCell (g : List Byte) (t : Tab RaftCell) : Option (Nat × RaftCell) :=
  t.foldl (fun a x => match a with | none => some x | some y => if cellKey g y.1 < cellKey g x.1 then some x else some y) none

/-- A contribution is folded into a cell, with what the frame counts of it (R303). -/
def foldInto (g e : List Byte) (i cell : Nat) (x : Cand) (c : RaftCell) (a : RaftAcc) : RaftAcc :=
  { a with cells := tput cell (foldCell g e i x c) a.cells
           nan := a.nan + b2n (x.vals.any (fun p => decide (decode 0x0D p.1 = .nan)))
           poison := a.poison || x.poison || x.vals.any (·.2) }

/-- A contribution reaches a cell (R303, R306). -/
def admitCell (g e : List Byte) (i cell : Nat) (x : Cand) (a : RaftAcc) : RaftAcc :=
  match tget cell a.cells with
  | some c => foldInto g e i cell x c a
  | none =>
    if a.cells.length < gdCap g then foldInto g e i cell x {} a
    else match worstCell g a.cells with
      | none => a
      | some (w, c) =>
        if cellKey g cell < cellKey g w then
          let a := markCell w { a with dropped := a.dropped + c.contribs }
          foldInto g e i cell x {} { a with cells := tdel w a.cells }
        else markCell cell { a with dropped := a.dropped + 1 }

/-- A candidate of slot `i` passes its tests in order (R289, R302). -/
def takeCand (g c e : List Byte) (run : RaftRun) (i : Nat) (x : Cand) (a : RaftAcc) : RaftAcc :=
  let a := { a with contribsIn := a.contribsIn + 1, consumed := a.consumed || x.poison }
  let z := x.p.getD 2 0
  let size : Int := 16 * gdCell g
  let ix := (x.p.getD 0 0 - gdX0 g) / size
  let iy := (x.p.getD 1 0 - gdY0 g) / size
  if x.pruned then { a with pruned := a.pruned + 1 }
  else if x.t < (run.t : Int) - cyMaxAge c ∨ (run.t : Int) + cyLead c < x.t then { a with aged := a.aged + 1 }
  else if z < gdZlo g ∨ gdZhi g ≤ z then { a with height := a.height + 1 }
  else if ix < 0 ∨ gdNx g ≤ ix ∨ iy < 0 ∨ gdNy g ≤ iy then { a with outside := a.outside + 1 }
  else admitCell g e i (ix.toNat + gdNx g * iy.toNat) x { a with consumed := a.consumed || x.vals.any (·.2) }

/-- The bytes that a unit reads of a tensor that is bound to an argument. -/
def argSpan (s : State) (nd : Node) (arg : Nat) : Option (Nat × Nat) :=
  (argRead s nd arg).bind (fun d => (extentFor s 0 d (unitBay s 0 d)).map (fun e => (e.1, e.2 + 1 - e.1)))

/-- What reading an input leaves: refused lines and poisoned words of its tensors and of its voxel entries (R298–R300, R464, R483). -/
def noteInput (nd : Node) (e : List Byte) (s : State) : State :=
  let note := fun (arg : Nat) (s : State) => match argSpan s nd arg with | some p => noteRead 0 p.1 p.2 2 s | none => s
  if inCamera e then
    let s := note (fieldU e 10 1) (note (fieldU e 9 1) (note (fieldU e 8 1) s))
    if inTable e then note (fieldU e 12 1) s else s
  else
    let s := match argRead s nd (fieldU e 11 1) with
      | some d => noteRead 0 (tensorBase s 0 d + 64) (32 * fieldU ((stampOf s nd e).getD []) 32 4) 2 s
      | none => s
    if inGeometric e then s else note (fieldU e 8 1) s

/-- Everything that the used inputs of a cycle contribute (R302–R306). -/
def foldInputs (s : State) (nd : Node) (run : RaftRun) : RaftAcc :=
  (run.inputs.zipIdx).foldl (fun a p =>
    if p.1.used then
      let e := cyEntry run.desc p.2
      (candidates s nd run.desc e run p.1).foldl (fun a x => takeCand run.grid run.desc e run p.2 x a) a
    else a) {}

/-! ### The grid frame (R303, R305, R307) -/

/-- The code of a fill in the output format. -/
def fillCode (g : List Byte) (k : Nat) : Nat := if gdFill g k = 1 then canonNaN (gdFormat g) else 0

/-- The value of a channel of a cell that is written out (R303). -/
def cellValue (g : List Byte) (c : RaftCell) (ch : Nat) : Nat :=
  let k := gdGroupOf g ch
  if !bit c.touched k then fillCode g k
  else
    let a := tgetD ch (accStart (gdRule g k)) c.acc
    let w := tgetD k 0 c.wsum
    if gdRule g k = 2 ∧ w = 0 then fillCode g k
    else (convert 0x0D (gdFormat g) 0 false (if gdRule g k = 2 then fDiv a w else a) 0).code

/-- The age of a time at T in units of 100 µs, saturating (R307). -/
def age100 (t : Nat) (x : Int) : Nat := if (t : Int) ≤ x then 0 else min 65535 ((t - x).toNat / 100000)

/-- The eight bytes of a cell's info entry (R307). -/
def cellInfo (run : RaftRun) (dropped : Bool) (c : Option RaftCell) : List Byte :=
  match c with
  | none => leBytes 7 0 ++ leBytes 1 (2 * b2n dropped)
  | some c => leBytes 2 (age100 run.t c.tNew) ++ leBytes 2 (age100 run.t c.tOld) ++ leBytes 2 (min 65535 c.contribs) ++ leBytes 1 c.touched ++
      leBytes 1 (1 + 2 * b2n dropped + 4 * b2n c.poison + 8 * b2n c.nan)

def sat32 (n : Nat) : Nat := min 0xFFFFFFFF n

/-- oldest_age of R305. -/
def oldestAge (t : Nat) (old : Int) : Nat := if (t : Int) ≤ old then 0 else sat32 (t - old).toNat

end Sys2Proof.Machine
end

