-- ==== Sys2Proof/Machine/LedgerRun.lean ====
section
/-! DEFINITION. A Ledger instance at work: its descriptor and checks, its tensors, and the processing of each operation's entries
(R324–R337). -/

namespace Sys2Proof.Machine
open Sys2Proof

/-! ### The operation descriptor (R324, R325) -/

def loOp (d : List Byte) : Nat := fieldU d 1 1
def loCache (d : List Byte) : Nat := fieldU d 2 1
def loArg (d : List Byte) (k : Nat) : Nat := fieldU d (4 + k) 1
def loLocal (d : List Byte) : Nat := fieldU d 8 4
def loPages (d : List Byte) : Nat := fieldU d 12 2
def loGlobals (d : List Byte) : Nat := fieldU d 14 1
def loTag (d : List Byte) : Nat := fieldU d 16 8
def loGlobal (d : List Byte) (g : Nat) : Nat := fieldU d (64 + 4 * g) 4

/-- A tensor of a Ledger operation: S32, unsharded or replicas, of a rank and, where it has a second dimension, its size. -/
def loTensor (s : State) (dom : Nat) (nd : Node) (arg kind rank second : Nat) : Option (List Byte) :=
  (boundTensor s dom nd.binds arg [kind]).bind (fun d =>
    if tdIndexed d || decide (tdFormat d ≠ 0x0E) || decide (tdRank d ≠ rank) || decide (tdShards d ≠ 1) ||
      (rank = 2 && decide (tdShape d 1 ≠ second)) then none else some d)

/-- What an operation binds: argument field, kind, rank and second dimension (R324). -/
def loShape (op : Nat) : List (Nat × Nat × Nat × Nat) :=
  match op with
  | 1 => [(1, 1, 1, 0), (3, 1, 1, 0)]
  | 2 => [(0, 0, 1, 0), (1, 1, 1, 0), (3, 1, 1, 0)]
  | 3 => [(0, 0, 2, 4), (1, 1, 1, 0), (2, 1, 2, 2), (3, 1, 1, 0)]
  | 4 => [(0, 0, 2, 2), (1, 1, 1, 0), (2, 1, 2, 8), (3, 1, 1, 0)]
  | 5 => [(0, 0, 1, 0), (3, 1, 1, 0)]
  | 6 => [(0, 0, 2, 2), (3, 1, 1, 0)]
  | _ => []

def loGet (s : State) (dom : Nat) (nd : Node) (d : List Byte) (k : Nat) : List Byte :=
  match (loShape (loOp d)).find? (fun p => p.1 = k) with
  | some (_, kind, rank, second) => (loTensor s dom nd (loArg d k) kind rank second).getD []
  | none => []

/-- A word of an input tensor, read from the copy of lowest rank; a poisoned word has a value that nothing states (R324). -/
def loWord (s : State) (dom : Nat) (t : List Byte) (ix : List Nat) : Nat :=
  let q := readElem s dom t ix
  if q.2 then (Config.unstated 324 (ix.map (fun (n : Nat) => (n : Int)))).toNat % 2 ^ 32 else q.1

/-- Input entries of an operation: OPEN has as many as its output. -/
def loEntries (s : State) (dom : Nat) (nd : Node) (d : List Byte) : Nat :=
  if loOp d = 1 then tdShape (loGet s dom nd d 1) 0 else tdShape (loGet s dom nd d 0) 0

/-- count of an APPEND entry. -/
def loCount (s : State) (dom : Nat) (nd : Node) (d : List Byte) (i : Nat) : Nat :=
  (toSigned 32 (loWord s dom (loGet s dom nd d 0) [i, 1])).toNat

/-- Output elements, info rows and status words that an operation needs. -/
def loNeeds (s : State) (dom : Nat) (nd : Node) (d : List Byte) : Nat × Nat × Nat :=
  let n := loEntries s dom nd d
  match loOp d with
  | 3 => let t := ((List.range n).map (loCount s dom nd d)).sum; (t, t, n)
  | 4 => (n * loPages d, n * loPages d, n)
  | 5 | 6 => (0, 0, n)
  | _ => (n, 0, n)

/-- The Bays on which a tensor has replicas, and the input and output of a COLLECTIVE (R337). -/
def collTensors (s : State) (dom : Nat) (nd : Node) (d : List Byte) : Option (List Byte × List Byte) :=
  match boundTensor s dom nd.binds (loArg d 0) [0], boundTensor s dom nd.binds (loArg d 1) [1] with
  | some a, some b =>
    let kind := fieldU d 15 1 % 16
    let dims := (tdDims a).map (tdShape a)
    let same := !tdIndexed a && !tdIndexed b && tdSharded a && tdSharded b && decide (tdRank a = tdRank b) && decide (dims = (tdDims b).map (tdShape b)) &&
      decide (tdFormat a = tdFormat b) && decide (tdShards b = 1) && decide (tdFrac a = tdFrac b)
    let bays := decide (tdBays a = tdBays b)
    let ok := match kind with
      | 1 => bays && decide (tdShards a = (tdBays a).length)
      | 2 => bays && decide (tdShards a = 1) && [0x0B, 0x0C, 0x0D, 0x0E].contains (tdFormat a)
      | 3 => decide (tdShards a = 1) && decide (fieldU d 15 1 / 16 < (tdBays a).length)
      | _ => false
    if same && ok then some (a, b) else none
  | _, _ => none

/-- Why a Ledger instance is refused at its start (R325). -/
def ledgerRefusal (s : State) (g : Graph) (nd : Node) : Option Nat :=
  let a := nd.plan
  let d := readBytes s a 128
  let dom := g.domain
  let op := loOp d
  if a % 64 ≠ 0 || !readable s dom a 128 || fieldU d 0 1 ≠ 1 || 4 ≤ fieldU d 3 1 || !zeroField d 24 40 then some 0x1A01
  else if (cacheOf s dom (loCache d)).isNone then some 0x1A02
  else if op = 0 || 7 < op || (op = 4 && (loPages d = 0 || 4096 < loPages d || 16 < loGlobals d ||
      (List.range (loGlobals d - 1)).any (fun k => decide (loGlobal d (k + 1) ≤ loGlobal d k)))) ||
      (op = 7 && (fieldU d 15 1 % 16 = 0 || 3 < fieldU d 15 1 % 16)) then some 0x1A03
  else if op = 7 then (if (collTensors s dom nd d).isNone then some 0x1A04 else none)
  else if (loShape op).any (fun p => (loTensor s dom nd (loArg d p.1) p.2.1 p.2.2.1 p.2.2.2).isNone) then some 0x1A04
  else
    let (o, f, n) := loNeeds s dom nd d
    let small := fun (k need : Nat) => (loShape op).any (fun p => p.1 = k) && decide (tdShape (loGet s dom nd d k) 0 < need)
    if small 1 o || small 2 f || small 3 n then some 0x1A05 else none

/-- Writes a word into every copy of an output tensor (R324). -/
def loPut (i dom : Nat) (t : List Byte) (ix : List Nat) (v : Nat) (s : State) : State :=
  (tdBays t).foldl (fun s b =>
    unitWrite i dom ((tdBase t b : Int) + elemBit t ix / 8).toNat (leBytes 4 v) false s) s

/-! ### Runs (R324, R331, R334, R336) -/

def runLed (s : State) (i : Nat) : Option LedRun := tget i s.ledger.runs
def modLed (i : Nat) (f : LedRun → LedRun) (s : State) : State := { s with ledger.runs := tmod i f s.ledger.runs }

/-- A Ledger event's argument: cache and sequence (R342). -/
def ledArg (c q : Nat) : Nat := c * 2 ^ 24 + q % 65536

/-- Faults found in the tables while an instance works: sequences, and page records with the sequences that map them (R338). -/
def ledgerFaults (seqs pages : List Nat) (s : State) : State :=
  let hit := s.ledger.seqs.filter (fun q => seqs.contains q.1 || q.2.list.any (fun e => pages.contains e.2))
  let s := { s with ledger.badPages := pages.foldl (fun l p => linsert p l) s.ledger.badPages }
  hit.foldl (fun s q =>
    if q.2.faulted then s
    else
      let s := { s with ledger.seqs := tput q.1 { q.2 with faulted := true } s.ledger.seqs }
      fault 10 (raise 0x9006 (ledArg q.2.cache q.1) (setMask LEDGER_STATUS 4 s))) s

/-- The instance at the head of the queue starts: the serial advances, and pins of the node's earlier instances are released
(R331, R339). -/
def startLedger (i : Nat) (x : Inst) (nd : Node) (s : State) : State :=
  let s := inc LEDGER_OPS (settle (beginRun i 0 s))
  let serial := (s.ledger.serial + 1) % 2 ^ 32
  let d := readBytes s nd.plan 128
  let run : LedRun := { desc := d, serial := serial, dropEn := bit (live s LEDGER_CTRL) 0 }
  let s := { s with ledger.serial := serial, ledger.runs := tput i run s.ledger.runs }
  if loOp d = 4 then releasePins (fun p => !(decide (p.graph = x.graph) && decide (p.node = x.node) && decide (p.inst ≠ i))) s else s

/-- What reading the input of an operation leaves: refused lines and poisoned words, of the copy of lowest rank, or of every copy that
a COLLECTIVE reads (R324, R337, R464, R483). -/
def noteLedger (dom : Nat) (nd : Node) (d : List Byte) (s : State) : State :=
  match boundTensor s dom nd.binds (loArg d 0) [0] with
  | none => s
  | some t =>
    let bays :=
      if loOp d ≠ 7 then (tdBays t).take 1
      else match fieldU d 15 1 % 16 with
        | 3 => ((tdBays t)[fieldU d 15 1 / 16]?).toList
        | _ => tdBays t
    if loOp d = 1 then s
    else bays.foldl (fun s b =>
      let e := extentOf t (tdBase t b) (localShape t b)
      noteRead dom e.1.toNat (e.2 - e.1 + 1).toNat 2 s) s

/-- What processing an entry comes to: a status, or parking on a held sequence (R336). -/
inductive EntryOut
  | done (status : Nat) (s : State)
  | park

/-- The sequence of an entry as the instance sees it, if it is live in the operation's cache; else the status (R325). -/
def liveSeq (s : State) (i c q : Nat) : Seq ⊕ Nat :=
  match seqSeen s i q with
  | none => .inr 0x1A10
  | some e => if e.cache ≠ c ∨ 16384 ≤ q then .inr 0x1A10 else if e.faulted then .inr 0x1A11 else .inl e

/-- The list position of a logical page (R321). -/
def listPos (d : List Byte) (j : Nat) : Nat :=
  if !cdWindow d || j < cdSinks d then j else cdSinks d + (j - cdSinks d) % cdRingPages d

/-- A new page for a sequence: its record and then its slot (R327, R333); or the status of a failure. -/
def newPage (i c q : Nat) (prov dropEn : Bool) (serial : Nat) (x : Page) (s : State) : (Nat × State) ⊕ Nat :=
  let cd := cacheDesc s c
  if cdSlots cd * 2 ≤ pagesUsed s c ∨ 2 ^ 22 ≤ lowestFreePage s then .inr 0x1A13
  else match findSlot c prov dropEn serial s with
    | none => .inr 0x1A14
    | some (k, s) =>
      let p := lowestFreePage s
      let x := { x with state := (if prov then .prov else .resident), refcount := 1, pins := 0, pinsSat := false, fill := 0,
                        gen := (pageOf s p).gen, slot := some k, seq := q, cache := c, lastRead := 0 }
      let s := inc LEDGER_ALLOCS (putPage p x s)
      .inl (p, if prov then logOp i (.newPage p) s else s)

/-- Copies the first positions of a page's slot to another on every Bay of the cache (R328). -/
def copySlot (dom c frm to_ fill : Nat) (s : State) : State :=
  let d := cacheDesc s c
  let tok := cdLayers d * cdHeads d * cdHeadDim d * cdBits d / 8
  ((List.range 4).filter (bit (cdMask d))).foldl (fun s b =>
    let s := [0, 1].foldl (fun s a =>
      copyMem dom 2 (cdBase d a b + frm * 64 * tok) (cdBase d a b + to_ * 64 * tok) (fill * tok) s) s
    if cdScaled d then
      let row := cdHeads d * (cdHeadDim d / 32)
      [2, 3].foldl (fun s a => (List.range (cdLayers d)).foldl (fun s l =>
        copyMem dom 2 (cdBase d a b + (l * cdSlots d + frm) * 64 * row) (cdBase d a b + (l * cdSlots d + to_) * 64 * row) (fill * row) s) s) s
    else s) s

/-- The failure of an entry for want of a page or a slot is counted and raised (R342). -/
def allocFail (c q : Nat) (s : State) : State :=
  raise 0x9001 (ledArg c q) (inc LEDGER_ALLOC_FAIL (setMask LEDGER_STATUS 1 s))

/-- OPEN: the lowest number that is neither live nor held (R326). -/
def entryOpen (i dom : Nat) (nd : Node) (r : LedRun) (prov : Bool) (k : Nat) (s : State) : EntryOut :=
  match (List.range 16384).find? (fun q => (seqSeen s i q).isNone && (tget q s.ledger.seqs).isNone && !heldByOther s i q) with
  | none => .done 0x1A12 s
  | some q =>
    let s := setSeq i q prov (some { cache := loCache r.desc, droppable := bit (fieldU r.desc 3 1) 1 }) s
    .done 0 (loPut i dom (loGet s dom nd r.desc 1) [k] q s)

/-- FORK: the child takes the parent's entry, and every mapped page gains a reference (R326). -/
def entryFork (i dom : Nat) (nd : Node) (r : LedRun) (prov : Bool) (k : Nat) (s : State) : EntryOut :=
  let q := loWord s dom (loGet s dom nd r.desc 0) [k]
  if heldByOther s i q then .park
  else match liveSeq s i (loCache r.desc) q with
    | .inr st => .done st s
    | .inl e =>
      match (List.range 16384).find? (fun q => (seqSeen s i q).isNone && (tget q s.ledger.seqs).isNone && !heldByOther s i q) with
      | none => .done 0x1A12 s
      | some child =>
        let s := e.list.foldl (fun s p =>
          let s := addRef i p.2 prov s
          if e.droppable then s else modPage p.2 (fun x => { x with droppable := false }) s) s
        let s := setSeq i child prov (some e) s
        .done 0 (loPut i dom (loGet s dom nd r.desc 1) [k] child s)

/-- One token of an APPEND: the output word and the state, or the status that stops the entry (R327, R328). -/
def appendToken (i dom : Nat) (r : LedRun) (prov : Bool) (q tOld : Nat) (e : Seq) (s : State) : (Nat × Seq × State) ⊕ Nat :=
  let c := loCache r.desc
  let cd := cacheDesc s c
  let tag := loTag r.desc
  let j := e.len / 64
  let t := e.len % 64
  let k := listPos cd j
  let finish := fun (p : Nat) (e : Seq) (s : State) =>
    let s := modPage p (fun x => { x with fill := t + 1, tagLast := tag, tOld := min x.tOld tOld }) s
    let e := { e with len := e.len + 1, list := tput k p e.list }
    (.inl (((pageOf s p).slot.getD 0) * 64 + t, e, s) : (Nat × Seq × State) ⊕ Nat)
  if !cdWindow cd && decide (cdMaxPages cd ≤ j) then .inr 0x1A15
  else if t = 0 then
    match tget k e.list with
    | some p =>
      let x := pageOf s p
      if x.refcount = 1 ∧ refSeen s i p = 1 ∧ x.pins = 0 ∧ x.state = .resident ∧ !prov then
        finish p e (inc LEDGER_REUSES (modPage p (fun x => { x with fill := 0, lpage := j, tOld := 2 ^ 64 - 1, tagFirst := tag }) s))
      else
        let s := dropRef i p prov s
        match newPage i c q prov r.dropEn r.serial { lpage := j, tagFirst := tag, tOld := 2 ^ 64 - 1, droppable := e.droppable } s with
        | .inr st => .inr st
        | .inl (p, s) => finish p e s
    | none =>
      match newPage i c q prov r.dropEn r.serial { lpage := j, tagFirst := tag, tOld := 2 ^ 64 - 1, droppable := e.droppable } s with
      | .inr st => .inr st
      | .inl (p, s) => finish p e s
  else
    match tget k e.list with
    | none => .inr 0x1A11
    | some p =>
      if refSeen s i p ≤ 1 then finish p e s
      else
        let x := pageOf s p
        match newPage i c q prov r.dropEn r.serial { lpage := x.lpage, tagFirst := x.tagFirst, tOld := x.tOld, droppable := e.droppable } s with
        | .inr st => .inr st
        | .inl (p', s) =>
          let s := copySlot dom c (x.slot.getD 0) ((pageOf s p').slot.getD 0) x.fill s
          finish p' e (dropRef i p prov (inc LEDGER_COW_COPIES s))

/-- The tokens of an APPEND entry in order, until one fails; the outputs of those that fail are −1 (R327). -/
def appendTokens (i dom : Nat) (nd : Node) (r : LedRun) (prov : Bool) (k q tOld : Nat) : Nat → Nat → Seq → State → Nat × Seq × State
  | 0, _, e, s => (0, e, s)
  | n + 1, out, e, s =>
    match appendToken i dom r prov q tOld e s with
    | .inr st =>
      (st, e, (List.range (n + 1)).foldl (fun s m => loPut i dom (loGet s dom nd r.desc 1) [out + m] 0xFFFFFFFF s) s)
    | .inl (w, e', s') =>
      let s := loPut i dom (loGet s' dom nd r.desc 1) [out] w (setSeq i q prov (some e') s')
      let info := loGet s dom nd r.desc 2
      let s := loPut i dom info [out, 1] k (loPut i dom info [out, 0] (e.len % 2 ^ 31) s)
      appendTokens i dom nd r prov k q tOld n (out + 1) e' s

/-- An APPEND entry (R327). -/
def entryAppend (i dom : Nat) (nd : Node) (r : LedRun) (prov : Bool) (k : Nat) (s : State) : EntryOut :=
  let inp := loGet s dom nd r.desc 0
  let q := loWord s dom inp [k, 0]
  let n := loCount s dom nd r.desc k
  let t := loWord s dom inp [k, 2] + 2 ^ 32 * loWord s dom inp [k, 3]
  if heldByOther s i q then .park
  else
    let out := r.out
    let s := modLed i (fun r => { r with out := r.out + n }) s
    match liveSeq s i (loCache r.desc) q with
    | .inr st => .done st ((List.range n).foldl (fun s m => loPut i dom (loGet s dom nd r.desc 1) [out + m] 0xFFFFFFFF s) s)
    | .inl e =>
      let (st, _, s) := appendTokens i dom nd r prov k q t n out e s
      .done st (if st = 0x1A13 ∨ st = 0x1A14 then allocFail (loCache r.desc) q s else s)

/-- CLOSE: every mapped page loses a reference, and the number is free; a faulted sequence's faulted words are not touched
(R326, R338). -/
def entryClose (i dom : Nat) (nd : Node) (r : LedRun) (prov : Bool) (k : Nat) (s : State) : EntryOut :=
  let q := loWord s dom (loGet s dom nd r.desc 0) [k]
  if heldByOther s i q then .park
  else match seqSeen s i q with
    | none => .done 0x1A10 s
    | some e =>
      if e.cache ≠ loCache r.desc ∨ 16384 ≤ q then .done 0x1A10 s
      else
        let s := e.list.foldl (fun s p => if s.ledger.badPages.contains p.2 then s else dropRef i p.2 prov s) s
        .done 0 (setSeq i q prov none s)

/-- REFILL: a page that is RECOMPUTING at the generation becomes RESIDENT (R335). -/
def entryRefill (i dom : Nat) (nd : Node) (r : LedRun) (prov : Bool) (k : Nat) (s : State) : EntryOut :=
  let inp := loGet s dom nd r.desc 0
  let p := loWord s dom inp [k, 0]
  let g := loWord s dom inp [k, 1]
  let x := pageOf s p
  if x.state ≠ .recomputing ∨ x.gen ≠ g ∨ x.cache ≠ loCache r.desc then .done 0x1A18 s
  else
    let s := inc LEDGER_REFILLS s
    if prov then .done 0 (logOp i (.refill p g) s)
    else
      let s := labDropPage p (putPage p { x with state := .resident } s)
      let peg := cdPeg (cacheDesc s x.cache)
      .done 0 (if peg = 0xFFFF then s else enqueue (.add peg 1 0) s)

/-! ### READ (R329–R334) -/

/-- A logical page that a sequence retains (R329). -/
def retained (cd : List Byte) (len j : Nat) : Bool :=
  let top := (len - 1) / 64
  decide (j ≤ top) && (!cdWindow cd || decide (j < cdSinks cd) || decide (top + 1 ≤ j + cdRingPages cd))

/-- The list of a query: page, lo, hi and the position of token 0, in order, with whether anything wanted is left out
(R329). -/
def readList (cd d : List Byte) (e : Seq) (q : Nat) : List (Nat × Nat × Nat × Nat) × Bool :=
  let sinkOn := bit (fieldU d 3 1) 0
  let top := (e.len - 1) / 64
  let lo := if loLocal d = 0 then 0 else q + 1 - loLocal d
  let entry := fun (j a b : Nat) => (tget (listPos cd j) e.list).map (fun p => (p, a, b, 64 * j))
  let sinks := if sinkOn then (List.range (min (cdSinks cd) (top + 1))).filterMap (fun j => entry j 0 (min 63 (e.len - 1 - 64 * j))) else []
  let globals := ((List.range (loGlobals d)).map (loGlobal d)).filter (fun p =>
    decide (p ≤ q) && !(sinkOn && decide (p / 64 < cdSinks cd)) && !(decide (lo ≤ p) && decide (p ≤ q)))
  let lost := globals.any (fun p => !retained cd e.len (p / 64))
  let globs := (globals.filter (fun p => retained cd e.len (p / 64))).filterMap (fun p => entry (p / 64) (p % 64) (p % 64))
  let locals := ((List.range (q / 64 + 1 - lo / 64)).map (· + lo / 64)).filterMap (fun j =>
    if retained cd e.len j then entry j (lo - 64 * j) (min 63 (q - 64 * j)) else none)
  let head := (sinks ++ globs).take (loPages d)
  let room := loPages d - head.length
  (head ++ locals.drop (locals.length - room),
   lost || decide (room < locals.length) || decide (loPages d < (sinks ++ globs).length))

/-- A page that a READ lists is asked for if it has been dropped; otherwise, or with a slot, it is pinned (R334). -/
def listPage (i : Nat) (r : LedRun) (prov : Bool) (p : Nat) (s : State) : State :=
  let x := pageOf s p
  let c := loCache r.desc
  let cd := cacheDesc s c
  let touch := fun (s : State) => modPage p (fun x => { x with lastRead := r.serial }) s
  let pin := fun (s : State) =>
    let s := pinPage p s
    { s with ledger.pins := s.ledger.pins.map (fun l => if l.inst = i then { l with pages := l.pages ++ [p] } else l) }
  let gone := fun (s : State) => modLed i (fun r => { r with absent := linsert p r.absent }) s
  if x.state ≠ .dropped then pin (touch s)
  else if prov then gone (touch s)
  else match findSlot c false r.dropEn r.serial s with
    | none => gone (touch s)
    | some (k, s) =>
      let x := { x with slot := some k, gen := (x.gen + 1) % 256, state := .recomputing, deadline := s.ridge.ns + cdLimit cd * 1000 }
      let s := inc LEDGER_RECOMPUTE_REQ (labDropPage p (putPage p x s))
      let s := raise 0x9003 (ledArg c x.seq) s
      let req := leBytes 1 1 ++ leBytes 1 c ++ leBytes 2 x.seq ++ leBytes 4 p ++ leBytes 1 x.gen ++ leBytes 1 64 ++ leBytes 2 0 ++
        leBytes 4 k ++ leBytes 8 (x.lpage * 64) ++ leBytes 8 x.tagFirst ++ leBytes 8 x.tagLast ++ leBytes 8 x.deadline ++ leBytes 16 0
      let s := if bit (cdRing cd) 31 then s
        else
          let (s, sent) := unitPush (cdRing cd % 2 ^ 24) (((tget c s.ledger.caches).map (·.owner)).getD 0) req s
          if sent then s else inc LEDGER_REQ_DROP s
      pin (touch s)

/-- Leaves that a walk of a list visits are counted as hits or misses of the look-aside buffers (R332). -/
def walkLeaves (cd : List Byte) (c q : Nat) (leaves : List Nat) (s : State) : State :=
  ((List.range 4).filter (bit (cdMask cd))).foldl (fun s b => leaves.foldl (fun s l =>
    let buf := tgetD b [] s.ledger.lab
    let key := (c, q, l)
    let s := inc (if buf.contains key then LEDGER_LAB_HIT b else LEDGER_LAB_MISS b) s
    { s with ledger.lab := tput b ((key :: buf.filter (· ≠ key)).take 128) s.ledger.lab }) s) s

/-- A READ entry: its list is made, and its pages are pinned or asked for; pages of the list are never dropped for one another
(R329, R331, R334). -/
def entryRead (i dom : Nat) (nd : Node) (r : LedRun) (prov : Bool) (k : Nat) (s : State) : EntryOut :=
  let inp := loGet s dom nd r.desc 0
  let sq := loWord s dom inp [k, 0]
  let back := loWord s dom inp [k, 1]
  let c := loCache r.desc
  if heldByOther s i sq then .park
  else
    let add := fun (l : ReadList) (s : State) => modLed i (fun r => { r with lists := r.lists ++ [l] }) s
    match liveSeq s i c sq with
    | .inr st => .done st (add ⟨0, [], st⟩ s)
    | .inl e =>
      if e.len ≤ back then .done 0x1A10 (add ⟨0, [], 0x1A10⟩ s)
      else
        let cd := cacheDesc s c
        let q := e.len - 1 - back
        let (es, cutOff) := readList cd r.desc e q
        let s := walkLeaves cd c sq ((es.map (fun x => listPos cd (x.2.2.2 / 64) / 64)).eraseDups) s
        let here := es.filter (fun x => decide ((pageOf s x.1).state ≠ .dropped))
        let asked := es.filter (fun x => decide ((pageOf s x.1).state = .dropped))
        let s := (here ++ asked).foldl (fun s x => listPage i r prov x.1 s) s
        let s := if cutOff then raise 0x9005 (ledArg c sq) (inc LEDGER_TRUNCATED (setMask LEDGER_STATUS 0x20 s)) else s
        let st := if cutOff then 0x1A16 else 0
        .done st (add ⟨q, es, st⟩ s)

/-- The lists of a READ are written, with the status of each entry (R329, R330). -/
def writeLists (i dom : Nat) (nd : Node) (r : LedRun) (s : State) : State :=
  let out := loGet s dom nd r.desc 1
  let info := loGet s dom nd r.desc 2
  let stat := loGet s dom nd r.desc 3
  let n := loPages r.desc
  (r.lists.zipIdx).foldl (fun s l =>
    let gone := l.1.entries.any (fun x => r.absent.contains x.1)
    let st := if l.1.status = 0 && gone then 0x1A17 else l.1.status
    let s := (List.range n).foldl (fun s j =>
      let at_ := l.2 * n + j
      match l.1.entries[j]? with
      | none => (List.range 8).foldl (fun s w => loPut i dom info [at_, w] 0 s) (loPut i dom out [at_] 0xFFFFFFFF s)
      | some (p, lo, hi, pos) =>
        let x := pageOf s p
        let miss := r.absent.contains p
        let rel := max (-(2 ^ 31 : Int) + 1) ((pos : Int) - l.1.q)
        let words := [ofSigned 32 rel, lo, hi, l.2, x.tOld % 2 ^ 32, x.tOld / 2 ^ 32, if miss then 0x1A17 else 0, 0]
        let s := if miss then inc LEDGER_ABSENT s else s
        (words.zipIdx).foldl (fun s w => loPut i dom info [at_, w.2] w.1 s)
          (loPut i dom out [at_] (if miss then 0xFFFFFFFF else x.slot.getD 0) s)) s
    loPut i dom stat [l.2] st s) s

/-! ### COLLECTIVE (R337) -/

/-- The rank that holds a global index of a sharded tensor, and its local index there (R233, R234). -/
def shardOf (d : List Byte) (ix : List Nat) : Nat × List Nat :=
  let parts := (ix.zipIdx).map (fun p =>
    let f := max 1 (tdFactor d p.2)
    if f = 1 then (0, p.1)
    else if tdCyclic d p.2 then
      let h := max 1 (tdChunk d p.2)
      (p.1 / h % f, p.1 / (h * f) * h + p.1 % h)
    else
      let c := ceilDiv (tdShape d p.2) f
      (p.1 / c, p.1 % c))
  (((parts.zipIdx).foldl (fun n p => n * max 1 (tdFactor d p.2) + p.1.1) 0), parts.map (·.2))

/-- An element of a shard or replica on a Bay, with its poison. -/
def shardElem (s : State) (d : List Byte) (bay : Nat) (ix : List Nat) : Nat × Bool :=
  (readCode s (tdBase d bay) (elemBit d ix) (tdWidth d), codePoisoned s none (tdBase d bay) (elemBit d ix) (tdWidth d))

/-- The sum of replicas by rank, in FP32 with one conversion at the end, or exact and saturated once for S32 (R337). -/
def reduceSum (c : Nat) (vs : List Nat) : Nat :=
  if c = 0x0E then ofSigned 32 (satSigned 32 ((vs.map (toSigned 32)).sum))
  else
    let f := vs.map (fun v => if c = 0x0D then v else toF32 c v)
    let r := match f with
      | [a, b] => fAdd a b
      | [a, b, x] => fAdd (fAdd a b) x
      | [a, b, x, y] => fAdd (fAdd a b) (fAdd x y)
      | a :: _ => a
      | [] => 0
    if c = 0x0D then r else (convert 0x0D c 0 false r 0).code

/-- The result element of a collective at a global index, with its poison. -/
def collElem (s : State) (kind src : Nat) (a : List Byte) (ix : List Nat) : Nat × Bool :=
  let bays := tdBays a
  match kind with
  | 1 => let (r, jx) := shardOf a ix; shardElem s a (bays.getD r 0) jx
  | 2 => let q := bays.map (fun b => shardElem s a b ix); (reduceSum (tdFormat a) (q.map (·.1)), q.any (·.2))
  | _ => shardElem s a (bays.getD src 0) ix

/-- The scale byte of a block of a collective's result: that of the shard or replica that holds the block's first element. -/
def collScale (s : State) (kind src : Nat) (a : List Byte) (outer : List Nat) (blk : Nat) : Byte × Bool :=
  let bays := tdBays a
  let (r, jx) := if kind = 1 then shardOf a (outer ++ [32 * blk]) else (src, outer ++ [32 * blk])
  let bay := bays.getD r 0
  let sh := localShape a bay
  let inner := ceilDiv (sh.getLast?.getD 1) 32
  let off := ((jx.dropLast.zip sh).foldl (fun n p => n * p.2 + p.1) 0) * inner + (jx.getLast?.getD 0) / 32
  let p := tdScaleBase a bay + off
  (memGet s p, poisoned s p 1)

/-- A COLLECTIVE writes its result on every Bay of the output (R337). -/
def runCollective (i dom : Nat) (kind src : Nat) (a b : List Byte) (s : State) : State :=
  let shape := (tdDims b).map (tdShape b)
  let s := (indicesOf shape).foldl (fun s' ix =>
    let (v, bad) := collElem s kind src a ix
    (tdBays b).foldl (fun s' bay =>
      let w := codeWrite s' (tdBase b bay) (elemBit b ix) (tdWidth b) v
      unitWrite i dom w.addr w.data bad s') s') s
  let s := if tdScaled a && tdScaled b then
      ((indicesOf (shape.dropLast ++ [ceilDiv (shape.getLast?.getD 1) 32])).zipIdx).foldl (fun s' p =>
        let (v, bad) := collScale s kind src a p.1.dropLast (p.1.getLast?.getD 0)
        (tdBays b).foldl (fun s' bay => unitWrite i dom (tdScaleBase b bay + p.2) [v] bad s') s') s
    else s
  incFld LEDGER_COLL_BYTES 31 0 (ceilDiv (ceilDiv (shape.foldl (· * ·) 1 * tdWidth b) 8) 1024) s

/-! ### An instance works (R325, R336) -/

/-- One entry of an operation. -/
def ledgerEntry (i dom : Nat) (nd : Node) (r : LedRun) (prov : Bool) (k : Nat) (s : State) : EntryOut :=
  match loOp r.desc with
  | 1 => entryOpen i dom nd r prov k s
  | 2 => entryFork i dom nd r prov k s
  | 3 => entryAppend i dom nd r prov k s
  | 4 => entryRead i dom nd r prov k s
  | 5 => entryClose i dom nd r prov k s
  | 6 => entryRefill i dom nd r prov k s
  | _ => .done 0 s

/-- The end of an instance's work. -/
def endLedger (i : Nat) (s : State) : State := settle (endRun i 0 0 { s with ledger.runs := tdel i s.ledger.runs })

/-- Entries in ascending index, until the end or one that parks (R325, R336). -/
def ledgerWork (i dom : Nat) (nd : Node) (prov : Bool) : Nat → State → State
  | 0, s => s
  | fuel + 1, s =>
    match runLed s i with
    | none => s
    | some r =>
      if loEntries s dom nd r.desc ≤ r.next then
        if loOp r.desc = 4 then (if recomputing s r then s else endLedger i (writeLists i dom nd r s))
        else endLedger i s
      else match ledgerEntry i dom nd r prov r.next s with
        | .park => s
        | .done st s =>
          let s := if loOp r.desc = 4 then s else loPut i dom (loGet s dom nd r.desc 3) [r.next] st s
          ledgerWork i dom nd prov fuel (modLed i (fun r => { r with next := r.next + 1 }) s)

/-- A Ledger row whose operation code is `op`: the instance at the head of the queue starts, or is refused, or a parked one goes
on; `seqs` and `pages` are faults found in the tables meanwhile (R325, R336, R338). -/
def ledgerRow (op i : Nat) (seqs pages : List Nat) (s : State) : State :=
  match instOf s i with
  | none => s
  | some (x, g, nd) =>
    let go := fun (s : State) =>
      let s := ledgerFaults seqs pages s
      match runLed s i with
      | none => s
      | some r =>
        if op = 7 then
          match collTensors s g.domain nd r.desc with
          | some (a, b) => endLedger i (runCollective i g.domain (fieldU r.desc 15 1 % 16) (fieldU r.desc 15 1 / 16) a b s)
          | none => endLedger i s
        else settle (ledgerWork i g.domain nd x.prov (loEntries s g.domain nd r.desc + 1) s)
    match runLed s i with
    | some r => if loOp r.desc = op then go s else s
    | none =>
      if !unitReady s 5 i then s
      else
        let is := decide (loOp (readBytes s nd.plan 128) = op)
        match ledgerRefusal s g nd with
        | some st =>
          if is || st = 0x1A01 || st = 0x1A03 then
            refuseUnit i st (raise 0x9020 st (setMask LEDGER_STATUS 0x10 (noteRead g.domain nd.plan 128 2 s)))
          else s
        | none =>
          if is then
            let s := startLedger i x nd s
            let s := if op = 4 then { s with ledger.pins := s.ledger.pins ++ [⟨i, x.graph, x.node, []⟩] } else s
            go (noteLedger g.domain nd (readBytes s nd.plan 128) s)
          else s

end Sys2Proof.Machine
end

