-- ==== Sys2Proof/Machine/Outputs.lean ====
section
/-! DEFINITION. Commands of the output streams and of the vehicle link (chapter 13). -/

namespace Sys2Proof.Machine
open Sys2Proof

/-- The add to done_peg that ends a capture (R399 step 5). -/
def captureDone (c : StreamCfg) (s : State) : State := if scDonePeg c = 0xFFFF then s else pegAdd (scDonePeg c) 1 0 s

/-- A capture that sends nothing because its source is stale or cannot be read (R399 step 3). -/
def captureStale (k : Nat) (c : StreamCfg) (s : State) : State := captureDone c (incFld (NETIN_OUT_DROP k) 31 16 1 s)

/-- STREAM_CAPTURE: a requested capture begins: its source is read, and skipped if it is not later than the last message captured or
cannot be read; a message larger than a buffer is dropped (R399–R402, R404, R487). -/
def execStreamCapture (stream_ : Nat) (s : State) : Out :=
  let x := stream s stream_
  let c := streamCfg s stream_
  if 32 ≤ stream_ || !x.enabled || !x.requested || x.copying.isSome || !inRun s then .next s
  else if quiescedDomain s c.dom then .next (putStream stream_ { x with requested := false, again := false } s)
  else
    let r := readSource s stream_ c
    let s := r.reads.foldl (fun s' p => noteRead c.dom p.1 p.2 3 s') (putStream stream_ { x with requested := x.again, again := false } s)
    if r.chanError then
      .next (captureStale stream_ c (setFld (NETIN_OUT_STATUS stream_) 7 4 6 (disableStream stream_ s)))
    else match r.msg with
      | none => .next (captureStale stream_ c s)
      | some m =>
        if x.lastTov.any (fun t => decide (m.tov ≤ t)) then .next (captureStale stream_ c s)
        else if scHalf c < m.bytes.length then .next (captureDone c (raise 0x3061 stream_ (dropMessage stream_ s)))
        else .next (modStream stream_ (fun x => { x with copying := some (makeMessage s c m) }) s)

/-- The message takes its place: INVALID on a safety stream is a miss now, a message whose window is decided is discarded, and one that
has not begun to leave is replaced (R400, R409, R411). -/
def placeMessage (k : Nat) (m : Message) (s : State) : State :=
  let c := m.cfg
  let s := if scSafety c && decide (m.verdict = 2) then
      missWindow k 2 true false (modStream k (fun x => { x with missed := m.due :: x.missed }) s)
    else s
  if m.due ≤ s.ridge.ns then raise 0x3061 k s
  else
    let s := if (stream s k).waiting.isSome then raise 0x3061 k (dropMessage k s) else s
    modStream k (fun x => { x with waiting := some m }) s

/-- CAPTURE_COMPLETE: the encoded message stands in the output area, done_peg is incremented, and the message waits to leave
(R399, R400, R403, R406). -/
def execCaptureComplete (stream_ : Nat) (s : State) : Out :=
  let x := stream s stream_
  match x.copying with
  | none => .next s
  | some m =>
    let c := m.cfg
    let buf := match x.leaving, x.waiting with
      | some o, _ => 1 - o.buf
      | none, some w => w.buf
      | none, none => 0
    let late := scTimed c && decide (m.tov + c.launch < s.ridge.ns)
    let m := { m with buf := buf, number := x.nextMsg, due := windowDue c (windowFor c m.tov),
                      degraded := if late then m.degraded ||| 0x1000 else m.degraded }
    let s := putStream stream_ { x with copying := none, lastTov := some m.tov, nextMsg := (x.nextMsg + 1) % 2 ^ 32 } s
    let s := setFld (NETIN_OUT_STATUS stream_) 31 16 m.number s
    let s := captureDone c (fencedWrite c.dom 3 ⟨c.area + buf * scHalf c, m.bytes, false⟩ s)
    .next (placeMessage stream_ m s)

/-- SEGMENT_LAUNCH: the next segment of the stream begins to leave, at its launch time or the first later instant at which its gate is
open and the port idle, with the valid bit of that instant; one that could no longer end by D_k is dropped (R80, R406, R407). -/
def execSegmentLaunch (stream_ : Nat) (s : State) : Out :=
  let x := stream s stream_
  match outgoing x with
  | none => .next s
  | some m =>
    let p := scPort m.cfg
    let q := scQueue m.cfg
    if 32 ≤ stream_ || !scEth m.cfg || m.ethDone || decide (s.ridge.ns < launchTime m) then .next s
    else
      let f := segmentFrame s stream_ m m.sent
      if !linkUp s p then .next (segmentDone stream_ m true (inc (NETIN_TX_DROP p) s))
      else if m.due < s.ridge.ns + lastBitTime s p f.length then .next (segmentDone stream_ m true (inc (NETIN_LAUNCH_DROP p) s))
      else if !mayStart s p q f.length then
        if tgetD p 0 s.net.busy ≤ s.ridge.ns ∧ (gateWindow s p q).isSome ∧ !m.held then
          .next (inc (NETIN_GATE_HOLD p) (modStream stream_ (fun x =>
            let h := fun (o : Option Message) => o.map (fun m => { m with held := true })
            if x.leaving.isSome then { x with leaving := h x.leaving } else { x with waiting := h x.waiting }) s))
        else .next s
      else .next (segmentDone stream_ { m with leftAt := s.ridge.ns + lastBitTime s p f.length } false (sendFrame p q f s))

/-- PCIE_DELIVERY: the message is written into the host ring with its completion entry, and the vector is raised; `consumed` is the
consume index that the host has written. A message that finds the ring full, or is larger than a slot, is dropped, and one whose window
is decided waits for its discard (R408, R409, R421). -/
def execPcieDelivery (stream_ consumed : Nat) (s : State) : Out :=
  let x := stream s stream_
  match outgoing x with
  | none => .next s
  | some m =>
    let d := m.cfg.dom
    if 32 ≤ stream_ || !scPcie m.cfg || m.pcieDone || decide (m.due < s.ridge.ns) then .next s
    else
      let gone := raise 0x3061 stream_ (dropMessage stream_ (modStream stream_ (fun x =>
        { x with leaving := none, waiting := if x.leaving.isSome then x.waiting else none }) s))
      match x.hostRing with
      | none => .next gone
      | some r =>
        if r.slotBytes < 64 + m.bytes.length || !s.mb.linkUp || s.mb.bmeClear.contains d then
          .next gone
        else if (m.number + 2 ^ 32 - consumed % 2 ^ 32) % 2 ^ 32 = r.slots then
          .next (raise 0x3065 stream_ gone)
        else
          let h := segmentHeader s stream_ m 0 1 0 m.bytes.length
          let i := m.number % max 1 r.slots
          let s := emit (.hostWrite d (r.slotsHost + i * r.slotBytes) (h ++ m.bytes)) s
          let s := emit (.hostWrite d (r.compHost + 64 * i) (h.take 48 ++ leBytes 8 s.ridge.ns ++ leBytes 8 0)) s
          .next (settleLeaving stream_ (putOutgoing stream_ { m with pcieDone := true, leftAt := max m.leftAt s.ridge.ns } (msix d r.vector s)))

/-- The next instant at which a window of the stream is decided: that of the configuration in force, or of a message captured under an
earlier one (R397, R409). -/
def nextDecision (x : Stream) (c : StreamCfg) : Option Int :=
  let held := [x.waiting, x.leaving].filterMap (fun m => m.map (·.due)) ++ x.left.map (·.1)
  (if x.enabled then windowDue c x.nextWindow :: held else held).foldl (fun acc d => match acc with
    | none => some d
    | some e => some (if d < e then d else e)) none

/-- The bin of the deadline slack of the window with this D_k: 0 for a miss, else one for each whole ms that the first message to meet
it left early (R592). -/
def slackBin (x : Stream) (due : Int) : Nat :=
  match x.slacks.find? (fun p => decide (p.1 = due)) with
  | some p => min 31 (1 + (p.2 / 1000000).toNat)
  | none => 0

/-- WINDOW_DECISION: at D_k the window is met if a message of it left completely with a verdict that is not INVALID; else it is a miss,
and what is queued of it is discarded (R409–R411). -/
def execWindowDecision (stream_ : Nat) (s : State) : Out :=
  let x := stream s stream_
  let c := streamCfg s stream_
  match nextDecision x c with
  | none => .next s
  | some due =>
    if 32 ≤ stream_ || decide ((s.ridge.ns : Int) < due) then .next s
    else
      let keep := fun (o : Option Message) => o.bind (fun m => if m.due ≤ due then none else some m)
      let gone := (keep x.waiting).isNone && x.waiting.isSome || (keep x.leaving).isNone && x.leaving.isSome
      let own := x.enabled && decide (due = windowDue c x.nextWindow)
      let s := putStream stream_ { x with waiting := keep x.waiting, leaving := keep x.leaving,
                                          left := x.left.filter (fun p => p.1 ≠ due), slacks := x.slacks.filter (fun p => p.1 ≠ due), missed := x.missed.filter (fun d => d ≠ due),
                                          nextWindow := if own then x.nextWindow + 1 else x.nextWindow } s
      let s := if gone then raise 0x3061 stream_ s else s
      let s := if x.enabled && scSafety c then histo 8 (slackBin x due) s else s
      if !x.enabled then .next s
      else if x.left.contains (due, false) then .next (meetWindow stream_ (scRecover c) s)
      else if x.missed.contains due then .next s
      else .next (missWindow stream_ 1 (scSafety c) (x.left.contains (due, true)) s)

/-- VALID_OUT_READBACK: Kingpost reads the pair; a second reading in a row that disagrees with the driven level is an event and a fault
(R412, R543). -/
def execValidOutReadback (level : Bool) (s : State) : Out :=
  if level = bit (rd s NETIN_VLINK_STATE) 0 then
    .next (faultEnds 20 (setFld NETIN_VLINK_STATE 2 2 1 { s with out.badReads := 0 }))
  else
    let s' := setFld NETIN_VLINK_STATE 2 2 0 { s with out.badReads := min 2 (s.out.badReads + 1) }
    if s.out.badReads = 1 then .next (fault 20 (raise 0x3064 (fld s NETIN_VLINK_STATE 23 16) s')) else .next s'

/-- The last multiple of hb_period_ms (R413). -/
def lastBeat (s : State) : Nat :=
  let p := clamp 1 100 (fld s NETIN_VLINK_CTRL 15 8) * 1000000
  s.ridge.ns / p * p

/-- SAFE_STATE_HEARTBEAT: at a multiple of hb_period_ms of Ridge time the safe-state message is queued in transmit slot 15, if msg_en is
set (R413). -/
def execSafeStateHeartbeat (s : State) : Out :=
  if bit (rd s NETIN_VLINK_CTRL) 1 && decide (s.out.beat < lastBeat s) then
    .next (queueSafeMessage { s with out.beat := lastBeat s })
  else .next s

/-- A write of VLINK_CTRL takes effect at once (R412, R413, R415, R555). -/
def putVlinkCtrl (value : Nat) (s : State) : State :=
  let on := bit (rd s NETIN_VLINK_CTRL) 1
  let s := acceptWrite NETIN_VLINK_CTRL.addr (takenWithin value 15 8 1 100) [] s
  updatePair (if !on && bit (rd s NETIN_VLINK_CTRL) 1 then { s with out.beat := lastBeat s } else s)

/-- VLINK_CTRL_WRITE: a write of NETIN.VLINK_CTRL, or of VLINK_ID where `ident` is set, takes effect at once unless the lock is set
(R412, R415). -/
def execVlinkCtrlWrite (ident : Bool) (value : Nat) (s : State) : Out :=
  .next (if ident then acceptWrite NETIN_VLINK_ID.addr value [] s else putVlinkCtrl value s)

end Sys2Proof.Machine
end

