-- ==== Sys2Proof/Machine/PlumbOps.lean ====
section
/-! DEFINITION. Plumb's datapath: the problem descriptor, residuals and assembly, the three solvers and the retraction of an
iterate (R346–R359). -/

namespace Sys2Proof.Machine
open Sys2Proof

/-! ### The problem descriptor (R346) -/

def pdForm (d : List Byte) : Nat := fieldU d 1 1
def pdSolver (d : List Byte) : Nat := fieldU d 2 1
def pdPoseOut (d : List Byte) : Bool := bit (fieldU d 3 1) 0
def pdMarginals (d : List Byte) : Bool := bit (fieldU d 3 1) 1
def pdRangeNar (d : List Byte) : Bool := bit (fieldU d 3 1) 2
def pdBlocks (d : List Byte) : Nat := fieldU d 4 2
def pdInertial (d : List Byte) : Nat := fieldU d 6 1
def pdFactors (d : List Byte) : Nat := fieldU d 8 4
def pdMaxIter (d : List Byte) : Nat := fieldU d 12 2
def pdProblems (d : List Byte) : Nat := fieldU d 14 2
def pdDeadline (d : List Byte) : Nat := fieldU d 16 4
def pdPoseLag (d : List Byte) : Nat := fieldU d 20 4
def pdPoseBlock (d : List Byte) : Nat := fieldU d 24 2
def pdPoseCount (d : List Byte) : Nat := fieldU d 26 2
/-- The ten binary points, in the order of R346. -/
def pdFrac (d : List Byte) (k : Nat) : Nat := fieldU d (28 + k) 1
def aFrac (d : List Byte) : Nat := pdFrac d 0
def jFrac (d : List Byte) : Nat := pdFrac d 1
def wFrac (d : List Byte) : Nat := pdFrac d 2
def rFrac (d : List Byte) : Nat := pdFrac d 3
def hFrac (d : List Byte) : Nat := pdFrac d 4
def bFrac (d : List Byte) : Nat := pdFrac d 5
def lFrac (d : List Byte) : Nat := pdFrac d 6
def yFrac (d : List Byte) : Nat := pdFrac d 7
def dFrac (d : List Byte) : Nat := pdFrac d 8
def covFrac (d : List Byte) : Nat := pdFrac d 9
def pdPivotMin (d : List Byte) : Int := fieldS d 40 4
def pdTol (d : List Byte) : Nat := fieldU d 44 4
def pdLambda0 (d : List Byte) : Nat := fieldU d 48 4
def pdLambdaMax (d : List Byte) : Nat := fieldU d 52 4
def pdLambdaUp (d : List Byte) : Nat := fieldU d 56 1
def pdLambdaDown (d : List Byte) : Nat := fieldU d 57 1
/-- The argument slots, in the order var, fac, x, res, cov, work, pose, status. -/
def pdArg (d : List Byte) (k : Nat) : Nat := fieldU d (60 + k) 1
def pdBatch (d : List Byte) : Bool := decide (pdForm d = 2)

/-- A block of the block table, with the number of its first unknown (R347). -/
structure PlBlk where
  size : Nat
  pose : Bool
  frac : Nat
  problem : Nat
  lo : Int
  hi : Int
  off : Nat

/-- The block table: `n` entries of 16 bytes (R347). -/
def plBlocks : Nat → List Byte → Nat → List PlBlk
  | 0, _, _ => []
  | n + 1, b, off =>
    { size := fieldU b 0 1, pose := decide (fieldU b 1 1 = 1), frac := fieldU b 2 1, problem := fieldU b 4 2,
      lo := fieldS b 8 4, hi := fieldS b 12 4, off := off } :: plBlocks n (b.drop 16) (off + fieldU b 0 1)

/-- An entry of the block table breaks R347. -/
def blockBad (d b : List Byte) : Bool :=
  fieldU b 0 1 = 0 || decide (6 < fieldU b 0 1) || decide (1 < fieldU b 1 1) || (fieldU b 1 1 = 1 && decide (fieldU b 0 1 ≠ 6)) ||
    decide (31 < fieldU b 2 1) || !zeroField b 3 1 || !zeroField b 6 2 ||
    (if pdBatch d then decide (pdProblems d ≤ fieldU b 4 2) else decide (fieldU b 4 2 ≠ 0))

/-! ### Q32 values in NAR mode (R213–R215) -/

def narQ (v : Option Int) : Option Int := v.bind (fun i => if -(2 ^ 31 : Int) < i ∧ i < 2 ^ 31 then some i else none)

/-- A value leaves from one binary point into a Q32 word at another. -/
def toQ (v : Option Int) (src dst : Nat) : Option Int := narQ (v.map (fun i => shiftTo i ((src : Int) - dst)))

def add72 (a b : Option Int) : Option Int :=
  match a, b with
  | some x, some y => if fits72 (x + y) then some (x + y) else none
  | _, _ => none

def sub72 (a b : Option Int) : Option Int := add72 a (b.map (- ·))

def mulO (a b : Option Int) : Option Int := match a, b with | some x, some y => some (x * y) | _, _ => none

/-- The exact sum of products, in ascending order. -/
def dotO (a b : List (Option Int)) : Option Int := ((a.zip b).map (fun p => mulO p.1 p.2)).foldl add72 (some 0)

/-- A left or right shift of an exact value within 72 bits. -/
def scaleO (v : Option Int) (k : Int) : Option Int := (v.map (fun i => shiftTo i k)).bind (fun i => if fits72 i then some i else none)

/-- The quotient of a sum at `g` fraction bits by a word at `df`, into a Q32 word at `f` (R214, R354). -/
def quotO (num : Option Int) (g : Nat) (den : Option Int) (df f : Nat) : Option Int :=
  match num, den with
  | some n, some e =>
    if e = 0 then none
    else narQ (some (divHalfUp (n * 2 ^ (df + f) * (if e < 0 then -1 else 1)) ((e.natAbs : Int) * 2 ^ g)))
  | _, _ => none

def codeOf (v : Option Int) : Nat := match v with | some i => ofSigned 32 i | none => NaR
def qAt (b : List Byte) (o : Nat) : Option Int := qVal (fieldU b o 4)

/-! ### Iterates (R347, R349, R358) -/

/-- The value of a block at an iterate: words of a euclidean block, or rotation and position, and the increments accumulated
over x0; whether an increment left the block's range (R357). -/
structure PlVal where
  e : List (Option Int) := []
  q : List Int := []
  p : List Int := []
  nar : Bool := false
  acc : List (Option Int) := []
  viol : Bool := false

/-- The value that a block's 64 bytes hold (R347). -/
def readVal (k : PlBlk) (b : List Byte) : PlVal :=
  let acc := List.replicate k.size (some 0)
  if k.pose then
    let q := signedWords 4 4 b
    let p := signedWords 8 3 (b.drop 16)
    { q := q, p := p, acc := acc, nar := q.contains (-(2 ^ 31 : Int)) ||
        (List.range 3).any (fun i => decide (fieldU b (16 + 8 * i) 8 = NaR * (2 ^ 32 + 1))) }
  else { e := (List.range k.size).map (fun i => qAt b (4 * i)), acc := acc }

/-- A value holds NaR. -/
def valNar (v : PlVal) : Bool := v.nar || v.e.any (·.isNone)

/-- The bytes of a value; NaR in every word where it is not a real (R359). -/
def valBytes (k : PlBlk) (v : PlVal) : List Byte :=
  if k.pose then
    (if v.nar then (List.range 10).flatMap (fun _ => leBytes 4 NaR)
     else v.q.flatMap (fun i => leBytes 4 (ofSigned 32 i)) ++ v.p.flatMap (fun i => leBytes 8 (ofSigned 64 i)))
  else v.e.flatMap (fun w => leBytes 4 (codeOf w))

/-- The value of a failed problem: NaR in every word (R359). -/
def narVal (k : PlBlk) : PlVal := { e := List.replicate k.size none, q := [0, 0, 0, 0], p := [0, 0, 0], nar := true }

/-- The rotation of a pose block after an increment δθ in units of 2^−`f` (R358). -/
def retractQ (q dθ : List Int) (f : Nat) : List Int :=
  let w := q.getD 0 0; let x := q.getD 1 0; let y := q.getD 2 0; let z := q.getD 3 0
  let a := dθ.getD 0 0; let b := dθ.getD 1 0; let c := dθ.getD 2 0
  let one : Int := 2 ^ (f + 1)
  norm ([w * one - x * a - y * b - z * c, w * a + x * one + y * c - z * b,
         w * b - x * c + y * one + z * a, w * c + x * b - y * a + z * one].map (fun v => shiftRound v (f + 1)))

/-- The retraction of a block by its increments at d_frac; the count is of increments outside a pose block's range (R357,
R358). -/
def retractBlk (d : List Byte) (k : PlBlk) (v : PlVal) (δ : List (Option Int)) : PlVal × Nat :=
  let acc := (v.acc.zip δ).map (fun p => narQ (add72 p.1 p.2))
  if k.pose then
    let past := (δ.filter (fun x => match x with
      | some i => decide ((k.hi * 2 ^ dFrac d : Int) < i.natAbs * 2 ^ k.frac)
      | none => false)).length
    if v.nar || δ.any (·.isNone) then ({ v with nar := true, acc := acc, viol := v.viol || decide (0 < past) }, past)
    else
      let w := δ.map (fun x => x.getD 0)
      ({ v with q := retractQ v.q (w.take 3) (dFrac d),
                p := (v.p.zip (w.drop 3)).map (fun x => x.1 + shiftTo (x.2 * 16000) (dFrac d)),
                acc := acc, viol := v.viol || decide (0 < past) }, past)
  else
    ({ v with e := (v.e.zip δ).map (fun p => narQ (add72 p.1 (toQ p.2 (dFrac d) k.frac))), acc := acc }, 0)

/-- A whole iterate is retracted block by block (R358). -/
def retract (d : List Byte) (ks : List PlBlk) (vs : List PlVal) (δ : List (Option Int)) : List PlVal × Nat :=
  let r := (ks.zip vs).map (fun p => retractBlk d p.1 p.2 ((δ.drop p.1.off).take p.1.size))
  (r.map (·.1), (r.map (·.2)).sum)

/-! ### Factors (R348–R350) -/

def fcKind (f : List Byte) : Nat := fieldU f 0 1
def fcRows (f : List Byte) : Nat := fieldU f 1 1
def fcA (f : List Byte) : Nat := fieldU f 6 2
def fcB (f : List Byte) : Option Nat := if fieldU f 8 2 = 0xFFFF then none else some (fieldU f 8 2)

/-- A factor is skipped (R348). -/
def factorSkipped (d : List Byte) (ks : List PlBlk) (f : List Byte) : Bool :=
  fcKind f = 0 || decide (4 < fcKind f) || fcRows f = 0 || decide (6 < fcRows f) ||
    (match ks[fcA f]? with
     | none => true
     | some a => pdBatch d && decide (a.problem ≠ fieldU f 4 2)) ||
    (match fcB f with
     | none => false
     | some b => decide (b = fcA f) || (match ks[b]? with
        | none => true
        | some k => pdBatch d && decide (k.problem ≠ fieldU f 4 2)))

/-- The source of inertial factors that a cycle uses (R350). -/
def inertialSource (d : List Byte) (fallback : Bool) : Nat :=
  if pdInertial d = 1 then 0x11 else if pdInertial d = 2 then 0x05 else if fallback then 0x05 else 0x11

/-- A factor is dropped: it is inertial and of the other source (R350). -/
def factorDropped (d : List Byte) (fallback : Bool) (f : List Byte) : Bool :=
  fcKind f = 2 && decide (fieldU f 2 1 ≠ inertialSource d fallback)

/-- The measuring point of the reference inertial unit in the vehicle frame, in µm (R34, R140, R350). -/
def leverArm (q t : List Int) : List Int :=
  ((matVec (rotation q) [18000, -22500, 1100]).zip t).map (fun p => p.1 + p.2)

/-- A cross product at r_frac, each product rounded; the second vector is in units of 1/`u` (R350). -/
def crossQ (f : Nat) (u : Option Int) (a b : List (Option Int)) : List (Option Int) :=
  let m := fun (i j : Nat) => narQ ((mulO (a.getD i none) (b.getD j none)).map (fun v => match u with
    | some k => divHalfUp v k
    | none => shiftTo v f))
  [sub72 (m 1 2) (m 2 1), sub72 (m 2 0) (m 0 2), sub72 (m 0 1) (m 1 0)].map narQ

/-- The measurement of a factor; that of a reference inertial factor is moved to the vehicle origin (R350). -/
def factorZ (d f : List Byte) (mountQ mountT : List Int) : List (Option Int) :=
  let z := (List.range 6).map (fun i => qAt f (16 + 4 * i))
  if fcKind f = 2 && fieldU f 2 1 = 0x11 then
    let r := (leverArm mountQ mountT).map some
    let w := z.drop 3
    let wd := (List.range 3).map (fun i => qAt f (52 + 4 * i))
    let c1 := crossQ (rFrac d) (some 1000000) wd r
    let c2 := crossQ (rFrac d) none w (crossQ (rFrac d) (some 1000000) w r)
    (List.range 3).map (fun i => narQ (sub72 (sub72 (z.getD i none) (c1.getD i none)) (c2.getD i none))) ++ w
  else z

/-- A factor that takes part in a cycle: its record, its measurement, and its blocks with their places. -/
structure PlFac where
  f : List Byte
  z : List (Option Int)
  a : Nat
  b : Option Nat

/-- An unstated word of a pose_between factor, or of a prior that does not match its block: residual row `i`, or entry (i, c)
of the derivatives (R349). -/
def unstatedWord (sel : List Int) (f : List Byte) (va : PlVal) (vb : Option PlVal) : Option Int :=
  let bytes := f.map (fun (b : Byte) => (b.toNat : Int))
  let vals := fun (v : PlVal) => v.q ++ v.p ++ v.e.map (fun w => (codeOf w : Int))
  qVal ((Config.unstated 349 (sel ++ bytes ++ vals va ++ (match vb with | some v => vals v | none => []))).toNat % 2 ^ 32)

/-- Row `i` of a factor's residual, at r_frac (R349). -/
def residual (d : List Byte) (ks : List PlBlk) (vs : List PlVal) (x : PlFac) (i : Nat) : Option Int :=
  let va := vs.getD x.a {}
  let ka := ks[x.a]?
  let vb := x.b.bind (fun j => vs[j]?)
  let g := max (rFrac d) (jFrac d + dFrac d)
  let up := fun (v : Option Int) (k : Nat) => v.map (fun w => w * 2 ^ (g - k))
  let prod := fun (o : Nat) (v : PlVal) => up (dotO ((List.range v.acc.length).map (fun c => qAt x.f (o + 24 * i + 4 * c))) v.acc) (jFrac d + dFrac d)
  match fcKind x.f with
  | 3 =>
    match ka with
    | some k =>
      if k.pose || decide (fcRows x.f ≠ k.size) then unstatedWord [0, i] x.f va vb
      else
        let g := max (rFrac d) k.frac
        toQ (sub72 ((x.z.getD i none).map (fun w => w * 2 ^ (g - rFrac d))) ((va.e.getD i none).map (fun w => w * 2 ^ (g - k.frac)))) g (rFrac d)
    | none => none
  | 4 => unstatedWord [0, i] x.f va vb
  | _ =>
    let base := up (sub72 (x.z.getD i none) (qAt x.f (40 + 4 * i))) (rFrac d)
    let r := sub72 base (prod 96 va)
    toQ (match vb with | some v => sub72 r (prod 240 v) | none => r) g (rFrac d)

/-- The weighted derivatives of row `i`, by unknown (R349, R351). -/
def jacobian (d : List Byte) (ks : List PlBlk) (vs : List PlVal) (x : PlFac) (i : Nat) : List (Nat × Option Int) :=
  let w := qAt x.f (64 + 4 * i)
  let va := vs.getD x.a {}
  let vb := x.b.bind (fun j => vs[j]?)
  let part := fun (n : Nat) (o sel : Nat) => match ks[n]? with
    | none => []
    | some k => (List.range k.size).map (fun c => (k.off + c,
        match fcKind x.f with
        | 3 => if k.pose || decide (fcRows x.f ≠ k.size) then
            toQ (mulO w (unstatedWord [sel, i, c] x.f va vb)) (wFrac d + jFrac d) (aFrac d)
          else toQ (if c = i then w.map (- ·) else w.map (fun _ => 0)) (wFrac d) (aFrac d)
        | 4 => toQ (mulO w (unstatedWord [sel, i, c] x.f va vb)) (wFrac d + jFrac d) (aFrac d)
        | _ => toQ (mulO w (qAt x.f (o + 24 * i + 4 * c))) (wFrac d + jFrac d) (aFrac d)))
  part x.a 96 1 ++ (match x.b with | some b => if fcKind x.f = 3 then [] else part b 240 2 | none => [])

/-- An assembled row: the weighted derivatives and the weighted residual (R351). -/
abbrev PlRow := List (Nat × Option Int) × Option Int

/-- Every row of the factors at an iterate, in ascending order (R351). -/
def plRows (d : List Byte) (ks : List PlBlk) (vs : List PlVal) (fs : List PlFac) : List PlRow :=
  fs.flatMap (fun x => (List.range (fcRows x.f)).map (fun i =>
    (jacobian d ks vs x i, toQ (mulO (qAt x.f (64 + 4 * i)) (residual d ks vs x i)) (wFrac d + rFrac d) (aFrac d))))

/-- The cost in units of 2^−16, which saturates; a sum that is no real counts as the largest (R351). -/
def costOf (d : List Byte) (rows : List PlRow) : Nat :=
  match (rows.map (fun r => mulO r.2 r.2)).foldl add72 (some 0) with
  | some c => min (2 ^ 64 - 1) (shiftTo c (2 * (aFrac d : Int) - 16)).toNat
  | none => 2 ^ 64 - 1

def costAt (d : List Byte) (ks : List PlBlk) (fs : List PlFac) (vs : List PlVal) : Nat := costOf d (plRows d ks vs fs)

/-- The derivatives of a row by unknown `c`, summed over a pair. -/
def entryH (rows : List PlRow) (c e : Nat) : Option Int :=
  rows.foldl (fun acc r =>
    ((r.1.filter (fun p => decide (p.1 = c))).flatMap (fun p => (r.1.filter (fun q => decide (q.1 = e))).map (fun q => mulO p.2 q.2))).foldl add72 acc)
    (some 0)

/-- H and b at an iterate, written to h_frac and b_frac, over the unknowns from `lo` (R351). -/
def assemble (d : List Byte) (lo n : Nat) (rows : List PlRow) : List (List (Option Int)) × List (Option Int) :=
  ((List.range n).map (fun c => (List.range n).map (fun e => toQ (entryH rows (lo + c) (lo + e)) (2 * aFrac d) (hFrac d))),
   (List.range n).map (fun c => toQ (rows.foldl (fun acc r =>
      ((r.1.filter (fun p => decide (p.1 = lo + c))).map (fun p => mulO p.2 r.2)).foldl add72 acc) (some 0)) (2 * aFrac d) (bFrac d)))

/-- H or b holds NaR (R359). -/
def sysNar (hb : List (List (Option Int)) × List (Option Int)) : Bool := hb.1.any (·.any (·.isNone)) || hb.2.any (·.isNone)

/-! ### Cholesky (R354) -/

/-- A row of L left of its diagonal, from a row of H and the rows of L above. -/
def cholOff (d : List Byte) (he : List (Option Int)) (rows : List (List (Option Int))) : List (Option Int) :=
  let g := max (2 * lFrac d) (hFrac d)
  rows.foldl (fun acc rk =>
    let s := scaleO (dotO acc rk) (2 * (lFrac d : Int) - g)
    let h := scaleO (he.getD acc.length none) ((hFrac d : Int) - g)
    acc ++ [quotO (sub72 h s) g (rk.getD acc.length none) (lFrac d) (lFrac d)]) []

/-- The rows of the factor L, or none where the factorisation fails (R354). -/
def cholesky (d : List Byte) (hs : List (List (Option Int))) : Option (List (List (Option Int))) :=
  let g := max (2 * lFrac d) (hFrac d)
  hs.foldl (fun acc he =>
    acc.bind (fun rows =>
      let off := cholOff d he rows
      let num := sub72 (scaleO (he.getD rows.length none) ((hFrac d : Int) - g)) (scaleO (dotO off off) (2 * (lFrac d : Int) - g))
      match num.map (fun v => shiftTo v ((g : Int) - hFrac d)) with
      | none => none
      | some piv =>
        if piv < pdPivotMin d then none
        else
          let r := isqrt (piv.toNat * 2 ^ (2 * lFrac d + 2) / 2 ^ hFrac d)
          some (rows ++ [off ++ [narQ (some (((r + 1) / 2 : Nat) : Int))]]))) (some [])

/-- Forward and backward substitution: Δ at d_frac (R354). -/
def substitute (d : List Byte) (l : List (List (Option Int))) (b : List (Option Int)) : List (Option Int) :=
  let g1 := max (lFrac d + yFrac d) (bFrac d)
  let y := (l.zip b).foldl (fun (acc : List (Option Int)) p =>
    let s := scaleO (dotO acc p.1) ((lFrac d : Int) + yFrac d - g1)
    acc ++ [quotO (sub72 (scaleO p.2 ((bFrac d : Int) - g1)) s) g1 (p.1.getD acc.length none) (lFrac d) (yFrac d)]) []
  let g2 := max (lFrac d + dFrac d) (yFrac d)
  (List.range l.length).foldr (fun k (acc : List (Option Int)) =>
    let col := (l.drop (k + 1)).map (fun r => r.getD k none)
    let s := scaleO (dotO col acc) ((lFrac d : Int) + dFrac d - g2)
    quotO (sub72 (scaleO (y.getD k none) ((yFrac d : Int) - g2)) s) g2 ((l.getD k []).getD k none) (lFrac d) (dFrac d) :: acc) []

/-! ### Conjugate gradient (R355) -/

/-- The block-Jacobi preconditioner: the factor of each diagonal block, or none where one fails. -/
def jacobiBlocks (d : List Byte) (ks : List PlBlk) (hs : List (List (Option Int))) : Option (List (List (List (Option Int)))) :=
  ks.foldl (fun acc k => acc.bind (fun l =>
    (cholesky d (((hs.drop k.off).take k.size).map (fun r => (r.drop k.off).take k.size))).map (fun m => l ++ [m]))) (some [])

def precond (d : List Byte) (ks : List PlBlk) (ms : List (List (List (Option Int)))) (r : List (Option Int)) : List (Option Int) :=
  (ks.zip ms).flatMap (fun p => substitute d p.2 ((r.drop p.1.off).take p.1.size))

structure CgSt where
  x : List (Option Int)
  r : List (Option Int)
  p : List (Option Int)
  /-- r·z, exact. -/
  rz : Option Int
  /-- Iterates so far with ‖r‖², newest last. -/
  its : List (List (Option Int) × Option Int)
  /-- 0 runs, 1 converged, 2 failed. -/
  stop : Nat := 0

/-- A scalar quotient at the scalars' binary point. -/
def cgQuot (n m : Option Int) : Option Int :=
  match n, m with
  | some a, some b => if b = 0 then none else some (divHalfUp (a * 2 ^ Config.cgFrac * (if b < 0 then -1 else 1)) b.natAbs)
  | _, _ => none

/-- `v + a·w`, into a vector's binary point. -/
def axpy (neg : Bool) (a : Option Int) (v w : List (Option Int)) : List (Option Int) :=
  (v.zip w).map (fun p =>
    let t := (mulO a p.2).map (fun i => shiftTo i Config.cgFrac)
    narQ (if neg then sub72 p.1 t else add72 p.1 t))

def cgDone (d : List Byte) (bb rr : Option Int) : Bool :=
  match bb, rr with
  | some b, some r => decide (r * 2 ^ 64 ≤ (pdTol d * pdTol d : Nat) * b)
  | _, _ => false

/-- One iteration of conjugate gradient (R355). -/
def cgStep (d : List Byte) (ks : List PlBlk) (hs : List (List (Option Int))) (ms : List (List (List (Option Int)))) (bb : Option Int) (c : CgSt) : CgSt :=
  let q := hs.map (fun row => toQ (dotO row c.p) (hFrac d + dFrac d) (bFrac d))
  let pq := dotO c.p q
  if (match pq with | some v => decide (v ≤ 0) | none => true) then { c with stop := 2 }
  else
    let α := cgQuot c.rz pq
    let x := axpy false α c.x c.p
    let r := axpy true α c.r q
    let rr := dotO r r
    let its := c.its ++ [(x, rr)]
    if cgDone d bb rr then { c with x := x, r := r, its := its, stop := 1 }
    else
      let z := precond d ks ms r
      let rz := dotO r z
      { c with x := x, r := r, its := its, rz := rz, p := axpy false (cgQuot rz c.rz) z c.p }

def cgRun (d : List Byte) (ks : List PlBlk) (hs : List (List (Option Int))) (ms : List (List (List (Option Int)))) (bb : Option Int) : Nat → CgSt → CgSt
  | 0, c => c
  | n + 1, c => if c.stop = 0 then cgRun d ks hs ms bb n (cgStep d ks hs ms bb c) else c

/-- Conjugate gradient from Δ = 0, at most `n` iterations; none where a diagonal block cannot be factored. -/
def cgSolve (d : List Byte) (ks : List PlBlk) (hs : List (List (Option Int))) (b : List (Option Int)) (n : Nat) : Option CgSt :=
  (jacobiBlocks d ks hs).map (fun ms =>
    let bb := dotO b b
    let z := precond d ks ms b
    let x0 := b.map (fun _ => some 0)
    let c : CgSt := { x := x0, r := b, p := z, rz := dotO b z, its := [(x0, bb)] }
    if cgDone d bb bb then { c with stop := 1 } else cgRun d ks hs ms bb n c)

/-! ### Levenberg–Marquardt (R356) -/

/-- What a solver gives: the outcome, the iterate returned with its cost and number, λ, increments outside a range, and the
factor of the iterate. -/
structure PlSol where
  outcome : Nat
  x : List PlVal
  cost : Nat
  iters : Nat := 0
  lam : Nat := 0
  viol : Nat := 0
  fac : Option (List (List (Option Int))) := none

structure LmSt where
  sol : PlSol
  once : Bool := false
  stopped : Bool := false

/-- λ added to the diagonal of H, rounded to h_frac (R356). -/
def damp (lam : Nat) (hs : List (List (Option Int))) : List (List (Option Int)) :=
  (hs.zipIdx).map (fun r => (r.1.zipIdx).map (fun e =>
    if e.2 = r.2 then narQ (e.1.map (fun h => h + shiftRound (lam * h) 16)) else e.1))

def lmStep (d : List Byte) (ks : List PlBlk) (fs : List PlFac) (n it : Nat) (l : LmSt) : LmSt :=
  let best := l.sol
  let hb := assemble d 0 n (plRows d ks best.x fs)
  let worse := best.lam * pdLambdaUp d
  if sysNar hb then { l with sol := { best with outcome := 0x1B13 }, stopped := true }
  else match cholesky d (damp best.lam hb.1) with
    | none =>
      if pdLambdaMax d < worse then { l with sol := { best with outcome := if l.once then 0x1B12 else 0x1B10, lam := worse }, stopped := true }
      else { l with sol := { best with lam := worse } }
    | some fac =>
      let δ := substitute d fac hb.2
      let (x, past) := retract d ks best.x δ
      let c := costAt d ks fs x
      let best := { best with viol := best.viol + past, fac := some fac }
      if c < best.cost then
        let conv := decide ((best.cost - c) * 2 ^ 32 ≤ best.cost * pdTol d) ||
          δ.all (fun v => match v with | some i => decide (i.natAbs ≤ 1) | none => false)
        { sol := { best with x := x, cost := c, iters := it, lam := max 1 (divHalfUp best.lam (pdLambdaDown d)).toNat,
                             outcome := if conv then 0 else best.outcome },
          once := true, stopped := conv }
      else if pdLambdaMax d < worse then { sol := { best with lam := worse }, once := true, stopped := true }
      else { sol := { best with lam := worse }, once := true }

/-- Iterations from number `it`; the outcome stands at 0x1B12 until the run converges or fails. -/
def lmRun (d : List Byte) (ks : List PlBlk) (fs : List PlFac) (n : Nat) : Nat → Nat → LmSt → LmSt
  | 0, _, l => l
  | k + 1, it, l => if l.stopped then l else lmRun d ks fs n k (it + 1) (lmStep d ks fs n it l)

/-- The solution of a dense or block-sparse problem after at most `limit` iterations; an ill-posed one, or one with NaR, has
no iterate (R354–R356, R359). -/
def solvePlumb (d : List Byte) (ks : List PlBlk) (fs : List PlFac) (x0 : List PlVal) (limit : Nat) : PlSol :=
  let n := (ks.map (·.size)).sum
  let rows := plRows d ks x0 fs
  let hb := assemble d 0 n rows
  let c0 := costOf d rows
  let start : PlSol := { outcome := 0x1B12, x := x0, cost := c0, lam := if pdSolver d = 2 then pdLambda0 d else 0 }
  if x0.any valNar || sysNar hb then { start with outcome := 0x1B13 }
  else match pdSolver d with
    | 0 =>
      match cholesky d hb.1 with
      | none => { start with outcome := 0x1B10 }
      | some fac =>
        let (x, past) := retract d ks x0 (substitute d fac hb.2)
        { outcome := 0, x := x, cost := costAt d ks fs x, iters := 1, viol := past, fac := some fac }
    | 1 =>
      match cgSolve d ks hb.1 hb.2 (min limit (pdMaxIter d)) with
      | none => { start with outcome := 0x1B10 }
      | some c =>
        if c.stop = 2 then { start with outcome := 0x1B10 }
        else
          let (x, past) := retract d ks x0 c.x
          { outcome := if c.stop = 1 then 0 else 0x1B12, x := x, cost := costAt d ks fs x, iters := c.its.length - 1, viol := past }
    | _ => (lmRun d ks fs n (min limit (pdMaxIter d)) 1 { sol := start }).sol

/-- What a deadline returns after `k` iterations of a dense or block-sparse problem: the best iterate that exists, unless the
first assembly or an iteration has found NaR, or the problem ill-posed, by then (R359, R361). `costed`: the cost of conjugate
gradient's iterate has been computed. -/
def deadlinePlumb (d : List Byte) (ks : List PlBlk) (fs : List PlFac) (x0 : List PlVal) (k : Nat) (costed : Bool) : PlSol :=
  let c0 := costAt d ks fs x0
  let start : PlSol := { outcome := 0x1B11, x := x0, cost := c0, lam := if pdSolver d = 2 then pdLambda0 d else 0 }
  let n := (ks.map (·.size)).sum
  let hb := assemble d 0 n (plRows d ks x0 fs)
  if x0.any valNar || sysNar hb then { start with outcome := 0x1B13 }
  else match pdSolver d with
  | 0 => start
  | 1 =>
    match cgSolve d ks hb.1 hb.2 k with
    | none => if k = 0 then start else { start with outcome := 0x1B10 }
    | some c =>
      if c.stop = 2 then { start with outcome := 0x1B10 } else
      let best := (c.its.zipIdx).foldl (fun (a : Option (List (Option Int) × Int × Nat)) p => match p.1.2, a with
        | some r, some (_, m, _) => if r < m then some (p.1.1, r, p.2) else a
        | some r, none => some (p.1.1, r, p.2)
        | none, _ => a) none
      match best with
      | some (x, _, it) =>
        if costed then
          let (v, past) := retract d ks x0 x
          { start with x := v, cost := costAt d ks fs v, iters := it, viol := past }
        else start
      | none => start
  | _ =>
    let sol := solvePlumb d ks fs x0 k
    if sol.outcome = 0x1B10 ∨ sol.outcome = 0x1B13 then sol else { sol with outcome := 0x1B11 }

/-- One problem of a batch: its blocks with their unknowns renumbered from zero, solved by Cholesky (R352, R354). -/
def solveBatch (d : List Byte) (ks : List PlBlk) (fs : List PlFac) (x0 : List PlVal) (p : Nat) : PlSol :=
  let mine := (ks.zip x0).filter (fun q => decide (q.1.problem = p))
  let lo := ((mine.head?).map (·.1.off)).getD 0
  let n := (mine.map (·.1.size)).sum
  let rows := plRows d ks x0 (fs.filter (fun x => decide (fieldU x.f 4 2 = p)))
  let idx := fun (k : Nat) => ((mine.flatMap (fun q => (List.range q.1.size).map (· + q.1.off))).findIdx? (· = k)).getD n
  let rows := rows.map (fun r => (r.1.map (fun c => (lo + idx c.1, c.2)), r.2))
  let hb := assemble d lo n rows
  let start : PlSol := { outcome := 0x1B10, x := mine.map (·.2), cost := costOf d rows }
  if (mine.map (·.2)).any valNar || sysNar hb then { start with outcome := 0x1B13 }
  else match cholesky d hb.1 with
    | none => start
    | some fac =>
      let δ := substitute d fac hb.2
      let x := (mine.foldl (fun (a : List PlVal × Nat) q =>
        (a.1 ++ [(retractBlk d q.1 q.2 ((δ.drop a.2).take q.1.size)).1], a.2 + q.1.size)) ([], 0)).1
      { outcome := 0, x := x, cost := 0, iters := 1, fac := some fac }

/-- Entry (r, c) of the inverse of H from a factor: no rule gives its rounding (R365). -/
def inverseEntry (d : List Byte) (fac : Option (List (List (Option Int)))) (r c : Nat) : Option Int :=
  match fac with
  | none => none
  | some l => qVal ((Config.unstated 365 ([(r : Int), c, covFrac d] ++ l.flatMap (fun row => row.map (fun v => (codeOf v : Int))))).toNat % 2 ^ 32)

/-! ### The symbolic phase (R352) -/

/-- Off-diagonal block pairs that some factor touches, lower number first. -/
def touchedPairs (fs : List PlFac) : List (Nat × Nat) :=
  fs.foldl (fun l x => match x.b with
    | some b => let p := (min x.a b, max x.a b); if l.contains p then l else p :: l
    | none => l) []

/-- The pairs of the factor after fill-in, eliminating the blocks in ascending order. -/
def fillIn (n : Nat) (pairs : List (Nat × Nat)) : List (Nat × Nat) :=
  (List.range n).foldl (fun l k =>
    let nb := (l.filter (fun p => decide (p.1 = k))).map (·.2)
    nb.foldl (fun l a => nb.foldl (fun l b => if a < b && !l.contains (a, b) then (a, b) :: l else l) l) l) pairs

/-- Bytes of work, or none where a limit of R352 is exceeded. -/
def workBytes (d : List Byte) (ks : List PlBlk) (fs : List PlFac) : Option Nat :=
  let n := (ks.map (·.size)).sum
  match pdForm d with
  | 0 => if n ≤ 512 then some (8 * n * n + 4096) else none
  | 1 =>
    let pairs := touchedPairs fs
    let hb := pdBlocks d + pairs.length
    let fb := if pdSolver d = 1 then 0 else pdBlocks d + (fillIn (pdBlocks d) pairs).length
    if n ≤ 16384 ∧ hb ≤ 65536 ∧ fb ≤ 262144 then some (160 * (hb + fb) + 64 * pdBlocks d) else none
  | _ =>
    if (List.range (pdProblems d)).all (fun p =>
        let mine := ks.filter (fun k => decide (k.problem = p))
        !mine.isEmpty && decide (mine.length ≤ 2) && mine.all (fun k => !k.pose)) then some (1280 * pdProblems d) else none

end Sys2Proof.Machine
end

