-- ==== Sys2Proof/Machine/Plumb.lean ====
section
/-! DEFINITION. Commands of Plumb: the start of a cycle, its end, its deadline, and the publishing of poses (R343–R367). -/

namespace Sys2Proof.Machine
open Sys2Proof

/-! ### The queue of a unit with mark cycles (R261, R344) -/

/-- The key of a mark cycle in its unit's queue (R344). -/
def markKey (m : MarkCycle) : List Nat :=
  [1, if m.cfg.owner = 0 then m.cfg.priority else max m.cfg.priority 2, m.at_, 256, m.slot, m.count, 0]

/-- The first of the mark cycles of a queue. -/
def firstMark (q : List MarkCycle) : Option MarkCycle :=
  q.foldl (fun a m => match a with | none => some m | some h => if keyLess (markKey m) (markKey h) then some m else some h) none

/-- The head of a unit's queue: an instance, or a mark cycle. -/
def cycleHead (s : State) (kind : Nat) (q : List MarkCycle) : Option (Nat ⊕ MarkCycle) :=
  match queueHead s kind none, firstMark q with
  | some r, some m =>
    match tget r.1 s.scribe.insts with
    | some x => if keyLess (markKey m) (queueKey s r.1 r.2 x) then some (.inr m) else some (.inl r.1)
    | none => some (.inr m)
  | some r, none => some (.inl r.1)
  | none, some m => some (.inr m)
  | none, none => none

/-- A mark cycle ends: its amount is added to its peg (R344, R364, R375). -/
def markDone (m : MarkCycle) (verdict : Nat) (s : State) : State := pegAdd m.cfg.peg m.cfg.amount verdict s

/-- A write of a unit's cycle: into pool pages for a provisional instance, at once otherwise (R276). -/
def cycleWrite (inst : Option Nat) (dom a : Nat) (bs : List Byte) (poison : Bool) (s : State) : State :=
  match inst with
  | some i => unitWrite i dom a bs poison s
  | none => fencedWrite dom 2 ⟨a, bs, poison⟩ s

/-! ### The checks at a start (R353) -/

/-- A tensor of bytes, of rank 1, with room for `n` of them. -/
def bytesTensor (s : State) (dom : Nat) (binds : List Bind) (arg : Nat) (kinds : List Nat) (n : Nat) : Bool :=
  match boundTensor s dom binds arg kinds with
  | none => false
  | some d =>
    let sh := viewShape s dom d (unitBay s dom d)
    decide (sh.length = 1) && decide (tdFormat (storageOf s dom d) = 2) && decide (n ≤ sh.headD 0)

/-- A tensor of a format with `n` entries or more of a shape. -/
def shapedTensor (s : State) (dom : Nat) (binds : List Bind) (arg : Nat) (kinds : List Nat) (fmt n : Nat) (shape : List Nat) : Bool :=
  match boundTensor s dom binds arg kinds with
  | none => false
  | some d =>
    let sh := viewShape s dom d (unitBay s dom d)
    decide (n ≤ sh.headD 0) && decide (sh.drop 1 = shape) && decide (tdFormat (storageOf s dom d) = fmt)

/-- The address at which the bytes of a bound tensor begin. -/
def argBase (s : State) (dom : Nat) (binds : List Bind) (arg : Nat) (kinds : List Nat) : Nat :=
  match boundTensor s dom binds arg kinds with | some d => tensorBase s dom d | none => 0

def plumbReserved (d : List Byte) : Bool :=
  decide (8 ≤ fieldU d 3 1) || !zeroField d 7 1 || !zeroField d 38 2 || !zeroField d 58 2 || !zeroField d 68 188

/-- The fields of R346 outside their range, with their offsets; form and solver must agree (R352). -/
def plumbRanges (d : List Byte) : List (Bool × Nat × Nat) :=
  let out := fun (v lo hi : Nat) => decide (v < lo) || decide (hi < v)
  [(decide (2 < pdForm d), 1), (decide (2 < pdSolver d) || (pdBatch d && decide (pdSolver d ≠ 0)), 2),
   (pdPoseOut d && pdBatch d, 3), (out (pdBlocks d) 1 4096, 4),
   (decide (2 < pdInertial d), 6), (out (pdFactors d) 1 262144, 8), (decide (pdSolver d ≠ 0) && out (pdMaxIter d) 1 1024, 12),
   (if pdBatch d then out (pdProblems d) 1 4096 else decide (pdProblems d ≠ 0), 14), (out (pdDeadline d) 1000 1000000000, 16),
   (pdPoseOut d && decide (pdBlocks d ≤ pdPoseBlock d), 24), (pdPoseOut d && out (pdPoseCount d) 16 4096, 26)].map
    (fun p => (p.1, 0x1B03, p.2)) ++
  (List.range 10).map (fun k => (decide (31 < pdFrac d k) || (decide (k = 4) && decide (pdFrac d k % 2 = 1)), 0x1B03, 28 + k)) ++
  [(decide (pdPivotMin d ≤ 0), 0x1B03, 40), (decide (pdLambdaMax d < pdLambda0 d), 0x1B03, 52),
   (out (pdLambdaUp d) 2 16, 0x1B03, 56), (out (pdLambdaDown d) 2 16, 0x1B03, 57)]

/-- The blocks of a cycle, as its block table gives them. -/
def cycleBlocks (s : State) (dom : Nat) (binds : List Bind) (d : List Byte) : List PlBlk :=
  plBlocks (pdBlocks d) (readBytes s (argBase s dom binds (pdArg d 0) [0]) (16 * pdBlocks d)) 0

/-- The factor records of a cycle. -/
def cycleFactors (s : State) (dom : Nat) (binds : List Bind) (d : List Byte) : List (List Byte) :=
  let a := argBase s dom binds (pdArg d 1) [0]
  (List.range (pdFactors d)).map (fun i => readBytes s (a + 384 * i) 384)

/-- The factors that take part, each with its measurement (R348–R350). -/
def usedFactors (d : List Byte) (ks : List PlBlk) (fallback : Bool) (mq mt : List Int) (fs : List (List Byte)) : List PlFac :=
  (fs.filter (fun f => !factorSkipped d ks f && !factorDropped d fallback f)).map (fun f =>
    { f := f, z := factorZ d f mq mt, a := fcA f, b := fcB f })

/-- The bytes of a tensor that a binding names can be written by the domain. -/
def writableTensor (s : State) (dom : Nat) (binds : List Bind) (arg : Nat) : Bool :=
  match boundTensor s dom binds arg [1] with
  | none => false
  | some d => match extentFor s dom d (unitBay s dom d) with
    | some (a, b) => admitAll s dom a (b + 1 - a) true
    | none => false

/-- Why a cycle is refused: status and byte offset in the descriptor (R353). -/
def plumbRefusal (s : State) (dom addr : Nat) (binds : List Bind) (fallback : Bool) : Option (Nat × Nat) :=
  let d := readBytes s addr 256
  if !bit (live s PLUMB_CTRL) 0 then some (0x1B01, 0)
  else if addr % 64 ≠ 0 || !readable s dom addr 256 || fieldU d 0 1 ≠ 1 || plumbReserved d then some (0x1B02, 0)
  else match firstReason (plumbRanges d) with
  | some r => some r
  | none =>
    let nb := pdBlocks d
    match firstReason ([
      (!bytesTensor s dom binds (pdArg d 0) [0] (16 * nb), 0x1B04, 60), (!bytesTensor s dom binds (pdArg d 1) [0] (384 * pdFactors d), 0x1B04, 61),
      (!bytesTensor s dom binds (pdArg d 2) [1] (64 * nb), 0x1B04, 62), (!bytesTensor s dom binds (pdArg d 3) [1] 64, 0x1B04, 63),
      (pdBatch d && !shapedTensor s dom binds (pdArg d 4) [1] 0x0F (pdProblems d) [12, 12], 0x1B04, 64),
      (!bytesTensor s dom binds (pdArg d 5) [1] 0, 0x1B04, 65),
      (pdPoseOut d && !bytesTensor s dom binds (pdArg d 6) [1] (64 * pdPoseCount d), 0x1B04, 66),
      (pdBatch d && !shapedTensor s dom binds (pdArg d 7) [1] 0x0E (pdProblems d) [], 0x1B04, 67)]) with
    | some r => some r
    | none =>
      let va := argBase s dom binds (pdArg d 0) [0]
      let raw := readBytes s va (16 * nb)
      let ks := cycleBlocks s dom binds d
      let n := (ks.map (·.size)).sum
      if fencedPoison s dom va (16 * nb) || (List.range nb).any (fun k => blockBad d (raw.drop (16 * k))) then some (0x1B05, 60)
      else if pdMarginals d && decide (pdForm d = 0) && !shapedTensor s dom binds (pdArg d 4) [1] 0x0F n [] then some (0x1B04, 64)
      else
        let fs := usedFactors d ks fallback [0, 0, 0, 0] [0, 0, 0] (cycleFactors s dom binds d)
        match workBytes d ks fs with
        | none => some (0x1B06, 1)
        | some w =>
          if !bytesTensor s dom binds (pdArg d 5) [1] w then some (0x1B06, 65)
          else if pdPoseOut d && (!(ks[pdPoseBlock d]?).any (·.pose) || !writableTensor s dom binds (pdArg d 6)) then some (0x1B07, 24)
          else none

/-! ### Starting (R343–R345) -/

def mountQuat (s : State) : List Int := (List.range 4).map (fun i => toSigned 32 (live s (NETIN_MOUNT_Q i)))
def mountPos (s : State) : List Int := (List.range 3).map (fun i => toSigned 32 (live s (NETIN_MOUNT_T i)))

/-- A cycle is refused: it ends at once, with INVALID signals (R353). -/
def refusePlumb (who : Nat ⊕ MarkCycle) (status off : Nat) (s : State) : State :=
  let s := setMask PLUMB_STATUS 0x10 (wr PLUMB_DESC_ERR (status + 65536 * off) s)
  let s := raise 0x6020 status s
  match who with
  | .inl i => refuseUnit i status s
  | .inr m => markDone m 2 s

/-- PLUMB_CYCLE_START: the head of Plumb's queue starts with its start time, or is refused (R343–R345, R350, R353). -/
def execPlumbCycleStart (s : State) : Out :=
  if s.plumb.run.isSome then .next s
  else match cycleHead s 4 s.plumb.queue with
  | none => .next s
  | some who =>
    let fallback := bit (rd s NETIN_REF_IMU_STATUS) 0
    let info : Option (Nat × Nat × List Bind × Nat × Nat) := match who with
      | .inl i => (instOf s i).map (fun (x, g, nd) =>
          (g.domain, nd.plan, nd.binds, if bit nd.flags 2 then notBefore g nd x.n else s.ridge.ns, x.graph * 2 ^ 24 + x.node % 65536))
      | .inr m => some (m.cfg.owner, m.cfg.desc, m.cfg.binds, m.at_, m.slot * 2 ^ 24)
    match info with
    | none => .next s
    | some (dom, addr, binds, ts, arg) =>
      let s := match who with | .inl _ => s | .inr m => { s with plumb.queue := s.plumb.queue.filter (fun q => decide (q ≠ m)) }
      match plumbRefusal s dom addr binds fallback with
      | some (st, off) => .next (refusePlumb who st off (noteRead dom addr 256 2 s))
      | none =>
        let d := readBytes s addr 256
        let run : PlumbRun := {
          inst := match who with | .inl i => some i | .inr _ => none
          mark := match who with | .inl _ => none | .inr m => some m
          arg := arg, desc := d, binds := binds, owner := dom, ts := ts, epoch := unitEpoch s 4
          fallback := fallback && decide (pdInertial d = 0), disagree := bit (rd s NETIN_XCHK_STATUS) 1
          mountQ := mountQuat s, mountT := mountPos s }
        let state := 1 + (match who with | .inl _ => 0 | .inr m => 2 + 4 * m.slot)
        let s := setFld PLUMB_STATE 7 0 state { s with plumb.run := some run }
        .next (match who with | .inl i => settle (beginRun i 0 s) | .inr _ => s)

/-! ### Ending (R359–R367) -/

/-- The pose table takes a record under the next sequence number (R366). -/
def publishPose (dom table count : Nat) (rec_ : List Byte) (s : State) : State :=
  let seq := (tgetD table 0 s.plumb.poseSeq + 1) % 2 ^ 32
  let bytes := rec_.take 4 ++ leBytes 4 seq ++ (rec_.drop 8).take 52 ++ leBytes 4 seq
  inc PLUMB_POSES_WRITTEN (fencedWrite dom 2 ⟨table + 64 * (seq % max 1 count), bytes, false⟩
    { s with plumb.poseSeq := tput table seq s.plumb.poseSeq })

/-- What a cycle has read: blocks, factor records and those that take part, x0, and poison in each. -/
structure PlIn where
  ks : List PlBlk
  raw : List (List Byte)
  fs : List PlFac
  x0 : List PlVal
  badX : List Bool
  badF : List Bool

def plInputs (s : State) (r : PlumbRun) : PlIn :=
  let d := r.desc
  let ks := cycleBlocks s r.owner r.binds d
  let raw := cycleFactors s r.owner r.binds d
  let xa := argBase s r.owner r.binds (pdArg d 2) [1]
  let fa := argBase s r.owner r.binds (pdArg d 1) [0]
  { ks := ks, raw := raw, fs := usedFactors d ks r.fallback r.mountQ r.mountT raw
    x0 := (ks.zipIdx).map (fun p => readVal p.1 (readBytes s (xa + 64 * p.2) 64))
    badX := (ks.zipIdx).map (fun p => fencedPoison s r.owner (xa + 64 * p.2) (if p.1.pose then 40 else 4 * p.1.size))
    badF := (List.range raw.length).map (fun i => fencedPoison s r.owner (fa + 384 * i) 384) }

/-- What a cycle ends with: the outcome, the blocks to be written with their poison, the status of each problem of a batch, and
the covariances of the problems that have one. -/
structure PlEnd where
  outcome : Nat
  flags : Nat := 0
  iters : Nat := 0
  c0 : Nat
  c1 : Nat
  lam : Nat := 0
  viol : Nat := 0
  out : List (PlVal × Bool)
  statuses : List Nat := []
  covs : List (Nat × Option (List (List (Option Int)))) := []
  poison : Bool := false

/-- Poison reaches problem `p`: one of its blocks, or one of its factor records (R359). -/
def problemBad (r : PlumbRun) (i : PlIn) (p : Nat) : Bool :=
  ((i.ks.zip i.badX).any (fun q => q.2 && (!pdBatch r.desc || decide (q.1.problem = p)))) ||
    ((i.raw.zip i.badF).any (fun q => q.2 && (!pdBatch r.desc || decide (fieldU q.1 4 2 = p))))

/-- The largest cost, which stands for none. -/
def noCost : Nat := 2 ^ 64 - 1

/-- The end of a batch of which `k` problems were completed (R359, R361). -/
def endBatch (r : PlumbRun) (i : PlIn) (k : Nat) (dead : Bool) : PlEnd :=
  let d := r.desc
  let sols := (List.range (pdProblems d)).map (fun p =>
    if k ≤ p then none else if problemBad r i p then some { solveBatch d i.ks i.fs i.x0 p with outcome := 0x1B13, fac := none }
    else some (solveBatch d i.ks i.fs i.x0 p))
  let statuses := sols.map (fun o => match o with | some x => x.outcome | none => 0x1B11)
  let done := (i.ks.zip (i.x0.zip i.badX)).foldl (fun (a : List (PlVal × Bool) × Tab Nat) q =>
    let p := q.1.problem
    let j := tgetD p 0 a.2
    let bad := problemBad r i p
    let v := match (sols[p]?).getD none with
      | none => (q.2.1, q.2.2)
      | some x => if x.outcome = 0 then ((x.x[j]?).getD q.2.1, false) else (narVal q.1, bad)
    (a.1 ++ [v], tput p (j + 1) a.2)) ([], [])
  let x := done.1.map (·.1)
  let bad := fun (p : Nat) => (statuses.getD p 0 = 0x1B10) || (statuses.getD p 0 = 0x1B13)
  let good := i.fs.filter (fun f => !bad (fieldU f.f 4 2))
  let all := (List.range (pdProblems d)).all bad
  let anyPoison := (List.range (min k (pdProblems d))).any (problemBad r i)
  { outcome := if dead then 0x1B11 else if !all then 0 else if statuses.contains 0x1B10 then 0x1B10 else 0x1B13
    iters := if dead then 0 else 1, c0 := costAt d i.ks i.fs i.x0, c1 := costAt d i.ks good x
    out := done.1, statuses := statuses, poison := anyPoison
    covs := (sols.zipIdx).filterMap (fun o => o.1.map (fun x => (o.2, x.fac))) }

/-- The end of a dense or block-sparse problem from its solution. -/
def endSingle (r : PlumbRun) (i : PlIn) (sol : PlSol) (c0 : Nat) (poison : Bool) : PlEnd :=
  let failed := decide (sol.outcome = 0x1B10) || decide (sol.outcome = 0x1B13)
  { outcome := sol.outcome, iters := sol.iters, c0 := c0, c1 := if failed then noCost else sol.cost, lam := sol.lam, viol := sol.viol,
    out := if failed then i.ks.map (fun k => (narVal k, poison)) else sol.x.zip i.badX
    covs := if pdMarginals r.desc && decide (pdForm r.desc = 0) && decide (sol.outcome ≠ 0x1B11) then [(0, if failed then none else sol.fac)] else []
    poison := poison }

/-- The value written for a block, with the violations of its range (R357). -/
def rangeChecked (d : List Byte) (k : PlBlk) (v : PlVal) : PlVal × Nat :=
  if k.pose then ((if pdRangeNar d && v.viol then { v with nar := true } else v), 0)
  else
    let past := fun (w : Option Int) => match w with | some i => decide (i < k.lo) || decide (k.hi < i) | none => false
    ({ v with e := v.e.map (fun w => if past w && pdRangeNar d then none else w) }, (v.e.filter past).length)

/-- Entries of cov with their codes: the inverse of each problem's H, or its diagonal (R365). -/
def covEntries (r : PlumbRun) (i : PlIn) (e : PlEnd) : List (List Nat × Option Int) :=
  let d := r.desc
  if pdBatch d then
    e.covs.flatMap (fun c =>
      let n := ((i.ks.filter (fun k => decide (k.problem = c.1))).map (·.size)).sum
      (List.range 12).flatMap (fun a => (List.range 12).map (fun b =>
        ([c.1, a, b], if c.2.isSome && decide (n ≤ max a b) then some 0 else inverseEntry d c.2 a b))))
  else e.covs.flatMap (fun c => (List.range ((i.ks.map (·.size)).sum)).map (fun a => ([a], inverseEntry d c.2 a a)))

/-- Writes codes of 32 bits through a tensor argument. -/
def writeCodes (r : PlumbRun) (arg : Nat) (cs : List (List Nat × Nat)) (poison : List Nat → Bool) (s : State) : State :=
  match boundTensor s r.owner r.binds arg [1] with
  | none => s
  | some d =>
    let base := tensorBase s r.owner d
    cs.foldl (fun s c => cycleWrite r.inst r.owner ((base : Int) + elemBit (storageOf s r.owner d) c.1 / 8).toNat (leBytes 4 c.2) (poison c.1) s) s

/-- A cycle writes its outputs, counts, publishes its pose, and signals its completion (R362–R367). -/
def endPlumb (r : PlumbRun) (i : PlIn) (e : PlEnd) (steps : Nat) (s : State) : State :=
  let d := r.desc
  let now := s.ridge.ns
  let checked := (i.ks.zip e.out).map (fun q => let c := rangeChecked d q.1 q.2.1; (q.1, c.1, q.2.2, c.2))
  let viol := e.viol + (checked.map (·.2.2.2)).sum
  let skipped := (i.raw.filter (factorSkipped d i.ks)).length
  let dropped := (i.raw.filter (fun f => !factorSkipped d i.ks f && factorDropped d r.fallback f)).length
  let covs := covEntries r i e
  let nar := checked.any (fun c => valNar c.2.1) || covs.any (fun c => c.2.isNone)
  let ill := if pdBatch d then (e.statuses.filter (· = 0x1B10)).length else b2n (decide (e.outcome = 0x1B10))
  let nan := e.outcome = 0x1B13 || e.statuses.contains 0x1B13
  let dead := decide (e.outcome = 0x1B11)
  let arg := r.arg
  let xa := argBase s r.owner r.binds (pdArg d 2) [1]
  let s := noteRead r.owner (argBase s r.owner r.binds (pdArg d 1) [0]) (384 * pdFactors d) 2 (noteRead r.owner xa (64 * pdBlocks d) 2 s)
  -- x, cov and status
  let s := (checked.zipIdx).foldl (fun s c => cycleWrite r.inst r.owner (xa + 64 * c.2) (valBytes c.1.1 c.1.2.1) c.1.2.2.1 s) s
  let s := writeCodes r (pdArg d 4) (covs.map (fun c => (c.1, codeOf c.2))) (fun ix => pdBatch d && problemBad r i (ix.headD 0)) s
  let s := if pdBatch d then writeCodes r (pdArg d 7) ((e.statuses.zipIdx).map (fun q => ([q.2], q.1))) (fun _ => false) s else s
  -- scratch
  let wn := (workBytes d i.ks i.fs).getD 0
  let s := takeFree wn (cycleWrite r.inst r.owner (argBase s r.owner r.binds (pdArg d 5) [1])
    ((List.range wn).map (fun j => (Config.freeWord (s.free + j)).setWidth 8)) false s)
  -- the result record
  let flags := b2n dead + 2 * b2n (decide (0 < viol)) + 4 * b2n (decide (0 < skipped)) + 8 * b2n r.fallback + 16 * b2n r.disagree +
    32 * b2n e.poison
  let res := leBytes 1 1 ++ leBytes 1 (pdSolver d) ++ leBytes 2 e.outcome ++ leBytes 2 flags ++ leBytes 2 e.iters ++ leBytes 8 r.ts ++
    leBytes 8 (r.ts + pdDeadline d) ++ leBytes 8 now ++ leBytes 8 e.c0 ++ leBytes 8 e.c1 ++
    leBytes 4 (if e.lam < 2 ^ 32 then e.lam else (Config.unstated 363 [(e.lam : Int)]).toNat) ++ leBytes 4 (sat32 viol) ++
    leBytes 2 r.epoch ++ leBytes 2 (min 65535 skipped) ++ leBytes 2 (min 65535 dropped) ++ leBytes 2 ill
  let s := cycleWrite r.inst r.owner (argBase s r.owner r.binds (pdArg d 3) [1]) res false s
  -- the pose record
  let ok := decide (e.outcome = 0) || dead || decide (e.outcome = 0x1B12)
  let table := argBase s r.owner r.binds (pdArg d 6) [1]
  let s := if !pdPoseOut d then s
    else if !ok then raise 0x6005 arg (setMask PLUMB_STATUS 0x20 (inc PLUMB_POSE_SKIPPED s))
    else
      let k := pdPoseBlock d
      let body := match checked[k]? with | some c => valBytes c.1 c.2.1 | none => []
      let rec_ := leBytes 1 1 ++ leBytes 1 (1 + 2 * b2n dead) ++ leBytes 6 0 ++ leBytes 8 (ofSigned 64 ((r.ts : Int) - pdPoseLag d)) ++
        body ++ leBytes 8 0
      match r.inst.bind (fun j => tget j s.scribe.insts) with
      | some x => if x.prov then { s with scribe.insts := tmod (r.inst.getD 0) (fun y => { y with poseHeld := some (table, pdPoseCount d, rec_) }) s.scribe.insts }
                  else publishPose r.owner table (pdPoseCount d) rec_ s
      | none => publishPose r.owner table (pdPoseCount d) rec_ s
  -- counters, status and events
  let s := inc PLUMB_CYCLES (incFld PLUMB_FACTORS_IN 31 0 i.raw.length (incFld PLUMB_FACTORS_DROPPED 31 0 dropped s))
  let s := incFld PLUMB_RANGE_VIOL 31 0 viol (incFld PLUMB_ILL_POSED 31 0 ill s)
  let s := if e.outcome = 0 then inc PLUMB_CONVERGED s else if dead then inc PLUMB_DEADLINE_RETURNS s
    else if e.outcome = 0x1B12 then inc PLUMB_NOT_CONVERGED s else s
  let s := wr PLUMB_LAST_RESULT (e.outcome + 65536 * e.iters) s
  let s := wr PLUMB_CYCLE_STEPS_MAX (max (rd s PLUMB_CYCLE_STEPS_MAX) (sat32 steps)) s
  let slack := satSigned 32 (((r.ts + pdDeadline d : Nat) : Int) - now)
  let s := if slack < toSigned 32 (rd s PLUMB_SLACK_MIN) then wr PLUMB_SLACK_MIN (ofSigned 32 slack) s else s
  let s := setMask PLUMB_STATUS (b2n (decide (0 < ill)) + 2 * b2n dead + 4 * b2n (decide (0 < viol)) + 8 * b2n nan) s
  let s := if 0 < ill then raise 0x6001 arg s else s
  let s := if dead then raise 0x6002 arg s else s
  let s := if 0 < viol then raise 0x6003 arg s else s
  let s := if nan then raise 0x6004 arg s else s
  -- completion
  let status := if e.outcome = 0x1B10 ∨ e.outcome = 0x1B13 then e.outcome else 0
  let s := setFld PLUMB_STATE 7 0 0 { s with plumb.run := none }
  match r.inst, r.mark with
  | some j, _ => settle (endRun j 0 (status + 65536 * b2n nar + 4 * 65536 * b2n e.poison) s)
  | none, some m => markDone m (if status = 0 then 0 else 2) s
  | none, none => s

/-- PLUMB_CYCLE_END: the cycle ends before its deadline, after a number of steps (R354–R367). -/
def execPlumbCycleEnd (steps : Nat) (s : State) : Out :=
  match s.plumb.run with
  | none => .next s
  | some r =>
    let i := plInputs s r
    let d := r.desc
    let e := if pdBatch d then endBatch r i (pdProblems d) false
      else
        let c0 := costAt d i.ks i.fs i.x0
        if problemBad r i 0 then endSingle r i { outcome := 0x1B13, x := i.x0, cost := noCost } c0 true
        else endSingle r i (solvePlumb d i.ks i.fs i.x0 (pdMaxIter d)) c0 false
    .next (endPlumb r i e steps s)

/-- PLUMB_DEADLINE: Ridge reaches the deadline of the running cycle, which returns the best iterate that exists. `progress`: 0
before the end of the first assembly, else 1 and the iterations or problems completed; `costed`: the cost of conjugate gradient's
best iterate has been computed (R361). -/
def execPlumbDeadline (progress steps : Nat) (costed : Bool) (s : State) : Out :=
  match s.plumb.run with
  | none => .next s
  | some r =>
    if s.ridge.ns < r.ts + pdDeadline r.desc then .next s
    else
      let i := plInputs s r
      let d := r.desc
      let none_ : PlSol := { outcome := 0x1B11, x := i.x0, cost := noCost, lam := if pdSolver d = 2 then pdLambda0 d else 0 }
      let e := if pdBatch d then
          (let e := endBatch r i (progress - 1) true
           if progress = 0 then { e with c0 := noCost, c1 := noCost } else e)
        else if progress = 0 then endSingle r i none_ noCost false
        else if problemBad r i 0 then endSingle r i { none_ with outcome := 0x1B13 } (costAt d i.ks i.fs i.x0) true
        else endSingle r i (deadlinePlumb d i.ks i.fs i.x0 (progress - 1) costed) (costAt d i.ks i.fs i.x0) false
      .next (endPlumb r i e steps s)

end Sys2Proof.Machine
end

