-- ==== Sys2Proof/Machine/Raft.lean ====
section
/-! DEFINITION. Commands of the Raft: the start of a cycle and its grid frame (chapter 9). -/

namespace Sys2Proof.Machine
open Sys2Proof

/-- How a slot is judged at the start of a cycle: used, degraded, and the frame flag of a skip (R298). -/
structure Judged where
  input : RaftInput
  degraded : Bool := false
  flag : Nat := 0
  epoch : Option Nat := none

/-- The verdict of dependence entries named by a mask (R298). -/
def depsVerdict (x : Inst) (mask : Nat) : Nat :=
  ((x.entries.zipIdx).map (fun p => if bit mask p.2 then p.1.getD 0 else 0)).foldl max 0

/-- An input slot is read and judged; the first check that applies decides its fate (R298). -/
def judgeInput (s : State) (x : Inst) (nd : Node) (c e : List Byte) (t : Nat) (poses : List PoseRec) (extrap : Nat) : Judged :=
  let skip := fun (f : Nat) => ({ input := ⟨false, 0, ⟨[], [], 0⟩, false⟩, flag := f } : Judged)
  match stampOf s nd e with
  | none => skip 0x10
  | some b =>
    let tin := stampTime e b
    let v := max (stampVerdict e b) (depsVerdict x (fieldU e 16 4))
    if !tensorsMatch s nd e b then skip 0x10
    else if 2 ≤ v then skip 0x02
    else if (tin : Int) < (t : Int) - cyMaxAge c ∨ t + cyLead c < tin then skip 0x04
    else { input := ⟨true, tin, poseAt poses extrap tin, false⟩, degraded := decide (v = 1), flag := if v = 1 then 8 else 0,
           epoch := some (stampEpoch e b) }

/-- The latest of epochs (R85, R309). -/
def latestEpoch (l : List Nat) (e : Nat) : Nat := l.foldl (fun a b => if epochLater b a then b else a) e

/-- A refusal of a Raft cycle (R296). -/
def refuseRaft (i status off : Nat) (s : State) : State :=
  let s := setMask RAFT_STATUS 0x20 (wr RAFT_DESC_ERR (status % 256 + 256 + 65536 * off) s)
  refuseUnit i status (raise 0x5021 status s)

/-- RAFT_CYCLE_START: the head of the Raft's queue starts; T, the poses and the inputs with their verdicts are fixed, or the
instance is refused (R296–R298). -/
def execRaftCycleStart (i : Nat) (s : State) : Out :=
  match instOf s i with
  | none => .next s
  | some (x, g, nd) =>
    if !unitReady s 2 i || s.raft.run.isSome then .next s
    else match cycleRefusal s g nd with
    | some (st, off) => .next (refuseRaft i st off (noteRead g.domain nd.plan 256 2 s))
    | none =>
      let grid := s.raft.live
      let c := readBytes s nd.plan (256 + 64 * cyInputs (readBytes s nd.plan 256))
      let es := (List.range (cyInputs c)).map (cyEntry c)
      let base := if cyTimeMode c = 0 then
          (let e := cyEntry c (fieldU c 2 1); stampTime e ((stampOf s nd e).getD []))
        else notBefore g nd x.n
      let t := ofSigned 64 ((base : Int) + fieldS c 8 8)
      let poses := posesOf s (gdPoses grid) (gdPoseCount grid)
      let judged := es.map (fun e => judgeInput s x nd c e t poses (gdExtrap grid))
      let ref := poseAt poses (gdExtrap grid) t
      let s := es.foldl (fun s e => match argRead s nd (fieldU e 11 1) with
        | some d => noteRead 0 (tensorBase s 0 d) 64 2 s
        | none => s) s
      let s := settle (beginRun i 0 s)
      let num := s.raft.cycle
      let s := (judged.zipIdx).foldl (fun s p =>
        if p.1.input.used then s
        else
          let s := setMask RAFT_STATUS 2 (inc RAFT_INPUTS_SKIPPED s)
          if p.1.flag = 2 then raise 0x5002 (p.2 * 2 ^ 24 + num % 2 ^ 24) s
          else if p.1.flag = 4 then raise 0x5003 (p.2 * 2 ^ 24 + num % 2 ^ 24) s else s) s
      let missing := (judged.zipIdx).any (fun p => bit (fieldU c 28 4) p.2 && !p.1.input.used)
      let s := if missing then raise 0x5006 num s else s
      let how := fun (h : Nat) => [0, 0x40, 0x80, 0x100].getD h 0
      let epochs := judged.filterMap (·.epoch)
      let own := unitEpoch s 3
      let flags := (judged.map (·.flag)).foldl (· ||| ·) (if missing then 0x20 else 0) |||
        (judged.map (fun j => if j.input.used then how j.input.pose.how else 0)).foldl (· ||| ·) (how ref.how) |||
        (if epochs.any (fun e => decide (e ≠ own)) then 0x200 else 0)
      let run : RaftRun := { inst := i, grid := grid, desc := c, t := t, pose := ref, inputs := judged.map (·.input),
                             flags := flags, epoch := latestEpoch epochs own, start := s.ridge.ns }
      .next (setFld RAFT_STATE 1 1 1 { s with raft.run := some run })

/-- The 256 bytes of the frame's header (R307). -/
def gridHeader (run : RaftRun) (num flags verdict : Nat) (a : RaftAcc) (tOld : Int) : List Byte :=
  let g := run.grid
  let mask := fun (u : Bool) => ((run.inputs.zipIdx).map (fun p => if p.1.used = u then 2 ^ p.2 else 0)).sum
  let folded := (a.cells.map (·.2.contribs)).sum
  let h := leBytes 1 1 ++ leBytes 1 (gdFormat g) ++ leBytes 2 flags ++ leBytes 4 num ++ leBytes 8 run.t ++
    leBytes 4 (oldestAge run.t tOld) ++ leBytes 2 run.epoch ++ leBytes 1 verdict ++ leBytes 1 (run.inputs.filter (·.used)).length ++
    leBytes 4 (mask true) ++ leBytes 4 (mask false) ++ leBytes 8 (ofSigned 64 tOld) ++ leBytes 2 (gdNx g) ++ leBytes 2 (gdNy g) ++
    leBytes 2 (gdCell g) ++ leBytes 2 (gdChannels g) ++ leBytes 4 (ofSigned 32 (gdX0 g)) ++ leBytes 4 (ofSigned 32 (gdY0 g)) ++
    leBytes 4 a.cells.length ++
    ([a.contribsIn, a.pruned, a.aged, a.height, a.outside, folded, a.dropped, a.marked.length, a.nan].flatMap (fun n => leBytes 4 (sat32 n))) ++
    run.pose.q.flatMap (fun v => leBytes 4 (ofSigned 32 v)) ++ run.pose.p.flatMap (fun v => leBytes 8 (ofSigned 64 v)) ++
    leBytes 4 256 ++ leBytes 4 (frameInfoOff g) ++ leBytes 4 (frameBytes g)
  h ++ List.replicate (256 - h.length) 0

/-- Writes the grid frame at an address: header, feature plane and info plane; channels of poisoned contributions carry poison
(R303, R307). -/
def writeGrid (i addr : Nat) (run : RaftRun) (header : List Byte) (a : RaftAcc) (s : State) : State :=
  let g := run.grid
  let b := fmtBits (gdFormat g) / 8
  let cells := List.range (gdNx g * gdNy g)
  let plane := cells.flatMap (fun k => (List.range (gdChannels g)).flatMap (fun ch =>
    leBytes b (match tget k a.cells with | some c => cellValue g c ch | none => fillCode g (gdGroupOf g ch))))
  let info := cells.flatMap (fun k => cellInfo run (a.marked.contains k) (tget k a.cells))
  let s := unitWrite i 0 (addr + frameInfoOff g) info false (unitWrite i 0 addr (header ++ plane) false s)
  a.cells.foldl (fun s q => q.2.bad.foldl (fun s ch =>
    unitWrite i 0 (addr + 256 + (q.1 * gdChannels g + ch) * b)
      ((List.range b).map (fun (j : Nat) => (Config.unstated 220 [(s.ridge.ns : Int), (q.1 : Int), (ch : Int), (j : Int)]).setWidth 8)) true s) s) s

/-- RAFT_CYCLE_END: the grid frame is written, its verdict is the first signal, and the instance ends; `steps` is how many steps
the cycle took (R303–R310). -/
def execRaftCycleEnd (i steps : Nat) (s : State) : Out :=
  match s.raft.run, instOf s i with
  | some run, some (_, _, nd) =>
    if run.inst ≠ i then .next s
    else
      let a := foldInputs s nd run
      let kept := a.cells.map (·.2)
      let tOld : Int := (kept.map (·.tOld)).foldl min (((kept.head?).map (·.tOld)).getD (run.t : Int))
      let dropped := decide (0 < a.dropped) || decide (0 < a.marked.length)
      let flags := run.flags ||| b2n dropped ||| (if 0 < a.nan then 0x400 else 0) ||| (if a.poison then 0x800 else 0) |||
        (if kept.isEmpty then 0x1000 else 0)
      let verdict := if flags &&& 0x120 ≠ 0 then 2 else if flags &&& 0xE9F ≠ 0 then 1 else 0
      let num := s.raft.cycle
      let addr := match boundTensor s 0 nd.binds (fieldU run.desc 4 1) [1] with | some d => tensorBase s 0 d | none => 0
      let s := (run.inputs.zipIdx).foldl (fun s p => if p.1.used then noteInput nd (cyEntry run.desc p.2) s else s) s
      let s := writeGrid i addr run (gridHeader run num flags verdict a tOld) a s
      let s := inc RAFT_CYCLES (incFld RAFT_CONTRIBS_IN 31 0 a.contribsIn (incFld RAFT_PRUNED 31 0 a.pruned s))
      let s := incFld RAFT_AGED_OUT 31 0 a.aged (incFld RAFT_OUT_OF_HEIGHT 31 0 a.height (incFld RAFT_OUT_OF_GRID 31 0 a.outside s))
      let s := incFld RAFT_FOLDED 31 0 ((kept.map (·.contribs)).sum) (incFld RAFT_DROP_CONTRIBS 31 0 a.dropped s)
      let s := incFld RAFT_DROP_CELLS 31 0 a.marked.length (incFld RAFT_CELLS_OUT 31 0 kept.length (incFld RAFT_NAN_CONTRIBS 31 0 a.nan s))
      let s := wr RAFT_CYCLE_STEPS_MAX (max (rd s RAFT_CYCLE_STEPS_MAX) (sat32 steps)) s
      let s := setFld RAFT_OCC_PEAK 18 0 (max (fld s RAFT_OCC_PEAK 18 0) kept.length) s
      let s := wr RAFT_LAST_FRAME (flags + 65536 * verdict) s
      let s := setMask RAFT_STATUS (b2n dropped + 4 * b2n (bit flags 7) + 8 * b2n (bit flags 8) + 0x40 * b2n a.poison + 0x80 * b2n (bit flags 5)) s
      let s := if dropped then raise 0x5001 num s else s
      let s := if bit flags 7 then raise 0x5004 num s else s
      let s := if bit flags 8 then raise 0x5005 num s else s
      let s := setFld RAFT_STATE 1 1 0 { s with raft.run := none, raft.cycle := (num + 1) % 2 ^ 32 }
      let s := if cyPeg run.desc = 0xFFFF then s else modInst i (fun y => { y with firstSignal := some (cyPeg run.desc, verdict) }) s
      .next (settle (endRun i 0 (if a.consumed then 4 * 65536 else 0) s))
  | _, _ => .next s

end Sys2Proof.Machine
end

