-- ==== Sys2Proof/Machine/TallyOps.lean ====
section
/-! DEFINITION. Tally's operations: its cycle descriptor, prediction, gating, assignment, life cycle, births, and the problems it writes
for Plumb (R372–R388). -/

namespace Sys2Proof.Machine
open Sys2Proof

/-! ### The cycle descriptor (R376, R377) -/

def tcOp (c : List Byte) : Nat := fieldU c 1 1
def tcSchedule (c : List Byte) : Bool := bit (fieldU c 2 1) 0
def tcClassAny (c : List Byte) : Bool := bit (fieldU c 2 1) 1
def tcTentative (c : List Byte) : Bool := bit (fieldU c 2 1) 2
def tcN (c : List Byte) : Nat := fieldU c 3 1
def tcMeas (c : List Byte) : Nat := fieldU c 4 1
def tcX (c : List Byte) : Nat := fieldU c 5 1
def tcCov (c : List Byte) : Nat := fieldU c 6 1
def tcConfirmM (c : List Byte) : Nat := fieldU c 7 1
def tcConfirmN (c : List Byte) : Nat := fieldU c 8 1
def tcDeleteK (c : List Byte) : Nat := fieldU c 9 1
def tcPeg (c : List Byte) : Nat := fieldU c 10 2
def tcMap (c : List Byte) (i : Nat) : Nat := fieldU c (12 + i) 1
def tcPair (c : List Byte) (i : Nat) : Nat × Nat := (fieldU c (18 + 2 * i) 1, fieldU c (19 + 2 * i) 1)
def tcOffset (c : List Byte) : Int := fieldS c 24 8
def tcGateBox (c : List Byte) : Nat := fieldU c 32 4
def tcGateD2 (c : List Byte) : Nat := fieldU c 36 4
def tcBirthMin (c : List Byte) : Nat := fieldU c 40 4
def tcUncMax (c : List Byte) : Nat := fieldU c 44 4
def tcInitVar (c : List Byte) : Nat := fieldU c 48 4
def tcQ (c : List Byte) (i : Nat) : Nat := fieldU c (52 + 4 * i) 4
/-- The argument slots, in the order det, frame, var, fac, x, cov, status, pdesc. -/
def tcArg (c : List Byte) (k : Nat) : Nat := fieldU c (108 + k) 1
def tcTemplate (c : List Byte) : List Byte := (c.drop 128).take 256
/-- Blocks and factors of one problem (R388). -/
def tcBlocks (c : List Byte) : Nat := if tcN c ≤ 6 then 1 else 2

/-- An FP32 field that is finite and not negative (R376). -/
def fpOk (v : Nat) : Bool := decide (v ≤ 0x7F7FFFFF) || decide (v = 0x80000000)

def tallyRanges (c : List Byte) : Bool :=
  let inr := fun (v lo hi : Nat) => decide (lo ≤ v) && decide (v ≤ hi)
  inr (tcOp c) 1 2 && inr (tcN c) 2 12 && inr (tcMeas c) 2 6 && decide (tcX c ≤ 31) && decide (tcCov c ≤ 31) &&
    inr (tcConfirmM c) 1 32 && inr (tcConfirmN c) (tcConfirmM c) 32 && decide (1 ≤ tcDeleteK c) &&
    (decide (tcPeg c ≤ 8191) || decide (tcPeg c = 0xFFFF)) && (List.range 6).all (fun i => decide (tcMap c i < tcN c)) &&
    (List.range 3).all (fun i => let p := tcPair c i; decide (p.1 = p.2) || (decide (p.1 < tcN c) && decide (p.2 < tcN c))) &&
    ([tcGateBox c, tcGateD2 c, tcBirthMin c, tcUncMax c, tcInitVar c] ++ (List.range 12).map (tcQ c)).all fpOk

/-- The arguments that a cycle needs are bound, of the right kind and large enough (R377, R378, R388–R390). -/
def tallyArgs (s : State) (binds : List Bind) (c : List Byte) : Bool :=
  let cap := tuCap s.tally.live
  if tcOp c = 1 then
    bytesTensor s 0 binds (tcArg c 0) [0] 64 && bytesTensor s 0 binds (tcArg c 2) [1] (16 * tcBlocks c * cap) &&
      bytesTensor s 0 binds (tcArg c 3) [1] (384 * (tcBlocks c + 1) * cap) && bytesTensor s 0 binds (tcArg c 4) [1] (64 * tcBlocks c * cap) &&
      shapedTensor s 0 binds (tcArg c 6) [1] 0x0E cap [] && bytesTensor s 0 binds (tcArg c 7) [1] 256
  else
    bytesTensor s 0 binds (tcArg c 1) [1] (128 + 128 * cap) && bytesTensor s 0 binds (tcArg c 4) [0] (64 * tcBlocks c * cap) &&
      shapedTensor s 0 binds (tcArg c 5) [0] 0x0F cap [12, 12] && shapedTensor s 0 binds (tcArg c 6) [0] 0x0E cap []

/-- Why a cycle is refused (R377). -/
def tallyRefusal (s : State) (dom addr : Nat) (binds : List Bind) (nbEn : Bool) : Option Nat :=
  let c := readBytes s addr 384
  if !tallyEnabled s then some 0x1C01
  else if dom ≠ 0 then some 0x1C02
  else if addr % 64 ≠ 0 || !readable s 0 addr 384 || fieldU c 0 1 ≠ 1 || decide (8 ≤ fieldU c 2 1) || !zeroField c 116 12 then some 0x1C03
  else if !tallyRanges c then some 0x1C04
  else if !tallyArgs s binds c then some 0x1C05
  else if tcOp c = 1 && (decide (pdForm (tcTemplate c) ≠ 2) || decide (pdSolver (tcTemplate c) ≠ 0) || pdPoseOut (tcTemplate c)) then some 0x1C06
  else if tcSchedule c && !nbEn then some 0x1C07
  else none

/-! ### FP32 matrices on the braces (R212, R381, R382) -/

/-- A sum of products in the lanes of a brace (R212). -/
def fDot (a b : List Nat) : Nat :=
  let p := (a.zip b).map (fun x => fMul x.1 x.2)
  (laneSum 6 (p ++ List.replicate (32 - p.length) 0)).headD 0

def fSub (a b : Nat) : Nat := toFp32 (sumNum [decode 0x0D a, negNum (decode 0x0D b)])
def fSqrt (a : Nat) : Nat := toFp32 (sqrtNum (decode 0x0D a))
def fLe (a b : Nat) : Bool := ltNum (decode 0x0D a) (decode 0x0D b) || eqNum (decode 0x0D a) (decode 0x0D b)
def fNan (a : Nat) : Bool := decide (decode 0x0D a = .nan)
def fOne : Nat := 0x3F800000

/-- A Q32 word as FP32; NaR becomes NaN (R216, R217). -/
def qToF (f w : Nat) : Nat := (convert 0x0F 0x0D f false w 0).code
/-- FP32 as a Q32 word in NAR mode (R215, R217). -/
def fToQ (f v : Nat) : Nat := (fp32ToQ f false v).code

def row (m : List (List Nat)) (i : Nat) : List Nat := m.getD i []
def column (m : List (List Nat)) (j : Nat) : List Nat := m.map (fun r => r.getD j 0)
def fMat (n : Nat) (f : Nat → Nat → Nat) : List (List Nat) := (List.range n).map (fun i => (List.range n).map (f i))

/-- The factor of a positive definite matrix in FP32, row by row, or none (R382). -/
def fChol (m : List (List Nat)) : Option (List (List Nat)) :=
  m.foldl (fun acc r => acc.bind (fun rows =>
    let off := rows.foldl (fun (o : List Nat) rk =>
      o ++ [fDiv (fSub (r.getD o.length 0) (fDot o rk)) (rk.getD o.length 0)]) []
    let piv := fSub (r.getD rows.length 0) (fDot off off)
    if ltNum (.fin false 0 0) (decode 0x0D piv) then some (rows ++ [off ++ [fSqrt piv]]) else none)) (some [])

/-! ### Steps of ASSOCIATE (R380–R388) -/

/-- A detection record: its index, class, score, time, and components in FP32 and as words (R378). -/
structure Det where
  ix : Nat
  cls : Nat
  score : Nat
  t : Nat
  z : List Nat
  sigma : List Nat
  bad : Bool

/-- An unsigned Q32 word as FP32. -/
def uToF (f w : Nat) : Nat := toFp32 (.fin false w (-(f : Int)))

/-- The record of detection `k`; words of a poisoned record are not stated (R220, R378). -/
def readDet (s : State) (c : List Byte) (a k : Nat) : Det :=
  let o := a + 64 + 64 * k
  let bad := fencedPoison s 0 o 64
  let b := if bad then (List.range 64).map (fun (j : Nat) => (Config.unstated 378 [(o : Int), (s.ridge.ns : Int), (j : Int)]).setWidth 8) else readBytes s o 64
  { ix := k, cls := fieldU b 0 2, score := fieldU b 4 4, t := fieldU b 8 8
    z := (List.range (tcMeas c)).map (fun i => fieldU b (16 + 4 * i) 4)
    sigma := (List.range (tcMeas c)).map (fun i => fieldU b (40 + 4 * i) 4), bad := bad }

def isLive (t : Track) : Bool := decide (1 ≤ t.state) && decide (t.state ≤ 3)

/-- A live slot is predicted to T (R381). -/
def predict (c : List Byte) (t : Nat) (k : Track) : Track :=
  let n := tcN c
  let dt := fDiv (fOfInt ((t - k.tTrack : Nat) : Int)) (fOfInt 1000000000)
  let fm := fMat n (fun i j =>
    if (List.range 3).any (fun q => let p := tcPair c q; decide (p.1 ≠ p.2) && decide (p = (i, j))) then dt else if i = j then fOne else 0)
  let x := (List.range n).map (fun i => qToF (tcX c) (k.x.getD i 0))
  let p := fMat n (fun i j => qToF (tcCov c) (k.p.getD (n * i + j) 0))
  let fp := fMat n (fun i j => fDot (row fm i) (column p j))
  let ph := fMat n (fun i j => let v := fDot (row fp i) (row fm j); if i = j then fAdd v (fMul (tcQ c i) dt) else v)
  { k with x := (List.range n).map (fun i => fToQ (tcX c) (fDot (row fm i) x)),
           p := (ph.flatMap id).map (fToQ (tcCov c)), tTrack := t }

/-- The FP32 prediction of a slot: component `i`, and entry (i, j) of the covariance. -/
def predX (c : List Byte) (k : Track) (i : Nat) : Nat := qToF (tcX c) (k.x.getD i 0)
def predP (c : List Byte) (k : Track) (i j : Nat) : Nat := qToF (tcCov c) (k.p.getD (tcN c * i + j) 0)

/-- x or P of a slot holds NaR. -/
def trackNar (k : Track) : Bool := k.x.contains NaR || k.p.contains NaR

/-- The difference of a detection and a prediction (R382). -/
def gateErr (c : List Byte) (k : Track) (d : Det) : List Nat :=
  (List.range (tcMeas c)).map (fun i => fSub (qToF (tcX c) (d.z.getD i 0)) (predX c k (tcMap c i)))

/-- The pre-gate (R382). -/
def preGate (c : List Byte) (k : Track) (d : Det) : Bool :=
  let e := gateErr c k d
  (tcClassAny c || decide (d.cls = k.cls)) &&
    fLe (signOp false 0x0D (e.getD 0 0)) (tcGateBox c) && fLe (signOp false 0x0D (e.getD 1 0)) (tcGateBox c)

/-- The squared distance of a pair, or none where S cannot be factored (R382). -/
def gateD2 (c : List Byte) (k : Track) (d : Det) : Option Nat :=
  let m := tcMeas c
  let sg := fun (i : Nat) => uToF (tcX c) (d.sigma.getD i 0)
  (fChol (fMat m (fun i j =>
    let v := predP c k (tcMap c i) (tcMap c j)
    if i = j then fAdd v (fMul (sg i) (sg i)) else v))).map (fun l =>
      let y := (l.zip (gateErr c k d)).foldl (fun (acc : List Nat) p =>
        acc ++ [fDiv (fSub p.2 (fDot acc p.1)) (p.1.getD acc.length 0)]) []
      fDot y y)

/-- Inserts a number into a rising list, equal ones kept. -/
def insertKey (k : Nat) : List Nat → List Nat
  | [] => [k]
  | j :: r => if k ≤ j then k :: j :: r else j :: insertKey k r

/-- The keys of the pairs that pass, in ascending order, and how many pairs passed the pre-gate (R382). -/
def gate (c : List Byte) (tracks : Tab Track) (dets : List Det) : List Nat × Nat :=
  (tracks.filter (fun k => isLive k.2)).foldl (fun acc k =>
    dets.foldl (fun acc d =>
      if !preGate c k.2 d then acc
      else
        let acc := (acc.1, acc.2 + 1)
        match gateD2 c k.2 d with
        | some d2 => if fLe d2 (tcGateD2 c) then (insertKey ((d2 * 2 ^ 16 + k.1) * 2 ^ 16 + d.ix) acc.1, acc.2) else acc
        | none => acc) acc) ([], 0)

/-- Assignment: (slot, detection) pairs in ascending key (R383). -/
def assign (keys : List Nat) : List (Nat × Nat) :=
  keys.foldl (fun l k =>
    let sl := k / 2 ^ 16 % 2 ^ 16
    let d := k % 2 ^ 16
    if l.any (fun p => decide (p.1 = sl) || decide (p.2 = d)) then l else l ++ [(sl, d)]) []

/-- A history advances (R380 step 6). -/
def advance (tHit : Option Nat) (k : Track) : Track :=
  { k with hist := (2 * k.hist + b2n tHit.isSome) % 2 ^ 32, misses := if tHit.isSome then 0 else satAdd 255 k.misses 1,
           age := satAdd 0xFFFFFFFF k.age 1, tHit := tHit.getD k.tHit }

/-- The reasons of R386 in the order of their counts: confirms, tentative, misses, uncertain, numeric. -/
def lifeCycle (c : List Byte) (assigned : Bool) (k : Track) : Track × Option Nat :=
  let pop := ((List.range (tcConfirmN c)).filter (bit k.hist)).length
  let a := tcMap c 0
  let b := tcMap c 1
  let tr := fAdd (predP c k a a) (predP c k b b)
  if trackNar k then ({ k with state := 4 }, some 4)
  else if k.state = 1 then
    if tcConfirmM c ≤ pop then ({ k with state := 2, confirmed := true }, some 0)
    else if pop + (tcConfirmN c - k.age) < tcConfirmM c then ({ k with state := 4 }, some 1)
    else (k, none)
  else if tcDeleteK c ≤ k.misses then ({ k with state := 4 }, some 2)
  else if !assigned && ltNum (decode 0x0D (tcUncMax c)) (decode 0x0D tr) then ({ k with state := 4 }, some 3)
  else ({ k with state := if k.misses = 0 then 2 else 3 }, none)

/-- A track born of a detection (R384). -/
def bornTrack (c : List Byte) (t id : Nat) (d : Det) : Track :=
  let n := tcN c
  let at_ := fun (i : Nat) => (List.range (tcMeas c)).foldl (fun (a : Option Nat) j => if tcMap c j = i then some j else a) none
  let iv := fToQ (tcCov c) (tcInitVar c)
  { state := 1, id := id, cls := d.cls, hist := 1, age := 1, misses := 0, tTrack := t, tHit := d.t, born := true
    x := (List.range n).map (fun i => match at_ i with | some j => d.z.getD j 0 | none => 0)
    p := (List.range n).flatMap (fun i => (List.range n).map (fun j =>
      if i ≠ j then 0
      else match at_ i with
        | some k => let g := uToF (tcX c) (d.sigma.getD k 0); fToQ (tcCov c) (fMul g g)
        | none => iv)) }

/-- The lowest FREE slot (R384). -/
def freeSlot (cap : Nat) (tracks : Tab Track) : Option Nat := tfree tracks cap 0

/-- Inserts a detection into a list by descending score, ties in ascending index. -/
def insertDet (d : Det) : List Det → List Det
  | [] => [d]
  | e :: r => if ltNum (decode 0x0D e.score) (decode 0x0D d.score) then d :: e :: r else e :: insertDet d r

/-- Births: the tracks, the next identifier, how many were born and how many found no slot (R384). -/
def births (c : List Byte) (cap t : Nat) (dets : List Det) (tracks : Tab Track) (nextId : Nat) : Tab Track × Nat × Nat × Nat :=
  let able := (dets.filter (fun d => fLe (tcBirthMin c) d.score)).foldl (fun l d => insertDet d l) []
  able.foldl (fun (a : Tab Track × Nat × Nat × Nat) d =>
    let (ts, id, b, drop) := a
    match freeSlot cap ts with
    | none => (ts, id, b, drop + 1)
    | some k =>
      (tput k (bornTrack c t id d) ts, (if (id + 1) % 2 ^ 32 = 0 then 1 else (id + 1) % 2 ^ 32), b + 1, drop)) (tracks, nextId, 0, 0)

/-! ### The hand-off to Plumb (R388) -/

/-- W of a slot: its rows in FP32, zero below the diagonal, or none where P_hat is not positive definite. No rule gives the order in
which the braces form it. -/
def weights (c : List Byte) (k : Track) : Option (List (List Nat)) :=
  let n := tcN c
  (fChol (fMat n (predP c k))).map (fun _ => fMat n (fun i j =>
    if j < i then 0 else (Config.unstated 388 ([(i : Int), (j : Int), (n : Int), (tcCov c : Int)] ++ k.p.map (fun (w : Nat) => (w : Int)))).toNat % 2 ^ 32))

/-- The 16 bytes of a block table entry. -/
def varEntry (c : List Byte) (size problem : Nat) : List Byte :=
  let bound := fun (o : Nat) => codeOf (narQ (some (fieldS c o 2 * 2 ^ tcX c)))
  leBytes 1 size ++ leBytes 1 0 ++ leBytes 1 (tcX c) ++ leBytes 1 0 ++ leBytes 2 problem ++ leBytes 2 0 ++
    leBytes 4 (bound 100) ++ leBytes 4 (bound 102)

/-- The 384 bytes of a factor record. -/
def facRecord (kind m problem a b : Nat) (z h w : List Nat) (ja jb : List (List Nat)) : List Byte :=
  let six := fun (l : List Nat) => (List.range 6).flatMap (fun i => leBytes 4 (l.getD i 0))
  let mat := fun (l : List (List Nat)) => (List.range 6).flatMap (fun i => six (l.getD i []))
  leBytes 1 kind ++ leBytes 1 m ++ leBytes 2 0 ++ leBytes 2 problem ++ leBytes 2 a ++ leBytes 2 b ++ leBytes 6 0 ++
    six z ++ six h ++ six w ++ leBytes 8 0 ++ mat ja ++ mat jb

/-- The factor records of problem `p`: the prior, and the measurement (R388). -/
def problemFactors (c : List Byte) (p : Nat) (k : Track) (d : Det) (w : List (List Nat)) : List (List Byte) :=
  let t := tcTemplate c
  let n := tcN c
  let m := tcMeas c
  let a := tcBlocks c * p
  let b := if n ≤ 6 then 0xFFFF else a + 1
  let one := fToQ (wFrac t) fOne
  let wq := w.map (fun r => r.map (fToQ (jFrac t)))
  let prior := fun (lo hi : Nat) =>
    facRecord 1 (hi - lo) p a b [] [] (List.replicate (hi - lo) one) (((wq.take hi).drop lo).map (·.take 6)) (((wq.take hi).drop lo).map (·.drop 6))
  let hRow := fun (lo : Nat) => (List.range m).map (fun i => (List.range 6).map (fun j => if tcMap c i = lo + j then fToQ (jFrac t) fOne else 0))
  let toR := fun (v : Nat) => codeOf (toQ (qVal v) (tcX c) (rFrac t))
  (if n ≤ 6 then [prior 0 n] else [prior 0 6, prior 6 n]) ++
    [facRecord 1 m p a b ((List.range m).map (fun i => toR (d.z.getD i 0))) ((List.range m).map (fun i => toR (k.x.getD (tcMap c i) 0)))
      ((List.range m).map (fun i => fToQ (wFrac t) (fDiv fOne (uToF (tcX c) (d.sigma.getD i 0))))) (hRow 0) (if n ≤ 6 then [] else hRow 6)]

/-- The template with problems, blocks and factors filled in (R388). -/
def problemDesc (c : List Byte) (problems blocks factors : Nat) : List Byte :=
  let t := tcTemplate c
  t.take 4 ++ leBytes 2 blocks ++ (t.drop 6).take 2 ++ leBytes 4 factors ++ (t.drop 12).take 2 ++ leBytes 2 problems ++ t.drop 16

end Sys2Proof.Machine
end

