-- ==== Sys2Proof/Machine/Tally.lean ====
section
/-! DEFINITION. Commands of Tally: ASSOCIATE and UPDATE (R374–R392). -/

namespace Sys2Proof.Machine
open Sys2Proof

/-- What a cycle at the head of Tally's queue runs for: its domain, descriptor, bindings and dependence verdicts. -/
structure TallyJob where
  who : Nat ⊕ MarkCycle
  dom : Nat
  addr : Nat
  binds : List Bind
  nbEn : Bool
  /-- The base of T under time_mode 1 (R379). -/
  base : Nat
  prov : Bool

/-- The cycle at the head of the queue, which no unresolved Tally instance holds back (R374, R392). -/
def tallyJob (s : State) : Option TallyJob :=
  if s.tally.unresolved.isSome then none
  else match cycleHead s 3 s.tally.queue with
  | none => none
  | some (.inl i) => (instOf s i).map (fun (x, g, nd) =>
      { who := .inl i, dom := g.domain, addr := nd.plan, binds := nd.binds, nbEn := bit nd.flags 2, base := notBefore g nd x.n, prov := x.prov })
  | some (.inr m) => some { who := .inr m, dom := m.cfg.owner, addr := m.cfg.desc, binds := m.cfg.binds, nbEn := true, base := m.at_, prov := false }

def jobInst (j : TallyJob) : Option Nat := match j.who with | .inl i => some i | .inr _ => none

/-- The cycle leaves the queue and starts; a provisional instance keeps later ones waiting (R374, R392). -/
def tallyBegin (j : TallyJob) (s : State) : State :=
  match j.who with
  | .inl i =>
    let s := settle (beginRun i 0 s)
    if j.prov then { s with tally.unresolved := some i } else s
  | .inr m => { s with tally.queue := s.tally.queue.filter (fun q => decide (q ≠ m)) }

/-- A refused cycle (R377). -/
def refuseTally (j : TallyJob) (status : Nat) (s : State) : State :=
  let s := setMask TALLY_STATUS 0x10 (wr TALLY_DESC_ERR (status + 65536) s)
  let s := raise 0x7021 status s
  match j.who with
  | .inl i => refuseUnit i status s
  | .inr m => markDone m 2 { s with tally.queue := s.tally.queue.filter (fun q => decide (q ≠ m)) }

/-- The table after a cycle: at once, or held in the log of a provisional instance (R392). -/
def putTable (j : TallyJob) (t : TalTable) (s : State) : State :=
  if j.prov then
    match jobInst j with
    | some i => modInst i (fun x => { x with tallyLog := some t }) s
    | none => s
  else { s with tally.table := t }

/-- A cycle ends: counted, its verdict first, and then its signals (R310, R391). -/
def tallyDone (j : TallyJob) (peg : Option (Nat × Nat)) (flags steps : Nat) (s : State) : State :=
  let s := inc TALLY_CYCLES (wr TALLY_CYCLE_STEPS_MAX (max (rd s TALLY_CYCLE_STEPS_MAX) (sat32 steps)) s)
  match j.who with
  | .inl i =>
    let s := match peg with | some p => modInst i (fun x => { x with firstSignal := some p }) s | none => s
    settle (endRun i 0 flags s)
  | .inr m => markDone m 0 (match peg with | some (p, v) => unitPegAdd p v s | none => s)

/-- The counts of an ASSOCIATE in the order of R390, without update_failed, update_late and live. -/
structure TallyCounts where
  detIn : Nat := 0
  detDropped : Nat := 0
  candidates : Nat := 0
  pairs : Nat := 0
  pairsDropped : Nat := 0
  assigned : Nat := 0
  births : Nat := 0
  birthsDropped : Nat := 0
  /-- Confirms and deletes by reason (R386). -/
  life : List Nat := [0, 0, 0, 0, 0]

/-- The input of an ASSOCIATE: header bytes, error, verdict (R379). -/
def detHeader (s : State) (j : TallyJob) (c : List Byte) : List Byte × Bool × Nat :=
  let a := argBase s 0 j.binds (tcArg c 0) [0]
  let h := readBytes s a 64
  let err := fencedPoison s 0 a 64 || decide (fieldU h 0 1 ≠ 1)
  let deps := match jobInst j with
    | some i => (match tget i s.scribe.insts with | some x => depsVerdict x (fieldU c 104 4) | none => 0)
    | none => 0
  (h, err, if err then 2 else max (min 2 (fieldU h 1 1)) deps)

/-- Steps 3 to 8 of R380 on predicted tracks: the tracks, the next identifier, the counts, and the assignment. -/
def associate (c : List Byte) (cap t verdict : Nat) (dets : List Det) (tracks : Tab Track) (nextId : Nat) :
    Tab Track × Nat × TallyCounts × List (Nat × Nat) :=
  if 2 ≤ verdict then (tracks, nextId, {}, [])
  else
    let (keys, cand) := gate c tracks dets
    let kept := keys.take 65536
    let asg := assign kept
    let det := fun (k : Nat) => (asg.find? (fun p => decide (p.1 = k))).bind (fun p => dets.find? (fun d => decide (d.ix = p.2)))
    let moved := tracks.map (fun p => if isLive p.2 then
        (let r := lifeCycle c (det p.1).isSome (advance ((det p.1).map (·.t)) p.2); ((p.1, r.1), r.2)) else (p, none))
    let free := dets.filter (fun d => !asg.any (fun p => decide (p.2 = d.ix)))
    let (ts, id, b, drop) := births c cap t free (moved.map (·.1)) nextId
    (ts, id,
     { candidates := cand, pairs := kept.length, pairsDropped := keys.length - kept.length, assigned := asg.length,
       births := b, birthsDropped := drop,
       life := (List.range 5).map (fun r => (moved.filter (fun m => decide (m.2 = some r))).length) }, asg)

/-- The problems of step 9: assigned slots that were not deleted and whose W can be formed, with their detections; and the slots
whose W cannot (R388). -/
def problemsOf (c : List Byte) (tracks : Tab Track) (asg : List (Nat × Nat)) (dets : List Det) :
    List (Nat × Track × Det × List (List Nat)) × List Nat :=
  tracks.foldl (fun acc p =>
    match (asg.find? (fun q => decide (q.1 = p.1))).bind (fun q => dets.find? (fun d => decide (d.ix = q.2))) with
    | some d =>
      if !isLive p.2 || p.2.born then acc
      else match weights c p.2 with
        | some w => (acc.1 ++ [(p.1, p.2, d, w)], acc.2)
        | none => (acc.1, acc.2 ++ [p.1])
    | none => acc) ([], [])

/-- Writes a list of byte strings, `stride` apart, through a tensor argument. -/
def writeRecords (j : TallyJob) (arg stride : Nat) (rs : List (List Byte × Bool)) (s : State) : State :=
  let a := argBase s 0 j.binds arg [1]
  (rs.zipIdx).foldl (fun s r => cycleWrite (jobInst j) 0 (a + stride * r.2) r.1.1 r.1.2 s) s

/-- Step 9: the tensors of the problems are written (R388). -/
def writeProblems (j : TallyJob) (c : List Byte) (ps : List (Nat × Track × Det × List (List Nat))) (s : State) : State :=
  let b := tcBlocks c
  let n := tcN c
  let sizes := if n ≤ 6 then [n] else [6, n - 6]
  let null := ps.isEmpty
  let var := if null then [varEntry c 1 0] else (List.range ps.length).flatMap (fun p => sizes.map (fun z => varEntry c z p))
  let xs := if null then [leBytes 4 0] else ps.flatMap (fun p =>
    let w := p.2.1.x.flatMap (leBytes 4)
    if n ≤ 6 then [w] else [w.take 24, w.drop 24])
  let fac := if null then [(facRecord 3 1 0 0 0xFFFF [] [] [(Config.unstated 388 []).toNat % 2 ^ 32] [] [], false)]
    else (ps.zipIdx).flatMap (fun p => (problemFactors c p.2 p.1.2.1 p.1.2.2.1 p.1.2.2.2).map (fun r => (r, p.1.2.2.1.bad)))
  let s := writeRecords j (tcArg c 2) 16 (var.map (fun r => (r, false))) s
  let s := writeRecords j (tcArg c 3) 384 fac s
  let s := writeRecords j (tcArg c 4) 64 (xs.map (fun r => (r, false))) s
  let s := writeRecords j (tcArg c 7) 256
    [(if null then problemDesc c 1 1 1 else problemDesc c ps.length (b * ps.length) ((b + 1) * ps.length), false)] s
  match boundTensor s 0 j.binds (tcArg c 6) [1] with
  | none => s
  | some d => (List.range (max 1 ps.length)).foldl (fun s p =>
      cycleWrite (jobInst j) 0 ((tensorBase s 0 d : Int) + elemBit (storageOf s 0 d) [p] / 8).toNat (leBytes 4 0x1B11) false s) s

/-- TALLY_ASSOCIATE: the head of Tally's queue, an ASSOCIATE, predicts, gates, assigns, ages, decides lives, gives birth and writes
problems, in a number of steps; or it is refused (R374–R388). -/
def execTallyAssociate (steps : Nat) (s : State) : Out :=
  match tallyJob s with
  | none => .next s
  | some j =>
    match tallyRefusal s j.dom j.addr j.binds j.nbEn with
    | some st => .next (refuseTally j st (noteRead 0 j.addr 384 2 s))
    | none =>
      let c := readBytes s j.addr 384
      if tcOp c ≠ 1 then .next s
      else
        let (h, err, verdict) := detHeader s j c
        let own := unitEpoch s 5
        let base := match j.who with
          | .inr m => m.at_
          | .inl _ => if tcSchedule c then j.base
              else if err then (Config.unstated 379 [(s.ridge.ns : Int)]).toNat
              else fieldU h 8 8
        let t := ofSigned 64 ((base : Int) + tcOffset c)
        let a := argBase s 0 j.binds (tcArg c 0) [0]
        let room := match boundTensor s 0 j.binds (tcArg c 0) [0] with
          | some d => ((viewShape s 0 d (unitBay s 0 d)).headD 0 - 64) / 64
          | none => 0
        let count := if err then 0 else fieldU h 4 4
        let detIn := min count (min 16384 room)
        let dets := if 2 ≤ verdict then [] else (List.range detIn).map (readDet s c a)
        let table := s.tally.table
        let cap := tuCap s.tally.live
        let ready := (table.tracks.filter (fun p => decide (p.2.state ≠ 4))).map (fun p =>
          (p.1, { (predict c t p.2) with born := false, confirmed := false, failed := false, late := false }))
        let (tracks, nextId, k, asg) := associate c cap t verdict dets ready table.nextId
        let k := { k with detIn := detIn, detDropped := count - detIn }
        let (ps, failed) := if 2 ≤ verdict then ([], []) else problemsOf c tracks asg dets
        let tracks := tracks.map (fun p => if failed.contains p.1 then (p.1, { p.2 with failed := true }) else p)
        let truncated := decide (0 < k.detDropped) || decide (0 < k.pairsDropped)
        let epoch := if err then own else latestEpoch [fieldU h 2 2] own
        let flags := b2n (decide (2 ≤ verdict)) + 2 * b2n (decide (verdict = 1)) + 4 * b2n err + 8 * b2n truncated +
          16 * b2n (decide (0 < k.birthsDropped)) + 128 * b2n table.pending +
          256 * b2n (!err && decide (fieldU h 2 2 ≠ own))
        let live := (tracks.filter (fun p => isLive p.2)).length
        let counts := [k.detIn, k.detDropped, k.candidates, k.pairs, k.pairsDropped, k.assigned, k.births, k.birthsDropped] ++ k.life ++
          [failed.length, 0, live]
        let new : TalTable := { table with
          tracks := tracks, nextId := nextId, pending := decide (verdict < 2)
          last := { map := ps.map (·.1), t := t, flags := flags, epoch := epoch, counts := counts, marginals := pdMarginals (tcTemplate c) } }
        let arg := table.cycle
        let s := tallyBegin j (noteRead 0 a (64 + 64 * (if 2 ≤ verdict then 0 else detIn)) 2 s)
        let s := putTable j new s
        let s := if 2 ≤ verdict then s else writeProblems j c ps s
        let s := incFld TALLY_DET_IN 31 0 k.detIn (incFld TALLY_DET_DROPPED 31 0 k.detDropped (incFld TALLY_PAIRS_DROPPED 31 0 k.pairsDropped s))
        let s := incFld TALLY_ASSIGNED 31 0 k.assigned (incFld TALLY_BIRTHS 31 0 k.births (incFld TALLY_BIRTHS_DROPPED 31 0 k.birthsDropped s))
        let s := incFld TALLY_CONFIRMS 31 0 (k.life.headD 0) (incFld TALLY_DELETES 31 0 (k.life.drop 1).sum (incFld TALLY_UPDATE_FAILED 31 0 failed.length s))
        let s := setMask TALLY_STATUS (b2n truncated + 2 * b2n (decide (0 < k.birthsDropped)) + 4 * b2n (decide (2 ≤ verdict)) + 8 * b2n (!failed.isEmpty)) s
        let s := if truncated then raise 0x7001 arg s else s
        let s := if 2 ≤ verdict then raise 0x7002 arg s else s
        let s := (List.range k.birthsDropped).foldl (fun s _ => raise 0x7003 arg s) s
        let s := failed.foldl (fun s _ => raise 0x7004 arg s) s
        let s := if table.pending then raise 0x7005 arg s else s
        .next (tallyDone j none (4 * 65536 * b2n (dets.any (·.bad))) steps s)

/-- What UPDATE reads of problem `p`: its status, its state words, its covariance words, and whether any is poisoned (R389). -/
def posterior (s : State) (j : TallyJob) (c : List Byte) (p : Nat) : Nat × List Nat × List Nat × Bool :=
  let n := tcN c
  let at32 := fun (arg : Nat) (ix : List Nat) => match boundTensor s 0 j.binds arg [0] with
    | some d => ((tensorBase s 0 d : Int) + elemBit (storageOf s 0 d) ix / 8).toNat
    | none => 0
  let sa := at32 (tcArg c 6) [p]
  let xa := argBase s 0 j.binds (tcArg c 4) [0] + 64 * tcBlocks c * p
  let xAddr := (List.range n).map (fun i => if i < 6 then xa + 4 * i else xa + 64 + 4 * (i - 6))
  let cAddr := (List.range (n * n)).map (fun i => at32 (tcArg c 5) [p, i / n, i % n])
  (readNat s sa 4, xAddr.map (fun a => readNat s a 4), cAddr.map (fun a => readNat s a 4),
   (sa :: xAddr ++ cAddr).any (fun a => fencedPoison s 0 a 4))

/-- A problem of the map is applied to its slot: 0 taken, 1 late, 2 failed (R389). -/
def takePosterior (s : State) (j : TallyJob) (c : List Byte) (marg : Bool) (p : Nat) (k : Track) : Track × Nat :=
  let (st, x, cov, bad) := posterior s j c p
  if bad then ({ k with failed := true }, 2)
  else if st = 0x1B11 then ({ k with late := true }, 1)
  else if st ≠ 0 ∨ x.contains NaR ∨ (marg = true ∧ cov.contains NaR) then ({ k with failed := true }, 2)
  else ({ k with x := x, p := if marg then cov else k.p }, 0)

/-- The 128 bytes of a frame entry (R390). -/
def trackEntry (c : List Byte) (slot : Nat) (k : Track) : List Byte :=
  let n := tcN c
  let words := fun (f : Nat → Nat) => (List.range 12).flatMap (fun i => leBytes 4 (if i < n then f i else 0))
  leBytes 4 k.id ++ leBytes 2 slot ++ leBytes 2 k.cls ++ leBytes 1 k.state ++
    leBytes 1 (b2n k.born + 2 * b2n k.confirmed + 4 * b2n k.late + 8 * b2n k.failed) ++ leBytes 1 k.misses ++ leBytes 1 0 ++
    leBytes 4 k.age ++ leBytes 8 k.tHit ++ words (fun i => k.x.getD i 0) ++ words (fun i => k.p.getD (n * i + i) 0) ++
    leBytes 4 k.hist ++ leBytes 4 0

/-- TALLY_UPDATE: the head of Tally's queue, an UPDATE, takes the posteriors and writes the track frame, in a number of steps; or it
is refused (R374, R377, R389–R392). -/
def execTallyUpdate (steps : Nat) (s : State) : Out :=
  match tallyJob s with
  | none => .next s
  | some j =>
    match tallyRefusal s j.dom j.addr j.binds j.nbEn with
    | some st => .next (refuseTally j st (noteRead 0 j.addr 384 2 s))
    | none =>
      let c := readBytes s j.addr 384
      if tcOp c ≠ 2 then .next s
      else
        let table := s.tally.table
        let last := table.last
        let map := if table.pending then last.map else []
        let r := (map.zipIdx).foldl (fun (a : Tab Track × Nat × Nat) q =>
          match tget q.1 a.1 with
          | none => a
          | some k =>
            let (k', how) := takePosterior s j c last.marginals q.2 k
            (tput q.1 k' a.1, a.2.1 + b2n (decide (how = 1)), a.2.2 + b2n (decide (how = 2)))) (table.tracks, 0, 0)
        let tracks := r.1
        let shown := tracks.filter (fun p => decide (2 ≤ p.2.state) || (tcTentative c && decide (p.2.state = 1)))
        let anyFailed := shown.any (fun p => p.2.failed)
        let anyLate := shown.any (fun p => p.2.late)
        let flags := last.flags ||| (32 * b2n anyFailed + 64 * b2n anyLate + 512 * b2n (!table.pending) + 1024 * b2n table.wasReset)
        let verdict := if flags &&& 0x200 ≠ 0 then 2 else if flags &&& 0x1BF ≠ 0 then 1 else 0
        let tOld := match shown with
          | [] => last.t
          | p :: q => (q.map (·.2.tHit)).foldl min p.2.tHit
        let counts := if last.counts.isEmpty then List.replicate 16 0 else
          (last.counts.set 13 (last.counts.getD 13 0 + r.2.2)).set 14 r.2.1
        let num := table.cycle
        let head := leBytes 1 1 ++ leBytes 1 verdict ++ leBytes 2 flags ++ leBytes 4 num ++ leBytes 8 last.t ++
          leBytes 4 (if shown.isEmpty then 0 else oldestAge last.t tOld) ++ leBytes 2 last.epoch ++ leBytes 2 shown.length ++
          leBytes 1 (tcN c) ++ leBytes 1 (tcX c) ++ leBytes 1 (tcCov c) ++ leBytes 1 0 ++ counts.flatMap (fun v => leBytes 4 (sat32 v)) ++
          List.replicate 36 0
        let frame := head ++ shown.flatMap (fun p => trackEntry c p.1 p.2)
        let nProb := map.length
        let s := noteRead 0 (argBase s 0 j.binds (tcArg c 4) [0]) (64 * tcBlocks c * nProb) 2 s
        let bad := (List.range nProb).any (fun p => (posterior s j c p).2.2.2)
        let s := tallyBegin j s
        let s := putTable j { table with tracks := tracks, pending := false, cycle := (num + 1) % 2 ^ 32, wasReset := false } s
        let s := cycleWrite (jobInst j) 0 (argBase s 0 j.binds (tcArg c 1) [1]) frame false s
        let s := wr TALLY_LAST_FRAME (flags + 65536 * verdict) s
        let s := incFld TALLY_UPDATE_LATE 31 0 r.2.1 (incFld TALLY_UPDATE_FAILED 31 0 r.2.2 s)
        let s := setMask TALLY_STATUS (8 * b2n (decide (0 < r.2.2)) + 64 * b2n table.wasReset) s
        let s := (List.range r.2.2).foldl (fun s _ => raise 0x7004 num s) s
        .next (tallyDone j (if tcPeg c = 0xFFFF then none else some (tcPeg c, verdict)) (4 * 65536 * b2n bad) steps s)

end Sys2Proof.Machine
end

