-- ==== Sys2Proof/Machine/Kingpost.lean ====
section
/-! DEFINITION. Kingpost: fault reports, lockstep mismatches, the self-test rotation and the release of the safe state
(R541–R559). -/

namespace Sys2Proof.Machine
open Sys2Proof

/-- A package reset after a fault of class P: the Plinth drives the pair invalid, and a page of the recorder is committed first
(R542, R546, R595, R608). -/
def kingpostFault (s : State) : State := kingpostReset 2 4 (drivePair false 3 (fault 27 s))

/-- FAULT_REPORT: the report of fault `f` reaches Kingpost, which counts, latches and reacts by its class; `port` is the port of a
checker's fault (R542–R547, R556, R557). -/
def execFaultReport (f port : Nat) (s : State) : Out :=
  if 28 < f || !inRun s then .next s
  else if f = 23 then .next (restartForeman s)
  else if f = 27 then .next (kingpostFault s)
  else if f = 26 then .next (fault 26 (raise 0xE00B 0 (inc KINGPOST_AUTH_CONFLICTS s)))
  else if f = 3 then .next (checkerTest (port % 16) false s)
  else if f = 5 then .next (checkerTest (16 + port % 8) false s)
  else .next (fault f s)

/-- KINGPOST_LOCKSTEP_MISMATCH: fault 27: the pair is invalid and a package reset follows (R546). -/
def execKingpostLockstepMismatch (s : State) : Out := if inRun s then .next (kingpostFault s) else .next s

/-! ### The rotation (R551, R552) -/

/-- A slot's test ends (R543, R552). -/
def slotDone (k : Nat) (passed : Bool) (s : State) : State :=
  let s := if passed then
      let l := lremove k s.kp.failedSlots
      let s := { s with kp.failedSlots := l }
      if l.isEmpty then faultEnds 21 s else s
    else
      let s := setFld KINGPOST_ROTATION_FAIL 19 16 k (incFld KINGPOST_ROTATION_FAIL 15 0 1 { s with kp.failedSlots := linsert k s.kp.failedSlots })
      fault 21 (raise 0xE009 k s)
  let s := { s with kp.running := none, kp.pass := linsert k s.kp.pass }
  if k ≠ 9 then s
  else
    let s := wr64 KINGPOST_ROTATION_LAST_LO KINGPOST_ROTATION_LAST_HI s.ridge.ns s
    if s.kp.pass.length = 10 then faultEnds 22 { s with kp.rotated := true } else s

/-- ROTATION_SLOT: mark 1,019 fires, every 4.9 ms from Foreman's release on, and runs the next slot, which completes within 1 ms with
its result, or stays incomplete; a firing that comes late is fault 22 (R551, R552). -/
def execRotationSlot (result : Option Bool) (s : State) : Out :=
  let due := s.kp.lastFiring.getD 0 + 4900000
  if s.ridge.ns < due || !inRun s || !s.power.released then .next s
  else
    let late := decide (due + 40 < s.ridge.ns)
    let k := s.kp.slot
    let pass := if k = 0 then [] else s.kp.pass
    let s := { s with kp := { s.kp with
      slot := (k + 1) % 10, running := some (k, s.ridge.ns), lastFiring := some (if late then s.ridge.ns else due), pass := pass } }
    let s := if late then fault 22 (raise 0xE00A 0 s) else s
    match result with
    | none => .next s
    | some passed => .next (slotDone k passed s)

/-- ROTATION_OVERDUE: the running slot has not completed 1 ms after its firing (R552). -/
def execRotationOverdue (s : State) : Out :=
  match s.kp.running with
  | none => .next s
  | some (_, t) =>
    if s.ridge.ns < t + 1000000 || !inRun s then .next s
    else .next (fault 22 (raise 0xE00A 0 { s with kp.running := none }))

/-! ### The safe state (R547–R549) -/

/-- Every Foreman restart has left the window of 600 s that keeps fault 23 (R543). -/
def restartsOver (s : State) : Bool := s.kp.restarts.all (fun t => decide (t + 600000000000 ≤ s.ridge.ns))

/-- SAFE_STATE_RELEASE: granted once no fault of class S or P holds and a rotation has completed whole since the entry (R549,
R559). -/
def execSafeStateRelease (f slot : Nat) (s : State) : Out :=
  .next (immediate f slot 0x0A02 (fun s =>
    let s := if restartsOver s then faultEnds 23 s else s
    let hold := rd s KINGPOST_FAULT_HOLD
    if !inSafeState s then ok [] s
    else if (23 :: safeFaults).any (fun k => bit hold k) || !s.kp.rotated then no 0x1E01 hold (raise 0xE003 0 s)
    else
      let s := clearMask KINGPOST_SAFETY_STATE 3 s
      let s := wr KINGPOST_FAULT_LATCH (rd s KINGPOST_FAULT_LATCH &&& hold) s
      let s := (List.range 64).foldl (fun s d => if kpHold s d then clearMask (FENCE_DOMAIN_STATE d) 8 s else s) s
      let s := wr64 KINGPOST_SAFE_EXIT_LO KINGPOST_SAFE_EXIT_HI s.ridge.ns (setFld NETIN_VLINK_STATE 1 1 0 s)
      ok [] (updatePair (raise 0xE002 0 s))) s)

/-- SAFETY_STATUS (R558). -/
def execSafetyStatus (f slot : Nat) (s : State) : Out :=
  .next (immediate f slot 0x0A01 (fun s =>
    ok [r32 (rd s NETIN_VLINK_STATE), r32 (rd s KINGPOST_SAFETY_STATE), r32 (rd s KINGPOST_FAULT_LATCH)] s) s)

/-- SELFTEST_LOG (R552). -/
def execSelftestLog (f slot : Nat) (s : State) : Out :=
  .next (immediate f slot 0x0A03 (fun s =>
    ok [r64 (rd64 s KINGPOST_ROTATION_LAST_LO KINGPOST_ROTATION_LAST_HI), r32 (fld s KINGPOST_ROTATION_FAIL 15 0)] s) s)

/-! ### Sill units in lockstep (R541) -/

/-- The Raft's running instance ends without a frame. -/
def lockstepRaft (s : State) : State :=
  match s.raft.run with
  | none => s
  | some run =>
    let s := setFld RAFT_STATE 1 1 0 { s with raft.run := none }
    let s := if cyPeg run.desc = 0xFFFF then s else modInst run.inst (fun y => { y with firstSignal := some (cyPeg run.desc, 2) }) s
    settle (endRun run.inst 0 0x1E10 s)

/-- Plumb's running cycle ends. -/
def lockstepPlumb (s : State) : State :=
  match s.plumb.run with
  | none => s
  | some r =>
    let s := setFld PLUMB_STATE 7 0 0 { s with plumb.run := none }
    match r.inst, r.mark with
    | some i, _ => settle (endRun i 0 0x1E10 s)
    | none, some m => markDone m 2 s
    | none, none => s

/-- Tally's cycle, which is the one at the head of its queue, ends without a frame. -/
def lockstepTally (s : State) : State :=
  match tallyJob s with
  | none => s
  | some j =>
    let peg := tcPeg (readBytes s j.addr 384)
    match j.who with
    | .inl i =>
      let s := tallyBegin j s
      settle (endRun i 0 0x1E10 (if peg = 0xFFFF then s else modInst i (fun x => { x with firstSignal := some (peg, 2) }) s))
    | .inr m => markDone m 2 (if peg = 0xFFFF then tallyBegin j s else unitPegAdd peg 2 (tallyBegin j s))

/-- A Ledger instance that runs ends; the entries it has processed stand. -/
def lockstepLedger (i : Nat) (s : State) : State :=
  match runLed s i with
  | none => s
  | some _ => settle (endRun i 0 0x1E10 (stopLedger i s))

/-- The grid epoch being processed emits nothing, and its frame number is used up. -/
def lockstepPlaner (s : State) : State :=
  match s.plan.segs with
  | [] => s
  | g :: _ => gridDone (unitPegAdd (pdPeg g.desc) 2 s)

/-- The message being captured is discarded, and its capture ends. -/
def lockstepStream (k : Nat) (s : State) : State :=
  match (stream s k).copying with
  | none => s
  | some m => captureDone m.cfg (dropMessage k (modStream k (fun x => { x with copying := none }) s))

/-- SILL_LOCKSTEP_MISMATCH: the two copies of a unit differ: 0 the Scribe, 1 the Planer, 2 the Raft, 3 Plumb, 4 Tally, 5 the Ledger
walkers with instance `which`, 6 the output streams with stream `which` (R541, R543, R559). -/
def execSillLockstepMismatch (unit which : Nat) (s : State) : Out :=
  if 6 < unit || !inRun s then .next s
  else
    let s := raise 0xE008 0 (setFld KINGPOST_LOCKSTEP 3 0 unit (incFld KINGPOST_LOCKSTEP 31 16 1 s))
    .next (match unit with
      | 0 => fault 18 s
      | 1 => fault 17 (lockstepPlaner s)
      | 2 => fault 17 (lockstepRaft s)
      | 3 => fault 17 (lockstepPlumb s)
      | 4 => fault 17 (lockstepTally s)
      | 5 => fault 17 (lockstepLedger which s)
      | _ => fault 17 (lockstepStream which s))

end Sys2Proof.Machine
end

