-- ==== Sys2Proof/Machine/Ledger.lean ====
section
/-! DEFINITION. Commands of the Ledger: its seven operations, the resumption of a READ and the deadline of a recompute
(chapter 10). -/

namespace Sys2Proof.Machine
open Sys2Proof

/-- LEDGER_OPEN: new sequences take the lowest free numbers (R326). -/
def execLedgerOpen (i : Nat) (badSeqs badPages : List Nat) (s : State) : Out := .next (ledgerRow 1 i badSeqs badPages s)

/-- LEDGER_FORK: each child takes a copy of its parent's page list (R326). -/
def execLedgerFork (i : Nat) (badSeqs badPages : List Nat) (s : State) : Out := .next (ledgerRow 2 i badSeqs badPages s)

/-- LEDGER_APPEND: token indices are assigned, with pages allocated, reused or copied (R327, R328). -/
def execLedgerAppend (i : Nat) (badSeqs badPages : List Nat) (s : State) : Out := .next (ledgerRow 3 i badSeqs badPages s)

/-- LEDGER_READ: the page lists of queries are made, and written unless a page must be recomputed first (R329–R334). -/
def execLedgerRead (i : Nat) (badSeqs badPages : List Nat) (s : State) : Out := .next (ledgerRow 4 i badSeqs badPages s)

/-- LEDGER_CLOSE: sequences lose their references and their numbers (R326). -/
def execLedgerClose (i : Nat) (badSeqs badPages : List Nat) (s : State) : Out := .next (ledgerRow 5 i badSeqs badPages s)

/-- LEDGER_REFILL: recomputed pages become RESIDENT (R335). -/
def execLedgerRefill (i : Nat) (badSeqs badPages : List Nat) (s : State) : Out := .next (ledgerRow 6 i badSeqs badPages s)

/-- LEDGER_COLLECTIVE: tensors are gathered, summed or broadcast across the Bays (R337). -/
def execLedgerCollective (i : Nat) (s : State) : Out := .next (ledgerRow 7 i [] [] s)

/-- READ_RESUME: a parked READ, none of whose pages is RECOMPUTING any more, writes its lists and ends (R334). -/
def execReadResume (i : Nat) (s : State) : Out :=
  match instOf s i, runLed s i with
  | some (_, g, nd), some r =>
    if loOp r.desc = 4 && decide (loEntries s g.domain nd r.desc ≤ r.next) && !recomputing s r then
      .next (endLedger i (writeLists i g.domain nd r s))
    else .next s
  | _, _ => .next s

/-- RECOMPUTE_DEADLINE: a page still RECOMPUTING at its deadline returns to DROPPED, loses its slot and is marked absent in the
READs that wait for it (R334). -/
def execRecomputeDeadline (page : Nat) (s : State) : Out :=
  let x := pageOf s page
  if x.state ≠ .recomputing ∨ s.ridge.ns < x.deadline then .next s
  else
    let waits := s.ledger.runs.filter (fun q => q.2.lists.any (fun l => l.entries.any (fun e => decide (e.1 = page))))
    let s := labDropPage page s
    let s := waits.foldl (fun s q => modLed q.1 (fun r => { r with absent := linsert page r.absent }) s) s
    let s := s.ledger.pins.foldl (fun s l => if waits.any (fun q => q.1 = l.inst) then
      (l.pages.filter (· = page)).foldl (fun s p => unpinPage p s) s else s) s
    let s := { s with ledger.pins := s.ledger.pins.map (fun l =>
      if waits.any (fun q => q.1 = l.inst) then { l with pages := l.pages.filter (· ≠ page) } else l) }
    let s := modPage page (fun x => { x with state := .dropped, slot := none }) s
    .next (raise 0x9004 (ledArg x.cache x.seq) (inc LEDGER_RECOMPUTE_TIMEOUT (setMask LEDGER_STATUS 8 s)))

end Sys2Proof.Machine
end

