-- ==== Sys2Proof/Machine/Marks.lean ====
section
/-! DEFINITION. Commands of Ridge that move time and marks: the reference tick, the firing of marks, and the mailbox commands of
time and marks (R53–R79, R189, R440). -/

namespace Sys2Proof.Machine
open Sys2Proof

/-! ### The reference tick (R53, R56–R59, R75, R189, R571) -/

/-- The addition of the tick: the increment in force, with one committed since, and then an accepted step, unless Ridge has been
pinned against it or a mode change has begun in the meantime (R53, R56–R58). -/
def advanceRidge (s : State) : State :=
  let s := match s.ridge.incNext with
    | some i =>
      let i := clampInc s i
      wr RIDGE_FREQ_TRIM (ofSigned 32 (incTrim i)) (putInc i { s with ridge.incNext := none, ridge.trim := incTrim i })
    | none => s
  let s := match s.ridge.stepNext with
    | some e =>
      if (decide (e < 0) && pinned s) || changing s then
        let s := { s with ridge.stepNext := none }
        if s.ridge.stepSoft then ignoredWrite 0 RIDGE_STEP_HI.addr false allBits s else s
      else s
    | none => s
  let before := s.ridge.ns
  let sum := (s.ridge.ns * 2 ^ 32 + s.ridge.frac + s.ridge.inc) % 2 ^ 96
  let ns := sum / 2 ^ 32
  let stepped := match s.ridge.stepNext with
    | some e => (((ns : Int) + e) % 2 ^ 64).toNat
    | none => ns
  let from_ := if s.ridge.stepNext.isSome then ns else before
  marksDue from_ (if s.ridge.stepNext.isSome then stepped else before)
    { s with ridge.ns := stepped, ridge.frac := sum % 2 ^ 32, ridge.stepNext := none }

/-- elapsed_s of RIDGE.HOLDOVER (R63). -/
def holdoverElapsed (s : State) : State :=
  if loopState s = 3 then setFld RIDGE_HOLDOVER 31 16 (min 65535 ((s.ridge.ns - s.ridge.holdSince) / 1000000000)) s else s

/-- Tokens of one truss in a tick, in eighths, and the steps it takes of those it could: what it receives is kept up to the bucket,
and 0xFF removes the gate (R189). -/
def tokenStep (word held want : Nat) : Nat × Nat :=
  let rate := bits word 7 0
  let full := min (8 * bits word 23 8) (held + rate)
  if rate = 0xFF then (full, want)
  else
    let n := min want (full / 8)
    (full - 8 * n, n)

/-- The steps of a Bay's trusses in a tick: `want` gives, by truss, the steps its tenon array takes where it has tokens (R189,
R190). -/
def bayTick (want : List (Nat × Nat)) (waiting : Bool) (b : Nat) (s : State) : State :=
  let word := rd s (BAY_TOKENS b)
  let s := { s with fab.tokens := tput b word s.fab.tokens }
  let s := (List.range 16).foldl (fun s t =>
    let x := truss s b t
    let w := if x.task.isSome || x.testing then tgetD (16 * b + t) 0 want else 0
    let (held, n) := tokenStep word x.tokens w
    let s := modTruss b t (fun x => { x with tokens := held, msSteps := x.msSteps + n }) s
    { s with fab.steps := tput b ((tgetD b 0 s.fab.steps + n) % 2 ^ 64) s.fab.steps }) s
  if waiting then inc (BAY_TOKEN_WAIT b) s else s

/-- BAYn.REGION_RATE at each millisecond: the steps of the region's truss that took most, per 1 ms, in Mstep/s. -/
def regionRates (b : Nat) (s : State) : State :=
  let s := (List.range 4).foldl (fun s r =>
    setFld (BAY_REGION_RATE b r) 15 0 (min 65535 (((List.range 4).map (fun i => (truss s b (4 * r + i)).msSteps)).foldl max 0 / 1000)) s) s
  (List.range 16).foldl (fun s t => modTruss b t (fun x => { x with msSteps := 0 }) s) s

/-- REFERENCE_TICK: Ridge adds the increment, marks that it brings due are found, and step tokens are issued. `steps` gives, by
16 × Bay + truss, the steps that a tenon array takes if it has tokens; bit b of `waiting` tells that some truss of Bay b waited for
one (R53, R75, R189, R571). -/
def execReferenceTick (steps : List (Nat × Nat)) (waiting : Nat) (s : State) : Out :=
  let s := holdoverElapsed (advanceRidge s)
  let s := (presentBays s).foldl (fun s b => bayTick steps (bit waiting b) b s) s
  let s := accrueReasons s
  .next (if s.gov.ticks % 100000 = 0 then (presentBays s).foldl (fun s b => regionRates b s) s else s)

/-! ### Marks (R72–R79) -/

/-- MARK_CTRL_WRITE: a write through BAR0 arms or disarms a mark for the owner domain; one to a system mark is ignored and counted
(R72–R76, R79). -/
def execMarkCtrlWrite (m value : Nat) (s : State) : Out :=
  if 1024 ≤ m then .next s
  else if 1016 ≤ m then .next (ignoredWrite 0 (RIDGE_MARK_CTRL m).addr false allBits s)
  else .next (putMarkCtrl m (value % 2 ^ 32) 0 s)

/-- The mark that is due next fires; a firing that the delivery limit or a step has delayed is late (R59, R75, R76). -/
def fireDue (m : Nat) (s : State) : State :=
  let late := s.ridge.skipped.contains m || decide (markInstant s m + 40 < s.ridge.ns)
  let s := if portKind (markKind s m) then s else { s with ridge.delivered := s.ridge.delivered + 1 }
  fireMark m late s

/-- MARK_FIRE: a due mark fires, delivers its action, advances its time and counts. `coinciding` is a value that software writes to
its MARK_CTRL in the same handshake window, which is applied after the firing (R75–R78). -/
def execMarkFire (m : Nat) (coinciding : Option Nat) (s : State) : Out :=
  if nextDue s ≠ some m ∨ markKind s m = 9 then .next s
  else
    let s := if markArmed s m then fireDue m s else { s with ridge.due := lremove m s.ridge.due, ridge.skipped := lremove m s.ridge.skipped }
    match coinciding with
    | some v => .next (if m < 1016 then putMarkCtrl m (v % 2 ^ 32) 0 s else ignoredWrite 0 (RIDGE_MARK_CTRL m).addr false allBits s)
    | none => .next s

/-! ### Mailbox commands of time and marks (R440) -/

/-- TIME_READ. -/
def execTimeRead (f slot : Nat) (s : State) : Out :=
  .next (immediate f slot 0x0501 (fun s =>
    ok [r64 s.ridge.ns, r32 s.ridge.frac, r32 (valueAt s RIDGE_STATUS.addr), r16 (fld s RIDGE_EPOCH_STATE 15 0)] s) s)

/-- TIME_CORRELATE: a pair of Ridge and PTM times with its uncertainty, as the PTM exchange gives them; refused when PTM is not
enabled. -/
def execTimeCorrelate (f slot ptm uncertainty : Nat) (s : State) : Out :=
  .next (deferred f slot 0x0502 (fun s =>
    if s.mb.ptm then .inl (ok [r64 s.ridge.ns, r64 ptm, r32 uncertainty] s) else .inl (no 0x1006 0 s)) s)

/-- A function may use mark `m`: its own, or for the owner domain one that no domain was allocated. -/
def markUsable (s : State) (f m : Nat) : Bool :=
  match tget m s.ridge.markOwner with
  | some d => decide (d = f)
  | none => decide (f = 0)

/-- MARK_ALLOC: the lowest mark that is neither allocated nor armed (R633, R438). -/
def execMarkAlloc (f slot : Nat) (s : State) : Out :=
  .next (immediate f slot 0x0503 (fun s =>
    if quotaOf s f 4 ≤ useOf s f 4 then no 0x1008 4 s
    else match (List.range 1016).find? (fun m => (tget m s.ridge.markOwner).isNone && !markArmed s m) with
      | none => no 0x1008 4 s
      | some m => ok [r16 m] { s with ridge.markOwner := tput m f s.ridge.markOwner }) s)

/-- MARK_RELEASE: the mark is disarmed first. -/
def execMarkRelease (f slot : Nat) (s : State) : Out :=
  .next (immediate f slot 0x0504 (fun s =>
    let m := param s f slot 0x0504 0
    if 1015 < m then badParam 0x0504 0 s
    else if tget m s.ridge.markOwner ≠ some f then no 0x1007 0 s
    else
      let s := disarmMark m s
      ok [] { s with ridge.markOwner := tdel m s.ridge.markOwner }) s)

/-- MARK_ARM: a mark's registers are written and it is armed for the requesting domain; one that is armed is refused, and a mark
that faults answers with its fault code (R73, R74, R436). -/
def execMarkArm (f slot : Nat) (s : State) : Out :=
  .next (immediate f slot 0x0505 (fun s =>
    let op := 0x0505
    let p := fun i => param s f slot op i
    let m := p 0
    if 1015 < m then badParam op 0 s
    else if !markUsable s f m then no 0x1007 0 s
    else if markArmed s m then { no 0x100A 0 s with res := [r32 (rd s (RIDGE_MARK_STATUS m))] }
    else
      let s := putMarkTime m (p 1 * 2 ^ 32 + p 2) s
      let s := wr (RIDGE_MARK_ACTION m) (p 5) (wr (RIDGE_MARK_PERIOD_FRAC m) (p 4) (wr (RIDGE_MARK_PERIOD_NS m) (p 3) s))
      let s := putMarkCtrl m (p 6) f s
      let st := rd s (RIDGE_MARK_STATUS m)
      if bit (p 6) 31 && decide (bits st 31 30 = 2) && decide (bits st 29 27 ≠ 4) then { no 0x1006 (bits st 29 27) s with res := [r32 st] } else ok [r32 st] s) s)

/-- MARK_DISARM. -/
def execMarkDisarm (f slot : Nat) (s : State) : Out :=
  .next (immediate f slot 0x0506 (fun s =>
    let m := param s f slot 0x0506 0
    if 1015 < m then badParam 0x0506 0 s
    else if !markUsable s f m then no 0x1007 0 s
    else
      let s := disarmMark m s
      ok [r32 (rd s (RIDGE_MARK_STATUS m))] s) s)

/-- GPTP_SET: RIDGE.CTRL with the intervals and attributes of gPTP (R63, R65). -/
def execGptpSet (f slot : Nat) (s : State) : Out :=
  .next (immediate f slot 0x0507 (fun s =>
    let op := 0x0507
    let p := fun i => param s f slot op i
    let sg := fun i => toSigned 8 (p i)
    match ctrlValue (p 0) with
    | none => badParam op 0 s
    | some v =>
      if sg 1 < -5 ∨ 0 < sg 1 then badParam op 1 s
      else if sg 2 < -3 ∨ 3 < sg 2 then badParam op 2 s
      else if sg 3 < -3 ∨ 3 < sg 3 then badParam op 3 s
      else if p 4 < 2 ∨ 10 < p 4 then badParam op 4 s
      else
        let s := { s with ridge := { s.ridge with
          logSync := sg 1, logPdelay := sg 2, logAnnounce := sg 3, announceTimeout := p 4, priority1 := p 5, priority2 := p 6,
          clockClass := p 7, clockAccuracy := p 8, variance := p 9 } }
        ok [] (runBmca (putRidgeCtrl v s))) s)

end Sys2Proof.Machine
end

