-- ==== Sys2Proof/Machine/MemOps.lean ====
section
/-! DEFINITION. Placing and sharing allocations, what references them, and who names a ring or a cache (R231, R318, R469–R472, R481,
R634). -/

namespace Sys2Proof.Machine
open Sys2Proof

/-- The base and allocatable bytes of a place, if it is one that is in use; 0x04 names the used stack with the most free bytes, ties
to the lowest Bay (R448, R469). -/
def placeOf (s : State) (p : Nat) : Option (Nat × Nat) :=
  let stack := fun n => if stackUsed s n then some (n * stackBytes, stackSize s n) else none
  if p < 4 then stack p
  else if p = 4 then
    (((List.range 4).filter (stackUsed s)).foldl (fun (acc : Option (Nat × Nat)) n =>
      let fr := freeIn s (n * stackBytes) (stackSize s n)
      match acc with
      | none => some (n, fr)
      | some (m, best) => if best < fr then some (n, fr) else some (m, best)) none).bind (fun q => stack q.1)
  else if 0x10 ≤ p && p ≤ 0x13 && bayPresent s (p - 0x10) then some (loftBase + (p - 0x10) * loftWindow, loftBytes)
  else none

/-- Two ranges, each a base and a length, meet. -/
def meets (a b : Nat × Nat) : Bool := decide (a.1 < b.1 + b.2) && decide (b.1 < a.1 + a.2)

/-- Ranges that no allocation may take: allocations, and freed memory that waits to be cleared (R469). -/
def takenRanges (s : State) : List (Nat × Nat) := s.memory.allocs.map (fun p => (p.1, p.2.len)) ++ s.memory.zeroing

/-- The excl windows of domains other than `d` (R481). -/
def exclRanges (s : State) (d : Nat) : List (Nat × Nat) :=
  ((List.range 256).filter (fun w => winValid s w && decide (winDomain s w ≠ d) && bit (rd s (FENCE_WIN_CTRL w)) 3)).map
    (fun w => (winBase s w, winLimit s w + 4096 - winBase s w))

/-- The lowest address of a place at which an allocation fits (R469, R481). -/
def findRoom (s : State) (d base size len align : Nat) : Option Nat :=
  let bad := takenRanges s ++ exclRanges s d
  let wins := if d = 0 then [] else ((List.range 256).filter (fun w => winValid s w && decide (winDomain s w = d))).map (winBase s)
  let starts := (base :: bad.map (fun r => r.1 + r.2) ++ wins).map (fun a => ceilDiv a align * align)
  ((starts.filter (fun a => decide (base ≤ a) && decide (a + len ≤ base + size) && !bad.any (meets (a, len)) &&
    (d = 0 || windowHolds s d a len true true))).foldl (fun (acc : Option Nat) a => match acc with
      | none => some a
      | some b => some (min a b)) none)

/-- The largest free range of a place, in bytes. -/
def largestFree (s : State) (base size : Nat) : Nat :=
  let bad := takenRanges s
  let starts := (base :: bad.map (fun r => r.1 + r.2)).filter (fun a => decide (base ≤ a) && decide (a < base + size) &&
    !bad.any (fun r => decide (r.1 ≤ a) && decide (a < r.1 + r.2)))
  (starts.map (fun a => (bad.filterMap (fun r => if a ≤ r.1 then some r.1 else none)).foldl min (base + size) - a)).foldl max 0

/-! ### References (R472) -/

/-- The areas that the descriptors in force of the Planer, the Raft and Tally name (R472). -/
def unitAreas (s : State) : List (Nat × Nat) :=
  (pdAreas s.plan.live).map (·.2) ++
    [(gdTable s.raft.live, gdTableBytes s.raft.live), (gdPoses s.raft.live, 64 * gdPoseCount s.raft.live),
     (tuArea s.tally.live, if s.tally.live = [] then 0 else 8192 + 1040 * tuCap s.tally.live)]

/-- The ranges that objects hold references on, with the domain that holds each and the rights it needs: read, write. -/
def references (s : State) : List (Nat × (Nat × Nat) × Bool × Bool) :=
  s.tensors.table.flatMap (fun p => (extents p.2.bytes).map (fun e =>
    (p.2.owner, (e.2.1.toNat, (e.2.2 - e.2.1 + 1).toNat), true, !tdReadOnly p.2.bytes))) ++
  s.ledger.caches.flatMap (fun p => (cdArrays p.2.bytes).map (fun a => (p.2.owner, a, true, true))) ++
  s.scribe.rings.map (fun p => (p.2.owner, (p.2.base, 64 * ringSize p.2), true, true)) ++
  s.memory.copies.map (fun p => (p.2.function, (p.2.device, p.2.bytes), !p.2.toDevice, p.2.toDevice)) ++
  (unitAreas s).map (fun a => (0, a, true, true))

/-- An allocation is referenced (R472). -/
def referenced (s : State) (base len : Nat) : Bool := (references s).any (fun r => meets (base, len) r.2.1)

/-- The rights that objects of a domain need on an allocation (R472). -/
def rightsNeeded (s : State) (d base len : Nat) : Bool × Bool :=
  let l := (references s).filter (fun r => decide (r.1 = d) && meets (base, len) r.2.1)
  (l.any (·.2.2.1), l.any (·.2.2.2))

/-! ### Rings and caches (R318, R634) -/

/-- Units whose configuration, in force or staged, names ring `k`: camera and scanner ports that are enabled, the signal ring while a
map entry is in use, and the Planer's frame ring (R634). -/
def unitNamesRing (s : State) (k : Nat) : Bool :=
  let both := fun (f : Reg → Nat) (en rg : Reg) => bit (f en) 0 && decide (bits (f rg) 23 0 = k)
  (List.range 16).any (fun n => both (rd s) (CAMIN_PORT_CTRL n) (CAMIN_RECORD_RING n) || both (live s) (CAMIN_PORT_CTRL n) (CAMIN_RECORD_RING n)) ||
  (List.range 8).any (fun n => both (rd s) (NETIN_SCAN_CTRL n) (NETIN_SCAN_RING n) || both (live s) (NETIN_SCAN_CTRL n) (NETIN_SCAN_RING n)) ||
  (!(s.net.live.signals.isEmpty && s.net.staged.signals.isEmpty) &&
    (decide (bits (rd s NETIN_SIGNAL_RING) 23 0 = k) || decide (bits (live s NETIN_SIGNAL_RING) 23 0 = k))) ||
  ([s.plan.staged.getD [], s.plan.live].any (fun d => pdEnabled d && decide (pdRing d = k)))

/-- What keeps a ring from being destroyed (R634). -/
def ringInUse (s : State) (k : Nat) (r : Ring) : Bool :=
  decide (0 < r.held) || unitNamesRing s k ||
  s.ledger.caches.any (fun p => decide (cdRing p.2.bytes < 2 ^ 31) && decide (cdRing p.2.bytes % 2 ^ 24 = k)) ||
  s.scribe.graphs.any (fun p => decide (p.2.compRing = some k) ||
    p.2.nodes.any (fun n => n.binds.any (fun b => decide (2 ≤ b.kind) && decide (b.ref % 2 ^ 24 = k))))

/-- The 64 bytes of a ring table entry (R265). -/
def ringBytes (r : Ring) : List Byte :=
  leBytes 1 1 ++ leBytes 1 (b2n r.packet) ++ leBytes 1 r.log2 ++ leBytes 1 r.owner ++ leBytes 4 0 ++ leBytes 8 r.base ++ leBytes 4 r.prod ++
    leBytes 4 r.prodN ++ leBytes 4 r.cons ++ leBytes 4 r.consN ++ leBytes 4 r.resv ++ leBytes 4 r.held ++ leBytes 4 r.resets ++
    leBytes 4 (match r.peg with | some p => p | none => 2 ^ 31) ++ leBytes 16 0

/-- The first reason for which a cache descriptor is refused, but for the quota (R318). -/
def cacheReject (s : State) (d a : Nat) : Option Nat :=
  let c := readBytes s a 256
  let zero := fun (o n : Nat) => decide (fieldU c o n = 0)
  let arr := cdArrays c
  if a % 64 ≠ 0 || !readable s d a 256 || decide (fieldU c 0 1 ≠ 1) || decide (2 ≤ fieldU c 1 1) || decide (16 ≤ fieldU c 2 1) ||
      !zero 14 2 || decide (bits (cdRing c) 30 24 ≠ 0) || !zero 30 2 || !zero 36 4 || !zero 168 88 then some 0x1A30
  else if cdLayers c < 1 || 64 < cdLayers c || cdHeads c < 1 || 64 < cdHeads c ||
      !([1, 5, 6, 7, 8, 9, 10, 11, 12].contains (cdFormat c)) || cdHeadDim c < 32 || 512 < cdHeadDim c || decide (cdHeadDim c % 32 ≠ 0) ||
      cdSlots c < 1 || 2 ^ 20 < cdSlots c || cdLimit c < 100 || 1000000 < cdLimit c ||
      (if cdWindow c then cdWindowTokens c < 64 || 2 ^ 22 < cdWindowTokens c || 64 < cdSinks c || decide (cdMaxPages c ≠ 0)
       else decide (cdWindowTokens c ≠ 0) || decide (cdSinks c ≠ 0) || cdMaxPages c < 1 || 65536 < cdMaxPages c) then some 0x1A31
  else if cdMask c = 0 || (List.range 4).any (fun b => bit (cdMask c) b && !bayPresent s b) then some 0x1A32
  else if arr.any (fun p => !heldOrShared s d p.1 ((p.1 + p.2 : Nat) - 1)) ||
      (arr.zipIdx).any (fun p => (arr.zipIdx).any (fun q => decide (p.2 < q.2) && meets p.1 q.1)) then some 0x1A33
  else none

/-- The ring and the peg that a cache names are the domain's (R318). -/
def cacheNames (s : State) (d : Nat) (c : List Byte) : Bool :=
  (decide (2 ^ 31 ≤ cdRing c) || (tget (cdRing c) s.scribe.rings).any (fun r => decide (r.owner = d))) &&
  (decide (cdPeg c = 0xFFFF) || mayAdd s d (cdPeg c))

/-- A resident Ledger node of a domain names a cache (R318). -/
def nodeNamesCache (s : State) (d c : Nat) : Bool :=
  s.scribe.graphs.any (fun p => decide (p.2.domain = d) && p.2.nodes.any (fun n =>
    decide (n.kind = 5) && decide (loCache (readBytes s n.plan 64) = c)))

/-- A cache goes, with every page it still has (R318). -/
def dropCache (c : Nat) (s : State) : State :=
  let s := labDrop (fun k => decide (k.1 ≠ c)) s
  { s with ledger.caches := tdel c s.ledger.caches, ledger.seqs := s.ledger.seqs.filter (fun p => decide (p.2.cache ≠ c)),
           ledger.pages := s.ledger.pages.map (fun p =>
             (p.1, if p.2.cache = c ∧ p.2.state ≠ .free then { gen := p.2.gen : Page } else p.2)) }

/-- A page record's 64 bytes; the codes of the page states are not stated (R320, R323). -/
def pageBytes (p : Page) : List Byte :=
  let st : Int := match p.state with | .free => 0 | .resident => 1 | .prov => 2 | .dropped => 3 | .recomputing => 4 | .retiring => 5
  leBytes 1 (Config.unstated 323 [st]).toNat ++ leBytes 1 (b2n p.droppable + 2 * b2n p.pinsSat) ++ leBytes 2 p.refcount ++ leBytes 2 p.pins ++
    leBytes 1 p.fill ++ leBytes 1 p.gen ++ leBytes 4 (p.slot.getD 0xFFFFFFFF) ++ leBytes 4 p.lpage ++ leBytes 2 p.seq ++
    leBytes 1 p.cache ++ leBytes 1 0 ++ leBytes 4 p.lastRead ++ leBytes 8 p.tagFirst ++ leBytes 8 p.tagLast ++ leBytes 8 p.tOld ++ leBytes 16 0

/-- A sequence entry's 64 bytes: R322 names its fields and gives no layout, so each byte is a value that is not stated. -/
def seqBytes (e : Seq) : List Byte :=
  (List.range 64).map (fun (i : Nat) => (Config.unstated 322 ((i : Int) :: [(e.cache : Int), (b2n e.droppable : Int), (e.len : Int),
    (b2n e.faulted : Int), (e.list.length : Int)])).setWidth 8)

end Sys2Proof.Machine
end

