-- ==== Sys2Proof/Machine/GraphOps.lean ====
section
/-! DEFINITION. Graph images: their layout and the checks at load (R252–R257, R533). -/

namespace Sys2Proof.Machine
open Sys2Proof

/-- `n` entries of `z` bytes from offset `o` of an image. -/
def tableOf (d : List Byte) (o z : Nat) : Nat → List (List Byte)
  | 0 => []
  | n + 1 => (d.drop o).take z :: tableOf d (o + z) z n

/-- Header fields of an image (R252). -/
def giNodes (d : List Byte) : Nat := fieldU d 4 4
def giDeps (d : List Byte) : Nat := fieldU d 12 4
def giSigs (d : List Byte) : Nat := fieldU d 20 4
def giBinds (d : List Byte) : Nat := fieldU d 28 4
def giBytes (d : List Byte) : Nat := fieldU d 36 4
def giComp (d : List Byte) : Nat := fieldU d 48 4

/-- A dependence entry (R254). -/
def depOf (d : List Byte) : Dep :=
  { peg := fieldU d 0 2, early := bit (fieldU d 2 1) 0, absolute := bit (fieldU d 2 1) 1, propagate := bit (fieldU d 2 1) 2,
    accept := fieldU d 3 1, window := fieldU d 4 1, div := fieldU d 6 2, perIter := fieldU d 8 4, offset := fieldU d 12 4 }

/-- A signal entry (R255). -/
def sigOf (d : List Byte) : Sig :=
  { kind := fieldU d 0 1, dropVoid := bit (fieldU d 1 1) 0, peg := fieldU d 2 2, amount := fieldU d 4 4, vector := fieldU d 8 2 }

/-- A binding entry (R256). -/
def bindEntry (d : List Byte) : Bind := { ref := fieldU d 0 4, arg := fieldU d 4 1, kind := fieldU d 5 1 }

/-- A node record with the entries that it names (R253). -/
def nodeRec (deps sigs binds : List (List Byte)) (d : List Byte) : Node :=
  { kind := fieldU d 0 1, flags := fieldU d 1 1, bay := fieldU d 2 1, priority := fieldU d 3 1, plan := fieldU d 24 8,
    nbOffset := fieldU d 32 8, nbPeriod := fieldU d 40 8,
    deps := ((deps.drop (fieldU d 4 4)).take (fieldU d 16 1)).map depOf,
    sigs := ((sigs.drop (fieldU d 8 4)).take (fieldU d 17 1)).map sigOf,
    binds := ((binds.drop (fieldU d 12 4)).take (fieldU d 18 1)).map bindEntry }

/-- The four tables of an image: node records, dependences, signals and bindings (R252). -/
def giTables (d : List Byte) : List (List Byte) × List (List Byte) × List (List Byte) × List (List Byte) :=
  (tableOf d (fieldU d 8 4) 64 (giNodes d), tableOf d (fieldU d 16 4) 16 (giDeps d), tableOf d (fieldU d 24 4) 16 (giSigs d),
   tableOf d (fieldU d 32 4) 8 (giBinds d))

def giNodeList (d : List Byte) : List Node :=
  let t := giTables d
  t.1.map (nodeRec t.2.1 t.2.2.1 t.2.2.2)

/-- A count, an offset or a range of a table is out of range, misaligned or outside the image (R252, R253). -/
def giRanges (d : List Byte) : Bool :=
  let tab := fun (o z n al : Nat) => decide (fieldU d o 4 % al ≠ 0) || decide (giBytes d < fieldU d o 4 + z * n)
  decide (giBytes d < 64) || decide (2 ^ 26 < giBytes d) || decide (giNodes d < 1) || decide (65536 < giNodes d) ||
    tab 8 64 (giNodes d) 64 || tab 16 16 (giDeps d) 16 || tab 24 16 (giSigs d) 16 || tab 32 8 (giBinds d) 8

/-- A node names entries outside a table, or too many (R253). -/
def giNodeRange (d n : List Byte) : Bool :=
  let part := fun (first count most size : Nat) => decide (most < fieldU n count 1) || decide (size < fieldU n first 4 + fieldU n count 1)
  part 4 16 32 (giDeps d) || part 8 17 16 (giSigs d) || part 12 18 64 (giBinds d)

/-- A reserved field of a table entry is not zero (R253–R256). -/
def giReserved (d : List Byte) : Bool :=
  let t := giTables d
  let nz := fun (e : List Byte) (o n : Nat) => decide (fieldU e o n ≠ 0)
  t.1.any (fun e => decide (16 ≤ fieldU e 1 1) || decide (16 ≤ fieldU e 2 1) || decide (8 ≤ fieldU e 3 1) || nz e 19 5 || nz e 48 16) ||
    t.2.1.any (fun e => decide (8 ≤ fieldU e 2 1) || decide (8 ≤ fieldU e 3 1) || nz e 5 1) ||
    t.2.2.1.any (fun e => decide (2 ≤ fieldU e 1 1) || nz e 10 6) || t.2.2.2.any (fun e => nz e 6 2)

/-- The global shape of a tensor; an indexed one has its target's, with the length of its index tensor in one dimension
(R223, R238). -/
def wholeShape (s : State) (dom : Nat) (d : List Byte) : List Nat :=
  let t := storageOf s dom d
  let sh := (tdDims t).map (tdShape t)
  if tdIndexed d then
    match tensorOf s dom (tdIndex d) with
    | some i => sh.set (tdIndexDim d) (tdShape i.bytes 0)
    | none => sh
  else sh

/-- A kind that is reserved, a signal vector above 31, or a copy node whose bindings do not fit (R253, R257, R440). -/
def giKinds (s : State) (f : Nat) (n : Node) : Bool :=
  decide (6 < n.kind) || n.sigs.any (fun e => decide (e.kind ≠ 1) && (decide (e.kind ≠ 2) || decide (31 < e.vector))) ||
    n.binds.any (fun b => decide (3 < b.kind)) ||
    (decide (n.kind = 6) && match n.binds with
      | [a, b] => decide (a.kind ≠ 0) || decide (b.kind ≠ 1) || (match tensorOf s f a.ref, tensorOf s f b.ref with
          | some x, some y => decide (tdFormat (storageOf s f x.bytes) ≠ tdFormat (storageOf s f y.bytes)) ||
              decide (wholeShape s f x.bytes ≠ wholeShape s f y.bytes)
          | _, _ => false)
      | _ => true)

/-- The Bays of a fabric task or copy node: two where it is dual (R253). -/
def nodeBays (n : Node) : List Nat := if bit n.flags 3 then [bits n.bay 1 0, bits n.bay 3 2] else [bits n.bay 1 0]
def onBay (n : Node) : Bool := n.kind = 1 || n.kind = 6

/-- A Bay that is not present or is named twice, or a plan's trusses field out of range (R257). -/
def giBays (s : State) (f : Nat) (n : Node) : Bool :=
  onBay n && ((nodeBays n).any (fun b => !bayPresent s b) || (bit n.flags 3 && decide (bits n.bay 1 0 = bits n.bay 3 2)) ||
    (decide (n.kind = 1) && readable s f n.plan 32 && (decide (planTrusses s n.plan = 0) || decide (16 < planTrusses s n.plan))))

/-- A peg or a ring that the domain may not use (R257, R635). -/
def giPegs (s : State) (f : Nat) (n : Node) : Bool :=
  n.deps.any (fun e => !mayWait s f e.peg) || n.sigs.any (fun e => decide (e.kind = 1) && !mayAdd s f e.peg) ||
    n.binds.any (fun b => decide (2 ≤ b.kind) && !(tget (b.ref % 2 ^ 24) s.scribe.rings).any (fun r => decide (r.owner = f)))

/-- The tensor bindings of a node. -/
def tensorBinds (n : Node) : List Bind := n.binds.filter (fun b => decide (b.kind < 2))

/-- Wait entries that resident graphs hold (R251). -/
def waitEntries (s : State) : Nat := (s.scribe.graphs.map (fun p => (p.2.nodes.map (·.deps.length)).sum)).sum

/-- Pages of the pool of a Bay under the configuration in force (R275, R286). -/
def poolSize (s : State) (b : Nat) : Nat := live s (SCRIBE_PROV_SIZE b)

/-- The first reason for which an image is refused, with the detail (R257, R438, R533). -/
def graphReject (s : State) (f a : Nat) : Option (Nat × Nat) :=
  let h := readBytes s a 64
  if a % 64 ≠ 0 || !readable s f a 64 || (decide (64 ≤ giBytes h) && decide (giBytes h ≤ 2 ^ 26) && !readable s f a (giBytes h)) then
    some (0x180C, 0)
  else if fieldU h 0 1 ≠ 1 || decide (fieldU h 1 3 ≠ 0) || decide (bits (giComp h) 30 24 ≠ 0) || decide (fieldU h 56 8 ≠ 0) then some (0x1801, 0)
  else if giRanges h then some (0x1802, 0)
  else
    let d := readBytes s a (giBytes h)
    let ns := giNodeList d
    let bad := fun (p : Bind → List Byte → Bool) => ns.any (fun n => (tensorBinds n).any (fun b => match tensorOf s f b.ref with
      | none => true
      | some t => p b t.bytes))
    if (giTables d).1.any (giNodeRange d) then some (0x1802, 0)
    else if crc32 (d.take 52 ++ leBytes 4 0 ++ d.drop 56) ≠ fieldU d 52 4 then some (0x1803, 0)
    else if giReserved d then some (0x1801, 0)
    else if ns.any (giKinds s f) then some (0x1804, 0)
    else if ns.any (giBays s f) then some (0x180B, 0)
    else if ns.any (giPegs s f) || (decide (giComp h < 2 ^ 31) && !(tget (giComp h % 2 ^ 24) s.scribe.rings).any (fun r => decide (r.owner = f))) then
      some (0x1805, 0)
    else if bad (fun _ _ => false) then some (0x170C, 0)
    else if bad (fun b t => decide (b.kind = 1) && readOnlyBound s f t) then some (0x1807, 0)
    else if ns.any (fun n => onBay n && (tensorBinds n).any (fun b => match tensorOf s f b.ref with
        | none => false
        | some t => (nodeBays n).any (fun y => (extentFor s f t.bytes y).isNone))) then some (0x1808, 0)
    else if 256 ≤ s.scribe.graphs.length then some (0x1809, 0)
    else if quotaOf s f 8 ≤ (s.scribe.graphs.filter (fun p => p.2.domain = f)).length then some (0x1008, 8)
    else if 131072 < waitEntries s + (ns.map (·.deps.length)).sum then some (0x180A, 0)
    else if ns.any (fun n => bit n.flags 3 && !onBay n) then some (0x1804, 0)
    else if ns.any (fun n => bit n.flags 3 && (nodeBays n).any (fun b => decide (poolSize s b = 0))) then some (0x1E04, 0)
    else none

/-- The graph that an image gives (R252–R256). -/
def graphOf (s : State) (f a : Nat) : Graph :=
  let d := readBytes s a (giBytes (readBytes s a 64))
  { domain := f, nodes := giNodeList d, iterations := fieldU d 40 8,
    compRing := if giComp d < 2 ^ 31 then some (giComp d % 2 ^ 24) else none }

/-- `n` bindings from an address (R256, R344). -/
def bindsAt (s : State) (a : Nat) : Nat → List Bind
  | 0 => []
  | n + 1 => bindEntry (readBytes s a 8) :: bindsAt s (a + 8) n

end Sys2Proof.Machine
end

