-- ==== Sys2Proof/Machine/MbMemory.lean ====
section
/-! DEFINITION. Mailbox commands on memory, tensors, rings and caches (R228–R234, R265–R273, R316–R322, R440, R442, R468–R473, R634). -/

namespace Sys2Proof.Machine
open Sys2Proof

/-- MEM_ALLOC: a zeroed allocation at the lowest address of the place at which it fits (R469, R470, R473, R480, R481). -/
def execMemAlloc (f slot : Nat) (s : State) : Out :=
  .next (immediate f slot 0x0201 (fun s =>
    let op := 0x0201
    let size := param s f slot op 0
    let align := max 12 (param s f slot op 1)
    let place := param s f slot op 2
    let bad := fun i => no 0x1101 (paramOff op i) s
    if size = 0 ∨ (placeOf s place).any (fun p => decide (p.2 < size)) then bad 0
    else if 34 < align then bad 1
    else match placeOf s place with
      | none => bad 2
      | some (base, cap) =>
        let len := ceilDiv size 4096 * 4096
        if quotaOf s f 0 * 2 ^ 20 < memoryUse s f + len then no 0x1008 0 s
        else if 16384 ≤ s.memory.allocs.length then no 0x1008 11 s
        else match findRoom s f base cap len (2 ^ align) with
          | none => no 0x1102 (largestFree s base cap / 2 ^ 20) s
          | some a =>
            let g : Alloc := { len := len, owner := f, priv := bit (param s f slot op 3) 0 }
            ok [r64 a] (zeroRange a len { s with memory.allocs := tput a g s.memory.allocs })) s)

/-- MEM_RELEASE: an allocation that nothing references is freed with its shares, and its memory is to be cleared
(R469, R472, R473). -/
def execMemRelease (f slot : Nat) (s : State) : Out :=
  .next (immediate f slot 0x0202 (fun s =>
    let a := param s f slot 0x0202 0
    match tget a s.memory.allocs with
    | none => no 0x1007 0 s
    | some g =>
      if g.owner ≠ f then no 0x1007 0 s
      else if referenced s a g.len then no 0x1103 0 s
      else ok [] { s with memory.allocs := tdel a s.memory.allocs, memory.zeroing := s.memory.zeroing ++ [(a, g.len)] }) s)

/-- MEM_SHARE: rights on a whole allocation are given to another domain, replaced, or revoked (R471–R473, R481). -/
def execMemShare (f slot : Nat) (s : State) : Out :=
  .next (immediate f slot 0x0203 (fun s =>
    let op := 0x0203
    let a := param s f slot op 0
    let t := param s f slot op 1
    let r := param s f slot op 2 % 4
    match tget a s.memory.allocs with
    | none => no 0x1007 0 s
    | some g =>
      let need := rightsNeeded s t a g.len
      let granule := fun i => windowHolds s t (a + 4096 * i) 4096 (bit r 0) (bit r 1)
      if g.owner ≠ f then no 0x1007 0 s
      else if t < 64 && decide (t ≠ f) && ((need.1 && !bit r 0) || (need.2 && !bit r 1)) then no 0x1103 0 s
      else if 63 < t ∨ t = f then no 0x1105 (paramOff op 1) s
      else if g.priv then no 0x1105 (paramOff op 0) s
      else if t ≠ 0 && decide (r ≠ 0) && !(List.range (g.len / 4096)).all granule then no 0x1105 (paramOff op 2) s
      else
        let put := fun (m : Nat) (b : Bool) => if b then m ||| 2 ^ t else m - (m &&& 2 ^ t)
        ok [] { s with memory.allocs := tput a { g with rmask := put g.rmask (bit r 0), wmask := put g.wmask (bit r 1) } s.memory.allocs }) s)

/-- The acceptance of a host copy: one allocation with the right of its direction, 1 to 2^30 bytes, and a function that may issue
DMA (R421, R442). -/
def startHostCopy (f slot op dev host bytes : Nat) (toDevice : Bool) (iBytes : Nat) (s : State) : Ans ⊕ State :=
  if bytes = 0 ∨ 2 ^ 30 < bytes then .inl (badParam op iBytes s)
  else if !holdsRange s f dev bytes (!toDevice) toDevice then .inl (no 0x1007 0 s)
  else if s.mb.bmeClear.contains f then .inl (no 0x100F 0 (raise 0x0006 (f + 65536 * 0x100F) s))
  else
    let c : HostCopy := { function := f, slot := slot, toDevice := toDevice, device := dev, host := host, bytes := bytes }
    .inr { s with memory.copies := tput (16 * f + slot) c s.memory.copies }

/-- MEM_COPY_IN (R442). -/
def execMemCopyIn (f slot : Nat) (s : State) : Out :=
  if (tget (16 * f + slot) s.memory.copies).isSome then .next s
  else .next (deferred f slot 0x0204 (fun s =>
    startHostCopy f slot 0x0204 (param s f slot 0x0204 1) (param s f slot 0x0204 0) (param s f slot 0x0204 2) true 2 s) s)

/-- MEM_COPY_OUT (R442). -/
def execMemCopyOut (f slot : Nat) (s : State) : Out :=
  if (tget (16 * f + slot) s.memory.copies).isSome then .next s
  else .next (deferred f slot 0x0205 (fun s =>
    startHostCopy f slot 0x0205 (param s f slot 0x0205 0) (param s f slot 0x0205 1) (param s f slot 0x0205 2) false 2 s) s)

/-- COPY_COMPLETE: a host copy ends; a copy in writes what the host gave; a copy out puts zero bytes in place of poisoned words; a
transfer that fails ends it with 0x100F (R442, R468). -/
def execCopyComplete (f slot : Nat) (data : List Byte) (failedAt : Option Nat) (s : State) : Out :=
  match tget (16 * f + slot) s.memory.copies with
  | none => .next s
  | some c =>
    let s' := { s with memory.copies := tdel (16 * f + slot) s.memory.copies }
    match failedAt with
    | some o =>
      let s' := if c.toDevice then writeFree c.device c.bytes s' else s'
      .next (finish f slot 0x100F o [] (raise 0x0006 (f + 65536 * 0x100F) s'))
    | none =>
      if c.toDevice then
        if data.length ≠ c.bytes then .next s
        else .next (finish f slot 0 0 [] (fencedWrite f 0 ⟨c.device, data, false⟩ s'))
      else
        let bad := (wordsOf c.device c.bytes).filter (fun w => poisoned s (8 * w) 1 || !admitLine s f (8 * w / 64 * 64) false)
        let bs := ((readBytes s c.device c.bytes).zipIdx).map (fun p => if bad.contains ((c.device + p.2) / 8) then 0 else p.1)
        let s' := emit (.hostWrite f c.host bs) (noteRead f c.device c.bytes 0 s')
        match bad with
        | [] => .next (finish f slot 0 0 [] s')
        | w :: _ => .next (finish f slot 0x1104 (8 * w - c.device) [] s')

/-! ### Tensors (R228–R234) -/

/-- TENSOR_CREATE: a descriptor that passes its checks takes the lowest free slot (R228–R230, R633). -/
def execTensorCreate (f slot : Nat) (s : State) : Out :=
  .next (immediate f slot 0x0206 (fun s =>
    let a := param s f slot 0x0206 0
    match tensorReject s f a with
    | some st => no st 0 s
    | none =>
      if quotaOf s f 1 ≤ useOf s f 1 then no 0x170B 0 s
      else match tfree s.tensors.table (2 ^ 20 - 1) 1 with
        | none => no 0x170B 0 s
        | some k =>
          let gen := match tget k s.tensors.gens with | none => 0 | some g => (g + 1) % 256
          ok [r32 (k + gen * 2 ^ 20)] { s with
            tensors.gens := tput k gen s.tensors.gens,
            tensors.table := tput k { owner := f, gen := gen, bytes := readBytes s a 256 } s.tensors.table }) s)

/-- A descriptor is bound in a resident graph of its domain, or an indexed descriptor names it (R231). -/
def tensorInUse (s : State) (f h : Nat) : Bool :=
  s.scribe.graphs.any (fun p => decide (p.2.domain = f) &&
    p.2.nodes.any (fun n => n.binds.any (fun b => decide (b.kind < 2) && decide (b.ref = h)))) ||
  s.tensors.table.any (fun p => decide (p.2.owner = f) && tdIndexed p.2.bytes &&
    (decide (tdTarget p.2.bytes = h) || decide (tdIndex p.2.bytes = h)))

/-- TENSOR_DESTROY; a faulted handle is freed as well (R230, R231, R467). -/
def execTensorDestroy (f slot : Nat) (s : State) : Out :=
  .next (immediate f slot 0x0207 (fun s =>
    let h := param s f slot 0x0207 0
    if (heldTensor s f h).isNone then no 0x170C 0 s
    else if tensorInUse s f h then no 0x170D 0 s
    else ok [] { s with tensors.table := tdel (h % 2 ^ 20) s.tensors.table }) s)

/-- TENSOR_QUERY: the extents, and which Bays reach a copy over purlin links (R234, R440). -/
def execTensorQuery (f slot : Nat) (s : State) : Out :=
  .next (immediate f slot 0x0208 (fun s =>
    match tensorOf s f (param s f slot 0x0208 0) with
    | none => no 0x170C 0 s
    | some t =>
      let d := storageOf s f t.bytes
      let remote := ((List.range 4).map (fun b =>
        if tdSharded d then (if bit (tdMask d) b && decide (bayOf (tdBase d b) ≠ b) then 2 ^ b else 0)
        else if bayPresent s b && decide (bayOf (tdBase d 0) ≠ b) then 2 ^ b else 0)).sum
      let entry := fun b =>
        if (tdBays d).contains b then
          let e := extentOf d (tdBase d b) (localShape d b)
          leBytes 8 e.1.toNat ++ leBytes 8 e.2.toNat
        else leBytes 16 0
      ok [r8 remote, rblk ((List.range 4).flatMap entry)] s) s)

/-! ### Rings (R265–R273, R634) -/

/-- RING_CREATE (R265, R634). -/
def execRingCreate (f slot : Nat) (s : State) : Out :=
  .next (immediate f slot 0x0209 (fun s =>
    let op := 0x0209
    let l := param s f slot op 0
    let peg := param s f slot op 2
    let base := param s f slot op 3
    if l < 4 ∨ 20 < l then badParam op 0 s
    else if peg ≠ 0xFFFF ∧ !mayAdd s f peg then no 0x1007 0 s
    else if base % (64 * 2 ^ l) ≠ 0 ∨ !holdsRange s f base (64 * 2 ^ l) true true then badParam op 3 s
    else if quotaOf s f 3 ≤ useOf s f 3 then no 0x1008 3 s
    else match tfree s.scribe.rings 262144 0 with
      | none => no 0x1008 3 s
      | some k =>
        let r : Ring := { owner := f, packet := bit (param s f slot op 1) 0, log2 := l, base := base,
                          peg := if peg = 0xFFFF then none else some peg }
        ok [r32 k] { s with scribe.rings := tput k r s.scribe.rings }) s)

/-- The ring that a command names, if it is the domain's (R437). -/
def ringOwned (s : State) (f k : Nat) : Option Ring := (tget k s.scribe.rings).filter (fun r => decide (r.owner = f))

/-- RING_DESTROY (R634). -/
def execRingDestroy (f slot : Nat) (s : State) : Out :=
  .next (immediate f slot 0x020A (fun s =>
    let k := param s f slot 0x020A 0
    match ringOwned s f k with
    | none => no 0x1007 0 s
    | some r =>
      if ringInUse s k r then no 0x100A 0 s else ok [] { s with scribe.rings := tdel k s.scribe.rings }) s)

/-- RING_QUERY (R265). -/
def execRingQuery (f slot : Nat) (s : State) : Out :=
  .next (immediate f slot 0x020B (fun s =>
    match ringOwned s f (param s f slot 0x020B 0) with
    | none => no 0x1007 0 s
    | some r => ok [rblk (ringBytes r)] s) s)

/-- RING_PUSH: an entry onto a plain ring; `upset` says how the ring's table entry is found damaged (R267, R272). -/
def execRingPush (f slot upset : Nat) (s : State) : Out :=
  .next (immediate f slot 0x020C (fun s =>
    let k := param s f slot 0x020C 0
    if (ringOwned s f k).isNone then no 0x1007 0 s
    else
      let s := upsetRing k upset s
      match ringOwned s f k with
      | none => no 0x1007 0 s
      | some r =>
        if r.packet then no 0x1823 0 s
        else if ringFull r then no 0x1821 0 s
        else ok [] (settle (pushPlain k f 0 (paramBlock s f slot 0x020C 1) s))) s)

/-- RING_POP: the next entry, or 0x1822 where the ring is empty; `bad` lists the words that fail their parity check
(R271–R273). -/
def execRingPop (f slot upset : Nat) (bad : List Nat) (s : State) : Out :=
  .next (immediate f slot 0x020D (fun s =>
    let k := param s f slot 0x020D 0
    if (ringOwned s f k).isNone then no 0x1007 0 s
    else match popEntry k f 0 bad (upsetRing k upset s) with
      | none => no 0x1822 0 (upsetRing k upset s)
      | some (bs, _, s) => ok [rblk bs] s) s)

/-! ### Caches (R316–R322) -/

/-- CACHE_CREATE (R318, R438, R633). -/
def execCacheCreate (f slot : Nat) (s : State) : Out :=
  .next (immediate f slot 0x020E (fun s =>
    let a := param s f slot 0x020E 0
    match cacheReject s f a with
    | some st => no st 0 s
    | none =>
      let c := readBytes s a 256
      let budget := (s.ledger.caches.map (fun p => 2 * cdSlots p.2.bytes)).sum
      if quotaOf s f 6 ≤ useOf s f 6 then no 0x1008 6 s
      else match tfree s.ledger.caches 64 0 with
        | none => no 0x1A34 0 s
        | some k =>
          if 2 ^ 22 < budget + 2 * cdSlots c then no 0x1A34 0 s
          else if !cacheNames s f c then no 0x1A35 0 s
          else ok [r8 k] { s with ledger.caches := tput k { owner := f, bytes := c } s.ledger.caches }) s)

/-- CACHE_DESTROY: a cache without a live sequence that no resident Ledger node names (R318). -/
def execCacheDestroy (f slot : Nat) (s : State) : Out :=
  .next (immediate f slot 0x020F (fun s =>
    let c := param s f slot 0x020F 0
    if (cacheOf s f c).isNone then no 0x1007 0 s
    else if s.ledger.seqs.any (fun p => decide (p.2.cache = c)) || nodeNamesCache s f c then no 0x100A 0 s
    else ok [] (dropCache c s)) s)

/-- LEDGER_QUERY: a sequence entry, or a page record, of the cache (R320, R322). -/
def execLedgerQuery (f slot : Nat) (s : State) : Out :=
  .next (immediate f slot 0x0210 (fun s =>
    let c := param s f slot 0x0210 0
    let what := param s f slot 0x0210 1
    let i := param s f slot 0x0210 2
    if (cacheOf s f c).isNone then no 0x1007 0 s
    else if 1 < what then badParam 0x0210 1 s
    else if what = 0 then
      match (tget i s.ledger.seqs).filter (fun e => decide (e.cache = c)) with
      | none => no 0x1007 0 s
      | some e => ok [rblk (seqBytes e)] s
    else if (pageOf s i).state = .free ∨ (pageOf s i).cache ≠ c then no 0x1007 0 s
    else ok [rblk (pageBytes (pageOf s i))] s) s)

/-- ZEROING_COMPLETE: the oldest freed memory is clear and may be allocated again (R469). -/
def execZeroingComplete (s : State) : Out :=
  match s.memory.zeroing with
  | [] => .next s
  | (a, n) :: rest => .next (zeroRange a n { s with memory.zeroing := rest })

end Sys2Proof.Machine
end

