-- ==== Sys2Proof/Machine/MbGraph.lean ====
section
/-! DEFINITION. Mailbox commands on pegs, waits and graphs, and the registrations of Plumb and Tally (R247–R259, R283, R286, R344, R374,
R440, R441). -/

namespace Sys2Proof.Machine
open Sys2Proof

/-! ### Pegs (R247–R250, R440) -/

/-- The domain owns the peg (R437). -/
def pegOwned (s : State) (f p : Nat) : Bool := (tget p s.scribe.pegs).any (fun x => decide (x.owner = f))

/-- PEG_ALLOC: the lowest free peg, its value 0 and every history slot VALID (R247, R249, R250, R633). -/
def execPegAlloc (f slot : Nat) (s : State) : Out :=
  .next (immediate f slot 0x0301 (fun s =>
    if quotaOf s f 2 ≤ useOf s f 2 then no 0x1008 2 s
    else match tfree s.scribe.pegs 8192 0 with
      | none => no 0x1008 2 s
      | some p => ok [r16 p] { s with scribe.pegs := tput p { owner := f } s.scribe.pegs }) s)

/-- PEG_RELEASE: a peg that no wait entry, guard or mailbox wait refers to is freed (R250). -/
def execPegRelease (f slot : Nat) (s : State) : Out :=
  .next (immediate f slot 0x0302 (fun s =>
    let p := param s f slot 0x0302 0
    if !pegOwned s f p then no 0x1007 0 s
    else if 0 < waiters s p then no 0x1820 0 s
    else ok [] { s with scribe.pegs := tdel p s.scribe.pegs }) s)

/-- PEG_GRANT: the add and wait rights of another domain are given, replaced or revoked (R250). -/
def execPegGrant (f slot : Nat) (s : State) : Out :=
  .next (immediate f slot 0x0303 (fun s =>
    let p := param s f slot 0x0303 0
    let d := param s f slot 0x0303 1
    let r := param s f slot 0x0303 2
    let put := fun (m : Nat) (b : Bool) => if b then m ||| 2 ^ d else m - (m &&& 2 ^ d)
    if !pegOwned s f p then no 0x1007 0 s
    else if 63 < d then badParam 0x0303 1 s
    else ok [] { s with scribe.pegs := tmod p (fun x => { x with addMask := put x.addMask (bit r 0), waitMask := put x.waitMask (bit r 1) }) s.scribe.pegs }) s)

/-- PEG_ADD: an add with a verdict, 3 taken as INVALID; it answers the value after it (R248, R251, R635). -/
def execPegAdd (f slot : Nat) (s : State) : Out :=
  .next (immediate f slot 0x0304 (fun s =>
    let p := param s f slot 0x0304 0
    let v := param s f slot 0x0304 1
    let a := param s f slot 0x0304 2
    if 3 < v then badParam 0x0304 1 s
    else if a = 0 ∨ 2 ^ 30 ≤ a then badParam 0x0304 2 s
    else if !mayAdd s f p then no 0x1007 0 s
    else
      let frozen := (tget p s.scribe.pegs).any (fun x => quiescedDomain s x.owner)
      let after := if frozen then pegValue s p else min pegMax (pegValue s p + a)
      ok [r64 after] (pegAdd p a (min 2 v) s)) s)

/-- PEG_SET: a new value, every history slot VALID, of a peg that nothing refers to (R250). -/
def execPegSet (f slot : Nat) (s : State) : Out :=
  .next (immediate f slot 0x0305 (fun s =>
    let p := param s f slot 0x0305 0
    if !pegOwned s f p then no 0x1007 0 s
    else if 0 < waiters s p then no 0x1820 0 s
    else ok [] (setPeg p (param s f slot 0x0305 1) s)) s)

/-- PEG_READ: the value, and the history with slot j in bits [2j + 1:2j] (R249, R440). -/
def execPegRead (f slot : Nat) (s : State) : Out :=
  .next (immediate f slot 0x0306 (fun s =>
    let p := param s f slot 0x0306 0
    match tget p s.scribe.pegs with
    | none => no 0x1007 0 s
    | some x =>
      if !mayWait s f p && !mayAdd s f p then no 0x1007 0 s else ok [r64 x.value, rblk (leBytes 16 x.hist)] s) s)

/-! ### Mailbox waits (R441) -/

/-- A synchronous wait of a slot holds an entry. -/
def slotWaits (s : State) (f slot : Nat) : Bool :=
  s.mb.waits.any (fun w => !w.2.async && decide (w.1 / 64 = f) && decide (w.2.slot = slot))

/-- PEG_WAIT: takes the lowest free wait entry; a target already reached is handled at once (R251, R254, R441). -/
def execPegWait (f slot : Nat) (s : State) : Out :=
  if slotWaits s f slot then .next s
  else .next (deferred f slot 0x0307 (fun s =>
    let op := 0x0307
    let p := param s f slot op 0
    let async := bit (param s f slot op 1) 0
    let vec := param s f slot op 2
    let target := param s f slot op 3
    let us := param s f slot op 4
    if !mayWait s f p then .inl (no 0x1007 0 s)
    else if async && decide (31 < vec) && decide (vec ≠ 0xFF) then .inl (badParam op 2 s)
    else match tfree s.mb.waits 64 (64 * f), tget p s.scribe.pegs with
      | some key, some pg =>
        let w : MbWait := { peg := p, target := target, async := async, vector := vec, slot := slot,
                            deadline := if us = 0 then none else some (s.ridge.ns + 1000 * us) }
        let s := { s with mb.waits := tput key w s.mb.waits }
        let s := if target ≤ pg.value then reachWait key w pg s else s
        if async then .inl (ok [r8 (key % 64)] s) else .inr s
      | _, _ => .inl (no 0x1008 10 s)) s)

/-- A wait ends without having been reached: state 2 timed out or 3 cancelled (R441). -/
def endWait (key st : Nat) (w : MbWait) (s : State) : State :=
  { s with mb.waits := tput key { w with state := st } s.mb.waits }

/-- WAIT_TIMEOUT: a wait that is still waiting passes its timeout (R441). -/
def execWaitTimeout (f wait : Nat) (s : State) : Out :=
  let key := 64 * f + wait % 64
  match tget key s.mb.waits with
  | none => .next s
  | some w =>
    if w.state ≠ 0 || !w.deadline.any (fun t => decide (t ≤ s.ridge.ns)) then .next s
    else
      let s := endWait key 2 w s
      if w.async then .next (if w.vector = 0xFF then notice f 8 s else msix f w.vector (notice f 8 s))
      else if s.mb.foremanUp then .next (answer f w.slot 0x100C 0 [] { s with mb.waits := tdel key s.mb.waits })
      else .next s

/-- WAIT_QUERY: reports a wait, after a cancel that ends one still waiting; a state that is final is read once (R441). -/
def execWaitQuery (f slot : Nat) (s : State) : Out :=
  .next (immediate f slot 0x0308 (fun s =>
    let n := param s f slot 0x0308 0
    let key := 64 * f + n
    match if n < 64 then tget key s.mb.waits else none with
    | none => no 0x1007 0 s
    | some w =>
      let report := fun (st : Nat) (s : State) => ok [r8 st, r64 w.value, r8 w.verdict] s
      if w.state = 0 then
        if bit (param s f slot 0x0308 1) 0 then
          let s := { s with mb.waits := tdel key s.mb.waits }
          report 3 (if w.async then s else answer f w.slot 0x100B 0 [] s)
        else report 0 s
      else report w.state { s with mb.waits := tdel key s.mb.waits }) s)

/-! ### Graphs (R252–R259, R283, R286) -/

/-- GRAPH_LOAD: an image that passes its checks becomes resident in the lowest free slot, stopped (R251–R258). -/
def execGraphLoad (f slot : Nat) (s : State) : Out :=
  .next (immediate f slot 0x0309 (fun s =>
    let a := param s f slot 0x0309 0
    match graphReject s f a with
    | some (st, d) => no st d s
    | none => match tfree s.scribe.graphs 256 0 with
      | none => no 0x1809 0 s
      | some g => ok [r8 g] { s with scribe.graphs := tput g (graphOf s f a) s.scribe.graphs }) s)

/-- The resident graph that a command names, if it is the domain's (R437). -/
def graphOwned (s : State) (f g : Nat) : Option Graph := (tget g s.scribe.graphs).filter (fun x => decide (x.domain = f))

/-- GRAPH_START: at once, or staged for the next mode change; refused where the graph is started or a start is staged (R258, R286). -/
def execGraphStart (f slot : Nat) (s : State) : Out :=
  .next (immediate f slot 0x030A (fun s =>
    let g := param s f slot 0x030A 0
    let staged := bit (param s f slot 0x030A 1) 0
    let t0 := param s f slot 0x030A 2
    if staged && changing s then no 0x1009 (rd s RIDGE_EPOCH_STATE) s
    else match graphOwned s f g with
      | none => no 0x1007 0 s
      | some x =>
        if x.started || x.stagedStart.isSome then no 0x100A 0 s
        else if staged then ok [] { s with scribe.graphs := tput g { x with stagedStart := some t0 } s.scribe.graphs }
        else ok [] (startGraph g t0 s)) s)

/-- GRAPH_STOP: at once, or staged for the next mode change (R259, R286). -/
def execGraphStop (f slot : Nat) (s : State) : Out :=
  .next (immediate f slot 0x030B (fun s =>
    let g := param s f slot 0x030B 0
    let staged := bit (param s f slot 0x030B 1) 0
    if staged && changing s then no 0x1009 (rd s RIDGE_EPOCH_STATE) s
    else match graphOwned s f g with
      | none => no 0x1007 0 s
      | some x =>
        if staged then ok [] { s with scribe.graphs := tput g { x with stagedStop := true } s.scribe.graphs }
        else ok [] (settle (stopGraph g s))) s)

/-- GRAPH_ABORT: running instances end with 0x1607, unresolved ones are discarded, and the graph is stopped (R259). -/
def execGraphAbort (f slot : Nat) (s : State) : Out :=
  .next (immediate f slot 0x030C (fun s =>
    let g := param s f slot 0x030C 0
    if (graphOwned s f g).isNone then no 0x1007 0 s else ok [] (abortGraph g s)) s)

/-- GRAPH_UNLOAD: a stopped graph with no instance left frees its slot and its wait entries (R259). -/
def execGraphUnload (f slot : Nat) (s : State) : Out :=
  .next (immediate f slot 0x030D (fun s =>
    let g := param s f slot 0x030D 0
    match graphOwned s f g with
    | none => no 0x1007 0 s
    | some x =>
      if x.started || s.scribe.insts.any (fun p => decide (p.2.graph = g)) then no 0x100A 0 s
      else ok [] { s with scribe.graphs := tdel g s.scribe.graphs }) s)

/-- GRAPH_QUERY: whether the graph is started, its instances by state, and those that have reached DONE since the start (R283). -/
def execGraphQuery (f slot : Nat) (s : State) : Out :=
  .next (immediate f slot 0x030E (fun s =>
    let g := param s f slot 0x030E 0
    match graphOwned s f g with
    | none => no 0x1007 0 s
    | some x =>
      let states := [IState.waiting, .ready, .provReady, .running, .provRunning, .provDone, .committing, .discarding, .skipped]
      ok (r8 (b2n x.started) :: states.map (fun st => r32 (countState s (some g) st)) ++ [r32 x.done, r32 0]) s) s)

/-! ### Registrations of Plumb and Tally (R344, R374) -/

/-- The registration that stands for a slot once the staging is applied (R344, R368). -/
def slotNext (staged : Tab (Option CycleSlot)) (slots : Tab CycleSlot) (k : Nat) : Option CycleSlot :=
  match tget k staged with
  | some c => c
  | none => tget k slots

/-- The registration that the parameters of PLUMB_REGISTER or TALLY_REGISTER give, or a refusal: `top` slots, and `unread` where the
bindings cannot be read (R256, R344, R374). -/
def registration (s : State) (f slot op top unread : Nat) : Ans ⊕ (Nat × CycleSlot) :=
  let k := param s f slot op 0
  let prio := param s f slot op 1
  let peg := param s f slot op 2
  let binds := param s f slot op 5
  let n := param s f slot op 6
  if top ≤ k then .inl (badParam op 0 s)
  else if 7 < prio then .inl (badParam op 1 s)
  else if !mayAdd s f peg then .inl (no 0x1007 0 s)
  else if 64 < n then .inl (badParam op 6 s)
  else if 0 < n && !readable s f binds (8 * n) then .inl (no unread 0 s)
  else .inr (k, { owner := f, desc := param s f slot op 4, binds := bindsAt s binds n, priority := prio, peg := peg,
                  amount := param s f slot op 3 })

/-- PLUMB_REGISTER: the registration of a problem slot is staged (R344, R368, R438). -/
def execPlumbRegister (f slot : Nat) (s : State) : Out :=
  .next (immediate f slot 0x030F (fun s =>
    match registration s f slot 0x030F 64 0x1B02 with
    | .inl a => a
    | .inr (k, c) =>
      match slotNext s.plumb.staged s.plumb.slots k with
      | some old =>
        if old.owner ≠ f then no 0x100A 0 s else ok [] { s with plumb.staged := tput k (some c) s.plumb.staged }
      | none =>
        if quotaOf s f 7 ≤ useOf s f 7 then no 0x1008 7 s
        else ok [] { s with plumb.staged := tput k (some c) s.plumb.staged }) s)

/-- PLUMB_RELEASE: the release of a problem slot is staged (R344, R368). -/
def execPlumbRelease (f slot : Nat) (s : State) : Out :=
  .next (immediate f slot 0x0310 (fun s =>
    let k := param s f slot 0x0310 0
    if 63 < k then badParam 0x0310 0 s
    else if (slotNext s.plumb.staged s.plumb.slots k).any (fun c => decide (c.owner = f)) then
      ok [] { s with plumb.staged := tput k none s.plumb.staged }
    else no 0x1007 0 s) s)

/-- TALLY_REGISTER: the registration of a cycle configuration is staged (R374, R393). -/
def execTallyRegister (f slot : Nat) (s : State) : Out :=
  .next (immediate f slot 0x0311 (fun s =>
    match registration s f slot 0x0311 16 0x1C03 with
    | .inl a => a
    | .inr (k, c) => ok [] { s with tally.staged := tput k (some c) s.tally.staged }) s)

/-- TALLY_RELEASE: the release of a cycle configuration is staged (R374, R393). -/
def execTallyRelease (f slot : Nat) (s : State) : Out :=
  .next (immediate f slot 0x0312 (fun s =>
    let k := param s f slot 0x0312 0
    if 15 < k then badParam 0x0312 0 s
    else if (slotNext s.tally.staged s.tally.slots k).isSome then ok [] { s with tally.staged := tput k none s.tally.staged }
    else no 0x1007 0 s) s)

end Sys2Proof.Machine
end

