-- ==== Sys2Proof/Machine/MbSensors.lean ====
section
/-! DEFINITION. Mailbox commands that stage or command the sensor infeed and the unit descriptors (R90, R92, R115, R118, R120, R133,
R134, R138, R140, R142, R173, R291, R372, R440). -/

namespace Sys2Proof.Machine
open Sys2Proof

/-- A word of a staged configuration takes its place in the register that shows it, by the rules of its fields, and is in force from
the next mode change; the words named in R142 take effect at once (R86, R142, R440). -/
def stageWord (a v : Nat) (s : State) : State :=
  match findRow a with
  | none => s
  | some r => postWrite a (wr (regAt a) (wordWrite r.flds false (rd s (regAt a)) ((valueRule s a v).getD v) []).1 s)

/-- Words staged one after another from an address. -/
def stageWords (a : Nat) : List Nat → State → State
  | [], s => s
  | v :: r, s => stageWords (a + 4) r (stageWord a v s)

/-- The 32-bit words of a block. -/
def wordsIn (b : List Byte) : List Nat := (List.range (b.length / 4)).map (fun i => fieldU b (4 * i) 4)

/-- The number of bytes in transmission order: a MAC address. -/
def beNat (b : List Byte) : Nat := b.foldl (fun n x => 256 * n + x.toNat) 0

/-- A staged configuration that is rejected; NETIN has no error register, so detail is 0 (R436). -/
def rejected100D (detail : Nat) (s : State) : Ans := no 0x100D detail s

/-- CAM_STAGE: a camera port's configuration is checked and staged; its words at +0x04, +0x08 and +0x0C are ignored (R103, R115). -/
def execCamStage (f slot : Nat) (s : State) : Out :=
  .next (immediate f slot 0x0401 (fun s =>
    let n := param s f slot 0x0401 0
    let w := wordsIn (paramBlock s f slot 0x0401 1)
    let a := 0x21000 + 0x100 * n
    if 15 < n then badParam 0x0401 0 s
    else if camCause w ≠ 0 then rejected100D (camCause w) s
    else ok [] (stageWords (a + 16) (w.drop 4) (stageWord a (w.getD 0 0) s))) s)

/-- CAM_POWER: POC_CTRL is written, and the port's status answered (R92). -/
def execCamPower (f slot : Nat) (s : State) : Out :=
  .next (immediate f slot 0x0402 (fun s =>
    let n := param s f slot 0x0402 0
    if 15 < n then badParam 0x0402 0 s
    else
      let s := putPocCtrl n (param s f slot 0x0402 1) s
      ok [r32 (rd s (CAMIN_POC_STATUS n))] s) s)

/-- CAM_CONTROL: a control access leaves over the back channel, to be answered at the camera's reply (R90). -/
def execCamControl (f slot : Nat) (s : State) : Out :=
  if (tget (16 * f + slot) s.cam.control).isSome then .next s
  else .next (deferred f slot 0x0403 (fun s =>
    let op := 0x0403
    let p := fun i => param s f slot op i
    if 15 < p 0 then .inl (badParam op 0 s)
    else if p 3 < 1 ∨ 4 < p 3 then .inl (badParam op 3 s)
    else if p 5 < 1 ∨ 32 < p 5 then .inl (badParam op 5 s)
    else
      let req := leBytes 1 (p 1) ++ leBytes 1 (p 2) ++ leBytes 1 (p 3) ++ leBytes 4 (p 4) ++ leBytes 1 (p 5) ++
        (if p 1 = 0 then [] else (paramBlock s f slot op 6).take (p 5))
      .inr (emit (.camControl (p 0) req) { s with cam.control := tput (16 * f + slot) (p 0) s.cam.control })) s)

/-- CAM_CONTROL_REPLY: the reply of a camera whose link is up answers the access that waits; a read gives len bytes, and the block's
other bytes are 0 (R90, R440). -/
def execCamControlReply (f slot : Nat) (data : List Byte) (s : State) : Out :=
  match tget (16 * f + slot) s.cam.control with
  | none => .next s
  | some n =>
    if !camUp s n || !s.mb.foremanUp then .next s
    else
      let len := if param s f slot 0x0403 1 = 0 then param s f slot 0x0403 5 else 0
      let body := data.take len
      .next (finish f slot 0 0 [rblk (body ++ List.replicate (32 - body.length) 0)] { s with cam.control := tdel (16 * f + slot) s.cam.control })

/-- NET_PORT_STAGE: an Ethernet port's words (R118, R142). -/
def execNetPortStage (f slot : Nat) (s : State) : Out :=
  .next (immediate f slot 0x0404 (fun s =>
    let op := 0x0404
    let n := param s f slot op 0
    let a := 0x31000 + 0x100 * n
    if 13 < n then badParam op 0 s
    else ok [] (stageWords (a + 8) ((List.range 10).map (fun i => param s f slot op (2 + i))) (stageWord a (param s f slot op 1) s))) s)

/-- FWD_WRITE: an entry of the forwarding table is staged, or removed where valid is 0 (R118). -/
def execFwdWrite (f slot : Nat) (s : State) : Out :=
  .next (immediate f slot 0x0405 (fun s =>
    let op := 0x0405
    let i := param s f slot op 0
    if 1023 < i then badParam op 0 s
    else if param s f slot op 1 = 0 then ok [] { s with net.staged.fwd := tdel i s.net.staged.fwd }
    else
      let e : Fwd := { vid := param s f slot op 2 % 4096, mask := param s f slot op 3 % 2 ^ 14,
                       mac := beNat ((paramBlock s f slot op 4).take 6) }
      ok [] { s with net.staged.fwd := tput i e s.net.staged.fwd }) s)

/-- SCAN_STAGE: a scanner port's words and its source MAC address (R121, R142). -/
def execScanStage (f slot : Nat) (s : State) : Out :=
  .next (immediate f slot 0x0406 (fun s =>
    let op := 0x0406
    let n := param s f slot op 0
    if 7 < n then badParam op 0 s
    else
      let s := { s with net.staged.macs := tput n (beNat ((paramBlock s f slot op 8).take 6)) s.net.staged.macs }
      ok [] (stageWords (0x32000 + 0x100 * n) ((List.range 7).map (fun i => param s f slot op (1 + i))) s)) s)

/-- A signal map entry that is rejected: its version, a kind of the reference IMU or not in the table, or a length outside 1–32
(R134). -/
def signalRejected (b : List Byte) : Bool :=
  decide (fieldU b 0 1 ≠ 1) || !([1, 2, 3, 4, 5, 6, 0x0F].contains (fieldU b 2 1)) || decide (fieldU b 10 1 < 1) || decide (32 < fieldU b 10 1)

/-- SIGNAL_MAP_WRITE (R134). -/
def execSignalMapWrite (f slot : Nat) (s : State) : Out :=
  .next (immediate f slot 0x0407 (fun s =>
    let b := paramBlock s f slot 0x0407 1
    if signalRejected b then rejected100D 0 s
    else ok [] { s with net.staged.signals := tput (param s f slot 0x0407 0) b s.net.staged.signals }) s)

/-- CAN_STAGE: a channel's control word (R133, R142). -/
def execCanStage (f slot : Nat) (s : State) : Out :=
  .next (immediate f slot 0x0408 (fun s =>
    let c := param s f slot 0x0408 0
    if 3 < c then badParam 0x0408 0 s else ok [] (stageWord (0x30400 + 0x100 * c) (param s f slot 0x0408 1) s)) s)

/-- A transmit slot that is rejected: its version, a field out of range, a time outside the data, or slot 14 with time_mode 2
(R138). -/
def canSlotRejected (k : Nat) (b : List Byte) : Bool :=
  let mode := fieldU b 2 1
  decide (fieldU b 0 1 ≠ 1) || decide (2 < fieldU b 1 1) || decide (2 < mode) || decide (64 < fieldU b 8 2) ||
    (decide (mode ≠ 0) && decide (fieldU b 8 2 < fieldU b 3 1 + 8)) || (decide (k = 14) && decide (mode = 2))

/-- CAN_SLOT_WRITE (R138). -/
def execCanSlotWrite (f slot : Nat) (s : State) : Out :=
  .next (immediate f slot 0x0409 (fun s =>
    let op := 0x0409
    let c := param s f slot op 0
    let k := param s f slot op 1
    let b := paramBlock s f slot op 2
    if 3 < c then badParam op 0 s
    else if 14 < k then badParam op 1 s
    else if canSlotRejected k b then rejected100D 0 s
    else ok [] { s with net.staged.canSlots := tput (16 * c + k) b s.net.staged.canSlots }) s)

/-- IMU_STAGE: the words of the reference IMU, the mounting and the cross-check (R139–R142). -/
def execImuStage (f slot : Nat) (s : State) : Out :=
  .next (immediate f slot 0x040A (fun s =>
    let p := fun i => param s f slot 0x040A i
    let s := stageWord 0x30900 (p 0) s
    let s := stageWords 0x30910 [p 1, p 2, p 3, p 4] s
    ok [] (stageWords 0x30930 [p 8, p 9] (stageWords 0x30920 [p 5, p 6, p 7] s))) s)

/-- UNIT_STAGE: a Planer, Raft or Tally descriptor is checked and staged; a rejection gives the unit's error register
(R173, R174, R291, R293, R372). -/
def execUnitStage (f slot : Nat) (s : State) : Out :=
  .next (immediate f slot 0x040B (fun s =>
    let a := param s f slot 0x040B 1
    let put := fun (r : Nat × State) => if r.1 = 0 then ok [] r.2 else rejected100D r.1 r.2
    match param s f slot 0x040B 0 with
    | 2 => put (planerStage a s)
    | 3 => put (raftStage a s)
    | 5 => put (tallyStage a s)
    | _ => badParam 0x040B 0 s) s)

/-- GCL_WRITE: entries of a port's administrative list are written at once, unless a change is pending (R120). -/
def execGclWrite (f slot : Nat) (s : State) : Out :=
  .next (immediate f slot 0x040C (fun s =>
    let op := 0x040C
    let p := param s f slot op 0
    let first := param s f slot op 1
    let n := param s f slot op 2
    if 11 < p then badParam op 0 s
    else if 255 < first then badParam op 1 s
    else if n < 1 ∨ 12 < n ∨ 256 < first + n then badParam op 2 s
    else if bit (rd s (NETIN_GCL_STATUS p)) 0 then no 0x100A 0 s
    else ok [] (stageWords (0x38000 + 0x800 * p + 8 * first) ((wordsIn (paramBlock s f slot op 3)).take (2 * n)) s)) s)

end Sys2Proof.Machine
end

