-- ==== Sys2Proof/Machine/MbStreams.lean ====
section
/-! DEFINITION. Mailbox commands on output streams and the vehicle link (R397, R408, R415, R440). -/

namespace Sys2Proof.Machine
open Sys2Proof

/-- A stream that nobody opened and that is not enabled (R397, R633). -/
def streamFree (s : State) (k : Nat) : Bool := (stream s k).owner.isNone && !(stream s k).enabled

/-- The stream is the domain's: the one that opened it, or the owner domain for one configured through BAR0 (R397). -/
def streamOwned (s : State) (f k : Nat) : Bool :=
  decide (k < 32) && (decide ((stream s k).owner = some f) || (decide (f = 0) && (stream s k).owner.isNone && (stream s k).enabled))

/-- STREAM_OPEN (R397, R438, R633). -/
def execStreamOpen (f slot : Nat) (s : State) : Out :=
  .next (immediate f slot 0x0601 (fun s =>
    let k := param s f slot 0x0601 0
    let open_ := fun (k : Nat) => ok [r8 k] (modStream k (fun x => { x with owner := some f, hostRing := none, hdr := {}, stagedHdr := {}, prevHdr := {} }) s)
    if 31 < k ∧ k ≠ 0xFF then badParam 0x0601 0 s
    else if quotaOf s f 5 ≤ useOf s f 5 then no 0x1008 5 s
    else if k ≠ 0xFF then (if streamFree s k then open_ k else no 0x100A 0 s)
    else match (List.range 32).find? (streamFree s) with
      | none => no 0x1008 5 s
      | some k => open_ k) s)

/-- STREAM_STAGE: a stream's words and header fields are staged (R397). -/
def execStreamStage (f slot : Nat) (s : State) : Out :=
  .next (immediate f slot 0x0602 (fun s =>
    let op := 0x0602
    let p := fun i => param s f slot op i
    let mac := fun i => beNat ((paramBlock s f slot op i).take 6)
    let k := p 0
    if 31 < k then badParam op 0 s
    else if !streamOwned s f k then no 0x1007 0 s
    else
      let h : WireHdr := { dst := mac 13, src := mac 14, pcpVid := p 15, ipSrc := p 16, ipDst := p 17, dscp := p 18, ttl := p 19,
                           udpSrc := p 20, udpDst := p 21 }
      ok [] (stageWords (0x33000 + 0x40 * k) ((List.range 12).map (fun i => p (1 + i))) (modStream k (fun x => { x with stagedHdr := h }) s))) s)

/-- STREAM_HOST_RING: the host ring of a stream is registered, or unregistered where slots_host is 0 (R408). -/
def execStreamHostRing (f slot : Nat) (s : State) : Out :=
  .next (immediate f slot 0x0603 (fun s =>
    let op := 0x0603
    let p := fun i => param s f slot op i
    let k := p 0
    if 31 < k then badParam op 0 s
    else if !streamOwned s f k then no 0x1007 0 s
    else if p 1 = 0 then ok [] (modStream k (fun x => { x with hostRing := none }) s)
    else if p 2 = 0 ∨ p 2 % 4096 ≠ 0 ∨ 2 ^ 26 < p 2 then badParam op 2 s
    else if p 3 < 2 ∨ 1024 < p 3 then badParam op 3 s
    else if p 6 < 2 ∨ 31 < p 6 then badParam op 6 s
    else
      let r : HostRing := { slotsHost := p 1, slotBytes := p 2, slots := p 3, compHost := p 4, consumeHost := p 5, vector := p 6 }
      ok [] (modStream k (fun x => { x with hostRing := some r }) s)) s)

/-- STREAM_CLOSE: the closing of a stream is staged (R397). -/
def execStreamClose (f slot : Nat) (s : State) : Out :=
  .next (immediate f slot 0x0604 (fun s =>
    let k := param s f slot 0x0604 0
    if 31 < k then badParam 0x0604 0 s
    else if !streamOwned s f k then no 0x1007 0 s
    else ok [] (modStream k (fun x => { x with closing := true }) s)) s)

/-- STREAM_QUERY: status and counters, read without being cleared (R440). -/
def execStreamQuery (f slot : Nat) (s : State) : Out :=
  .next (immediate f slot 0x0605 (fun s =>
    let k := param s f slot 0x0605 0
    if 31 < k then badParam 0x0605 0 s
    else if !streamOwned s f k then no 0x1007 0 s
    else ok [r32 (rd s (NETIN_OUT_STATUS k)), r32 (rd s (NETIN_OUT_SENT k)), r32 (rd s (NETIN_OUT_MISS k)), r32 (rd s (NETIN_OUT_DROP k))] s) s)

/-- VLINK_SET: VLINK_ID and VLINK_CTRL are written at once, unless they are locked (R415, R489, R555). -/
def execVlinkSet (f slot : Nat) (s : State) : Out :=
  .next (immediate f slot 0x0606 (fun s =>
    if bit (rd s NETIN_VLINK_CTRL) 31 then no 0x100E 0 s
    else ok [] (putVlinkCtrl (param s f slot 0x0606 0) (acceptWrite NETIN_VLINK_ID.addr (param s f slot 0x0606 1) [] s))) s)

end Sys2Proof.Machine
end

