-- ==== Sys2Proof/Machine/Planer.lean ====
section
/-! DEFINITION. Commands of the Planer: ingest, the pose at t_ref, the release of a slice and the voxel frame (chapter 5). -/

namespace Sys2Proof.Machine
open Sys2Proof

/-- A synthetic block ends: its CRC-32 is compared with that of its seed, and a mismatch flags the sweep and is reported
(R132, R145). -/
def blockEnds (port : Nat) (recs : List (List Byte)) (s : State) : State :=
  let n := tgetD port 0 s.plan.blockNo
  let want := synthBlock port n
  let pass := decide (recs.length = 8) && decide (crc32 recs.flatten = crc32 want.flatten)
  let s := { s with plan.blockNo := tput port ((n + 1) % 2 ^ 24) s.plan.blockNo, plan.block := tdel port s.plan.block,
                    plan.checks := (s.plan.checks.filter (fun c => decide (s.ridge.ns < c.1 + 1000000000))) ++ [(s.ridge.ns, port, pass)] }
  let s := inc PLANER_SYNTH_BLOCKS s
  let s := modSweep port (fun w => { w with blocks := w.blocks + 1, synthFail := w.synthFail || !pass }) s
  if pass then s
  else fault 4 (raise 0x3020 port (incFld (NETIN_SYNTH port) 15 0 1 (inc PLANER_SYNTH_FAIL s)))

/-- The oldest ingest record is taken: synthetic ones go to the block check, the others through the tests of R146. -/
def takeIngest (x : IngestRec) (s : State) : State :=
  let open_ := tgetD x.port [] s.plan.block
  let fl := fieldU x.point 14 1
  if bit fl 0 then
    let recs := open_ ++ [x.point]
    if recs.length = 8 then blockEnds x.port recs s else { s with plan.block := tput x.port recs s.plan.block }
  else
    let s := if open_.isEmpty then s else blockEnds x.port open_ s
    let ord := tgetD x.port 0 s.plan.ord
    let s := inc PLANER_POINTS_IN { s with plan.ord := tput x.port ((ord + 1) % 2 ^ 64) s.plan.ord }
    let range := fieldU x.point 0 4
    let ret := if 2 < fieldU x.point 13 1 then 0 else fieldU x.point 13 1
    let now := s.ridge.ns
    match gridOf s x.t with
    | none =>
      if range = 0 then inc PLANER_NO_RETURN s
      else if !bit (fieldU s.plan.live 2 1) x.port || !bit (fieldU s.plan.live 3 1) ret then inc PLANER_NOT_USED s
      else
        inc (if pastGrid s x.t then PLANER_LATE_POINTS else PLANER_OUT_OF_EPOCH) s
    | some (d, n) =>
      let live_ := decide (now ≤ gridClose d n)
      let e := gridAt s d n
      let e := if live_ then { e with pointsIn := e.pointsIn + 1 } else e
      let filt := fun (r : Reg) => inc r (if live_ then putGrid d n { e with filtered := e.filtered + 1 } s else s)
      let k := (x.t - gridStart d n) / max 1 (pdSlice d)
      if range = 0 then filt PLANER_NO_RETURN
      else if !bit (fieldU d 2 1) x.port || !bit (fieldU d 3 1) ret then filt PLANER_NOT_USED
      else if !live_ then inc PLANER_LATE_POINTS s
      else if sliceClose d n k < now then inc PLANER_LATE_POINTS (putGrid d n { e with late := e.late + 1 } s)
      else
        let raw := vehiclePoint d x.port range (fieldU x.point 4 2) (fieldU x.point 6 2)
        let v := raw.map (satSigned 32)
        if inBody d v then filt PLANER_SELF_HITS
        else
          let p : PlanPoint := { slice := k, xyz := v, range := range, t := x.t, port := x.port, ord := ord,
                                 intensity := fieldU x.point 12 1, ret := ret, saturated := bit fl 1, far := outsideS32 raw }
          let s := putGrid d n { e with buffer := e.buffer ++ [p] } s
          let used := (s.plan.epochs.map (fun q => q.2.buffer.length)).sum
          setFld PLANER_BUF_PEAK 24 0 (max (fld s PLANER_BUF_PEAK 24 0) used) s

/-- PLANER_INGEST: the oldest record on its way to the Planer arrives (R144–R146). -/
def execPlanerIngest (s : State) : Out :=
  match s.ingest with
  | [] => .next s
  | x :: rest => .next (takeIngest x { s with ingest := rest })

/-- POSE_REF_FIX: the pose at t_ref of grid epoch `n` is fixed once (R155). -/
def execPoseRefFix (n : Nat) (s : State) : Out :=
  match segWith n (fun e => e.pose.isNone) s with
  | none => .next s
  | some g =>
    let d := g.desc
    let e := gridAt s d n
    let s := countPoseRejects d s
    let l := usablePoses s d
    let tRef := gridRef d n
    let due := l.any (fun r => decide (tRef ≤ r.t)) ||
      (decide (sliceClose d n 0 + pdWait d < s.ridge.ns) && decide (tRef ≤ s.ridge.ns))
    if !due then .next (setFld PLANER_STATE 2 2 1 s)
    else
      let p := poseAt l (pdExtrap d) tRef
      .next (setFld PLANER_STATE 2 2 0 (putGrid d n { e with pose := some p, flags := e.flags ||| howFlag p.how } s))

/-- SLICE_RELEASE: the next slice of grid epoch `n` is moved to t_ref and its points enter the voxel table, port by port
(R150, R154, R156–R165). -/
def execSliceRelease (n : Nat) (s : State) : Out :=
  match s.plan.segs.find? (fun g => inSeg g n && decide ((gridAt s g.desc n).next < gridSlices g.desc)) with
  | none => .next s
  | some g =>
    let d := g.desc
    let e := gridAt s d n
    let k := e.next
    let s := countPoseRejects d s
    let close := sliceClose d n k
    match e.pose with
    | none => .next s
    | some ref =>
      let written := (poseWhole s (fieldU d 120 8) (fieldU d 128 2)).any (fun r => decide (sliceTime d n k ≤ r.t))
      if decide (s.ridge.ns ≤ close) || (!written && decide (s.ridge.ns ≤ close + pdWait d)) then .next s
      else
        let ps := poseAt (usablePoses s d) (pdExtrap d) (sliceTime d n k)
        let (m, tr) := sliceMove ref ps
        let pts := (List.range 8).flatMap (fun p => e.buffer.filter (fun x => decide (x.slice = k) && decide (x.port = p)))
        let e := { e with buffer := e.buffer.filter (fun x => decide (x.slice ≠ k)), next := k + 1, flags := e.flags ||| howFlag ps.how }
        let (e, s) := pts.foldl (fun (a : GridEpoch × State) x =>
          let raw := ((matVec m x.xyz).zip tr).map (fun q => q.1 + q.2)
          let v := raw.map (satSigned 32)
          match if x.far || outsideS32 raw then none else voxelIndex d v with
          | none => ({ a.1 with filtered := a.1.filtered + 1 }, inc PLANER_OUT_OF_GRID a.2)
          | some i => (admitPoint d i { x with xyz := v, moved := decide (ps.how ≠ 0) } a.1, a.2)) (e, s)
        .next (putGrid d n e s)

/-- The bytes of the bitmap that have a marked index, written to the bitmap area after it is cleared (R165). -/
def writeBitmap (d : List Byte) (n : Nat) (marked : List Nat) (s : State) : State :=
  let base := fieldU d 144 8 + (n % 2) * pdBitmap d
  marked.foldl (fun s v => writeBytes (base + v / 8) [memGet s (base + v / 8) ||| BitVec.ofNat 8 (2 ^ (v % 8))] s)
    (zeroRange base (pdBitmap d) s)

/-- VOXEL_FRAME_EMIT: every slice of the oldest grid epoch has been processed; the frame is written, then its record is pushed
and frame_peg incremented (R166–R170). -/
def execVoxelFrameEmit (s : State) : Out :=
  match s.plan.segs with
  | [] => .next s
  | g :: _ =>
    let d := g.desc
    let n := g.first
    let e := gridAt s d n
    if decide (e.next < gridSlices d) || !inSeg g n then .next s
    else
      let tRef := gridRef d n
      let e0 := gridStart d n
      let close := gridClose d n
      let kept := e.table.map (·.2.2)
      let contrib := (List.range 8).filter (fun p => kept.any (fun x => decide (x.port = p)))
      let inWin := s.plan.checks.filter (fun c => decide (e0 ≤ c.1) && decide (c.1 ≤ close))
      let mask := fun (l : List Nat) => (l.map (2 ^ ·)).sum
      let synth := mask ((List.range 8).filter (fun p => inWin.any (fun c => decide (c.2.1 = p) && !c.2.2)))
      let ung := mask (contrib.filter (fun p => !inWin.any (fun c => decide (c.2.1 = p))))
      let merged := (e.table.map (fun x => x.2.1 - 1)).sum
      let fl := e.flags ||| b2n (decide (0 < e.dropped) || decide (0 < e.cells)) ||| 2 * b2n (decide (0 < e.late)) |||
        0x20 * b2n (decide (synth ≠ 0)) ||| 0x40 * b2n (decide (ung ≠ 0)) ||| 0x80 * b2n g.gap
      let v := if fl &&& 0x30 ≠ 0 then 2 else if fl &&& 0xCB ≠ 0 then 1 else 0
      let tOld := (kept.map (·.t)).foldl min ((kept.head?.map (·.t)).getD tRef)
      let num := s.plan.frame
      let slot := num % max 1 (pdOutSlots d)
      let epoch := epochAt s 2 e0
      let header := leBytes 1 1 ++ leBytes 1 (pdRule d) ++ leBytes 2 fl ++ leBytes 4 num ++ leBytes 8 tRef ++ leBytes 8 tOld ++
        leBytes 8 e0 ++ leBytes 4 e.table.length ++ leBytes 4 e.pointsIn ++ leBytes 4 e.filtered ++ leBytes 4 e.late ++
        leBytes 4 merged ++ leBytes 4 e.dropped ++ leBytes 4 e.cells ++ leBytes 2 epoch ++ leBytes 2 0
      let body := e.table.flatMap (fun x => voxelEntry tRef x.1 x.2.1 x.2.2)
      let rec_ := leBytes 1 1 ++ leBytes 1 slot ++ leBytes 2 fl ++ leBytes 4 num ++ leBytes 8 tRef ++ leBytes 8 tOld ++ leBytes 8 e0 ++
        leBytes 4 e.table.length ++ leBytes 4 e.dropped ++ leBytes 4 e.cells ++ leBytes 2 epoch ++ leBytes 1 (mask contrib) ++
        leBytes 1 synth ++ leBytes 1 ung ++ leBytes 1 (pdRule d) ++ leBytes 1 v ++ leBytes 13 0
      let s := fencedWrite 0 2 ⟨pdOutBase d + slot * pdOutStride d, header ++ body, false⟩ (writeBitmap d n e.marked s)
      let (s, sent) := unitPushS (pdRing d) rec_ s
      let s := if sent then s else raise 0x4006 num (inc PLANER_REC_DROP s)
      let s := unitSignal (pdPeg d) v rec_ s
      let s := incFld PLANER_MERGED 31 0 merged (incFld PLANER_DROP_POINTS 31 0 e.dropped (incFld PLANER_DROP_CELLS 31 0 e.cells s))
      let s := inc PLANER_FRAMES (incFld PLANER_VOXELS_OUT 31 0 e.table.length s)
      let s := wr PLANER_FRAME_NUMBER num (wr PLANER_LAST_FRAME (fl + 65536 * v) s)
      let s := wr PLANER_EMIT_LAT_MAX (min 0xFFFFFFFF (max (rd s PLANER_EMIT_LAT_MAX) ((s.ridge.ns - (e0 + pdPeriod d)) / 1000))) s
      let s := setMask PLANER_STATUS ((fl &&& 0x3F) + (if bit fl 7 then 0x80 else 0)) s
      let s := if bit fl 0 then raise 0x4001 num s else s
      let s := if bit fl 1 then raise 0x4002 num s else s
      let s := if bit fl 3 then raise 0x4003 num s else s
      let s := if bit fl 4 then raise 0x4004 num s else s
      .next (gridDone s)

end Sys2Proof.Machine
end

