-- ==== Sys2Proof/Machine/Power.lean ====
section
/-! DEFINITION. Commands of the Plinth: power-on with its sequencing, package reset, power-down, crash discharge and input loss
(chapter 21). -/

namespace Sys2Proof.Machine
open Sys2Proof

/-! ### Power-on (R603–R605, R623) -/

/-- VIN_RISE: VIN at 10.2 V or above for 10 ms while EN is high (R603). -/
def execVinRise (s : State) : Out :=
  if s.power.state = .standby ∧ s.power.en = true ∧ inputGood s = true ∧ s.power.locked = false then .next (startSequencing s) else .next s

/-- EN_HIGH: EN accepted high; a power-on that becomes due while the rails still go down waits for STANDBY (R603). -/
def execEnHigh (s : State) : Out :=
  let rose := !s.power.en
  let s := { s with power.en := true }
  if !rose || !inputGood s then .next s
  else match s.power.state with
    | .standby => .next (if s.power.locked then s else startSequencing s)
    | .powerDown | .holdUp | .crash => .next { s with power.due := true }
    | _ => .next s

/-- The rail of a sequencing step (R605). -/
def stepRails (k : Nat) : List Nat := [[], [10], [9], [8], [7], [6], [5], [4], [0, 1, 2, 3]].getD k []

/-- RAIL_STEP_IN_LIMITS: the next step begins (R605). -/
def execRailStepInLimits (s : State) : Out :=
  if s.power.state = .sequencing ∧ s.power.waiting = false ∧ 1 ≤ s.power.step ∧ s.power.step ≤ 8 then
    .next { s with power.step := s.power.step + 1 }
  else .next s

/-- RAIL_STEP_TIMEOUT: a rail of the step is not within its limits after 2 ms; the attempt fails and its rails go down, and after the
third the Plinth stays in STANDBY (R605). -/
def execRailStepTimeout (rail : Nat) (s : State) : Out :=
  if s.power.state ≠ .sequencing ∨ s.power.waiting = true ∨ !(stepRails s.power.step).contains rail then .next s
  else
    let s := { s with power := { s.power with step := 0, retained := { s.power.retained with failedRail := some rail } } }
    let s := setFld KINGPOST_RESET_CAUSE 19 16 rail (setFld KINGPOST_RESET_CAUSE 13 12 s.power.attempts s)
    if s.power.attempts < 3 then .next { s with power.waiting := true } else .next (putPlinth .standby { s with power.locked := true })

/-- SEQUENCING_RETRY: 100 ms after a failed attempt, from step 1 (R605). -/
def execSequencingRetry (s : State) : Out :=
  if s.power.state = .sequencing ∧ s.power.waiting = true then
    .next { s with power := { s.power with step := 1, waiting := false, attempts := s.power.attempts + 1 } }
  else .next s

/-- HOLDUP_CHARGED: the store reaches 30 V, with every rail up (R604, R623). -/
def execHoldupCharged (s : State) : Out :=
  if s.power.state = .sequencing ∧ s.power.step = 9 then
    .next (setFld KINGPOST_POWER_STATE 15 8 150 (setFld KINGPOST_POWER_STATE 5 5 1 s))
  else .next s

/-- POWER_ON: with the rails up and the store charged, the dies test themselves, memory is clear, and the boot chain runs (R604). -/
def execPowerOn (b : BootResult) (s : State) : Out :=
  if s.power.state = .sequencing ∧ s.power.step = 9 ∧ bit (rd s KINGPOST_POWER_STATE) 5 = true then
    .next (bootDevice b 0 0 { s with power.step := 10 })
  else .next s

/-- BOOT_EXCURSION: the reference or a rail leaves its limits during the boot chain, which restarts from its step 1 (R499). -/
def execBootExcursion (s : State) : Out :=
  if s.power.state = .sequencing ∧ s.power.step = 9 then .next (raise 0xA014 0 s) else .next s

/-- PKG_RESET: PKG_RESET_N held low resets the package while EN is high and no power-down is in progress; the boot finds `b`
(R43, R608). -/
def execPkgReset (b : BootResult) (s : State) : Out :=
  if s.power.en = true ∧ (s.power.state = .run ∨ (s.power.state = .sequencing ∧ s.power.step = 10)) then .next (packageReset b 1 3 s)
  else .next s

/-! ### Power-down, crash discharge and input loss (R620–R625) -/

/-- The pair goes invalid for the end of a session, with a message or without (R413, R620, R624). -/
def pairOff (message : Bool) (s : State) : State :=
  if bit (rd s NETIN_VLINK_STATE) 0 then
    let n := fld s NETIN_VLINK_STATE 15 8
    let m := s.out.slot15
    let s := drivePair false 4 s
    if message then s else setFld NETIN_VLINK_STATE 15 8 n { s with out.slot15 := m }
  else if message then queueSafeMessage (setFld NETIN_VLINK_STATE 23 16 4 s)
  else s

/-- EN_LOW: EN accepted low; from RUN or SEQUENCING the power-down begins: the pair is invalid, a message is queued, doorbells,
captures and marks stop, and the Yard completes what it accepted (R605, R620). -/
def execEnLow (s : State) : Out :=
  let s := { s with power := { s.power with en := false, due := false, locked := false } }
  if s.power.state = .run ∨ s.power.state = .sequencing then
    let up := decide (s.power.state = .run)
    let s := putPlinth .powerDown { s with power := { s.power with step := 2, stopFrom := s.ridge.ns, ending := 2, waiting := false } }
    .next (powerDownYard (if up then pairOff true s else s))
  else .next s

/-- POWER_DOWN_STORAGE_LIMIT: 100 ms into step 2 the Yard stops what is still open (R519, R620). -/
def execPowerDownStorageLimit (s : State) : Out :=
  if s.power.state = .powerDown ∧ s.power.step = 2 ∧ s.power.stopFrom + 100000000 ≤ s.ridge.ns then .next (railsFall s) else .next s

/-- POWER_DOWN_RAIL_STEP: the rails of a step have fallen; after the last of the eight the end record is written, and STANDBY is
entered (R609, R620, R625). -/
def execPowerDownRailStep (s : State) : Out :=
  if s.power.state ≠ .powerDown ∨ s.power.step < 3 then .next s
  else if s.power.step < 10 then .next { s with power.step := s.power.step + 1 }
  else .next (losePower (endSession s.power.ending s))

/-- The step of R620 or of R624 that a crash record names (R622). -/
def crashPhase (s : State) : Nat := if s.power.state = .holdUp then 4 else min 3 s.power.step

/-- CRASH_DISCHARGE: a rail leaves its limits, or does not fall in time: every rail is bled, and the crash record written with the
rail's lowest and highest sense voltage in mV (R621, R622). -/
def execCrashDischarge (rail low high : Nat) (s : State) : Out :=
  if 10 < rail ∨ (s.power.state ≠ .powerDown ∧ s.power.state ≠ .holdUp) then .next s
  else
    let c : Crash := { rail := rail, phase := crashPhase s, low := low, high := high, t := s.ridge.ns }
    let s := pairOff false (putPlinth .crash s)
    let s := { s with power := { s.power with retained := { s.power.retained with crash := some c } } }
    .next (losePower (endSession 6 s))

/-- INPUT_LOSS: the input switch opens; in RUN the pair goes invalid without a message, and the store carries the rails that the Yard
needs for the recorder page, which POWER_FAIL_COMMIT commits before STANDBY is entered; during a boot or the fall of the rails no page
is committed (R602, R624, R625). -/
def execInputLoss (s : State) : Out :=
  if !inputLost s then .next s
  else
    let s := { s with power.switchOpen := true }
    match s.power.state with
    | .run => .next (putPlinth .holdUp (pairOff false { s with power.step := 4, yard.stopped := true }))
    | .sequencing => .next (losePower (endSession 1 s))
    | .powerDown =>
      if s.power.step < 3 then .next (putPlinth .holdUp { s with power.step := 4, yard.stopped := true })
      else .next { s with power.ending := 1 }
    | _ => .next s

/-- POWER_FAIL_COMMIT: on loss of input the Yard aborts its programs and erases, and commits the recorder page; the end record follows,
the rest of the rails goes down, and the Plinth enters STANDBY or OFF (R517, R519, R595, R624). -/
def execPowerFailCommit (s : State) : Out :=
  if s.power.state ≠ .holdUp then .next s
  else
    let s := commitPage 1 { s with yard := yardCut s.yard }
    .next (losePower (endSession 1 (raise 0xB008 0 (yardEvent 3 s))))

end Sys2Proof.Machine
end

