-- ==== Sys2Proof/Machine/Profile.lean ====
section
/-! DEFINITION. The default profile (R615–R619): the firmware image's objects are installed as objects of the owner domain, and one
mode change applies them. The objects are the operand of the command (notes/assumptions/66.md). -/

namespace Sys2Proof.Machine
open Sys2Proof

/-- Entries of a table are put into another. -/
def tputs {α : Type} (l t : Tab α) : Tab α := l.foldl (fun t p => tput p.1 p.2 t) t

/-- Memory, pegs, rings, tensors and graphs of the profile, in the order of R617 (R615). -/
def installObjects (p : Profile) (s : State) : State :=
  let s := { s with memory.allocs := tputs p.allocs s.memory.allocs }
  let s := p.image.foldl (fun s w => writeMem w s) s
  let s := { s with
    scribe.pegs := (List.range p.pegs).foldl (fun t k => tput k { owner := 0 } t) s.scribe.pegs
    scribe.rings := tputs p.rings s.scribe.rings
    tensors.table := tputs p.tensors s.tensors.table
    tensors.gens := tputs (p.tensors.map (fun (x : Nat × Tensor) => (x.1, x.2.gen))) s.tensors.gens }
  let graphs : Tab Graph := p.graphs.map (fun (x : Nat × (Graph × Nat)) => (x.1, { x.2.1 with stagedStart := some x.2.2 }))
  { s with scribe.graphs := tputs graphs s.scribe.graphs }

/-- A camera that was found: powered at 600 mA, and its port configured for free-run mode with its pattern (R617). -/
def installCamera (c : ProfileCam) (s : State) : State :=
  let n := c.port
  let s := putPocCtrl n (putBits (putBits (rd s (CAMIN_POC_CTRL n)) 1 0 2) 25 16 600) s
  let a := 0x21000 + 0x100 * n
  let s := stageWord a (putBits (putBits (putBits (putBits 0x98 0 0 1) 2 1 c.gear) 6 6 1) 7 7 1) s
  let s := stageWord (a + 0x10) 0 s
  stageWords (a + 0x20) [putBits (c.width * 2 ^ 8) 5 0 c.dataType, putBits 0x01F40000 13 0 c.height,
    putBits (putBits 0x01400000 15 0 c.bandPeg) 28 27 (n % 4), putBits 0x00100000 15 0 c.verdictPeg,
    c.buf % 2 ^ 32, c.buf / 2 ^ 32, c.stride, c.ring] s

/-- A scanner that was found: its port with synthetic points, its adapter and its address (R617). -/
def installScanner (c : ProfileScan) (s : State) : State :=
  let a := 0x32000 + 0x100 * c.port
  let s := stageWords a [putBits 0xCCBA0004 0 0 1, 10000000] s
  let s := stageWord (a + 0x18) c.ring (stageWord (a + 0x14) (putBits 0x00100000 15 0 c.peg) s)
  let s := { s with net.staged.macs := tput c.port c.mac s.net.staged.macs }
  match tget c.adapter s.yard.adapters with
  | some i => { s with net.staged.adapters := tput c.port { id := c.adapter, image := i } s.net.staged.adapters,
                       net.reload := linsert c.port s.net.reload }
  | none => { s with net.staged.adapters := tdel c.port s.net.staged.adapters }

/-- A mark of the profile is armed for the owner domain (R615, R617). -/
def installMark (x : Nat × Nat × Nat × Nat) (s : State) : State :=
  let s := putMarkTime x.1 x.2.1 s
  let s := wr (RIDGE_MARK_PERIOD_NS x.1) (x.2.2.1 / 2 ^ 32) (wr (RIDGE_MARK_PERIOD_FRAC x.1) (x.2.2.1 % 2 ^ 32) s)
  wr (RIDGE_MARK_STATUS x.1) (2 ^ 30) (wr (RIDGE_MARK_CTRL x.1) (2 ^ 31) (wr (RIDGE_MARK_ACTION x.1) x.2.2.2 s))

/-- Byte `i` of the part's uid (R491). -/
def uidByte (i : Nat) : Nat := bits (Config.uid (i / 4)).toNat (8 * (i % 4) + 7) (8 * (i % 4))

/-- The header fields of the profile's Ethernet streams; the source UDP port is not stated (R618, notes/assumptions/66.md). -/
def profileHdr (port : Nat) : WireHdr :=
  { dst := 0xFFFFFFFFFFFF, src := ((((0x02 * 256 + 0xB0) * 256 + uidByte 0) * 256 + uidByte 1) * 256 + uidByte 2) * 256 + 0x08
    ipSrc := ((169 * 256 + 254) * 256 + uidByte 1) * 256 + uidByte 2, ipDst := 0xFFFFFFFF, dscp := 0, ttl := 1
    udpSrc := (Config.unstated 618 [port]).toNat % 65536, udpDst := port }

/-- Stream `k` of the profile with its control word (R618). -/
def installStream (p : Profile) (k ctrl chan : Nat) (hdr : WireHdr) (s : State) : State :=
  match tget k p.streams with
  | none => s
  | some x =>
    stageWords (0x33000 + 0x40 * k) [ctrl, x.1, x.2.1, 100000000, 0, 0, 30000000, 20000000, chan,
      x.2.2.1 % 2 ^ 32, x.2.2.1 / 2 ^ 32, x.2.2.2] (modStream k (fun y => { y with stagedHdr := hdr }) s)

/-- The control word of a stream of the profile with recover_frames 3: kind, safety, launch_mode, destination, port, queue and sparse
encoding, enabled (R397, R618). -/
def profileCtrl (kind safety launch dest port queue sparse : Nat) : Nat :=
  1 + 2 * kind + 2 ^ 4 * safety + 2 ^ 5 * launch + 2 ^ 6 * dest + 2 ^ 8 * port + 2 ^ 12 * queue + 2 ^ 16 * sparse + 2 ^ 24 * 3

/-- The streams of the profile, and the launch-time queues of port 8 (R618). -/
def installStreams (p : Profile) (s : State) : State :=
  let s := stageWord (0x31000 + 0x100 * 8 + 0xC) 0xC0 s
  let s := installStream p 0 (profileCtrl 1 1 1 0 8 7 1) (4 * 256) (profileHdr 52420) s
  let s := installStream p 1 (profileCtrl 2 1 1 0 8 6 0) 0x100 (profileHdr 52421) s
  p.cams.foldl (fun s c => installStream p (2 + c.port) (profileCtrl 3 0 0 1 0 0 0) (0x100 + c.port) {} s) s

/-- The persisted set becomes the staged configuration: registers, signal map, transmit slots, and the scanners' adapters and
addresses (R616). -/
def stagePersisted (x : Persisted) (s : State) : State :=
  let link := fun (a : Nat) => decide (a = NETIN_VLINK_CTRL.addr) || decide (a = NETIN_VLINK_ID.addr)
  let s := (x.regs.filter (fun r => !link r.1)).foldl (fun s r => stageWord r.1 r.2.toNat s) s
  { s with net.staged.signals := x.net.signals, net.staged.canSlots := x.net.canSlots, net.staged.macs := x.net.macs,
           net.staged.adapters := x.net.adapters, net.reload := (x.net.adapters).foldl (fun l r => linsert r.1 l) s.net.reload }

/-- The Planer descriptor of the profile: the image's, with the body box and the extrinsics of the persisted one, and the scanners in
use (R616, R617). -/
def profilePlan (p : Profile) (kept : List Byte) : List Byte :=
  let d := if kept.length = 512 then p.planer.take 56 ++ (kept.drop 56).take 24 ++ (p.planer.drop 80).take 112 ++ kept.drop 192 else p.planer
  let mask := p.scans.foldl (fun m c => m ||| 2 ^ c.port) 0
  d.take 2 ++ [BitVec.ofNat 8 mask] ++ d.drop 3

/-- VLINK_ID and VLINK_CTRL of the persisted set; the pair and the messages are enabled only where it holds a Planer descriptor
(R616, R619). -/
def profileLink (x : Option Persisted) (s : State) : State :=
  match x with
  | none => s
  | some x =>
    let on := b2n (decide (x.plan.length = 512))
    let word := fun (r : Reg) => match tget r.addr x.regs with | some w => w.toNat | none => r.reset
    putVlinkCtrl (putBits (word NETIN_VLINK_CTRL) 1 0 (3 * on)) (acceptWrite NETIN_VLINK_ID.addr (word NETIN_VLINK_ID) [] s)

/-- DEFAULT_PROFILE_START: once released, Foreman builds the profile's objects from the persisted set and the firmware image, and
applies them through one mode change, at the first boundary of the epoch grid 2 ms ahead (R86, R615–R619). -/
def execDefaultProfileStart (p : Profile) (s : State) : Out :=
  if !s.mb.foremanUp || !inRun s || bit (rd s SILL_PROFILE) 0 || decide (s.ridge.phase ≠ .idle) || s.sec.fuses.returned then .next s
  else
    let kept := s.yard.persisted
    let s := match kept with | some x => stagePersisted x s | none => s
    let s := installObjects p s
    let s := p.cams.foldl (fun s c => installCamera c s) s
    let s := p.scans.foldl (fun s c => installScanner c s) s
    let s := { s with plumb.staged := (match p.plumb with | some c => tput 0 (some c) s.plumb.staged | none => s.plumb.staged)
                      plan.staged := some (profilePlan p (match kept with | some x => x.plan | none => []))
                      raft.staged := some p.raft
                      tally.staged := (match p.tally with | some c => tput 0 (some c) s.tally.staged | none => s.tally.staged)
                      tally.stagedDesc := some p.unit }
    let s := p.marks.foldl (fun s x => installMark x s) s
    let s := profileLink kept (installStreams p s)
    let on := match kept with | some x => decide (x.plan.length = 512) | none => false
    let s := wr SILL_PROFILE (1 + 2 * b2n kept.isSome + 4 * b2n on + 2 ^ 8 * (p.scans.foldl (fun m c => m ||| 2 ^ c.port) 0 % 256) +
      2 ^ 16 * (p.cams.foldl (fun m c => m ||| 2 ^ c.port) 0 % 65536)) s
    .next (beginChange (boundaryFrom s (s.ridge.ns + 2000000)) s)

end Sys2Proof.Machine
end

