-- ==== Sys2Proof/Machine/Recorder.lean ====
section
/-! DEFINITION. The Event Recorder's own rows: an occurrence, the commits, and its commands (R588–R600). -/

namespace Sys2Proof.Machine
open Sys2Proof

/-- EVENT_OCCURRENCE: a code occurs with its argument: it is counted, and recorded or held back; `extra` travels with codes 0xF001 to
0xF003 and is otherwise the Ridge time (R588–R590). -/
def execEventOccurrence (code arg extra : Nat) (s : State) : Out :=
  if code = 0 ∨ 0xFFFF ≤ code then .next s
  else if 0xF001 ≤ code ∧ code ≤ 0xF003 then .next (raiseX code arg extra s)
  else .next (raise code arg s)

/-- RECORDER_PAGE_COMMIT: 4 s of powered time after the last commit a page is committed (R595). -/
def execRecorderPageCommit (s : State) : Out :=
  if s.recd.sinceCommit < 4 || !inRun s then .next s else .next (commitPage 0 s)

/-- RECORDER_COMMIT_WRITE: a write of RECORDER.COMMIT with bit 0 set asks for a commit (R595). -/
def execRecorderCommitWrite (value : Nat) (s : State) : Out := if bit value 0 then .next (commitPage 3 s) else .next s

/-- REC_SUMMARY: hours and cycles of the life clock, the newest and the oldest page (R585, R598). -/
def execRecSummary (f slot : Nat) (s : State) : Out :=
  .next (immediate f slot 0x0901 (fun s =>
    ok [r32 (s.recd.life.s / 3600), r32 s.recd.life.cycle, r32 s.recd.pageSeq, r32 ((s.recd.pages.head?.map (·.1)).getD 0)] s) s)

/-- REC_READ: retained pages, or the page under construction, are copied into device memory; pages whose sequence is in `bad` fail
their CRC and are skipped (R598). -/
def execRecRead (f slot : Nat) (bad : List Nat) (s : State) : Out :=
  .next (immediate f slot 0x0902 (fun s =>
    let first := param s f slot 0x0902 0
    let count := param s f slot 0x0902 1
    let dev := param s f slot 0x0902 2
    let now := decide (first = 0xFFFFFFFF)
    let n := if now then 1 else count
    if count = 0 ∨ 1024 < count then badParam 0x0902 1 s
    else if !holdsRange s f dev (16384 * n) false true then badParam 0x0902 2 s
    else
      let found := if now then [buildPage s 3 ((s.recd.pageSeq + 1) % 2 ^ 32)]
        else (s.recd.pages.filter (fun p => decide (first ≤ p.1) && decide (p.1 < first + count) && !bad.contains p.1)).map (·.2)
      let failed := if now then [] else (s.recd.pages.filter (fun p => decide (first ≤ p.1) && decide (p.1 < first + count) && bad.contains p.1)).map (·.1)
      let s := failed.foldl (fun s q => raise 0xD003 q s) s
      if found = [] then no 0x1402 0 s
      else ok [r32 found.length] (fencedWrite f 6 ⟨dev, found.flatMap id, false⟩ s)) s)

/-- EVENT_NOTIFY: a vector for the codes that agree with a code under a mask is set, replaced or removed (R591). -/
def execEventNotify (f slot : Nat) (s : State) : Out :=
  .next (immediate f slot 0x0903 (fun s =>
    let c := param s f slot 0x0903 0
    let m := param s f slot 0x0903 1
    let v := param s f slot 0x0903 2
    let others := s.recd.notifies.filter (fun n => !(decide (n.code = c) && decide (n.mask = m)))
    if v ≠ 0xFF ∧ (v < 2 ∨ 31 < v) then badParam 0x0903 2 s
    else if v = 0xFF then ok [] { s with recd.notifies := others }
    else if 8 ≤ others.length then no 0x1401 0 s
    else ok [] { s with recd.notifies := others ++ [{ code := c, mask := m, vector := v }] }) s)

end Sys2Proof.Machine
end

