-- ==== Sys2Proof/Machine/Release.lean ====
section
/-! DEFINITION. DOMAIN_RELEASE: everything that a client domain holds is freed (R443). -/

namespace Sys2Proof.Machine
open Sys2Proof

/-- Steps 2 and 3: streams are disabled and closed, their host rings unregistered, and marks disarmed and freed. -/
def releaseStreams (d : Nat) (s : State) : State :=
  let s := (s.out.streams.filter (fun p => p.2.owner = some d)).foldl (fun s p =>
    let k := p.1
    let s := setFld (NETIN_OUT_CTRL k) 0 0 0 (setLiveEnable (NETIN_OUT_CTRL k) 0 (disableStream k (discardQueued k s)))
    modStream k (fun x => { x with hostRing := none, owner := none, closing := false }) s) s
  (s.ridge.markOwner.filter (fun p => p.2 = d)).foldl (fun s p =>
    let s := disarmMark p.1 s
    { s with ridge.markOwner := tdel p.1 s.ridge.markOwner }) s

/-- Steps 4 to 6: Plumb slots, graphs with their instances, and caches with their sequences. -/
def releaseGraphs (d : Nat) (s : State) : State :=
  let slots : Tab CycleSlot := s.plumb.slots.filter (fun p => decide (p.2.owner ≠ d))
  let staged : Tab (Option CycleSlot) := s.plumb.staged.filter (fun p => p.2.all (fun (c : CycleSlot) => decide (c.owner ≠ d)))
  let s := { s with plumb.slots := slots, plumb.staged := staged }
  let gs := (s.scribe.graphs.filter (fun p => p.2.domain = d)).map (·.1)
  let s := gs.foldl (fun s g => abortGraph g s) s
  let s := { s with scribe.insts := s.scribe.insts.filter (fun p => !gs.contains p.2.graph),
                    scribe.graphs := s.scribe.graphs.filter (fun p => !gs.contains p.1) }
  (s.ledger.caches.filter (fun p => p.2.owner = d)).foldl (fun s p => dropCache p.1 s) s

/-- Steps 7 to 9: tensor descriptors, rings, pegs, allocations, and the shares that others gave to the domain. -/
def releaseMemory (d : Nat) (s : State) : State :=
  let own := s.memory.allocs.filter (fun p => p.2.owner = d)
  let drop := fun (m : Nat) => m - (m &&& 2 ^ d)
  { s with
    tensors.table := s.tensors.table.filter (fun p => decide (p.2.owner ≠ d)),
    scribe.rings := s.scribe.rings.filter (fun p => decide (p.2.owner ≠ d)),
    scribe.pegs := s.scribe.pegs.filter (fun p => decide (p.2.owner ≠ d)),
    memory.allocs := (s.memory.allocs.filter (fun p => decide (p.2.owner ≠ d))).map (fun p =>
      (p.1, { p.2 with rmask := drop p.2.rmask, wmask := drop p.2.wmask })),
    memory.zeroing := s.memory.zeroing ++ own.map (fun p => (p.1, p.2.len)) }

/-- DOMAIN_RELEASE: the domain is quiesced, what it holds is freed in the order of R443, and the quiesce is lifted, unless Kingpost
holds the domain; released is set in its MB.NOTICE (R443, R446, R488). -/
def execDomainRelease (f slot : Nat) (s : State) : Out :=
  .next (immediate f slot 0x0B05 (fun s =>
    let d := param s f slot 0x0B05 0
    if d = 0 ∨ 63 < d then badParam 0x0B05 0 s
    else
      let s := releaseMemory d (releaseGraphs d (releaseStreams d (settleDomain d (quiesceDomain d false s))))
      let s := if kpHold s d then ignoredWrite 0 FENCE_DOMAIN_CMD.addr false allBits s else resumeDomain d s
      ok [] (raise 0x0008 d (notice d 32 s))) s)

end Sys2Proof.Machine
end

