-- ==== Sys2Proof/Machine/Resolve.lean ====
section
/-! DEFINITION. The resolution of provisional and dual instances: commits and discards, one at a time in the order in which they
were decided (R276–R281). -/

namespace Sys2Proof.Machine
open Sys2Proof

/-- Pages that an instance's refills make resident at its commit signal their caches' pegs (R335). -/
def refillPegs (x : Inst) (s : State) : State :=
  x.ledgerLog.foldl (fun s o => match o with
    | .refill p g =>
      let y := pageOf s p
      let peg := cdPeg (cacheDesc s y.cache)
      if y.state = .recomputing ∧ y.gen = g ∧ peg ≠ 0xFFFF then enqueue (.add peg 1 0) s else s
    | _ => s) s

/-- Step 3 of a commit: Tally's table as the instance left it; later Tally instances may start (R392). -/
def commitTally (i : Nat) (x : Inst) (s : State) : State :=
  let s := match x.tallyLog with | some t => { s with tally.table := t } | none => s
  if s.tally.unresolved = some i then { s with tally.unresolved := none } else s

/-- The head of the resolutions that are decided, if it is in state `st`. -/
def resolvingHead (s : State) (st : IState) : Option (Nat × Inst × Graph) :=
  match s.scribe.resolving with
  | [] => none
  | i :: _ => (tget i s.scribe.insts).bind (fun x =>
      if x.st = st then (tget x.graph s.scribe.graphs).map (fun g => (i, x, g)) else none)

/-- INSTANCE_COMMIT: the instance whose commit is next copies its bytes, applies its logs, publishes its pushes, signals and pushes
its record (R278, R281). -/
def execInstanceCommit (s : State) : Out :=
  match resolvingHead s .committing with
  | none => .next s
  | some (i, x, g) =>
    let s := { s with scribe.resolving := s.scribe.resolving.drop 1 }
    let s := freePages i (releaseWrites i x.chosen s)
    let s := match x.poseHeld with
      | some (table, count, rec_) => publishPose g.domain table count rec_ s
      | none => s
    let s := commitTally i x (commitLedger i x (refillPegs x s))
    let s := releasePushes i x.chosen (dropHeld x s)
    let s := modInst i (fun y => { y with ledgerLog := [], tallyLog := none, poseHeld := none }) s
    let s := if x.prov then inc SCRIBE_PROV_COMMITTED s else s
    .next (settle (enqueue (.finish i) s))

/-- INSTANCE_DISCARD: the instance whose discard is next frees its pages, drops its logs and its pushes, sends void signals and
pushes its record (R279, R281). -/
def execInstanceDiscard (s : State) : Out :=
  match resolvingHead s .discarding with
  | none => .next s
  | some (i, _, _) =>
    let s := { s with scribe.resolving := s.scribe.resolving.drop 1 }
    .next (settle (enqueue (.finish i) (discardEffects i s)))

end Sys2Proof.Machine
end

