-- ==== Sys2Proof/Machine/Ridge.lean ====
section
/-! DEFINITION. Commands of the Ridge time base: commits and steps of the counter, discipline by gPTP and PPS_IN, holdover,
PPS_OUT and the replicas of the regions (chapter 2). -/

namespace Sys2Proof.Machine
open Sys2Proof

/-- RIDGE_INC_COMMIT: the written words, within the trim limit, are in force from the next tick; with loop_en 1 the loop
continues from the trim they imply (R55, R56, R61). -/
def execRidgeIncCommit (value : Nat) (s : State) : Out :=
  let frac := match tget RIDGE_INC_FRAC.addr s.staged with | some w => w.toNat | none => rd s RIDGE_INC_FRAC
  let i := clampInc s (bits value 7 0 * 2 ^ 32 + frac)
  let s := { s with staged := tdel RIDGE_INC_FRAC.addr s.staged, ridge.incNext := some i }
  .next (if bit (rd s RIDGE_CTRL) 2 then { s with ridge.integ := incTrim i } else s)

/-- RIDGE_STEP: the write of STEP_HI commits a signed step for the next tick, or is refused and counted (R58). -/
def execRidgeStep (value : Nat) (s : State) : Out :=
  let lo := match tget RIDGE_STEP_LO.addr s.staged with | some w => w.toNat | none => 0
  let st := toSigned 64 (value % 2 ^ 32 * 2 ^ 32 + lo)
  let s := { s with staged := tdel RIDGE_STEP_LO.addr s.staged }
  if (decide (st < 0) && pinned s) || changing s then .next (ignoredWrite 0 RIDGE_STEP_HI.addr false allBits s)
  else .next { s with ridge.stepNext := some st, ridge.stepSoft := true }

/-- RIDGE_CTRL_WRITE: a reserved code makes the write ignored and counted; otherwise the loop enters the state that the new
source and role give (R63, R629). -/
def execRidgeCtrlWrite (value : Nat) (s : State) : Out :=
  match ctrlValue value with
  | none => .next (ignoredWrite 0 RIDGE_CTRL.addr false allBits s)
  | some v => .next (putRidgeCtrl v s)

/-- DISCIPLINE_SAMPLE: a Sync received on the followed port, with its origin, its correction and its stamp; the reference time
is the origin corrected by the way the message took and by the link delay (R60, R62, R63, R65). -/
def execDisciplineSample (port stamp : Nat) (origin correction : Int) (s : State) : Out :=
  if ridgeSource s = 1 && !gmActive s && decide (followed s = some port) then
    let e := origin + correction + ((tgetD port 0 s.ridge.linkDelay : Nat) : Int) - stamp
    let scale := match tget port s.ridge.announces with | some a => a.ptpScale | none => s.ridge.ptpScale
    .next (sample e { s with ridge.lastSync := some (origin, correction, stamp), ridge.ptpScale := scale })
  else if followed s = some port then .next { s with ridge.lastSync := some (origin, correction, stamp) }
  else .next s

/-- PPS_IN_EDGE: the first edge since the source became PPS_IN is accepted, later ones within 1 ms of a whole second (R66). -/
def execPpsInEdge (stamp : Nat) (s : State) : Out :=
  if ridgeSource s ≠ 2 then .next s
  else
    let e : Int := (nearestSecond stamp : Int) - stamp
    if !s.ridge.ppsSeen || decide (e.natAbs ≤ 1000000) then
      let s := wr64 RIDGE_PPS_CAP_LO RIDGE_PPS_CAP_HI (stamp % 2 ^ 64) { s with ridge.ppsSeen := true }
      .next (sample e s)
    else .next (inc RIDGE_PPS_MISSED s)

/-- HOLDOVER_ENTRY: no sample for loss_samples intervals; the increment is fixed by the integral term (R63, R64). -/
def execHoldoverEntry (s : State) : Out :=
  if (loopState s = 1 ∨ loopState s = 2) ∧ s.ridge.sampled = true ∧
      s.ridge.lastSample + max 1 (fld s RIDGE_LOCK_CFG 23 16) * sampleInterval s ≤ s.ridge.ns then
    let s := putTrim s.ridge.integ s.ridge.integ { s with ridge.holdSince := s.ridge.ns }
    .next (setFld RIDGE_HOLDOVER 31 16 0 (setFld RIDGE_STATUS 6 6 0 (setLoop 3 s)))
  else .next s

/-- HOLDOVER_EXPIRY: HOLDOVER has lasted limit_s (R63). -/
def execHoldoverExpiry (s : State) : Out :=
  if loopState s = 3 ∧ s.ridge.holdSince + fld s RIDGE_HOLDOVER 15 0 * 1000000000 ≤ s.ridge.ns then .next (setLoop 4 s)
  else .next s

/-- ANNOUNCE_RECEIVED: the message is held for its port, and the BMCA decides again (R65). -/
def execAnnounceReceived (port : Nat) (a : Announce) (s : State) : Out :=
  if 12 ≤ port ∨ 255 ≤ a.stepsRemoved ∨ a.path.contains Config.clockIdentity.toNat then .next s
  else
    let s := { s with ridge.announces := tput port a s.ridge.announces }
    let s := if followed s = some port then { s with ridge.ptpScale := a.ptpScale } else s
    .next (runBmca s)

/-- ANNOUNCE_RECEIPT_TIMEOUT: what the port announced no longer counts, and the BMCA decides again (R65). -/
def execAnnounceReceiptTimeout (port : Nat) (s : State) : Out :=
  .next (runBmca { s with ridge.announces := tdel port s.ridge.announces })

/-- PDELAY_EXCHANGE: the neighbour rate ratio from two exchanges in units of 2^−41, and the mean link delay (R65). -/
def execPdelayExchange (port : Nat) (t1 t2 t3 t4 : Int) (s : State) : Out :=
  if 12 ≤ port then .next s
  else
    let ratio := match tget port s.ridge.pdelayLast with
      | none => tgetD port 0 s.ridge.rateRatio
      | some (p3, p4) => if t4 = p4 then tgetD port 0 s.ridge.rateRatio
          else roundDiv ((t3 - p3 - (t4 - p4)) * 2 ^ 41) (t4 - p4)
    let round_ := t4 - t1 + roundDiv ((t4 - t1) * ratio) (2 ^ 41)
    .next { s with ridge.pdelayLast := tput port (t3, t4) s.ridge.pdelayLast,
                   ridge.rateRatio := tput port ratio s.ridge.rateRatio,
                   ridge.linkDelay := tput port (roundDiv (round_ - (t3 - t2)) 2).toNat s.ridge.linkDelay }

/-- GPTP_SYNC_TRANSMIT: a master port sends a Sync and its Follow_Up; as a relay it passes on the origin it received with the
link delay and the residence time added to the correction (R65). -/
def execGptpSyncTransmit (port : Nat) (s : State) : Out :=
  if 12 ≤ port ∨ followed s = some port then .next s
  else
    let s' := { s with ridge.syncSeq := (s.ridge.syncSeq + 1) % 65536 }
    match followed s, s.ridge.lastSync with
    | some p, some (o, c, st) =>
      .next (emit (.gptpSync port s.ridge.syncSeq o (c + ((tgetD p 0 s.ridge.linkDelay : Nat) : Int) + ((s.ridge.ns : Int) - st))) s')
    | _, _ => .next (if gmActive s then emit (.gptpSync port s.ridge.syncSeq s.ridge.ns 0) s' else s)

/-- PPS_OUT_CFG_WRITE: setting enable arms mark 1,023 for the first whole second at least 1 µs away under the skip policy;
clearing it disarms the mark (R67, R79). -/
def execPpsOutCfgWrite (value : Nat) (s : State) : Out :=
  let was := bit (rd s RIDGE_PPS_OUT_CFG) 31
  let w := if bits value 9 0 = 0 ∨ 999 < bits value 9 0 then 100 else bits value 9 0
  let s := acceptWrite RIDGE_PPS_OUT_CFG.addr (putBits value 9 0 w) [] s
  let now := bit (rd s RIDGE_PPS_OUT_CFG) 31
  if now && !was then
    let s := wr64 (RIDGE_MARK_TIME_LO 1023) (RIDGE_MARK_TIME_HI 1023) (ceilDiv (s.ridge.ns + b2n (decide (s.ridge.frac ≠ 0)) + 1000) 1000000000 * 1000000000) s
    let s := wr (RIDGE_MARK_PERIOD_NS 1023) 1000000000 (wr (RIDGE_MARK_ACTION 1023) 0xB0000000 s)
    .next (wr (RIDGE_MARK_STATUS 1023) 0x40000000 (wr (RIDGE_MARK_CTRL 1023) 0xA0000000 s))
  else if was && !now then
    .next (setFld (RIDGE_MARK_STATUS 1023) 31 30 0 (setFld (RIDGE_MARK_CTRL 1023) 31 31 0 s))
  else .next s

/-- PPS_PULSE_END: the pulse falls after its width (R67). -/
def execPpsPulseEnd (s : State) : Out :=
  match s.ridge.ppsEnd with
  | none => .next s
  | some t => if t ≤ s.ridge.ns then .next (emit (.pps false) { s with ridge.ppsEnd := none }) else .next s

/-- REPLICA_CORRECTION: a region's replica differed by `diff` tenths of a ns; two corrections in a row beyond 3 ns are fault 0,
which holds while any region failed one of its last two (R68, R70, R543). -/
def execReplicaCorrection (region : Nat) (diff : Int) (s : State) : Out :=
  if 23 ≤ region then .next s
  else
    let s := setFld RIDGE_SKEW_MAX 15 0 (max (fld s RIDGE_SKEW_MAX 15 0) (min 65535 diff.natAbs)) s
    let row := tgetD region 0 s.ridge.skewRow % 2 * 2 + b2n (decide (30 < diff.natAbs))
    let held := s.ridge.skewRow.any (fun p => decide (p.2 ≠ 0))
    let was := tgetD region 0 s.ridge.skewRow
    let s := { s with ridge.skewRow := tput region row s.ridge.skewRow }
    let s := if row = 3 ∧ ¬ was = 3 then fault 0 s else s
    if held && s.ridge.skewRow.all (fun p => decide (p.2 = 0)) then .next (faultEnds 0 s) else .next s

end Sys2Proof.Machine
end

