-- ==== Sys2Proof/Machine/Yard.lean ====
section
/-! DEFINITION. The Yard: the storage commands and the events of its engine (R511–R523). -/

namespace Sys2Proof.Machine
open Sys2Proof

/-- What every queued storage command is checked for first: the lock of its partition, the mount, and its own parameters; then room
in the queue (R493, R512, R516). -/
def storageStart (f slot op a b c : Nat) (bad : Option (Nat × Nat)) (s : State) : Ans ⊕ State :=
  if !storageUnlocked s then .inl (no 0x1201 0 s)
  else if unmountable s then .inl (no 0x1D0A 0 s)
  else match bad with
    | some (st, d) => .inl (no st d s)
    | none => if 64 ≤ s.yard.queue.length then .inl (no 0x1008 12 s) else .inr (queueCmd f slot op a b c s)

/-- A pool's state refuses writes to the namespaces and the model store (R521). -/
def writesRefused (s : State) : Bool := decide (s.yard.reserveTlc < 500) || decide (s.yard.reservePslc < 500)

/-- The limits of R509 and the device range of a namespace command. -/
def nsCheck (s : State) (f op lba blocks dev : Nat) (toDevice : Bool) : Option (Nat × Nat) :=
  if blocks = 0 ∨ 262144 < blocks then some (0x1D02, paramOff op 1)
  else if quotaOf s f 9 * 262144 < lba + blocks then some (0x1D02, paramOff op 0)
  else if !holdsRange s f dev (4096 * blocks) (!toDevice) toDevice then some (0x1D08, paramOff op 2)
  else if !toDevice && writesRefused s then some (0x1D05, 0)
  else none

/-- NS_READ: blocks of the domain's namespace are to be copied to device memory (R509, R511, R512). -/
def execNsRead (f slot : Nat) (s : State) : Out :=
  if inYard s f slot then .next s
  else .next (deferred f slot 0x0801 (fun s =>
    let lba := param s f slot 0x0801 0
    let n := param s f slot 0x0801 1
    let dev := param s f slot 0x0801 2
    storageStart f slot 0x0801 lba n dev (nsCheck s f 0x0801 lba n dev true) s) s)

/-- NS_WRITE: blocks of device memory are to be committed to the domain's namespace (R509–R512). -/
def execNsWrite (f slot : Nat) (s : State) : Out :=
  if inYard s f slot then .next s
  else .next (deferred f slot 0x0802 (fun s =>
    let lba := param s f slot 0x0802 0
    let n := param s f slot 0x0802 1
    let dev := param s f slot 0x0802 2
    storageStart f slot 0x0802 lba n dev (nsCheck s f 0x0802 lba n dev false) s) s)

/-- NS_FLUSH: it waits for every earlier write of the domain to respond (R511). -/
def execNsFlush (f slot : Nat) (s : State) : Out :=
  if inYard s f slot then .next s
  else .next (deferred f slot 0x0803 (fun s => storageStart f slot 0x0803 0 0 0 none s) s)

/-- A model name that no object may have (R511). -/
def badName (n : Nat) : Bool := decide (n = 0) || decide (n = 0xFFFFFFFF)

/-- MODEL_PUT: bytes of device memory become an object of the model store, or a name is deleted (R511). -/
def execModelPut (f slot : Nat) (s : State) : Out :=
  if inYard s f slot then .next s
  else .next (deferred f slot 0x0804 (fun s =>
    let name := param s f slot 0x0804 0
    let dev := param s f slot 0x0804 1
    let n := param s f slot 0x0804 2
    let bad := if badName name then some (0x1D06, 0)
      else if 2 ^ 34 < n then some (0x1D07, 0)
      else if decide (n ≠ 0) && !holdsRange s f dev n true false then some (0x1D08, paramOff 0x0804 1)
      else if writesRefused s then some (0x1D05, 0)
      else none
    storageStart f slot 0x0804 name dev n bad s) s)

/-- MODEL_GET: an object is to be copied to device memory, or its length given (R511). -/
def execModelGet (f slot : Nat) (s : State) : Out :=
  if inYard s f slot then .next s
  else .next (deferred f slot 0x0805 (fun s =>
    let name := param s f slot 0x0805 0
    let dev := param s f slot 0x0805 1
    let n := param s f slot 0x0805 2
    let bad := if badName name then some (0x1D06, 0)
      else if decide (n ≠ 0) && !holdsRange s f dev n false true then some (0x1D08, paramOff 0x0805 1)
      else none
    storageStart f slot 0x0805 name dev n bad s) s)

/-- STORAGE_INFO: the DATA blocks of the domain, the TLC wear in percent of 3,000, and its reserve in percent (R511, R521, R525). -/
def execStorageInfo (f slot : Nat) (s : State) : Out :=
  .next (immediate f slot 0x0806 (fun s =>
    if unmountable s then no 0x1D0A 0 s
    else ok [r64 (dataBlocks s.yard (fun d => decide (d = f))), r8 (bits s.yard.wearTlc 15 0 * 100 / 3000), r8 (s.yard.reserveTlc / 100)] s) s)

/-! ### Completion (R511–R514, R520) -/

/-- One block of a read goes to device memory: as it is, as zeros where it holds nothing, or poisoned (R511, R520). -/
def deliverBlock (f a : Nat) (data : Option (List Byte)) (n : Nat) (lost : Bool) (s : State) : State :=
  if lost then
    fencedWrite f 5 ⟨a, (List.range n).map (fun (i : Nat) => (Config.unstated 520 [((a + i : Nat) : Int), s.ridge.ns]).setWidth 8), true⟩ s
  else fencedWrite f 5 ⟨a, (data.getD (List.replicate 4096 0)).take n, false⟩ s

/-- NS_READ delivers its blocks, of which those at the indices `bad` cannot be read. -/
def endNsRead (c : StoreCmd) (recs : List JRec) (bad : List Nat) (s : State) : State :=
  let f := c.slot / 16
  let held := fun (i : Nat) => (recs.find? (fun r => decide (recKey r = 2 * nsKey f (c.a + i)))).map recData
  let lost := fun (i : Nat) => c.lost.contains i || (bad.contains i && (held i).any (·.isSome))
  let refused := (List.range c.b).find? (fun i => !admitAll s f (c.c + 4096 * i) 4096 true)
  let s := (List.range c.b).foldl (fun s i => deliverBlock f (c.c + 4096 * i) ((held i).getD none) 4096 (lost i) s) s
  let s := (List.range c.b).foldl (fun s i =>
    if lost i && !c.lost.contains i && decide (tget (nsKey f (c.a + i)) s.yard.blocks = held i) then
      markUnreadable (nsKey f (c.a + i)) 4 (c.a + i) s else s) s
  let s := incFld YARD_HOST_READ 31 0 c.b s
  match refused, (List.range c.b).find? lost, (List.range c.b).find? (fun i => (held i).isNone) with
  | some i, _, _ => endCmd c 0x1D08 i [] s
  | none, some i, _ => endCmd c 0x1D03 i [] s
  | none, none, some i => endCmd c 0x1D01 i [] s
  | none, none, none => endCmd c 0 0 [] s

/-- MODEL_GET delivers the start of its object, of which the blocks at the indices `bad` cannot be read. -/
def endModelGet (c : StoreCmd) (recs : List JRec) (bad : List Nat) (s : State) : State :=
  let f := c.slot / 16
  match recs.head?.bind recData with
  | none => endCmd c 0x1D06 0 [] s
  | some b =>
    let n := min c.c b.length
    if c.c = 0 then endCmd c 0 0 [r64 b.length] s
    else
      let k := objectBlocks n
      let size := fun (i : Nat) => min 4096 (n - 4096 * i)
      let lost := fun (i : Nat) => c.lost.contains i || bad.contains i
      let refused := (List.range k).find? (fun i => !admitAll s f (c.b + 4096 * i) (size i) true)
      let s := (List.range k).foldl (fun s i => deliverBlock f (c.b + 4096 * i) (some ((b.drop (4096 * i)).take (size i))) (size i) (lost i) s) s
      let s := (List.range k).foldl (fun s i =>
        if lost i && !c.lost.contains i && decide (tget c.a s.yard.models = some b) then markUnreadable (objectKey c.a i) 3 i s else s) s
      let s := incFld YARD_HOST_READ 31 0 k s
      match refused, (List.range k).find? lost with
      | some i, _ => endCmd c 0x1D08 i [] s
      | none, some i => endCmd c 0x1D03 i [r64 n] s
      | none, none => endCmd c 0 0 [r64 n] s

/-- STORAGE_COMMAND_COMPLETE: the queued command with number `serial` ends; reading its blocks took `retry` and `soft` codewords to the
further stages, could not correct the blocks at the indices `bad`, and relocated `disturb` blocks for their reads (R511–R514,
R520, R522). -/
def execStorageCommandComplete (serial retry soft disturb : Nat) (bad : List Nat) (s : State) : Out :=
  match s.yard.queue.find? (fun c => decide (c.serial = serial)) with
  | none => .next s
  | some c =>
    if !yardServes s || !c.started then .next s
    else
      let counted := fun (s : State) => (List.range disturb).foldl (fun s _ => relocate 0 true s)
        (incFld YARD_LDPC_SOFT 31 0 soft (incFld YARD_LDPC_RETRY 31 0 retry s))
      if c.opcode = 0x0801 ∨ c.opcode = 0x0805 then
        match c.snap with
        | none => .next s
        | some recs => .next (powerDownYard (if c.opcode = 0x0801 then endNsRead c recs bad (counted s) else endModelGet c recs bad (counted s)))
      else if c.opcode = 0x0803 then
        if s.yard.queue.any (fun e => decide (e.serial < serial) && decide (e.slot / 16 = c.slot / 16) && !e.silent &&
            (decide (e.opcode = 0x0802) || decide (e.opcode = 0x0804))) then .next s
        else .next (powerDownYard (endCmd c 0 0 [] s))
      else if openRecs s.yard c = [] then .next (powerDownYard (endCmd c c.status (if c.status = 0 then 0 else c.detail) [] s))
      else .next s

/-! ### Programs, the journal and the mount (R515–R517, R521) -/

/-- WORDLINE_VERIFIED: a program of command `serial` verifies, after `failed` programs that retired their blocks and left reserve
`reserve`: the next `n` blocks of a namespace write, or the object of a MODEL_PUT, are appended to the journal (R515, R521). -/
def execWordlineVerified (serial n failed reserve : Nat) (s : State) : Out :=
  match s.yard.queue.find? (fun c => decide (c.serial = serial)) with
  | none => .next s
  | some c =>
    let q := programmedRecs n c.todo
    let waits := (earlierTodo s.yard serial).any (fun r => q.1.any (fun t => decide (recKey t = recKey r)))
    if !yardServes s || decide (c.todo = []) || decide (n = 0) || decide (12 < n) || waits then .next s
    else
      let lines := (q.1.map (fun r => match r with | .block _ _ _ => 0 | .model _ d _ => (d.map (fun b => ceilDiv b.length 49152)).getD 0)).sum
      let s := incFld YARD_PROG_TLC 31 0 (max 1 lines) (failedPrograms 0 failed reserve s)
      let s := modCmd serial (fun c => { c with todo := q.2 }) s
      .next (settleYard (q.1.foldl (fun s r => appendRec r s) s))

/-- JOURNAL_WINDOW_EXPIRY: 20 ms after its first record the open page is programmed (R515). -/
def execJournalWindowExpiry (s : State) : Out :=
  if yardServes s && !s.yard.page.isEmpty && decide (s.yard.since + 20000000 ≤ s.ridge.ns) then
    .next { s with yard := { s.yard with page := [], closing := s.yard.closing ++ [s.yard.page] } }
  else .next s

/-- JOURNAL_PAGE_VERIFIED: the oldest page being programmed verifies, and its records commit in order (R515). -/
def execJournalPageVerified (failed reserve : Nat) (s : State) : Out :=
  match s.yard.closing with
  | [] => .next s
  | p :: rest =>
    if !yardServes s then .next s
    else
      let s := inc YARD_PROG_PSLC (failedPrograms 1 failed reserve s)
      let y := p.foldl applyRec s.yard
      let s := { s with yard := { y with closing := rest, pagesSince := y.pagesSince + 1 } }
      .next (powerDownYard (settleYard (incFld YARD_HOST_WRITE 31 0 (p.map recBlocks).sum s)))

/-- YARD_MOUNT: the journal is replayed after the latest checkpoint; the records of a torn page are discarded; the commands that waited
begin, and a patrol pass starts. Where neither checkpoint can be read, storage is not mounted (R516, R517, R523). -/
def execYardMount (checkpointRead : Bool) (ms : Nat) (s : State) : Out :=
  if !inRun s || bit (rd s YARD_STATUS) 0 || unmountable s then .next s
  else if !checkpointRead then
    let s := yardEvent 6 (raise 0xB009 0 { s with yard.failed := true })
    .next (s.yard.queue.foldl (fun s c => endCmd c 0x1D0A 0 [] s) s)
  else
    let torn := s.yard.torn
    let s := wr YARD_TORN_DISCARDED torn (setFld YARD_MOUNT_MS 15 0 (min 0xFFFF ms) s)
    let s := if torn = 0 then s else yardEvent 2 (raise 0xB007 0 s)
    let s := setFld YARD_STATUS 5 5 1 (setFld YARD_STATUS 0 0 1 { s with yard.torn := 0, yard.lastCheckpoint := s.ridge.ns })
    .next (settleYard (s.yard.queue.foldl (fun s c => startCmd c s) s))

/-- CHECKPOINT_WRITE: the changed map pages are written in `pages` pSLC pages, at most once in 10 minutes, or once the journal since
the last checkpoint reaches 64 MiB (R516). -/
def execCheckpointWrite (pages : Nat) (s : State) : Out :=
  if yardServes s && (decide (s.yard.lastCheckpoint + 600000000000 ≤ s.ridge.ns) || decide (4096 ≤ s.yard.pagesSince)) then
    .next (incFld YARD_PROG_PSLC 31 0 pages { s with yard.pagesSince := 0, yard.lastCheckpoint := s.ridge.ns })
  else .next s

/-! ### Care of the cells (R520–R525) -/

/-- PATROL_PASS: the patrol has read pages: codewords that needed a further stage, blocks relocated (pool, and whether for read
disturb), blocks of the user namespace that could not be read (domain and LBA), and whether the pass is complete (R520–R523). -/
def execPatrolPass (retry soft : Nat) (moved : List (Nat × Bool)) (bad : List (Nat × Nat)) (complete : Bool) (s : State) : Out :=
  if !yardServes s then .next s
  else
    let s := incFld YARD_LDPC_SOFT 31 0 soft (incFld YARD_LDPC_RETRY 31 0 retry s)
    let s := moved.foldl (fun s m => relocate (m.1 % 2) m.2 s) s
    let s := bad.foldl (fun s b =>
      let k := nsKey b.1 b.2
      if 64 ≤ b.1 || s.yard.unreadable.contains k || (tgetD k none s.yard.blocks).isNone then s else markUnreadable k 4 b.2 s) s
    .next (if complete then wr YARD_PASS_AGE 0 s else s)

/-- FREE_BLOCK_ERASE: an erase of a free block of a pool ends with erase count `count`, which leaves the pool's average and highest
counts; one that fails retires the block and leaves reserve `reserve` (R521, R525). -/
def execFreeBlockErase (pool count avg highest reserve : Nat) (failed : Bool) (s : State) : Out :=
  if !yardServes s || decide (2 ≤ pool) then .next s
  else
    let wear := bits avg 15 0 + 65536 * bits highest 15 0
    let s := if pool = 0 then { s with yard.wearTlc := wear } else { s with yard.wearPslc := wear }
    let at_ := fun (c : Nat) => min 31 (c / 100)
    let s := if pool ≠ 0 ∨ count = 0 then s
      else
        let e := tmod (at_ (count - 1)) (fun n => n - 1) s.yard.erases
        { s with yard.erases := tput (at_ count) (tgetD (at_ count) 0 e + 1) e }
    let s := if 80 ≤ bits s.yard.wearTlc 15 0 * 100 / 3000 && !s.yard.worn then raise 0xB00A 0 { s with yard.worn := true } else s
    .next (if failed then retireBlock pool reserve (inc YARD_ERASE_FAIL s) else s)

end Sys2Proof.Machine
end

