-- ==== Sys2Proof/Machine/Dispatch.lean ====
section
/-! DEFINITION. One arm per command: a direct call of its meaning. -/

namespace Sys2Proof.Machine
open Sys2Proof

def exec (i : Instr) (s : State) : Host.Outcome State Fault Refusal :=
  match i with
  | .registerWrite function addr size value hw => Sys2Proof.Machine.execRegisterWrite function addr size value hw s
  | .rcRead function addr size hw => Sys2Proof.Machine.execRcRead function addr size hw s
  | .lowWordReadLatch function addr => Sys2Proof.Machine.execLowWordReadLatch function addr s
  | .referenceTick steps waiting => Sys2Proof.Machine.execReferenceTick steps waiting s
  | .ridgeIncCommit value => Sys2Proof.Machine.execRidgeIncCommit value s
  | .ridgeStep value => Sys2Proof.Machine.execRidgeStep value s
  | .ridgeCtrlWrite value => Sys2Proof.Machine.execRidgeCtrlWrite value s
  | .disciplineSample port stamp origin correction => Sys2Proof.Machine.execDisciplineSample port stamp origin correction s
  | .ppsInEdge stamp => Sys2Proof.Machine.execPpsInEdge stamp s
  | .holdoverEntry => Sys2Proof.Machine.execHoldoverEntry s
  | .holdoverExpiry => Sys2Proof.Machine.execHoldoverExpiry s
  | .announceReceived port a => Sys2Proof.Machine.execAnnounceReceived port a s
  | .pdelayExchange port t1 t2 t3 t4 => Sys2Proof.Machine.execPdelayExchange port t1 t2 t3 t4 s
  | .ppsOutCfgWrite value => Sys2Proof.Machine.execPpsOutCfgWrite value s
  | .ppsPulseEnd => Sys2Proof.Machine.execPpsPulseEnd s
  | .replicaCorrection region diff => Sys2Proof.Machine.execReplicaCorrection region diff s
  | .markCtrlWrite m value => Sys2Proof.Machine.execMarkCtrlWrite m value s
  | .markFire m coinciding => Sys2Proof.Machine.execMarkFire m coinciding s
  | .notBeforePassed inst => Sys2Proof.Machine.execNotBeforePassed inst s
  | .epochApplyTime => Sys2Proof.Machine.execEpochApplyTime s
  | .epochUnitLatch unit => Sys2Proof.Machine.execEpochUnitLatch unit s
  | .epochCheck => Sys2Proof.Machine.execEpochCheck s
  | .epochRevert => Sys2Proof.Machine.execEpochRevert s
  | .epochRevertCheck => Sys2Proof.Machine.execEpochRevertCheck s
  | .gclConfigChange port value => Sys2Proof.Machine.execGclConfigChange port value s
  | .gclConfigApply port => Sys2Proof.Machine.execGclConfigApply port s
  | .gateIntervalEnd port => Sys2Proof.Machine.execGateIntervalEnd port s
  | .egressFrameStart port queue => Sys2Proof.Machine.execEgressFrameStart port queue s
  | .canTxStart channel slot stamp => Sys2Proof.Machine.execCanTxStart channel slot stamp s
  | .pocCommand port value => Sys2Proof.Machine.execPocCommand port value s
  | .pocRampComplete port mv ma vpoc => Sys2Proof.Machine.execPocRampComplete port mv ma vpoc s
  | .pocFaultDetected port conditions => Sys2Proof.Machine.execPocFaultDetected port conditions s
  | .pocFaultClear port value recur => Sys2Proof.Machine.execPocFaultClear port value recur s
  | .pocAutoRetry port => Sys2Proof.Machine.execPocAutoRetry port s
  | .aphyPacketReceived port attempts received => Sys2Proof.Machine.execAphyPacketReceived port attempts received s
  | .aphyLockLoss port => Sys2Proof.Machine.execAphyLockLoss port s
  | .aphyLinkUp port => Sys2Proof.Machine.execAphyLinkUp port s
  | .cameraAbsentTimeout port => Sys2Proof.Machine.execCameraAbsentTimeout port s
  | .frameStartReceived port vc ecc stamp retransmitted => Sys2Proof.Machine.execFrameStartReceived port vc ecc stamp retransmitted s
  | .lineReceived port vc dt fate pixels => Sys2Proof.Machine.execLineReceived port vc dt fate pixels s
  | .frameEndReceived port vc ecc => Sys2Proof.Machine.execFrameEndReceived port vc ecc s
  | .frameTimeout port => Sys2Proof.Machine.execFrameTimeout port s
  | .patternCheckDone port pathFail testFail => Sys2Proof.Machine.execPatternCheckDone port pathFail testFail s
  | .checkerSelftestIdle checker testFail => Sys2Proof.Machine.execCheckerSelftestIdle checker testFail s
  | .camPortEnableWrite port value => Sys2Proof.Machine.execCamPortEnableWrite port value s
  | .ethFrameReceived port stamp fcsOk frame => Sys2Proof.Machine.execEthFrameReceived port stamp fcsOk frame s
  | .ethLinkDown port testFail => Sys2Proof.Machine.execEthLinkDown port testFail s
  | .ethLinkUp port speed role quality => Sys2Proof.Machine.execEthLinkUp port speed role quality s
  | .jigPacket port packets fault_ testFail => Sys2Proof.Machine.execJigPacket port packets fault_ testFail s
  | .sweepTimeout port testFail => Sys2Proof.Machine.execSweepTimeout port testFail s
  | .synthBlockInject port damage => Sys2Proof.Machine.execSynthBlockInject port damage s
  | .canFrameReceived channel id stamp sec data => Sys2Proof.Machine.execCanFrameReceived channel id stamp sec data s
  | .canErrorFrame channel transmitting => Sys2Proof.Machine.execCanErrorFrame channel transmitting s
  | .canBusoffRecovery channel => Sys2Proof.Machine.execCanBusoffRecovery channel s
  | .signalStale entry => Sys2Proof.Machine.execSignalStale entry s
  | .refImuSample stamp rate acc saturated => Sys2Proof.Machine.execRefImuSample stamp rate acc saturated s
  | .refImuFault selftestFailed => Sys2Proof.Machine.execRefImuFault selftestFailed s
  | .xchkWindowEval => Sys2Proof.Machine.execXchkWindowEval s
  | .planerIngest => Sys2Proof.Machine.execPlanerIngest s
  | .poseRefFix n => Sys2Proof.Machine.execPoseRefFix n s
  | .sliceRelease n => Sys2Proof.Machine.execSliceRelease n s
  | .voxelFrameEmit => Sys2Proof.Machine.execVoxelFrameEmit s
  | .baySetPointWrite bay value => Sys2Proof.Machine.execBaySetPointWrite bay value s
  | .instanceNamed bay => Sys2Proof.Machine.execInstanceNamed bay s
  | .shadowLoadComplete bay t => Sys2Proof.Machine.execShadowLoadComplete bay t s
  | .taskStart inst run unsupported => Sys2Proof.Machine.execTaskStart inst run unsupported s
  | .taskEnd inst run res => Sys2Proof.Machine.execTaskEnd inst run res s
  | .stepBoundReached inst run => Sys2Proof.Machine.execStepBoundReached inst run s
  | .trussSelftestStart bay t => Sys2Proof.Machine.execTrussSelftestStart bay t s
  | .trussSelftestDone bay t res => Sys2Proof.Machine.execTrussSelftestDone bay t res s
  | .scribePegAddWrite value => Sys2Proof.Machine.execScribePegAddWrite value s
  | .pegSetWrite value => Sys2Proof.Machine.execPegSetWrite value s
  | .ringPopRegisterRead upset bad => Sys2Proof.Machine.execRingPopRegisterRead upset bad s
  | .provisionalStart inst => Sys2Proof.Machine.execProvisionalStart inst s
  | .instanceCommit => Sys2Proof.Machine.execInstanceCommit s
  | .instanceDiscard => Sys2Proof.Machine.execInstanceDiscard s
  | .streamStallEnd inst run => Sys2Proof.Machine.execStreamStallEnd inst run s
  | .stallTimeout inst run => Sys2Proof.Machine.execStallTimeout inst run s
  | .raftCycleStart inst => Sys2Proof.Machine.execRaftCycleStart inst s
  | .raftCycleEnd inst steps => Sys2Proof.Machine.execRaftCycleEnd inst steps s
  | .ledgerOpen inst badSeqs badPages => Sys2Proof.Machine.execLedgerOpen inst badSeqs badPages s
  | .ledgerFork inst badSeqs badPages => Sys2Proof.Machine.execLedgerFork inst badSeqs badPages s
  | .ledgerAppend inst badSeqs badPages => Sys2Proof.Machine.execLedgerAppend inst badSeqs badPages s
  | .ledgerRead inst badSeqs badPages => Sys2Proof.Machine.execLedgerRead inst badSeqs badPages s
  | .ledgerClose inst badSeqs badPages => Sys2Proof.Machine.execLedgerClose inst badSeqs badPages s
  | .ledgerRefill inst badSeqs badPages => Sys2Proof.Machine.execLedgerRefill inst badSeqs badPages s
  | .ledgerCollective inst => Sys2Proof.Machine.execLedgerCollective inst s
  | .readResume inst => Sys2Proof.Machine.execReadResume inst s
  | .recomputeDeadline page => Sys2Proof.Machine.execRecomputeDeadline page s
  | .plumbCycleStart => Sys2Proof.Machine.execPlumbCycleStart s
  | .plumbDeadline progress steps costed => Sys2Proof.Machine.execPlumbDeadline progress steps costed s
  | .plumbCycleEnd steps => Sys2Proof.Machine.execPlumbCycleEnd steps s
  | .tallyAssociate steps => Sys2Proof.Machine.execTallyAssociate steps s
  | .tallyUpdate steps => Sys2Proof.Machine.execTallyUpdate steps s
  | .streamCapture stream_ => Sys2Proof.Machine.execStreamCapture stream_ s
  | .captureComplete stream_ => Sys2Proof.Machine.execCaptureComplete stream_ s
  | .segmentLaunch stream_ => Sys2Proof.Machine.execSegmentLaunch stream_ s
  | .pcieDelivery stream_ consumed => Sys2Proof.Machine.execPcieDelivery stream_ consumed s
  | .windowDecision stream_ => Sys2Proof.Machine.execWindowDecision stream_ s
  | .validOutReadback level => Sys2Proof.Machine.execValidOutReadback level s
  | .safeStateHeartbeat => Sys2Proof.Machine.execSafeStateHeartbeat s
  | .vlinkCtrlWrite ident value => Sys2Proof.Machine.execVlinkCtrlWrite ident value s
  | .mbDoorbell f value => Sys2Proof.Machine.execMbDoorbell f value s
  | .commandAccept => Sys2Proof.Machine.execCommandAccept s
  | .hello f slot => Sys2Proof.Machine.execHello f slot s
  | .goodbye f slot => Sys2Proof.Machine.execGoodbye f slot s
  | .ping f slot => Sys2Proof.Machine.execPing f slot s
  | .limits f slot => Sys2Proof.Machine.execLimits f slot s
  | .memAlloc f slot => Sys2Proof.Machine.execMemAlloc f slot s
  | .memRelease f slot => Sys2Proof.Machine.execMemRelease f slot s
  | .memShare f slot => Sys2Proof.Machine.execMemShare f slot s
  | .memCopyIn f slot => Sys2Proof.Machine.execMemCopyIn f slot s
  | .memCopyOut f slot => Sys2Proof.Machine.execMemCopyOut f slot s
  | .copyComplete f slot data failedAt => Sys2Proof.Machine.execCopyComplete f slot data failedAt s
  | .tensorCreate f slot => Sys2Proof.Machine.execTensorCreate f slot s
  | .tensorDestroy f slot => Sys2Proof.Machine.execTensorDestroy f slot s
  | .tensorQuery f slot => Sys2Proof.Machine.execTensorQuery f slot s
  | .ringCreate f slot => Sys2Proof.Machine.execRingCreate f slot s
  | .ringDestroy f slot => Sys2Proof.Machine.execRingDestroy f slot s
  | .ringQuery f slot => Sys2Proof.Machine.execRingQuery f slot s
  | .ringPush f slot upset => Sys2Proof.Machine.execRingPush f slot upset s
  | .ringPop f slot upset bad => Sys2Proof.Machine.execRingPop f slot upset bad s
  | .cacheCreate f slot => Sys2Proof.Machine.execCacheCreate f slot s
  | .cacheDestroy f slot => Sys2Proof.Machine.execCacheDestroy f slot s
  | .ledgerQuery f slot => Sys2Proof.Machine.execLedgerQuery f slot s
  | .quotaSet f slot => Sys2Proof.Machine.execQuotaSet f slot s
  | .pegAlloc f slot => Sys2Proof.Machine.execPegAlloc f slot s
  | .pegRelease f slot => Sys2Proof.Machine.execPegRelease f slot s
  | .pegGrant f slot => Sys2Proof.Machine.execPegGrant f slot s
  | .pegAdd f slot => Sys2Proof.Machine.execPegAdd f slot s
  | .pegSet f slot => Sys2Proof.Machine.execPegSet f slot s
  | .pegRead f slot => Sys2Proof.Machine.execPegRead f slot s
  | .pegWait f slot => Sys2Proof.Machine.execPegWait f slot s
  | .waitTimeout f wait => Sys2Proof.Machine.execWaitTimeout f wait s
  | .waitQuery f slot => Sys2Proof.Machine.execWaitQuery f slot s
  | .graphLoad f slot => Sys2Proof.Machine.execGraphLoad f slot s
  | .graphStart f slot => Sys2Proof.Machine.execGraphStart f slot s
  | .graphStop f slot => Sys2Proof.Machine.execGraphStop f slot s
  | .graphAbort f slot => Sys2Proof.Machine.execGraphAbort f slot s
  | .graphUnload f slot => Sys2Proof.Machine.execGraphUnload f slot s
  | .graphQuery f slot => Sys2Proof.Machine.execGraphQuery f slot s
  | .plumbRegister f slot => Sys2Proof.Machine.execPlumbRegister f slot s
  | .plumbRelease f slot => Sys2Proof.Machine.execPlumbRelease f slot s
  | .tallyRegister f slot => Sys2Proof.Machine.execTallyRegister f slot s
  | .tallyRelease f slot => Sys2Proof.Machine.execTallyRelease f slot s
  | .camStage f slot => Sys2Proof.Machine.execCamStage f slot s
  | .camPower f slot => Sys2Proof.Machine.execCamPower f slot s
  | .camControl f slot => Sys2Proof.Machine.execCamControl f slot s
  | .netPortStage f slot => Sys2Proof.Machine.execNetPortStage f slot s
  | .fwdWrite f slot => Sys2Proof.Machine.execFwdWrite f slot s
  | .scanStage f slot => Sys2Proof.Machine.execScanStage f slot s
  | .signalMapWrite f slot => Sys2Proof.Machine.execSignalMapWrite f slot s
  | .canStage f slot => Sys2Proof.Machine.execCanStage f slot s
  | .canSlotWrite f slot => Sys2Proof.Machine.execCanSlotWrite f slot s
  | .imuStage f slot => Sys2Proof.Machine.execImuStage f slot s
  | .unitStage f slot => Sys2Proof.Machine.execUnitStage f slot s
  | .gclWrite f slot => Sys2Proof.Machine.execGclWrite f slot s
  | .timeRead f slot => Sys2Proof.Machine.execTimeRead f slot s
  | .timeCorrelate f slot ptm uncertainty => Sys2Proof.Machine.execTimeCorrelate f slot ptm uncertainty s
  | .markAlloc f slot => Sys2Proof.Machine.execMarkAlloc f slot s
  | .markRelease f slot => Sys2Proof.Machine.execMarkRelease f slot s
  | .markArm f slot => Sys2Proof.Machine.execMarkArm f slot s
  | .markDisarm f slot => Sys2Proof.Machine.execMarkDisarm f slot s
  | .gptpSet f slot => Sys2Proof.Machine.execGptpSet f slot s
  | .epochApply f slot => Sys2Proof.Machine.execEpochApply f slot s
  | .epochDiscard f slot => Sys2Proof.Machine.execEpochDiscard f slot s
  | .epochStatus f slot => Sys2Proof.Machine.execEpochStatus f slot s
  | .streamOpen f slot => Sys2Proof.Machine.execStreamOpen f slot s
  | .streamStage f slot => Sys2Proof.Machine.execStreamStage f slot s
  | .streamHostRing f slot => Sys2Proof.Machine.execStreamHostRing f slot s
  | .streamClose f slot => Sys2Proof.Machine.execStreamClose f slot s
  | .streamQuery f slot => Sys2Proof.Machine.execStreamQuery f slot s
  | .vlinkSet f slot => Sys2Proof.Machine.execVlinkSet f slot s
  | .powerRead f slot => Sys2Proof.Machine.execPowerRead f slot s
  | .setPointStage f slot => Sys2Proof.Machine.execSetPointStage f slot s
  | .capSet f slot => Sys2Proof.Machine.execCapSet f slot s
  | .throttleRead f slot => Sys2Proof.Machine.execThrottleRead f slot s
  | .throttleRequest f slot => Sys2Proof.Machine.execThrottleRequest f slot s
  | .nsRead f slot => Sys2Proof.Machine.execNsRead f slot s
  | .nsWrite f slot => Sys2Proof.Machine.execNsWrite f slot s
  | .nsFlush f slot => Sys2Proof.Machine.execNsFlush f slot s
  | .modelPut f slot => Sys2Proof.Machine.execModelPut f slot s
  | .modelGet f slot => Sys2Proof.Machine.execModelGet f slot s
  | .storageInfo f slot => Sys2Proof.Machine.execStorageInfo f slot s
  | .storageCommandComplete serial retry soft disturb bad => Sys2Proof.Machine.execStorageCommandComplete serial retry soft disturb bad s
  | .recSummary f slot => Sys2Proof.Machine.execRecSummary f slot s
  | .recRead f slot bad => Sys2Proof.Machine.execRecRead f slot bad s
  | .eventNotify f slot => Sys2Proof.Machine.execEventNotify f slot s
  | .safetyStatus f slot => Sys2Proof.Machine.execSafetyStatus f slot s
  | .safeStateRelease f slot => Sys2Proof.Machine.execSafeStateRelease f slot s
  | .selftestLog f slot => Sys2Proof.Machine.execSelftestLog f slot s
  | .fwStage f slot => Sys2Proof.Machine.execFwStage f slot s
  | .fwActivate f slot => Sys2Proof.Machine.execFwActivate f slot s
  | .adapterStore f slot image => Sys2Proof.Machine.execAdapterStore f slot image s
  | .adapterStage f slot => Sys2Proof.Machine.execAdapterStage f slot s
  | .domainRelease f slot => Sys2Proof.Machine.execDomainRelease f slot s
  | .foremanLog f slot => Sys2Proof.Machine.execForemanLog f slot s
  | .returnPrepare f slot => Sys2Proof.Machine.execReturnPrepare f slot s
  | .returnEraseComplete => Sys2Proof.Machine.execReturnEraseComplete s
  | .functionLevelReset f => Sys2Proof.Machine.execFunctionLevelReset f s
  | .busMasterDisable f => Sys2Proof.Machine.execBusMasterDisable f s
  | .numvfsLowered n => Sys2Proof.Machine.execNumvfsLowered n s
  | .pcieLinkReset => Sys2Proof.Machine.execPcieLinkReset s
  | .foremanHeartbeat => Sys2Proof.Machine.execForemanHeartbeat s
  | .foremanWatchdog => Sys2Proof.Machine.execForemanWatchdog s
  | .foremanResume => Sys2Proof.Machine.execForemanResume s
  | .domainClose domain => Sys2Proof.Machine.execDomainClose domain s
  | .domainQuiesce domain => Sys2Proof.Machine.execDomainQuiesce domain s
  | .domainResume domain => Sys2Proof.Machine.execDomainResume domain s
  | .domainSettled domain => Sys2Proof.Machine.execDomainSettled domain s
  | .ownerSecretSubmit value => Sys2Proof.Machine.execOwnerSecretSubmit value s
  | .ownerSecretDecision => Sys2Proof.Machine.execOwnerSecretDecision s
  | .ownerRekeySubmit value => Sys2Proof.Machine.execOwnerRekeySubmit value s
  | .serviceToken container => Sys2Proof.Machine.execServiceToken container s
  | .secCounterRaise => Sys2Proof.Machine.execSecCounterRaise s
  | .bootExcursion => Sys2Proof.Machine.execBootExcursion s
  | .scrubRead addr found structure_ passEnds => Sys2Proof.Machine.execScrubRead addr found structure_ passEnds s
  | .purlinLinkDown bay port => Sys2Proof.Machine.execPurlinLinkDown bay port s
  | .purlinLinkUp bay port lanes => Sys2Proof.Machine.execPurlinLinkUp bay port lanes s
  | .zeroingComplete => Sys2Proof.Machine.execZeroingComplete s
  | .wordlineVerified serial n failed reserve => Sys2Proof.Machine.execWordlineVerified serial n failed reserve s
  | .journalWindowExpiry => Sys2Proof.Machine.execJournalWindowExpiry s
  | .journalPageVerified failed reserve => Sys2Proof.Machine.execJournalPageVerified failed reserve s
  | .yardMount checkpointRead ms => Sys2Proof.Machine.execYardMount checkpointRead ms s
  | .checkpointWrite pages => Sys2Proof.Machine.execCheckpointWrite pages s
  | .powerFailCommit => Sys2Proof.Machine.execPowerFailCommit s
  | .patrolPass retry soft moved bad complete => Sys2Proof.Machine.execPatrolPass retry soft moved bad complete s
  | .faultReport f port => Sys2Proof.Machine.execFaultReport f port s
  | .dualCompare inst => Sys2Proof.Machine.execDualCompare inst s
  | .tiebreakCompare inst => Sys2Proof.Machine.execTiebreakCompare inst s
  | .kingpostLockstepMismatch => Sys2Proof.Machine.execKingpostLockstepMismatch s
  | .rotationSlot result => Sys2Proof.Machine.execRotationSlot result s
  | .rotationOverdue => Sys2Proof.Machine.execRotationOverdue s
  | .inputSample vin ma rails => Sys2Proof.Machine.execInputSample vin ma rails s
  | .railFault rail => Sys2Proof.Machine.execRailFault rail s
  | .tjReport region t => Sys2Proof.Machine.execTjReport region t s
  | .controlInterval activity headroom dram links => Sys2Proof.Machine.execControlInterval activity headroom dram links s
  | .secondMark => Sys2Proof.Machine.execSecondMark s
  | .ageTrimRise rail => Sys2Proof.Machine.execAgeTrimRise rail s
  | .capLatch => Sys2Proof.Machine.execCapLatch s
  | .governorCapReqWrite value => Sys2Proof.Machine.execGovernorCapReqWrite value s
  | .governorExtReqWrite value => Sys2Proof.Machine.execGovernorExtReqWrite value s
  | .eventOccurrence code arg extra => Sys2Proof.Machine.execEventOccurrence code arg extra s
  | .recorderPageCommit => Sys2Proof.Machine.execRecorderPageCommit s
  | .recorderCommitWrite value => Sys2Proof.Machine.execRecorderCommitWrite value s
  | .vinRise => Sys2Proof.Machine.execVinRise s
  | .enHigh => Sys2Proof.Machine.execEnHigh s
  | .enLow => Sys2Proof.Machine.execEnLow s
  | .powerOn b => Sys2Proof.Machine.execPowerOn b s
  | .railStepInLimits => Sys2Proof.Machine.execRailStepInLimits s
  | .railStepTimeout rail => Sys2Proof.Machine.execRailStepTimeout rail s
  | .sequencingRetry => Sys2Proof.Machine.execSequencingRetry s
  | .holdupCharged => Sys2Proof.Machine.execHoldupCharged s
  | .pkgReset b => Sys2Proof.Machine.execPkgReset b s
  | .kingpostFwSwitch => Sys2Proof.Machine.execKingpostFwSwitch s
  | .fwTrialConfirm => Sys2Proof.Machine.execFwTrialConfirm s
  | .fwTrialRevert selftestFailed => Sys2Proof.Machine.execFwTrialRevert selftestFailed s
  | .defaultProfileStart p => Sys2Proof.Machine.execDefaultProfileStart p s
  | .powerDownRailStep => Sys2Proof.Machine.execPowerDownRailStep s
  | .crashDischarge rail low high => Sys2Proof.Machine.execCrashDischarge rail low high s
  | .inputLoss => Sys2Proof.Machine.execInputLoss s
  | .gptpSyncTransmit port => Sys2Proof.Machine.execGptpSyncTransmit port s
  | .announceReceiptTimeout port => Sys2Proof.Machine.execAnnounceReceiptTimeout port s
  | .sillLockstepMismatch unit which => Sys2Proof.Machine.execSillLockstepMismatch unit which s
  | .regionCrossingAlert die region outside => Sys2Proof.Machine.execRegionCrossingAlert die region outside s
  | .pcieLinkTrained ptm => Sys2Proof.Machine.execPcieLinkTrained ptm s
  | .numvfsRaised n => Sys2Proof.Machine.execNumvfsRaised n s
  | .camControlReply f slot data => Sys2Proof.Machine.execCamControlReply f slot data s
  | .powerDownStorageLimit => Sys2Proof.Machine.execPowerDownStorageLimit s
  | .recoveryPackageReset => Sys2Proof.Machine.execRecoveryPackageReset s
  | .freeBlockErase pool count avg highest reserve failed => Sys2Proof.Machine.execFreeBlockErase pool count avg highest reserve failed s

end Sys2Proof.Machine
end

