-- ==== Sys2Proof/WellFormed.lean ====
section
/-! DEFINITION. Well-formed commands: every operand lies within the width or the range that the spec gives it. A command that is not
well-formed names no port, slot, register or unit of the device. -/

namespace Sys2Proof

/-- The end of BAR0's windows (R422). -/
def barSize : Nat := 0x240000

/-- A 32-bit value. -/
def word (v : Nat) : Bool := decide (v < 2 ^ 32)

/-- A function of the endpoint with a slot of its mailbox page (R417, R424). -/
def slotOk (f k : Nat) : Bool := decide (f < 64) && decide (k < 16)

/-- The size of an access in bytes (R17). -/
def sizeOk (n : Nat) : Bool := n == 1 || n == 2 || n == 4 || n == 8

/-- The bits that a hardware update names lie in one register. -/
def hwOk : HwUpdate → Bool
  | .incr m l _ | .put m l _ => decide (l ≤ m) && decide (m < 32)
  | .set mask => word mask

/-- Whether a command's operands are within their ranges. -/
def Instr.wf : Instr → Bool
  | .registerWrite function addr size value hw => decide (function < 64) && sizeOk size && decide (addr + size ≤ barSize) && decide (value < 2 ^ (8 * size)) && hw.all hwOk
  | .rcRead function addr size hw => decide (function < 64) && sizeOk size && decide (addr + size ≤ barSize) && hw.all hwOk
  | .lowWordReadLatch function addr => decide (function < 64) && decide (addr % 4 = 0) && decide (addr < barSize)
  | .referenceTick steps _ => steps.all (fun x => decide (x.1 < 64))
  | .ridgeIncCommit v | .ridgeStep v | .ridgeCtrlWrite v | .ppsOutCfgWrite v | .scribePegAddWrite v | .pegSetWrite v |
    .vlinkCtrlWrite _ v | .ownerSecretSubmit v | .ownerRekeySubmit v | .governorCapReqWrite v | .governorExtReqWrite v |
    .recorderCommitWrite v => word v
  | .disciplineSample p _ _ _ | .announceReceived p _ | .pdelayExchange p _ _ _ _ | .gclConfigApply p |
    .gateIntervalEnd p | .gptpSyncTransmit p | .announceReceiptTimeout p => decide (p < 12)
  | .ppsInEdge _ | .holdoverEntry | .holdoverExpiry | .ppsPulseEnd | .notBeforePassed _ | .epochApplyTime | .epochCheck |
    .epochRevert | .epochRevertCheck | .signalStale _ | .refImuFault _ | .xchkWindowEval | .planerIngest | .poseRefFix _ |
    .sliceRelease _ | .voxelFrameEmit | .taskStart _ _ _ | .taskEnd _ _ _ | .stepBoundReached _ _ | .provisionalStart _ |
    .instanceCommit | .instanceDiscard | .streamStallEnd _ _ | .stallTimeout _ _ | .raftCycleStart _ | .raftCycleEnd _ _ |
    .ledgerCollective _ | .readResume _ | .plumbCycleStart | .plumbDeadline _ _ _ | .plumbCycleEnd _ | .tallyAssociate _ |
    .tallyUpdate _ | .validOutReadback _ | .safeStateHeartbeat | .commandAccept | .storageCommandComplete _ _ _ _ _ |
    .returnEraseComplete | .pcieLinkReset | .foremanHeartbeat | .foremanWatchdog | .foremanResume | .ownerSecretDecision |
    .serviceToken _ | .secCounterRaise | .bootExcursion | .zeroingComplete | .journalWindowExpiry | .yardMount _ _ |
    .checkpointWrite _ | .powerFailCommit | .dualCompare _ | .tiebreakCompare _ | .kingpostLockstepMismatch |
    .rotationSlot _ | .rotationOverdue | .secondMark | .capLatch | .recorderPageCommit | .vinRise | .enHigh | .enLow |
    .railStepInLimits | .sequencingRetry | .holdupCharged | .kingpostFwSwitch | .fwTrialConfirm | .fwTrialRevert _ |
    .powerDownRailStep | .inputLoss | .pcieLinkTrained _ | .powerDownStorageLimit | .recoveryPackageReset => true
  | .replicaCorrection r _ | .tjReport r _ => decide (r < 23)
  | .markCtrlWrite m v => decide (m < 1024) && word v
  | .markFire m c => decide (m < 1024) && c.all word
  | .epochUnitLatch u => decide (u < 14)
  | .gclConfigChange p v => decide (p < 12) && word v
  | .egressFrameStart p q => decide (p < 14) && decide (q < 8)
  | .canTxStart c k _ => decide (c < 4) && decide (k < 16)
  | .pocCommand p v | .camPortEnableWrite p v => decide (p < 16) && word v
  | .pocRampComplete p _ _ _ | .pocAutoRetry p | .aphyPacketReceived p _ _ | .aphyLockLoss p | .aphyLinkUp p |
    .cameraAbsentTimeout p | .frameTimeout p | .patternCheckDone p _ _ => decide (p < 16)
  | .pocFaultDetected p c => decide (p < 16) && decide (c < 128)
  | .pocFaultClear p v r => decide (p < 16) && word v && decide (r < 128)
  | .frameStartReceived p vc e _ _ | .frameEndReceived p vc e => decide (p < 16) && decide (vc < 4) && decide (e < 3)
  | .lineReceived p vc dt f _ => decide (p < 16) && decide (vc < 4) && decide (dt < 64) && decide (f < 5)
  | .checkerSelftestIdle c _ => decide (c < 24)
  | .ethFrameReceived p _ _ _ | .ethLinkDown p _ | .ethLinkUp p _ _ _ => decide (p < 14)
  | .jigPacket p _ _ _ | .sweepTimeout p _ => decide (p < 8)
  | .synthBlockInject p d => decide (p < 8) && d.all (fun x => decide (x.2 < 256))
  | .canFrameReceived c _ _ _ d => decide (c < 4) && decide (d.length ≤ 64)
  | .canErrorFrame c _ | .canBusoffRecovery c => decide (c < 4)
  | .refImuSample _ r a _ => decide (r.length = 3) && decide (a.length = 3)
  | .baySetPointWrite b v => decide (b < 4) && word v
  | .instanceNamed b => decide (b < 4)
  | .shadowLoadComplete b t | .trussSelftestStart b t | .trussSelftestDone b t _ => decide (b < 4) && decide (t < 16)
  | .ringPopRegisterRead u _ => decide (u < 3)
  | .ledgerOpen _ bs bp | .ledgerFork _ bs bp | .ledgerAppend _ bs bp | .ledgerRead _ bs bp | .ledgerClose _ bs bp |
    .ledgerRefill _ bs bp => bs.all (fun q => decide (q < 16384)) && bp.all (fun q => decide (q < 2 ^ 22))
  | .recomputeDeadline p => decide (p < 2 ^ 22)
  | .streamCapture k | .captureComplete k | .segmentLaunch k | .pcieDelivery k _ | .windowDecision k => decide (k < 32)
  | .mbDoorbell f v => decide (f < 64) && word v
  | .hello f k | .goodbye f k | .ping f k | .limits f k | .memAlloc f k | .memRelease f k | .memShare f k |
    .memCopyIn f k | .memCopyOut f k | .copyComplete f k _ _ | .tensorCreate f k | .tensorDestroy f k | .tensorQuery f k |
    .ringCreate f k | .ringDestroy f k | .ringQuery f k | .cacheCreate f k | .cacheDestroy f k | .ledgerQuery f k |
    .quotaSet f k | .pegAlloc f k | .pegRelease f k | .pegGrant f k | .pegAdd f k | .pegSet f k | .pegRead f k |
    .pegWait f k | .waitQuery f k | .graphLoad f k | .graphStart f k | .graphStop f k | .graphAbort f k |
    .graphUnload f k | .graphQuery f k | .plumbRegister f k | .plumbRelease f k | .tallyRegister f k | .tallyRelease f k |
    .camStage f k | .camPower f k | .camControl f k | .netPortStage f k | .fwdWrite f k | .scanStage f k |
    .signalMapWrite f k | .canStage f k | .canSlotWrite f k | .imuStage f k | .unitStage f k | .gclWrite f k |
    .timeRead f k | .timeCorrelate f k _ _ | .markAlloc f k | .markRelease f k | .markArm f k | .markDisarm f k |
    .gptpSet f k | .epochApply f k | .epochDiscard f k | .epochStatus f k | .streamOpen f k | .streamStage f k |
    .streamHostRing f k | .streamClose f k | .streamQuery f k | .vlinkSet f k | .powerRead f k | .setPointStage f k |
    .capSet f k | .throttleRead f k | .throttleRequest f k | .nsRead f k | .nsWrite f k | .nsFlush f k | .modelPut f k |
    .modelGet f k | .storageInfo f k | .recSummary f k | .recRead f k _ | .eventNotify f k | .safetyStatus f k |
    .safeStateRelease f k | .selftestLog f k | .fwStage f k | .fwActivate f k | .adapterStore f k _ | .adapterStage f k |
    .domainRelease f k | .foremanLog f k | .returnPrepare f k | .camControlReply f k _ => slotOk f k
  | .ringPush f k u | .ringPop f k u _ => slotOk f k && decide (u < 3)
  | .waitTimeout f w => decide (f < 64) && decide (w < 64)
  | .functionLevelReset f | .busMasterDisable f => decide (f < 64)
  | .numvfsLowered n | .numvfsRaised n => decide (n < 64)
  | .domainClose d | .domainQuiesce d | .domainResume d | .domainSettled d => decide (d < 64)
  | .scrubRead a k _ _ => decide (a % 8 = 0) && decide (a < 2 ^ 46) && decide (k < 3)
  | .purlinLinkDown b p | .purlinLinkUp b p _ => decide (b < 4) && decide (p < 3)
  | .wordlineVerified _ _ _ r | .journalPageVerified _ r => decide (r ≤ 10000)
  | .patrolPass _ _ m b _ => m.all (fun x => decide (x.1 < 2)) && b.all (fun x => decide (x.1 < 64))
  | .faultReport f p => decide (f < 29) && decide (p < 16)
  | .inputSample _ _ r => decide (r.length = 11)
  | .railFault r | .railStepTimeout r | .crashDischarge r _ _ => decide (r < 11)
  | .controlInterval a h d l => decide (a.length = 11) && decide (h.length = 5) && decide (d.length = 4) && decide (l.length = 4)
  | .ageTrimRise r => decide (r < 5)
  | .eventOccurrence c a x => decide (c < 65536) && word a && decide (x < 2 ^ 64)
  | .powerOn b | .pkgReset b => decide (b.bays < 16) && decide (b.drams < 16) && decide (b.nand < 4)
  | .defaultProfileStart p => p.cams.all (fun c => decide (c.port < 16)) && p.scans.all (fun c => decide (c.port < 8)) && p.marks.all (fun m => decide (m.1 < 32))
  | .sillLockstepMismatch u _ => decide (u < 7)
  | .regionCrossingAlert d r _ => decide (d < 5) && decide (r < 6)
  | .freeBlockErase p _ _ _ r _ => decide (p < 2) && decide (r ≤ 10000)

end Sys2Proof
end

