-- ==== Sys2Proof/Claims.lean ====
section
/-! DEFINITION. The words in which the statements speak: completing, being answered, and what stays as it was. -/

namespace Sys2Proof.Machine
open Sys2Proof

/-- `exec` answers a next state of which `P` holds. -/
def Completes (i : Instr) (s : State) (P : State → Prop) : Prop := ∃ t, exec i s = .next t ∧ P t

/-- Register words agree at every address but those that `but` picks. -/
def SameWords (s t : State) (but : Nat → Bool) : Prop := ∀ a, but a = false → tget a t.regs = tget a s.regs

/-- An address of the recorder's window. -/
def inRecorder (a : Nat) : Bool := decide (0xD0000 ≤ a) && decide (a < 0xE0000)

/-- An address of the mailbox page of function `f`. -/
def inPage (f a : Nat) : Bool := decide (0x200000 + 0x1000 * f ≤ a) && decide (a < 0x201000 + 0x1000 * f)

/-- An address of the 64 KiB window from `w`. -/
def inWindow (w a : Nat) : Bool := decide (w ≤ a) && decide (a < w + 0x10000)

/-- An address of the words that events, faults, the safe state, the pair and the counts of refusals use: those of the recorder, of
Kingpost, of the vehicle link and of the Fence. -/
def inSafety (a : Nat) : Bool :=
  inRecorder a || inWindow 0xE0000 a || inWindow 0xA0000 a || (decide (0x33804 ≤ a) && decide (a < 0x33820))

/-- From `s` to `t` nothing happens but events, with the interrupts that announce them. -/
def Logged (s t : State) : Prop := t = { s with regs := t.regs, recd := t.recd, emitted := t.emitted } ∧ SameWords s t inRecorder

/-- From `s` to `t` nothing happens but events, reports of faults, and what the safe state does. -/
def Reported (s t : State) : Prop :=
  t = { s with regs := t.regs, recd := t.recd, emitted := t.emitted, kp := t.kp, out.slot15 := t.out.slot15 } ∧ SameWords s t inSafety

/-- Slot `k` of function `f` holds a command with opcode `op` that Foreman has accepted and that nothing has recorded or silenced, and
the mailbox serves. -/
def Ready (f k op : Nat) (s : State) : Prop :=
  tget (16 * f + k) s.mb.accepted = some { opcode := op } ∧ mailboxServes s = true ∧ f < 64 ∧ k < 16

/-- The response with status `st` stands in slot `k` of function `f`, which is done and no longer busy or accepted (R424, R426). -/
def Answered (f k st : Nat) (t : State) : Prop :=
  tget (16 * f + k) t.mb.accepted = none ∧ bits (rdWord t (slotAddr f k + 128)) 31 16 = st ∧
    bit (rd t (MB_DONE f)) k = true ∧ bit (rd t (MB_BUSY f)) k = false

/-- `t` is `u` but for the answer in a slot: the words of the page, MSI-X messages and the accepted entry. -/
def AfterAnswer (f k : Nat) (u t : State) : Prop :=
  t = { u with mb.accepted := tdel (16 * f + k) u.mb.accepted, regs := t.regs, emitted := t.emitted } ∧ SameWords u t (inPage f)

/-- The command answers a next state: it leaves `u`, and the slot is answered with status `st`. -/
def Answers (i : Instr) (f k st : Nat) (s u : State) : Prop := Completes i s (fun t => Answered f k st t ∧ AfterAnswer f k u t)

/-- The same, where `P` also holds of the state with the response. -/
def AnswersWith (i : Instr) (f k st : Nat) (s u : State) (P : State → Prop) : Prop :=
  Completes i s (fun t => Answered f k st t ∧ AfterAnswer f k u t ∧ P t)

/-- A result of `n` bytes at offset `o` of the response's results (R424, R425). -/
def result (t : State) (f k o n : Nat) : Nat := slotNat t f k (144 + o) n

/-- An address of the eight words of mark `m`. -/
def inMark (m a : Nat) : Bool := decide (0x14000 + 0x20 * m ≤ a) && decide (a < 0x14020 + 0x20 * m)

/-- The write is ignored and counted in window `w`, and nothing else happens (R17, R27). -/
def Ignored (w a : Nat) (s t : State) : Prop :=
  rd t (BLOCK_IGNORED_WRITES w) = min 0xFFFFFFFF (rd s (BLOCK_IGNORED_WRITES w) + 1) ∧
  rd t (BLOCK_IGNORED_ADDR w) = a - w ∧ t = { s with regs := t.regs } ∧
  SameWords s t (fun a => decide (w + 0xFFF8 ≤ a) && decide (a < w + 0x10000))

/-- The Scribe has no work to apply, and nothing waits on a peg. -/
def Quiet (s : State) : Prop := s.scribe.work = [] ∧ s.scribe.insts = [] ∧ s.mb.waits = []

/-- Every byte of memory outside the `n` bytes from `a` reads as before. -/
def SameMemory (s t : State) (a n : Nat) : Prop := ∀ x, x < a ∨ a + n ≤ x → memGet t x = memGet s x

/-- Words of camera port `n`. -/
def inCam (n a : Nat) : Bool := decide (0x21000 + 0x100 * n ≤ a) && decide (a < 0x21100 + 0x100 * n)

/-- Instance `i` of the one node of a graph is the only work of the Scribe: it depends on nothing, signals nothing, records nothing,
and is the last of its node. -/
def Lone (s : State) (i : Nat) (x : Inst) (g : Graph) (nd : Node) : Prop :=
  s.scribe.work = [] ∧ s.scribe.insts = [(i, x)] ∧ s.mb.waits = [] ∧ tget x.graph s.scribe.graphs = some g ∧ x.node = 0 ∧ x.n = 0 ∧
    g.nodes = [nd] ∧ nd.deps = [] ∧ nd.sigs = [] ∧ g.compRing = none ∧ g.iterations = 1 ∧ x.firstSignal = none

/-- That instance has reached DONE: it is gone, and its graph has counted it (R283). -/
def Ended (s t : State) (x : Inst) (g : Graph) : Prop :=
  t.scribe.insts = [] ∧ tget x.graph t.scribe.graphs = some { g with done := min 0xFFFFFFFF (g.done + 1) } ∧ t.scribe.pegs = s.scribe.pegs

/-- Instance `i` is ready at the head of a unit's queue, it is a lone one, neither provisional nor dual, and has not started. -/
def AtHead (s : State) (kind i : Nat) (x : Inst) (g : Graph) (nd : Node) : Prop :=
  Lone s i x g nd ∧ unitReady s kind i = true ∧ nd.kind = kind ∧ nd.flags = 0 ∧ x.prov = false ∧ x.runs = [{ bay := nd.bay }]

/-- The same instance, started: its one run goes on in a unit. -/
def InUnit (s : State) (kind i : Nat) (x : Inst) (g : Graph) (nd : Node) : Prop :=
  Lone s i x g nd ∧ nd.kind = kind ∧ nd.flags = 0 ∧ x.prov = false ∧ x.st = .running ∧ x.runs = [{ bay := nd.bay, named := true, started := true }]

/-- A Ledger instance at the head of the queue passes every check; its operation is `op`, and it has one entry. -/
def LedgerBegins (s : State) (op i : Nat) (x : Inst) (g : Graph) (nd : Node) : Prop :=
  AtHead s 5 i x g nd ∧ x.ledgerLog = [] ∧ s.ledger.runs = [] ∧ s.ledger.held = [] ∧ ledgerRefusal s g nd = none ∧
    loOp (readBytes s nd.plan 128) = op ∧ (op = 7 ∨ loEntries s g.domain nd (readBytes s nd.plan 128) = 1)

/-- The instance has ended, the serial of operations has advanced by one, and no operation is in progress (R324, R339). -/
def LedgerEnds (s t : State) (x : Inst) (g : Graph) : Prop :=
  Ended s t x g ∧ t.ledger.runs = [] ∧ t.ledger.serial = (s.ledger.serial + 1) % 2 ^ 32 ∧
    rd t LEDGER_OPS = min 0xFFFFFFFF (rd s LEDGER_OPS + 1)

/-- A word of an operation's first input tensor. -/
def ledgerWord (s : State) (g : Graph) (nd : Node) (ix : List Nat) : Nat :=
  loWord s g.domain (loGet s g.domain nd (readBytes s nd.plan 128) 0) ix

/-- The Yard is mounted and serves, with nothing accepted that has not ended. -/
def YardAtRest (s : State) : Prop := yardServes s = true ∧ s.power.state = .run ∧ s.yard.queue = [] ∧ s.yard.page = [] ∧ s.yard.closing = []

/-- The device has started again after a package reset with this cause and end code: what the reset clears is clear, and what it keeps is
kept (R490, R608). -/
def Restarted (cause code : Nat) (s t : State) : Prop :=
  rd t KINGPOST_RESET_CAUSE % 4096 = cause + 256 * code ∧ bit (rd t NETIN_VLINK_STATE) 0 = false ∧ t.mem = [] ∧ t.poison = [] ∧ t.scribe = {} ∧ t.live = [] ∧ t.ridge = {} ∧
    t.memory = {} ∧ t.pending = s.pending ∧ t.yard.blocks = s.yard.blocks ∧ t.yard.models = s.yard.models ∧ t.power.retained.cap = s.power.retained.cap ∧
    t.sec.check = s.sec.check ∧ t.power.retained.ended = none

/-- The rails are down, and the end record holds this code (R609, R625). -/
def PoweredOff (code : Nat) (s t : State) : Prop :=
  t.power.state = (if s.power.vin < 6000 then .off else .standby) ∧ t.power.retained.ended = some (code, s.recd.life.s, s.ridge.ns) ∧ t.mem = [] ∧ t.scribe = {} ∧ t.live = [] ∧
    t.mb.foremanUp = false ∧ t.mb.linkUp = false ∧ t.pending = s.pending ∧ t.yard.blocks = s.yard.blocks ∧ t.sec.fuses = s.sec.fuses

/-- No fuse of `a` is whole in `b`, and the count of the security counter has not fallen (R491, R500). -/
def FusesKept (a b : Fuses) : Prop :=
  a.secCounter ≤ b.secCounter ∧ (∀ i, bit a.keyRevoke i = true → bit b.keyRevoke i = true) ∧ (a.returnPending = true → b.returnPending = true) ∧
    (a.returned = true → b.returned = true) ∧ (a.keyKill = true → b.keyKill = true)

end Sys2Proof.Machine
end

