-- ==== Sys2Proof/Safety.lean ====
section
/-! DEFINITION. What counts as a safe run: a run that never stops. -/

namespace Sys2Proof
open Sys2Proof.Machine

/-- A state from which every one of the next `k` steps answers a next state. -/
def Safe : Nat → State → Prop
  | 0, _ => True
  | k + 1, s => match step s with
    | .next t => Safe k t
    | .fault _ => False
    | .refused _ => False

end Sys2Proof
end

