-- ==== Sys2Proof/Certificates/Slice0/Obligations.lean ====
section
/-! DEFINITION. The statements about the model, one definition each. -/

open Sys2Proof Sys2Proof.Machine

/-- A step carries out the command at the front of the queue. A step on a state whose queue begins with a command is exec of that command on the state with the rest of the queue; on an empty queue the block idles, which is the choice of the model (assumption log 5). -/
def Obligations.StepRunsTheFrontCommand : Prop :=
  (∀ (s : State) (c : Instr) (rest : List Instr), s.pending = c :: rest → step s = exec c { s with pending := rest }) ∧
  (∀ s : State, s.pending = [] → step s = .next s)

/-- The state after reset. After reset Ridge is zero and runs free as grandmaster with the increment of 10 ns, no memory word holds a value other than zero, no peg, ring, graph, tensor, allocation or window exists, no mode change is in progress, and no command waits. That the boot has ended, in RUN, with Foreman serving and the default profile not started is the choice of the model (assumption log 1). -/
def Obligations.ResetState : Prop :=
  State.reset.ridge.ns = 0 ∧ State.reset.ridge.frac = 0 ∧ State.reset.ridge.inc = 10 * 2 ^ 32 ∧ loopState State.reset = 0 ∧
  gmActive State.reset = true ∧ (∀ a, memGet State.reset a = 0) ∧ State.reset.poison = [] ∧ State.reset.scribe.pegs = [] ∧
  State.reset.scribe.rings = [] ∧ State.reset.scribe.graphs = [] ∧ State.reset.tensors.table = [] ∧ State.reset.memory.allocs = [] ∧
  (∀ w, w < 256 → winValid State.reset w = false) ∧ changing State.reset = false ∧ State.reset.pending = [] ∧
  inRun State.reset = true ∧ State.reset.mb.foremanUp = true ∧ bit (rd State.reset SILL_PROFILE) 0 = false

/-- A software write acts on each field of a register by its access type. For every row of the register map, every field of it that is not reserved, every old word and every written word, with no coinciding hardware update: a RW field takes the written bits, a RWL field does so unless its lock is set, a W1C field loses the bits written 1, a W1S field gains them, and a RO, RC, HWO or WO field keeps its bits. -/
def Obligations.FieldsWriteByAccessType : Prop :=
  ∀ (a : Nat) (r : RegRow) (f : Fld) (locked : Bool) (old v : Nat), findRow a = some r → f ∈ r.flds → f.acc ≠ .res → old < 2 ^ 32 →
    let w := (wordWrite r.flds locked old v []).1
    let o := bits old f.msb f.lsb
    let x := bits v f.msb f.lsb
    bits w f.msb f.lsb = (match f.acc with
      | .rw => x
      | .rwl => if locked then o else x
      | .w1c => o - (o &&& x)
      | .w1s => o ||| x
      | _ => o)

/-- Register writes and reads, one register of each kind. Over a link that is up, for the owner function: a write to YARD.EVENTS (W1C) clears the bits written 1 but keeps those that hardware sets in the same window, and a write to RIDGE.LOCK_CFG (RW) stores the value; a write of one or two bytes, or one to the HWO register YARD.STATUS, changes no word of the window but the count and the address of ignored writes. A read of the RC register YARD.HOST_READ returns its value and leaves the coinciding increment. A read of RIDGE.TIME_LO returns the low word of Ridge and latches the high word and the fraction of the same step. Nothing else changes. -/
def Obligations.RegisterAccesses : Prop :=
  ∀ s : State, hostReaches s 0 = true →
    (∀ v m, v < 2 ^ 32 → m < 2 ^ 7 → Completes (.registerWrite 0 0xB0004 4 v [.set m]) s (fun t =>
      (∀ i, i < 7 → bit (rd t YARD_EVENTS) i = (bit m i || (bit (rd s YARD_EVENTS) i && !bit v i))) ∧
      t = { s with regs := t.regs } ∧ SameWords s t (fun a => decide (a = 0xB0004)))) ∧
    (∀ v, v < 2 ^ 32 → Completes (.registerWrite 0 RIDGE_LOCK_CFG.addr 4 v []) s (fun t =>
      rd t RIDGE_LOCK_CFG = v ∧ t = { s with regs := t.regs } ∧ SameWords s t (fun a => decide (a = RIDGE_LOCK_CFG.addr)))) ∧
    (∀ v n, n = 1 ∨ n = 2 → Completes (.registerWrite 0 RIDGE_LOCK_CFG.addr n v []) s (fun t =>
      rd t (BLOCK_IGNORED_WRITES 0x10000) = min 0xFFFFFFFF (rd s (BLOCK_IGNORED_WRITES 0x10000) + 1) ∧
      rd t (BLOCK_IGNORED_ADDR 0x10000) = RIDGE_LOCK_CFG.addr - 0x10000 ∧
      t = { s with regs := t.regs } ∧ SameWords s t (fun a => decide (0x1FFF8 ≤ a ∧ a < 0x20000)))) ∧
    (∀ v, v < 2 ^ 32 → Completes (.registerWrite 0 YARD_STATUS.addr 4 v []) s (fun t =>
      rd t (BLOCK_IGNORED_WRITES 0xB0000) = min 0xFFFFFFFF (rd s (BLOCK_IGNORED_WRITES 0xB0000) + 1) ∧
      rd t (BLOCK_IGNORED_ADDR 0xB0000) = 1 ∧
      t = { s with regs := t.regs } ∧ SameWords s t (fun a => decide (0xBFFF8 ≤ a ∧ a < 0xC0000)))) ∧
    (∀ n, n < 2 ^ 32 → Completes (.rcRead 0 YARD_HOST_READ.addr 4 [.incr 31 0 n]) s (fun t =>
      t.emitted = s.emitted ++ [.readValue YARD_HOST_READ.addr (rd s YARD_HOST_READ)] ∧ rd t YARD_HOST_READ = n ∧
      t = { s with regs := t.regs, emitted := t.emitted } ∧ SameWords s t (fun a => decide (a = YARD_HOST_READ.addr)))) ∧
    Completes (.lowWordReadLatch 0 RIDGE_TIME_LO.addr) s (fun t =>
      t.emitted = s.emitted ++ [.readValue RIDGE_TIME_LO.addr (s.ridge.ns % 2 ^ 32)] ∧
      tget RIDGE_TIME_HI.addr t.latch = some (BitVec.ofNat 32 (s.ridge.ns / 2 ^ 32 % 2 ^ 32)) ∧
      tget RIDGE_TIME_FRAC.addr t.latch = some (BitVec.ofNat 32 s.ridge.frac) ∧ t = { s with latch := t.latch, emitted := t.emitted })

/-- A reference tick adds the increment, and a step that was accepted, to Ridge. For every state, a reference tick adds to the 96-bit count of Ridge the increment in force, which is the one committed since the last tick if there is one, within the trim limit; the carry out of bit 95 is discarded; an accepted step is then added to ns modulo 2^64, unless it is negative and Ridge is pinned, or a mode change is in progress. It takes up the committed increment and leaves neither an increment nor a step to come. The tick changes nothing but Ridge, marks that are due, step tokens and steps of the fabric, the ticks that the Governor counts, and registers and events that show these. -/
def Obligations.ReferenceTickAddsTheIncrement : Prop :=
  ∀ (s : State) (steps : List (Nat × Nat)) (waiting : Nat), Completes (.referenceTick steps waiting) s (fun t =>
    let span := 10 * 2 ^ 32 * fld s RIDGE_TRIM_LIMIT 15 0 / 1000000
    let i := match s.ridge.incNext with | some j => max (10 * 2 ^ 32 - span) (min (10 * 2 ^ 32 + span) j) | none => s.ridge.inc
    let sum := (s.ridge.ns * 2 ^ 32 + s.ridge.frac + i) % 2 ^ 96
    t.ridge.frac = sum % 2 ^ 32 ∧
    t.ridge.ns = (match s.ridge.stepNext with
      | some e => if (e < 0 ∧ pinned s = true) ∨ s.ridge.phase ≠ .idle then sum / 2 ^ 32 else (((sum / 2 ^ 32 : Nat) + e) % 2 ^ 64).toNat
      | none => sum / 2 ^ 32) ∧
    t.ridge.inc = i ∧ t.ridge.incNext = none ∧ t.ridge.stepNext = none ∧ t.ridge.phase = s.ridge.phase ∧
    t = { s with regs := t.regs, ridge := t.ridge, fab := t.fab, gov := t.gov, recd := t.recd, emitted := t.emitted })

/-- Writes that commit an increment, a step and a new source or role of Ridge. The write of INC_INT commits both words, taken within 10 ns × (1 ± trim_limit), for the next reference tick, with integ following it where loop_en is 1. The write of STEP_HI commits the signed 64-bit step, or is ignored and counted where the step is negative and Ridge pinned, or a mode change is in progress. A write of RIDGE.CTRL with a reserved source, role or port is ignored and counted; any other stores source, role, port and loop_en, sets gm_active to 1 for role grandmaster and to 0 for role follower, and enters FREE for a free-running source, or for gPTP with gm_active 1, and ACQUIRE otherwise. -/
def Obligations.RidgeRegisterWrites : Prop :=
  ∀ (s : State) (v : Nat), v < 2 ^ 32 →
    Completes (.ridgeIncCommit v) s (fun t =>
      let frac := match tget RIDGE_INC_FRAC.addr s.staged with | some w => w.toNat | none => rd s RIDGE_INC_FRAC
      let span := 10 * 2 ^ 32 * fld s RIDGE_TRIM_LIMIT 15 0 / 1000000
      let i := max (10 * 2 ^ 32 - span) (min (10 * 2 ^ 32 + span) (v % 256 * 2 ^ 32 + frac))
      (bit (rd s RIDGE_CTRL) 2 = false → t.ridge.integ = s.ridge.integ) ∧
      (bit (rd s RIDGE_CTRL) 2 = true → t.ridge.integ = incTrim i) ∧
      t = { s with staged := tdel RIDGE_INC_FRAC.addr s.staged, ridge.incNext := some i, ridge.integ := t.ridge.integ }) ∧
    (let lo := match tget RIDGE_STEP_LO.addr s.staged with | some w => w.toNat | none => 0
     let u := { s with staged := tdel RIDGE_STEP_LO.addr s.staged }
     Completes (.ridgeStep v) s (fun t =>
       if (2 ^ 31 ≤ v ∧ pinned s = true) ∨ s.ridge.phase ≠ .idle then Ignored 0x10000 RIDGE_STEP_HI.addr u t
       else t = { u with ridge.stepNext := some (toSigned 64 (v * 2 ^ 32 + lo)), ridge.stepSoft := true })) ∧
    Completes (.ridgeCtrlWrite v) s (fun t =>
      if bits v 1 0 = 3 ∨ bits v 5 4 = 3 ∨ 12 ≤ bits v 11 8 then Ignored 0x10000 RIDGE_CTRL.addr s t
      else ridgeSource t = bits v 1 0 ∧ ridgeRole t = bits v 5 4 ∧ fld t RIDGE_CTRL 11 8 = bits v 11 8 ∧
        bit (rd t RIDGE_CTRL) 2 = bit v 2 ∧ (bits v 5 4 = 0 → gmActive t = true) ∧ (bits v 5 4 = 1 → gmActive t = false) ∧
        loopState t = (if bits v 1 0 = 0 ∨ (bits v 1 0 = 1 ∧ gmActive t = true) then 0 else 1) ∧
        t = { s with regs := t.regs, ridge := t.ridge } ∧ t.ridge.ns = s.ridge.ns ∧ t.ridge.inc = s.ridge.inc ∧
        SameWords s t (fun a => decide (a = RIDGE_CTRL.addr ∨ a = RIDGE_STATUS.addr)))

/-- Samples of a reference, and holdover. A Sync on the followed port is a sample of error e = origin + correction + link delay − stamp, and an accepted edge of PPS_IN one of e = nearest whole second − stamp; PHASE_ERR shows e, saturated, and with loop_en 1 and |e| within excess_us the terms integ and trim take the values of the rule, clamped to the trim limit, and FREQ_TRIM shows trim. A PPS edge outside 1 ms after the first is only counted. HOLDOVER is entered from ACQUIRE or LOCKED after loss_samples intervals without a sample, and expires after limit_s. Nothing beside Ridge, its registers and its histogram changes. -/
def Obligations.Discipline : Prop :=
  (∀ (s : State) (port stamp : Nat) (o c : Int), ridgeSource s = 1 → gmActive s = false → followed s = some port →
    Completes (.disciplineSample port stamp o c) s (fun t =>
      let e : Int := o + c + (tgetD port 0 s.ridge.linkDelay : Nat) - stamp
      let lim := trimLimit s
      let integ := max (-lim) (min lim (s.ridge.integ + fld s RIDGE_DISC_GAIN 31 16 * e))
      rd t RIDGE_PHASE_ERR = ofSigned 32 (max (-(2 ^ 31 - 1)) (min (2 ^ 31 - 1) e)) ∧ t.ridge.lastSample = s.ridge.ns ∧
      (e.natAbs ≤ fld s RIDGE_TRIM_LIMIT 31 16 * 1000 → bit (rd s RIDGE_CTRL) 2 = true → t.ridge.integ = integ ∧
        t.ridge.trim = max (-lim) (min lim (integ + fld s RIDGE_DISC_GAIN 15 0 * e)) ∧ rd t RIDGE_FREQ_TRIM = ofSigned 32 t.ridge.trim) ∧
      t = { s with regs := t.regs, ridge := t.ridge, recd := t.recd } ∧ t.ridge.ns = s.ridge.ns ∧
      SameWords s t (fun a => decide (0x10000 ≤ a ∧ a < 0x10044)))) ∧
  (∀ (s : State) (stamp : Nat), ridgeSource s = 2 → Completes (.ppsInEdge stamp) s (fun t =>
    let e : Int := (nearestSecond stamp : Nat) - stamp
    if s.ridge.ppsSeen = false ∨ e.natAbs ≤ 1000000 then
      rd t RIDGE_PHASE_ERR = ofSigned 32 e ∧ t.ridge.ppsSeen = true ∧ rd64 t RIDGE_PPS_CAP_LO RIDGE_PPS_CAP_HI = stamp % 2 ^ 64 ∧
        t = { s with regs := t.regs, ridge := t.ridge, recd := t.recd }
    else rd t RIDGE_PPS_MISSED = min 0xFFFFFFFF (rd s RIDGE_PPS_MISSED + 1) ∧ t = { s with regs := t.regs } ∧
      SameWords s t (fun a => decide (a = RIDGE_PPS_MISSED.addr)))) ∧
  (∀ s : State, (loopState s = 1 ∨ loopState s = 2) → s.ridge.sampled = true →
    s.ridge.lastSample + max 1 (fld s RIDGE_LOCK_CFG 23 16) * sampleInterval s ≤ s.ridge.ns →
    Completes .holdoverEntry s (fun t => loopState t = 3 ∧ t.ridge.holdSince = s.ridge.ns ∧ fld t RIDGE_HOLDOVER 31 16 = 0 ∧
      t = { s with regs := t.regs, ridge := t.ridge } ∧ t.ridge.ns = s.ridge.ns)) ∧
  (∀ s : State, loopState s = 3 → s.ridge.holdSince + fld s RIDGE_HOLDOVER 15 0 * 1000000000 ≤ s.ridge.ns →
    Completes .holdoverExpiry s (fun t => loopState t = 4 ∧ t = { s with regs := t.regs } ∧
      SameWords s t (fun a => decide (a = RIDGE_STATUS.addr))))

/-- Announce messages, peer delay and Sync messages. Under role BMCA the part is grandmaster after an Announce, or after a receipt timeout, just where no Announce held is of a better grandmaster; a message that has passed 255 or more steps, or this part itself, changes nothing. A first peer-delay exchange makes the link delay half the round trip less the turn-around of the peer. A port that the part masters as grandmaster transmits a Sync with the Ridge time and the next sequence number. -/
def Obligations.TimeAwareSystem : Prop :=
  (∀ (s : State) (port : Nat) (a : Announce), port < 12 → a.stepsRemoved < 255 → a.path.contains Config.clockIdentity.toNat = false →
    ridgeRole s = 2 → Completes (.announceReceived port a) s (fun t =>
      t.ridge.announces = tput port a s.ridge.announces ∧
      (gmActive t = true ↔ ∀ p ∈ tput port a s.ridge.announces, gmVector (ownAnnounce s) ≤ gmVector p.2) ∧
      t = { s with regs := t.regs, ridge := t.ridge } ∧ SameWords s t (fun a => decide (a = RIDGE_STATUS.addr)))) ∧
  (∀ (s : State) (port : Nat) (a : Announce), 255 ≤ a.stepsRemoved → Completes (.announceReceived port a) s (fun t => t = s)) ∧
  (∀ (s : State) (port : Nat), ridgeRole s = 2 → Completes (.announceReceiptTimeout port) s (fun t =>
    t.ridge.announces = tdel port s.ridge.announces ∧
    (gmActive t = true ↔ ∀ p ∈ tdel port s.ridge.announces, gmVector (ownAnnounce s) ≤ gmVector p.2) ∧
    t = { s with regs := t.regs, ridge := t.ridge } ∧ SameWords s t (fun a => decide (a = RIDGE_STATUS.addr)))) ∧
  (∀ (s : State) (port : Nat) (t1 t2 t3 t4 : Int), port < 12 → tget port s.ridge.pdelayLast = none → tget port s.ridge.rateRatio = none →
    Completes (.pdelayExchange port t1 t2 t3 t4) s (fun t =>
      tget port t.ridge.linkDelay = some (roundDiv (t4 - t1 - (t3 - t2)) 2).toNat ∧ tget port t.ridge.pdelayLast = some (t3, t4) ∧
      (∀ q, q ≠ port → tget q t.ridge.linkDelay = tget q s.ridge.linkDelay) ∧ t = { s with ridge := t.ridge } ∧ t.ridge.ns = s.ridge.ns)) ∧
  (∀ (s : State) (port : Nat), port < 12 → followed s = none → gmActive s = true → Completes (.gptpSyncTransmit port) s (fun t =>
    t = { s with ridge.syncSeq := (s.ridge.syncSeq + 1) % 65536,
                 emitted := s.emitted ++ [.gptpSync port s.ridge.syncSeq s.ridge.ns 0] }))

/-- PPS_OUT and the replicas of Ridge. Setting enable of PPS_OUT arms mark 1,023 for the first whole second at least 1 µs away under the skip policy, and changes no other word; a pulse falls when its width has passed. A correction of a replica by 3 ns or less, of a region whose last two were within 3 ns, raises SKEW_MAX to it where it is larger, and reports nothing. -/
def Obligations.PulseAndReplicas : Prop :=
  (∀ (s : State) (v : Nat), v < 2 ^ 32 → bit (rd s RIDGE_PPS_OUT_CFG) 31 = false → bit v 31 = true → s.ridge.ns < 2 ^ 63 →
    Completes (.ppsOutCfgWrite v) s (fun t =>
      markTime t 1023 = (s.ridge.ns + 1000 + 999999999) / 1000000000 * 1000000000 * 2 ^ 32 + rd s (RIDGE_MARK_TIME_FRAC 1023) ∧
      markArmed t 1023 = true ∧ fld t (RIDGE_MARK_CTRL 1023) 30 29 = 1 ∧ markKind t 1023 = 0xB ∧ bit (rd t RIDGE_PPS_OUT_CFG) 31 = true ∧
      t = { s with regs := t.regs } ∧ SameWords s t (fun a => inMark 1023 a || decide (a = RIDGE_PPS_OUT_CFG.addr)))) ∧
  (∀ (s : State) (e : Nat), s.ridge.ppsEnd = some e → e ≤ s.ridge.ns → Completes .ppsPulseEnd s (fun t =>
    t = { s with ridge.ppsEnd := none, emitted := s.emitted ++ [.pps false] })) ∧
  (∀ (s : State) (region : Nat) (d : Int), region < 23 → d.natAbs ≤ 30 → tget region s.ridge.skewRow = none → s.ridge.skewRow = [] →
    Completes (.replicaCorrection region d) s (fun t =>
      fld t RIDGE_SKEW_MAX 15 0 = max (fld s RIDGE_SKEW_MAX 15 0) d.natAbs ∧ tget region t.ridge.skewRow = some 0 ∧
      t = { s with regs := t.regs, ridge.skewRow := t.ridge.skewRow } ∧ SameWords s t (fun a => decide (a = RIDGE_SKEW_MAX.addr))))

/-- Arming, disarming and firing of marks. A write of MARK_CTRL with arm 1 arms a counting mark whose time lies at least 1 µs ahead, for domain 0, with fired and late at 0; a reserved kind faults it with 1; with arm 0 it is idle; one to a system mark is ignored and counted. A due one-shot counting or interrupt mark, on time, of a domain that is neither closed nor quiesced and whose function it names, sends its interrupt, counts its firing and is idle. Every other mark keeps its words. -/
def Obligations.MarksArmAndFire : Prop :=
  (∀ (s : State) (m v : Nat), m < 1016 → v < 2 ^ 32 → bit v 31 = false → Completes (.markCtrlWrite m v) s (fun t =>
    markArmed t m = false ∧ fld t (RIDGE_MARK_CTRL m) 31 31 = 0 ∧ fld t (RIDGE_MARK_CTRL m) 15 0 = bits v 15 0 ∧ markDomain t m = 0 ∧
    t = { s with regs := t.regs, ridge.due := t.ridge.due, ridge.skipped := t.ridge.skipped } ∧ SameWords s t (inMark m))) ∧
  (∀ (s : State) (m v : Nat), m < 1016 → v < 2 ^ 32 → bit v 31 = true → markKind s m = 0 → markPeriod s m = 0 →
    s.ridge.ns ≤ markInstant s m → Completes (.markCtrlWrite m v) s (fun t =>
      markArmed t m = true ∧ markDomain t m = 0 ∧ fld t (RIDGE_MARK_STATUS m) 15 0 = 0 ∧ fld t (RIDGE_MARK_STATUS m) 26 16 = 0 ∧
      fld t (RIDGE_MARK_CTRL m) 15 0 = bits v 15 0 ∧
      t = { s with regs := t.regs, ridge.due := lremove m s.ridge.due, ridge.skipped := lremove m s.ridge.skipped } ∧
      SameWords s t (inMark m))) ∧
  (∀ (s : State) (m v : Nat), m < 1016 → v < 2 ^ 32 → bit v 31 = true → 0xD ≤ markKind s m → Completes (.markCtrlWrite m v) s (fun t =>
    fld t (RIDGE_MARK_STATUS m) 31 30 = 2 ∧ fld t (RIDGE_MARK_STATUS m) 29 27 = 1 ∧ fld t (RIDGE_MARK_CTRL m) 31 31 = 0 ∧
    SameWords s t (inMark m))) ∧
  (∀ (s : State) (m v : Nat), 1016 ≤ m → m < 1024 → Completes (.markCtrlWrite m v) s (Ignored 0x10000 ((RIDGE_MARK_CTRL m).addr + 1) s)) ∧
  (∀ (s : State) (m : Nat), m < 1016 → nextDue s = some m → markArmed s m = true → s.ridge.skipped.contains m = false →
    s.ridge.ns ≤ markInstant s m + 40 → markPeriod s m = 0 → (markKind s m = 0 ∨ markKind s m = 0xC) →
    closedDomain s (markDomain s m) = false → quiescedDomain s (markDomain s m) = false →
    (markKind s m = 0xC → markDomain s m = 0 ∨ markTarget s m = markDomain s m) → Completes (.markFire m none) s (fun t =>
      markArmed t m = false ∧ fld t (RIDGE_MARK_STATUS m) 15 0 = min 0xFFFF (fld s (RIDGE_MARK_STATUS m) 15 0 + 1) ∧
      fld t (RIDGE_MARK_STATUS m) 26 16 = fld s (RIDGE_MARK_STATUS m) 26 16 ∧ markTime t m = markTime s m ∧
      t.emitted = s.emitted ++ (if markKind s m = 0xC ∧ s.mb.linkUp = true ∧ s.mb.bmeClear.contains (markTarget s m) = false
        then [.msix (markTarget s m) (markParam s m)] else []) ∧
      t = { s with regs := t.regs, emitted := t.emitted, ridge.due := lremove m s.ridge.due, ridge.skipped := lremove m s.ridge.skipped,
                   ridge.delivered := s.ridge.delivered + 1 } ∧ SameWords s t (inMark m)))

/-- The mailbox commands that read time and that allocate, arm, disarm and release marks. TIME_READ answers the Ridge time, its fraction and the status and epoch words and changes nothing else; TIME_CORRELATE, where PTM is enabled, answers the pair that it is given. MARK_ALLOC gives the lowest mark that is neither allocated nor armed to the function, below its quota. MARK_DISARM and MARK_RELEASE leave the mark of the function idle, and the second gives it back; MARK_ARM on an idle mark of the function with a counting action and a time to come writes its words and arms it for the function, and on an armed one is refused with 0x100A. Each answers in its slot and changes nothing else. -/
def Obligations.TimeAndMarkCommands : Prop :=
  (∀ (s : State) (f k : Nat), Ready f k 0x0501 s → AnswersWith (.timeRead f k) f k 0 s s (fun t =>
    result t f k 0 8 = s.ridge.ns % 2 ^ 64 ∧ result t f k 8 4 = s.ridge.frac % 2 ^ 32 ∧
    result t f k 12 4 = valueAt s RIDGE_STATUS.addr % 2 ^ 32 ∧ result t f k 16 2 = fld s RIDGE_EPOCH_STATE 15 0)) ∧
  (∀ (s : State) (f k p u : Nat), Ready f k 0x0502 s → s.mb.ptm = true → AnswersWith (.timeCorrelate f k p u) f k 0 s s (fun t =>
    result t f k 0 8 = s.ridge.ns % 2 ^ 64 ∧ result t f k 8 8 = p % 2 ^ 64 ∧ result t f k 16 4 = u % 2 ^ 32)) ∧
  (∀ (s : State) (f k m : Nat), Ready f k 0x0503 s → useOf s f 4 < quotaOf s f 4 → m < 1016 → tget m s.ridge.markOwner = none →
    markArmed s m = false → (∀ j, j < m → tget j s.ridge.markOwner ≠ none ∨ markArmed s j = true) →
    AnswersWith (.markAlloc f k) f k 0 s { s with ridge.markOwner := tput m f s.ridge.markOwner } (fun t => result t f k 0 2 = m)) ∧
  (∀ (s : State) (f k m : Nat), Ready f k 0x0506 s → param s f k 0x0506 0 = m → m < 1016 → tget m s.ridge.markOwner = some f →
    Completes (.markDisarm f k) s (fun t => Answered f k 0 t ∧ markArmed t m = false ∧ t.ridge.markOwner = s.ridge.markOwner ∧
      SameWords s t (fun a => inPage f a || inMark m a))) ∧
  (∀ (s : State) (f k m : Nat), Ready f k 0x0504 s → param s f k 0x0504 0 = m → m < 1016 → tget m s.ridge.markOwner = some f →
    Completes (.markRelease f k) s (fun t => Answered f k 0 t ∧ markArmed t m = false ∧ t.ridge.markOwner = tdel m s.ridge.markOwner ∧
      SameWords s t (fun a => inPage f a || inMark m a))) ∧
  (∀ (s : State) (f k m : Nat), Ready f k 0x0505 s → param s f k 0x0505 0 = m → m < 1016 → tget m s.ridge.markOwner = some f →
    (markArmed s m = true → Answers (.markArm f k) f k 0x100A s s) ∧
    (markArmed s m = false → param s f k 0x0505 3 = 0 → param s f k 0x0505 4 = 0 → param s f k 0x0505 5 = 0 →
      bit (param s f k 0x0505 6) 31 = true → s.ridge.ns ≤ param s f k 0x0505 1 → Completes (.markArm f k) s (fun t =>
        Answered f k 0 t ∧ markArmed t m = true ∧ markDomain t m = f ∧
        markTime t m = param s f k 0x0505 1 * 2 ^ 32 + param s f k 0x0505 2 ∧ markKind t m = 0 ∧
        SameWords s t (fun a => inPage f a || inMark m a) ∧
        t = { s with regs := t.regs, emitted := t.emitted, mb.accepted := tdel (16 * f + k) s.mb.accepted,
                     ridge.due := lremove m s.ridge.due, ridge.skipped := lremove m s.ridge.skipped })))

/-- A mode change from EPOCH_APPLY to its check, and its revert. EPOCH_APPLY takes as A the first boundary at least 2 ms away and not before not_before, sets the pending epoch to E + 1, clears the acknowledgements and arms marks 1,016 at A and 1,017 at A + 1 ms; beyond 60 s it is refused with 0x1006. At A the Ledger or the Governor, taking part alone, has its staged words in force, runs the pending epoch and has acknowledged. A unit held back does so at its safe point. At A + 1 ms the pending epoch is current where every unit has acknowledged; otherwise EPOCH_FAIL names the missing ones and mark 1,018 is armed at the next boundary B with E + 2 pending. At B that epoch is current and mark 1,017 is armed at B + 1 ms, where the change ends, with fault 1 if a unit is still missing. -/
def Obligations.ModeChanges : Prop :=
  (∀ (s : State) (f k : Nat), Ready f k 0x0508 s → s.ridge.ns < 2 ^ 62 →
    let g := max 1 (rd s RIDGE_EPOCH_GRID)
    let a := (max (s.ridge.ns + 2000000) (param s f k 0x0508 0) + g - 1) / g * g
    (s.ridge.ns + 60000000000 < a → Answers (.epochApply f k) f k 0x1006 s s) ∧
    (a ≤ s.ridge.ns + 60000000000 → Completes (.epochApply f k) s (fun t =>
      Answered f k 0 t ∧ result t f k 0 8 = a ∧ t.ridge.phase = .pending ∧ t.ridge.applyAt = a ∧
      rd64 t RIDGE_EPOCH_APPLY_LO RIDGE_EPOCH_APPLY_HI = a ∧ fld t RIDGE_EPOCH_STATE 31 16 = (fld s RIDGE_EPOCH_STATE 15 0 + 1) % 65536 ∧
      fld t RIDGE_EPOCH_STATE 15 0 = fld s RIDGE_EPOCH_STATE 15 0 ∧ rd t RIDGE_EPOCH_ACK = 0 ∧
      markArmed t 1016 = true ∧ markTime t 1016 = a * 2 ^ 32 ∧ markArmed t 1017 = true ∧ markTime t 1017 = (a + 1000000) * 2 ^ 32 ∧
      t = { s with regs := t.regs, emitted := t.emitted, ridge := t.ridge, mb.accepted := tdel (16 * f + k) s.mb.accepted } ∧
      SameWords s t (fun x => inPage f x || inMark 1016 x || inMark 1017 x || decide (0x10074 ≤ x ∧ x < 0x10088))))) ∧
  (∀ (s : State) (u : Nat), u = 7 ∨ u = 9 → rd s RIDGE_EPOCH_REQUIRED = 2 ^ u → nextDue s = some 1016 → s.ridge.phase = .pending →
    s.fw.staged = false → rd s RIDGE_EPOCH_ACK = 0 → Completes .epochApplyTime s (fun t =>
      t.live = takePart u s.live s.regs ∧ t.prevLive = takePart u s.prevLive s.live ∧ unitEpoch t u = fld s RIDGE_EPOCH_STATE 31 16 ∧
      rd t RIDGE_EPOCH_ACK = 2 ^ u ∧ t.ridge.mixing = false ∧ markArmed t 1016 = false ∧
      t = { s with regs := t.regs, live := t.live, prevLive := t.prevLive, ridge := t.ridge } ∧ t.ridge.ns = s.ridge.ns ∧
      SameWords s t (fun x => inMark 1016 x || decide (x = RIDGE_EPOCH_ACK.addr)))) ∧
  (∀ (s : State), s.ridge.mixing = true → s.ridge.phase = .pending → bit (rd s RIDGE_EPOCH_REQUIRED) 3 = true →
    bit (rd s RIDGE_EPOCH_ACK) 3 = false → s.raft.run = none → s.raft.staged = none → Completes (.epochUnitLatch 3) s (fun t =>
      bit (rd t RIDGE_EPOCH_ACK) 3 = true ∧ unitEpoch t 3 = fld s RIDGE_EPOCH_STATE 31 16 ∧
      t = { s with regs := t.regs, ridge := t.ridge, raft.prev := none } ∧ SameWords s t (fun x => decide (x = RIDGE_EPOCH_ACK.addr)))) ∧
  (∀ (s : State), nextDue s = some 1017 → s.ridge.phase = .pending →
    (rd s RIDGE_EPOCH_ACK = rd s RIDGE_EPOCH_REQUIRED → Completes .epochCheck s (fun t =>
      fld t RIDGE_EPOCH_STATE 15 0 = fld s RIDGE_EPOCH_STATE 31 16 ∧ t.ridge.phase = .idle ∧ t.ridge.mixing = false ∧ t.live = s.live ∧
      t.ridge.ns = s.ridge.ns ∧ rd t RIDGE_EPOCH_FAIL = rd s RIDGE_EPOCH_FAIL)) ∧
    (rd s RIDGE_EPOCH_ACK ≠ rd s RIDGE_EPOCH_REQUIRED → s.ridge.applyAt < 2 ^ 62 → Completes .epochCheck s (fun t =>
      let g := max 1 (rd s RIDGE_EPOCH_GRID)
      let b := (s.ridge.applyAt + 1000001 + g - 1) / g * g
      t.ridge.phase = .reverting ∧ t.ridge.revertAt = b ∧ markArmed t 1018 = true ∧ markTime t 1018 = b * 2 ^ 32 ∧
      fld t RIDGE_EPOCH_STATE 31 16 = (fld s RIDGE_EPOCH_STATE 15 0 + 2) % 65536 ∧ bit (rd t RIDGE_EPOCH_FAIL) 31 = true ∧
      (∀ u, u < 14 → bit (rd t RIDGE_EPOCH_FAIL) u = (bit (rd s RIDGE_EPOCH_REQUIRED) u && !bit (rd s RIDGE_EPOCH_ACK) u)) ∧ t.live = s.live))) ∧
  (∀ (s : State), nextDue s = some 1018 → s.ridge.phase = .reverting → rd s RIDGE_EPOCH_REQUIRED = 2 ^ 9 → s.ridge.revertAt < 2 ^ 62 →
    Completes .epochRevert s (fun t => fld t RIDGE_EPOCH_STATE 15 0 = fld s RIDGE_EPOCH_STATE 31 16 ∧ rd t RIDGE_EPOCH_ACK = 2 ^ 9 ∧
      unitEpoch t 9 = fld s RIDGE_EPOCH_STATE 31 16 ∧ markArmed t 1017 = true ∧ markTime t 1017 = (s.ridge.revertAt + 1000000) * 2 ^ 32 ∧
      t.ridge.phase = .reverting ∧ t.ridge.mixing = false)) ∧
  (∀ (s : State), nextDue s = some 1017 → s.ridge.phase = .reverting → Completes .epochRevertCheck s (fun t =>
    t.ridge.phase = .idle ∧ t.ridge.mixing = false ∧ t.live = s.live ∧
    (rd s RIDGE_EPOCH_ACK = rd s RIDGE_EPOCH_REQUIRED → t = { s with regs := t.regs, ridge := t.ridge } ∧ SameWords s t (inMark 1017)) ∧
    (rd s RIDGE_EPOCH_ACK ≠ rd s RIDGE_EPOCH_REQUIRED → bit (rd t RIDGE_EPOCH_FAIL) 30 = true ∧ bit (rd t KINGPOST_FAULT_LATCH) 1 = true)))

/-- EPOCH_STATUS, EPOCH_DISCARD and GPTP_SET. EPOCH_STATUS answers the epoch words and changes nothing. EPOCH_DISCARD, while no change is in progress, drops what was staged for units and graphs: staged descriptors, registrations and starts are gone, and every register that a change governs shows its word in force. GPTP_SET with values within their ranges sets the intervals and attributes of gPTP, and source and role as a write of RIDGE.CTRL does; a reserved source is refused with 0x1006. -/
def Obligations.EpochAndTimeSettings : Prop :=
  (∀ (s : State) (f k : Nat), Ready f k 0x050A s → AnswersWith (.epochStatus f k) f k 0 s s (fun t =>
    result t f k 0 4 = rd s RIDGE_EPOCH_STATE ∧ result t f k 4 4 = rd s RIDGE_EPOCH_APPLY_LO ∧ result t f k 8 4 = rd s RIDGE_EPOCH_APPLY_HI ∧
    result t f k 12 4 = rd s RIDGE_EPOCH_FAIL)) ∧
  (∀ (s : State) (f k : Nat), Ready f k 0x0509 s →
    (s.ridge.phase ≠ .idle → Answers (.epochDiscard f k) f k 0x1009 s s) ∧
    (s.ridge.phase = .idle → Completes (.epochDiscard f k) s (fun t => Answered f k 0 t ∧ t.plan.staged = none ∧ t.raft.staged = none ∧
      t.tally.stagedDesc = none ∧ t.plumb.staged = [] ∧ t.tally.staged = [] ∧ t.net.staged = s.net.live ∧ t.fw.staged = false ∧
      t.live = s.live ∧ t.mem = s.mem ∧ t.scribe.pegs = s.scribe.pegs ∧ t.scribe.rings = s.scribe.rings ∧
      (∀ p ∈ t.scribe.graphs, p.2.stagedStart = none ∧ p.2.stagedStop = false) ∧ (∀ p ∈ t.out.streams, p.2.closing = false ∧ p.2.stagedHdr = p.2.hdr)))) ∧
  (∀ (s : State) (f k : Nat), Ready f k 0x0507 s →
    let p := fun i => param s f k 0x0507 i
    (bits (p 0) 1 0 = 3 → Answers (.gptpSet f k) f k 0x1006 s s) ∧
    (bits (p 0) 1 0 ≠ 3 → bits (p 0) 5 4 ≠ 3 → bits (p 0) 11 8 < 12 → -5 ≤ toSigned 8 (p 1) → toSigned 8 (p 1) ≤ 0 →
      -3 ≤ toSigned 8 (p 2) → toSigned 8 (p 2) ≤ 3 → -3 ≤ toSigned 8 (p 3) → toSigned 8 (p 3) ≤ 3 → 2 ≤ p 4 → p 4 ≤ 10 →
      Completes (.gptpSet f k) s (fun t => Answered f k 0 t ∧ t.ridge.logSync = toSigned 8 (p 1) ∧ t.ridge.announceTimeout = p 4 ∧
        t.ridge.priority1 = p 5 ∧ t.ridge.priority2 = p 6 ∧ t.ridge.clockClass = p 7 ∧ t.ridge.clockAccuracy = p 8 ∧
        t.ridge.variance = p 9 ∧ ridgeSource t = bits (p 0) 1 0 ∧ ridgeRole t = bits (p 0) 5 4 ∧
        t = { s with regs := t.regs, emitted := t.emitted, ridge := t.ridge, mb.accepted := tdel (16 * f + k) s.mb.accepted } ∧
        t.ridge.ns = s.ridge.ns ∧ SameWords s t (fun x => inPage f x || decide (x = RIDGE_CTRL.addr ∨ x = RIDGE_STATUS.addr)))))

/-- The power-over-coax switch of a camera port. A command to a port without fault bits stores its command field, and takes a port in OFF that is commanded ON to RAMP_UP and one in ON that is commanded OFF to RAMP_DOWN; a port with fault bits keeps its state. A completed ramp reaches the commanded level, with the measured output and current shown. A detected condition that can arise sets its bits, takes the port to FAULT and its link down. Clearing every bit, by software or by auto_retry 1 s after the fault, takes the port toward its commanded level again. -/
def Obligations.CameraPower : Prop :=
  (∀ (s : State) (n v : Nat), n < 16 → v < 2 ^ 32 → bits v 1 0 ≠ 3 → Completes (.pocCommand n v) s (fun t =>
    fld t (CAMIN_POC_CTRL n) 1 0 = bits v 1 0 ∧
    (rd s (CAMIN_POC_FAULT n) = 0 → bits v 1 0 = 2 → pocState s n = 0 → pocState t n = 1) ∧
    (rd s (CAMIN_POC_FAULT n) = 0 → bits v 1 0 = 0 → pocState s n = 3 → pocState t n = 4) ∧
    (rd s (CAMIN_POC_FAULT n) ≠ 0 → pocState t n = pocState s n) ∧
    t = { s with regs := t.regs } ∧ SameWords s t (fun a => decide (a = (CAMIN_POC_CTRL n).addr ∨ a = (CAMIN_POC_STATUS n).addr)))) ∧
  (∀ (s : State) (n mv ma vpoc : Nat), n < 16 → (pocState s n = 1 ∨ pocState s n = 4) → Completes (.pocRampComplete n mv ma vpoc) s (fun t =>
    pocState t n = (if fld s (CAMIN_POC_CTRL n) 1 0 = 2 then 3 else if fld s (CAMIN_POC_CTRL n) 1 0 = 1 then 2 else 0) ∧
    fld t (CAMIN_POC_STATUS n) 31 16 = mv % 65536 ∧ fld t (CAMIN_POC_STATUS n) 15 6 = ma % 1024 ∧ rd t CAMIN_VPOC_MV = vpoc % 65536 ∧
    t = { s with regs := t.regs, cam.ports := t.cam.ports } ∧
    SameWords s t (fun a => decide (a = (CAMIN_POC_STATUS n).addr ∨ a = CAMIN_VPOC_MV.addr ∨ a = CAMIN_POC_SUM.addr)))) ∧
  (∀ (s : State) (n c : Nat), n < 16 → c &&& pocPossible s n ≠ 0 → Completes (.pocFaultDetected n c) s (fun t =>
    pocState t n = 5 ∧ rd t (CAMIN_POC_FAULT n) = rd s (CAMIN_POC_FAULT n) ||| (c &&& pocPossible s n) ∧
    bit (rd t CAMIN_POC_ANY_FAULT) n = true ∧ camUp t n = false ∧ (cam t n).faultAt = s.ridge.ns ∧
    (camUp s n = false → t = { s with regs := t.regs, recd := t.recd, emitted := t.emitted, cam.ports := t.cam.ports }))) ∧
  (∀ (s : State) (n v : Nat), n < 16 → bits v 6 0 = 0x7F → rd s (CAMIN_POC_FAULT n) < 128 → pocState s n = 5 →
    fld s (CAMIN_POC_CTRL n) 1 0 = 2 → Completes (.pocFaultClear n v 0) s (fun t =>
      rd t (CAMIN_POC_FAULT n) = 0 ∧ pocState t n = 1 ∧ fld t (CAMIN_POC_STATUS n) 5 4 = 0 ∧
      t = { s with regs := t.regs, cam.ports := t.cam.ports } ∧ SameWords s t (fun a => inCam n a || decide (a = CAMIN_POC_ANY_FAULT.addr)))) ∧
  (∀ (s : State) (n : Nat), n < 16 → pocState s n = 5 → bit (rd s (CAMIN_POC_CTRL n)) 2 = true → (cam s n).faultAt + 1000000000 ≤ s.ridge.ns →
    rd s (CAMIN_POC_FAULT n) < 128 → fld s (CAMIN_POC_CTRL n) 1 0 = 2 → Completes (.pocAutoRetry n) s (fun t =>
      rd t (CAMIN_POC_FAULT n) = 0 ∧ pocState t n = 1 ∧ (cam t n).retryAt = some s.ridge.ns ∧
      t = { s with regs := t.regs, cam.ports := t.cam.ports } ∧ SameWords s t (fun a => inCam n a || decide (a = CAMIN_POC_ANY_FAULT.addr))))

/-- Packets and the link of a camera port. A packet on a port with its link up is counted once by its fate, with its retransmissions up to the limit of PORT_CTRL. Loss of lock takes the link of a port without an open frame down with event 0x2030; training takes the link of an enabled port without power faults up with event 0x2031; a camera whose link is not up 500 ms after ON is reported by event 0x2032. Disabling a port whose link is up takes it down, and enabling one restarts its frame numbers; both act at once, and other fields wait for an epoch. -/
def Obligations.CameraLink : Prop :=
  (∀ (s : State) (n a : Nat) (r : Bool), n < 16 → camUp s n = true → Completes (.aphyPacketReceived n a r) s (fun t =>
    let k := if r then min a (bits (live s (CAMIN_PORT_CTRL n)) 5 3) else bits (live s (CAMIN_PORT_CTRL n)) 5 3
    let one := fun (q : Reg) (b : Bool) => rd t q = (if b then min 0xFFFFFFFF (rd s q + 1) else rd s q)
    one (CAMIN_RX_PACKETS n) (r && decide (k = 0)) ∧ one (CAMIN_RETX_OK n) (r && decide (k ≠ 0)) ∧ one (CAMIN_PKT_LOST n) (!r) ∧
    rd t (CAMIN_RETX_REQ n) = min 0xFFFFFFFF (rd s (CAMIN_RETX_REQ n) + k) ∧
    t = { s with regs := t.regs, cam.ports := t.cam.ports } ∧ SameWords s t (inCam n))) ∧
  (∀ (s : State) (n : Nat), n < 16 → camUp s n = true → (cam s n).open_ = none → Completes (.aphyLockLoss n) s (fun t =>
    camUp t n = false ∧ t = raise 0x2030 n (clearMask CAMIN_LINK_UP (2 ^ n) s))) ∧
  (∀ (s : State) (n : Nat), n < 16 → camEnabled s n = true → rd s (CAMIN_POC_FAULT n) = 0 → camUp s n = false →
    Completes (.aphyLinkUp n) s (fun t => camUp t n = true ∧ (cam t n).onAt = none ∧
      Logged { s with cam.ports := t.cam.ports, regs := (setMask CAMIN_LINK_UP (2 ^ n) (setFld (CAMIN_POC_STATUS n) 3 3 1 s)).regs } t)) ∧
  (∀ (s : State) (n t0 : Nat), n < 16 → (cam s n).onAt = some t0 → t0 + 500000000 ≤ s.ridge.ns → camUp s n = false →
    Completes (.cameraAbsentTimeout n) s (fun t => (cam t n).onAt = none ∧
      t = raise 0x2032 n (setFld (CAMIN_POC_STATUS n) 3 3 0 { s with cam.ports := t.cam.ports }))) ∧
  (∀ (s : State) (n v : Nat), n < 16 → v < 2 ^ 32 → s.ridge.phase = .idle →
    (camEnabled s n = false → bit v 0 = true → Completes (.camPortEnableWrite n v) s (fun t => camEnabled t n = true ∧ (cam t n).nextFrame = 0 ∧
      t = { s with regs := t.regs, live := t.live, cam.ports := t.cam.ports } ∧ SameWords s t (inCam n))) ∧
    (camEnabled s n = true → bit v 0 = false → (cam s n).open_ = none → Completes (.camPortEnableWrite n v) s (fun t =>
      camEnabled t n = false ∧ camUp t n = false ∧ bits (live t (CAMIN_PORT_CTRL n)) 31 1 = bits (live s (CAMIN_PORT_CTRL n)) 31 1 ∧
      t = { s with regs := t.regs, live := t.live, cam.ports := t.cam.ports, recd := t.recd, emitted := t.emitted })))

/-- Frames and lines of a camera. A frame-start on the virtual channel of the port opens a frame with the next number, its stamp and, in triggered mode, the unmatched trigger that fired before it; one on another channel is only counted. A good line of the open frame is stored, unpacked, at its address where the Fence admits it, and counted; a line that fails its CRC is counted as lost and sets lines_lost. A frame-end, or the timeout, closes the frame: complete with all its lines, and otherwise incomplete. Memory outside the stored line keeps its bytes. -/
def Obligations.CameraFrames : Prop :=
  (∀ (s : State) (n vc stamp : Nat) (r : Bool), n < 16 → camUp s n = true → (cam s n).open_ = none →
    (vc ≠ bits (camCfg s n stamp).format 7 6 → Completes (.frameStartReceived n vc 0 stamp r) s (fun t => t = inc (CAMIN_UNSUPPORTED n) s)) ∧
    (vc = bits (camCfg s n stamp).format 7 6 → Completes (.frameStartReceived n vc 0 stamp r) s (fun t =>
      ∃ f, (cam t n).open_ = some f ∧ f.number = (cam s n).nextFrame ∧ f.tFs = stamp ∧ f.received = 0 ∧ f.lost = 0 ∧
        (bit f.flags 3 = r) ∧ (cam t n).nextFrame = ((cam s n).nextFrame + 1) % 2 ^ 32 ∧
        (∀ t0, camFreeRun (camCfg s n stamp) = false → (cam s n).sync = some t0 → t0 < stamp → f.tSync = t0 ∧ (cam t n).sync = none ∧ bit f.flags 2 = false) ∧
        (camFreeRun (camCfg s n stamp) = false → (cam s n).sync = none → f.tSync = 0 ∧ bit f.flags 2 = true) ∧
        t = { s with cam.ports := t.cam.ports }))) ∧
  (∀ (s : State) (n : Nat) (f : CamFrame) (px : List Nat), n < 16 → camUp s n = true → (cam s n).open_ = some f →
    f.received + f.lost < camRows f.cfg → camDataType f.cfg ≠ 0x12 → (f.received + f.lost + 1) % camBandLines f.cfg ≠ 0 →
    (let a := lineAddr f (f.received + f.lost)
     let bs := unpackLine f.cfg px
     admitAll s 0 a bs.length true = true → s.memory.downLinks = [] →
     Completes (.lineReceived n (bits f.cfg.format 7 6) (camDataType f.cfg) 0 px) s (fun t =>
      (cam t n).open_ = some { f with received := f.received + 1 } ∧ readBytes t a bs.length = bs ∧ SameMemory s t a bs.length ∧
      t = { s with mem := t.mem, poison := t.poison, cam.ports := t.cam.ports })) ∧
    (admitAll s 0 (lineAddr f (f.received + f.lost)) (camWidth f.cfg * pixelBytes (camDataType f.cfg)) true = false →
     Completes (.lineReceived n (bits f.cfg.format 7 6) (camDataType f.cfg) 3 px) s (fun t =>
      (cam t n).open_ = some { f with lost := f.lost + 1, flags := f.flags ||| 1 } ∧
      rd t (CAMIN_LINES_LOST n) = min 0xFFFFFFFF (rd s (CAMIN_LINES_LOST n) + 1) ∧
      rd t (CAMIN_PAYLOAD_CRC n) = min 0xFFFFFFFF (rd s (CAMIN_PAYLOAD_CRC n) + 1) ∧
      t = { s with regs := t.regs, cam.ports := t.cam.ports } ∧ SameWords s t (inCam n)))) ∧
  (∀ (s : State) (n : Nat) (f : CamFrame), n < 16 → camUp s n = true → (cam s n).open_ = some f → f.embedded ≠ none →
    (f.received + f.lost) % camBandLines f.cfg = 0 →
    Completes (.frameEndReceived n (bits f.cfg.format 7 6) 0) s (fun t =>
      (cam t n).open_ = none ∧ (cam t n).closed = (cam s n).closed ++ [{ f with
        flags := if f.received + f.lost < camRows f.cfg then f.flags ||| 2 else f.flags, pattern := bit f.cfg.ctrl 7 }] ∧
      t = { s with cam.ports := t.cam.ports }) ∧
    (frameBase f + camTimeout f.cfg < s.ridge.ns → Completes (.frameTimeout n) s (fun t =>
      (cam t n).open_ = none ∧ (cam t n).closed = (cam s n).closed ++ [{ f with flags := f.flags ||| 2, pattern := bit f.cfg.ctrl 7 }] ∧
      t = { s with cam.ports := t.cam.ports })))

/-- The verdict of a frame, checker self-tests, and the camera commands of the mailbox. When the pattern check of the oldest closed frame is done without a fault, its verdict is fixed by its flags and lost lines, shown in LAST_FRAME and counted in FRAMES. A self-test of an idle checker is counted; one that fails latches the checker and fault 3. CAM_STAGE of a sound configuration stages words that the configuration in force does not yet show; CAM_POWER answers the status after its command; CAM_CONTROL sends its request over the back channel and waits, and the reply of the camera answers it with the bytes read. -/
def Obligations.CameraVerdictsAndCommands : Prop :=
  (∀ (s : State) (n : Nat) (f : CamFrame) (rest : List CamFrame), n < 16 → (cam s n).closed = f :: rest → Quiet s →
    tget (bits f.cfg.verdict 15 0) s.scribe.pegs = none → tget f.cfg.ring s.scribe.rings = none →
    Completes (.patternCheckDone n false false) s (fun t =>
      let fl := (frameTimes f).2.2.2 ||| (if f.pattern then 0 else 0x10) ||| (if bit (rd s KINGPOST_CHECKER_LATCH) n then 0x20 else 0)
      let v := frameVerdict f fl
      (cam t n).closed = rest ∧ fld t (CAMIN_LAST_FRAME n) 17 16 = v ∧ fld t (CAMIN_LAST_FRAME n) 15 0 = fl % 65536 ∧
      fld t (CAMIN_FRAMES n) (10 * v + 9) (10 * v) = min 1023 (fld s (CAMIN_FRAMES n) (10 * v + 9) (10 * v) + 1) ∧
      rd t (CAMIN_REC_DROP n) = min 0xFFFFFFFF (rd s (CAMIN_REC_DROP n) + 1) ∧ t.mem = s.mem ∧ t.ridge = s.ridge)) ∧
  (∀ (s : State) (c : Nat), c < 16 → camEnabled s c = true → bit (live s (CAMIN_PORT_CTRL c)) 7 = true →
    (cam s c).lastTest + 40000000 ≤ s.ridge.ns →
    (bit (rd s KINGPOST_CHECKER_LATCH) c = false → Completes (.checkerSelftestIdle c false) s (fun t =>
      (cam t c).lastTest = s.ridge.ns ∧ t = inc CAMIN_SELFTEST_RUNS { s with cam.ports := t.cam.ports })) ∧
    Completes (.checkerSelftestIdle c true) s (fun t => bit (rd t KINGPOST_CHECKER_LATCH) c = true ∧ bit (rd t KINGPOST_FAULT_LATCH) 3 = true ∧
      t.mem = s.mem ∧ t.ridge = s.ridge)) ∧
  (∀ (s : State) (f k n : Nat), Ready f k 0x0401 s → param s f k 0x0401 0 = n → n < 16 →
    camCause (wordsIn (paramBlock s f k 0x0401 1)) = 0 → Completes (.camStage f k) s (fun t => Answered f k 0 t ∧
      rd t (CAMIN_LINE_TIME n) = (wordsIn (paramBlock s f k 0x0401 1)).getD 6 0 ∧
      t = { s with regs := t.regs, emitted := t.emitted, mb.accepted := tdel (16 * f + k) s.mb.accepted } ∧
      SameWords s t (fun a => inPage f a || inCam n a))) ∧
  (∀ (s : State) (f k n : Nat), Ready f k 0x0402 s → param s f k 0x0402 0 = n → n < 16 → bits (param s f k 0x0402 1) 1 0 = 2 →
    rd s (CAMIN_POC_FAULT n) = 0 → pocState s n = 0 → Completes (.camPower f k) s (fun t => Answered f k 0 t ∧ pocState t n = 1 ∧
      result t f k 0 4 = rd t (CAMIN_POC_STATUS n) ∧ SameWords s t (fun a => inPage f a || inCam n a))) ∧
  (∀ (s : State) (f k : Nat), Ready f k 0x0403 s → tget (16 * f + k) s.cam.control = none →
    let p := fun i => param s f k 0x0403 i
    p 0 < 16 → 1 ≤ p 3 → p 3 ≤ 4 → 1 ≤ p 5 → p 5 ≤ 32 → Completes (.camControl f k) s (fun t =>
      tget (16 * f + k) t.cam.control = some (p 0) ∧ t.mb.accepted = s.mb.accepted ∧
      (∃ req, t.emitted = s.emitted ++ [.camControl (p 0) req]) ∧ t = { s with emitted := t.emitted, cam.control := t.cam.control })) ∧
  (∀ (s : State) (f k n : Nat) (data : List Byte), Ready f k 0x0403 s → tget (16 * f + k) s.cam.control = some n → camUp s n = true →
    s.mb.foremanUp = true → param s f k 0x0403 1 = 0 → param s f k 0x0403 5 = data.length → data.length ≤ 32 →
    AnswersWith (.camControlReply f k data) f k 0 s { s with cam.control := tdel (16 * f + k) s.cam.control } (fun t =>
      slotBytes t f k 144 data.length = data))

/-- The Ethernet switch: gates, frames that leave and arrive, and links. A config_change on a port without one pending makes it pending until its base time, or the first whole cycle after it, and is ignored and counted otherwise; at that time the administrative list, cut or held to its cycle, is operational from its first entry; at the end of an interval the next entry takes over. A head frame leaves when its port may start it and no higher class is ready, and the port is then busy for its wire time. A received frame with a bad FCS is only counted; one that no table entry matches is counted as a miss, one that a single entry matches joins the egress queues of its mask except the port it came from. A link that goes down drops and counts what its queues hold; one that comes up shows speed, role and quality. -/
def Obligations.SwitchedFrames : Prop :=
  (∀ (s : State) (p v : Nat), p < 12 → v < 2 ^ 32 →
    (bit (rd s (NETIN_GCL_STATUS p)) 0 = true → bit v 1 = true → Completes (.gclConfigChange p v) s (Ignored 0x30000 (NETIN_GCL_CTRL p).addr s)) ∧
    (bit (rd s (NETIN_GCL_STATUS p)) 0 = false → bit v 0 = true → bit v 1 = true → Completes (.gclConfigChange p v) s (fun t =>
      let base := rd64 s (NETIN_GCL_BASE_LO p) (NETIN_GCL_BASE_HI p) * 2 ^ 32
      let c := gclCycle s p
      bit (rd t (NETIN_GCL_STATUS p)) 0 = true ∧
      (gclOf t p).applyAt = some (if ridgeNow s ≤ base then base else base + (ridgeNow s - base + c - 1) / c * c) ∧
      (gclOf t p).entries = (gclOf s p).entries ∧ (∀ q, q ≠ p → tget q t.net.gcl = tget q s.net.gcl) ∧
      t = { s with regs := t.regs, net.gcl := t.net.gcl } ∧
      SameWords s t (fun a => decide (a = (NETIN_GCL_STATUS p).addr ∨ a = (NETIN_GCL_CTRL p).addr))))) ∧
  (∀ (s : State) (p : Nat), p < 12 → ∀ (a : Nat), (gclOf s p).applyAt = some a → a ≤ ridgeNow s → Completes (.gclConfigApply p) s (fun t =>
    (gclOf t p).entries = fitCycle (gclCycle s p) (adminList s p) ∧ (gclOf t p).entry = 0 ∧ (gclOf t p).cycleStart = a ∧
    ((gclOf t p).entries.map (·.2)).sum = (if (adminList s p).isEmpty then 0 else gclCycle s p) ∧ (gclOf t p).applyAt = none ∧
    bit (rd t (NETIN_GCL_STATUS p)) 0 = false ∧ t = { s with regs := t.regs, net.gcl := t.net.gcl })) ∧
  (∀ (s : State) (p : Nat), p < 12 → (gclOf s p).on = true → (gclOf s p).entryEnd ≤ ridgeNow s →
    (gclOf s p).entry + 1 < (gclOf s p).entries.length →
    Completes (.gateIntervalEnd p) s (fun t => (gclOf t p).entry = (gclOf s p).entry + 1 ∧
      (gclOf t p).entryEnd = (gclOf s p).entryEnd + ((gclOf s p).entries.getD ((gclOf s p).entry + 1) (0, 0)).2 ∧
      (gclOf t p).entries = (gclOf s p).entries ∧ t = { s with regs := t.regs, net.gcl := t.net.gcl } ∧
      SameWords s t (fun a => decide (a = (NETIN_GCL_STATUS p).addr)))) ∧
  (∀ (s : State) (p q : Nat), p < 14 → q < 8 → ∀ (x : EthFrame) (rest : List EthFrame), queueAt s p q = x :: rest → x.launch = none →
    mayStart s p q x.bytes.length = true → higherReady s p q = false → Completes (.egressFrameStart p q) s (fun t =>
      queueAt t p q = rest ∧ t.emitted = s.emitted ++ [.eth p q x.bytes] ∧ tget p t.net.busy = some (s.ridge.ns + wireTime s p x.bytes.length) ∧
      rd t (NETIN_TX_FRAMES p) = min 0xFFFFFFFF (rd s (NETIN_TX_FRAMES p) + 1) ∧
      t = { s with regs := t.regs, net.queues := t.net.queues, net.busy := t.net.busy, emitted := t.emitted } ∧
      SameWords s t (fun a => decide (a = (NETIN_TX_FRAMES p).addr)))) ∧
  (∀ (s : State) (p stamp : Nat) (fr : List Byte), p < 14 → bit (live s (NETIN_PORT_CTRL p)) 0 = true → linkUp s p = true →
    Completes (.ethFrameReceived p stamp false fr) s (fun t => t = inc (NETIN_RX_FCS_ERR p) s) ∧
    (64 ≤ fr.length → fr.length ≤ 9216 → scannerPayload (inc (NETIN_RX_FRAMES p) s) p fr stamp = none → (netTables s stamp).fwd = [] →
      (fr.drop 12).take 2 = [0x08, 0x00] → Completes (.ethFrameReceived p stamp true fr) s (fun t =>
        t = inc NETIN_FWD_MISS (inc (NETIN_RX_FRAMES p) s)))) ∧
  (∀ (s : State) (p : Nat) (b : Bool), p < 14 → linkUp s p = true → (8 ≤ p ∨ (jig s p).sweep = none) → Completes (.ethLinkDown p b) s (fun t =>
    linkUp t p = false ∧ (∀ q, q < 8 → queueAt t p q = []) ∧ (∀ q, linkUp t q = (linkUp s q && decide (q ≠ p))) ∧
    t = { s with regs := t.regs, recd := t.recd, emitted := t.emitted, net.queues := t.net.queues, net.jigs := t.net.jigs })) ∧
  (∀ (s : State) (p sp r q : Nat), p < 14 → linkUp s p = false → bit (live s (NETIN_PORT_CTRL p)) 0 = true →
    Completes (.ethLinkUp p sp r q) s (fun t => linkUp t p = true ∧ fld t (NETIN_PORT_STATUS p) 2 1 = sp % 4 ∧
      t = raise 0x3002 p (setMask NETIN_LINK_UP (2 ^ p) (wr (NETIN_PORT_STATUS p) (1 + 2 * (sp % 4) + 8 * (r % 2) + 16 * (q % 8)) s))))

/-- Scanner ports, vehicle buses and stale signals. A fault of an adapter drops its packet with event 0x3014, and the third within 1 s halts the jig with event 0x3015. A sweep whose timeout passes is closed and tested. A synthetic block adds eight records of the port to the ingest stream and takes the next block number. A queued vehicle-bus message on a channel that may send leaves with its identifier and is counted; a received frame with SEC set is only counted; errors move fault confinement by 8 as transmitter and by 1 as receiver; a bus-off channel with auto_recover recovers. A signal without a sample for max_gap_ms is marked stale with event 0x3041. -/
def Obligations.ScannersAndBuses : Prop :=
  (∀ (s : State) (p : Nat) (b : Bool) (x : List Byte × Nat) (rest : List (List Byte × Nat)), (jig s p).queue = x :: rest →
    (jig s p).sweep = none → fld s (NETIN_SCAN_ADAPTER p) 15 0 ≠ 0 → bit (rd s (NETIN_SCAN_ADAPTER p)) 21 = false → Completes (.jigPacket p [] true b) s (fun t =>
      (jig t p).queue = rest ∧ (jig t p).faults = (jig s p).faults.filter (fun u => decide (s.ridge.ns < u + 1000000000)) ++ [s.ridge.ns] ∧
      rd t (NETIN_ADAPTER_FAULTS p) = min 0xFFFFFFFF (rd s (NETIN_ADAPTER_FAULTS p) + 1) ∧
      (3 ≤ (jig t p).faults.length → bit (rd t (NETIN_SCAN_ADAPTER p)) 21 = true) ∧
      t = { s with regs := t.regs, recd := t.recd, emitted := t.emitted, net.jigs := t.net.jigs })) ∧
  (∀ (s : State) (p : Nat), p < 8 → ∀ (w : Sweep), (jig s p).sweep = some w → w.start + max 1 (bits w.timing 15 0) * 1000000 ≤ s.ridge.ns →
    Quiet s → tget (bits w.verdict 15 0) s.scribe.pegs = none → tget w.ring s.scribe.rings = none →
    Completes (.sweepTimeout p false) s (fun t => (jig t p).sweep = none ∧ (jig t p).lastTest = s.ridge.ns ∧
      rd t (NETIN_SCAN_REC_DROP p) = min 0xFFFFFFFF (rd s (NETIN_SCAN_REC_DROP p) + 1) ∧ t.mem = s.mem ∧ t.ridge = s.ridge)) ∧
  (∀ (s : State) (p : Nat), p < 8 → bit (live s (NETIN_SCAN_CTRL p)) 0 = true → bit (live s (NETIN_SCAN_CTRL p)) 2 = true →
    Completes (.synthBlockInject p []) s (fun t =>
      t.ingest = s.ingest ++ (synthBlock p (jig s p).blockNumber).map (fun pt => ⟨pt, s.ridge.ns, p⟩) ∧ t.ingest.length = s.ingest.length + 8 ∧
      (jig t p).blockNumber = ((jig s p).blockNumber + 1) % 2 ^ 24 ∧ t = { s with net.jigs := t.net.jigs, ingest := t.ingest })) ∧
  (∀ (s : State) (c k stamp : Nat), c < 4 → k < 15 →
    fld s (NETIN_CAN_STATUS c) 1 0 = 0 → fld s (NETIN_CAN_STATUS c) 15 7 < 128 → fld s (NETIN_CAN_STATUS c) 23 16 < 128 →
    bit (live s (NETIN_CAN_CTRL c)) 3 = false → ∀ (x : Nat × Nat × List Byte) (rest : List (Nat × Nat × List Byte)),
    s.net.canQueue = x :: rest → x.1 = c → x.2.1 = k → ∀ (sl : List Byte),
    tget (16 * c + k) (netTables s s.ridge.ns).canSlots = some sl → fieldU sl 2 1 ≠ 2 → Completes (.canTxStart c k stamp) s (fun t =>
      t.emitted = s.emitted ++ [.can c (fieldU sl 4 4) x.2.2] ∧ t.net.canQueue = rest ∧
      rd t (NETIN_CAN_TX_FRAMES c) = min 0xFFFFFFFF (rd s (NETIN_CAN_TX_FRAMES c) + 1) ∧
      fld t (NETIN_CAN_STATUS c) 15 7 = fld s (NETIN_CAN_STATUS c) 15 7 - 1 ∧
      t = { s with regs := t.regs, emitted := t.emitted, net.canQueue := t.net.canQueue } ∧
      SameWords s t (fun a => decide (a = (NETIN_CAN_TX_FRAMES c).addr ∨ a = (NETIN_CAN_STATUS c).addr)))) ∧
  (∀ (s : State) (c id stamp : Nat) (d : List Byte), c < 4 → fld s (NETIN_CAN_STATUS c) 1 0 = 0 →
    Completes (.canFrameReceived c id stamp true d) s (fun t => t = inc (NETIN_RX_ERR c) s) ∧
    ((netTables s stamp).signals = [] → fld s (NETIN_CAN_STATUS c) 15 7 < 128 → fld s (NETIN_CAN_STATUS c) 23 16 < 128 →
      Completes (.canFrameReceived c id stamp false d) s (fun t =>
        rd t (NETIN_CAN_RX_FRAMES c) = min 0xFFFFFFFF (rd s (NETIN_CAN_RX_FRAMES c) + 1) ∧
        fld t (NETIN_CAN_STATUS c) 23 16 = fld s (NETIN_CAN_STATUS c) 23 16 - 1 ∧ t = { s with regs := t.regs }))) ∧
  (∀ (s : State) (c : Nat) (tx : Bool), c < 4 → fld s (NETIN_CAN_STATUS c) 1 0 = 0 → fld s (NETIN_CAN_STATUS c) 15 7 < 120 →
    fld s (NETIN_CAN_STATUS c) 23 16 < 127 → Completes (.canErrorFrame c tx) s (fun t =>
      fld t (NETIN_CAN_STATUS c) 15 7 = fld s (NETIN_CAN_STATUS c) 15 7 + (if tx then 8 else 0) ∧
      fld t (NETIN_CAN_STATUS c) 23 16 = fld s (NETIN_CAN_STATUS c) 23 16 + (if tx then 0 else 1) ∧
      rd t (NETIN_RX_ERR c) = min 0xFFFFFFFF (rd s (NETIN_RX_ERR c) + 1) ∧ t = { s with regs := t.regs })) ∧
  (∀ (s : State) (c : Nat), c < 4 → fld s (NETIN_CAN_STATUS c) 1 0 = 2 → bit (live s (NETIN_CAN_CTRL c)) 4 = true →
    Completes (.canBusoffRecovery c) s (fun t => t = wr (NETIN_CAN_STATUS c) 0 s)) ∧
  (∀ (s : State) (i : Nat), i < 256 → ∀ (e : List Byte), tget i s.net.live.signals = some e → fieldU e 28 2 ≠ 0 →
    bit (rd s (NETIN_SIG_STALE (i / 32))) (i % 32) = false →
    max (tgetD i {} s.net.sig).last (tgetD 1 0 s.ridge.unitSince) + fieldU e 28 2 * 1000000 ≤ s.ridge.ns →
    tget (bits (live s NETIN_SIGNAL_RING) 23 0) s.scribe.rings = none → Quiet s → Completes (.signalStale i) s (fun t =>
      bit (rd t (NETIN_SIG_STALE (i / 32))) (i % 32) = true ∧ rd t NETIN_SIG_DROP = min 0xFFFFFFFF (rd s NETIN_SIG_DROP + 1) ∧
      t = { s with regs := t.regs, recd := t.recd, emitted := t.emitted }))

/-- The reference inertial unit and its cross-check. A sample shows saturation in its status, keeps the three rates and the three accelerations in the vehicle frame for the cross-check with their measurement time, and counts how often each axis repeated. A failed self-test is fault 7 with event 0x3051. A cross-check window without a vehicle rate on some axis clears the status; one in which every axis agrees within its limits sets valid, clears the axes and the count; and one in which some axis disagrees counts it. -/
def Obligations.ReferenceImu : Prop :=
  (∀ (s : State) (stamp : Nat) (rate acc : List Int) (b : Bool), rate.length = 3 → acc.length = 3 → Quiet s →
    tget (bits (live s NETIN_SIGNAL_RING) 23 0) s.scribe.rings = none → s.net.imu = [] → 10000000 ≤ stamp →
    Completes (.refImuSample stamp rate acc b) s (fun t =>
      bit (rd t NETIN_REF_IMU_STATUS) 2 = b ∧ t.net.imuLast = rate ++ acc ∧ t.net.imuRuns.length = 6 ∧ t.net.imu.length = 6 ∧
      (t.net.imu.map (fun x => (x.source, x.axis))) = [(0, 0), (0, 1), (0, 2), (1, 0), (1, 1), (1, 2)] ∧
      (∀ x ∈ t.net.imu, x.t + 2000000000 / ([200, 400, 800, 1600].getD (bits (liveAt s 1 stamp NETIN_REF_IMU_CFG) 1 0) 800) = stamp) ∧
      rd t NETIN_SIG_DROP = min 0xFFFFFFFF (rd s NETIN_SIG_DROP + 2) ∧ t = { s with regs := t.regs, net := t.net })) ∧
  (∀ (s : State), bit (rd s NETIN_REF_IMU_STATUS) 0 = false → Completes (.refImuFault true) s (fun t =>
    bit (rd t NETIN_REF_IMU_STATUS) 0 = true ∧ bit (rd t KINGPOST_FAULT_LATCH) 7 = true ∧
    Reported { s with regs := (setMask NETIN_REF_IMU_STATUS (1 + 2 * b2n (s.net.imuRuns.any (fun n => decide (50 ≤ n)))) s).regs } t)) ∧
  (∀ (s : State),
    let w := max 1 (bits (live s NETIN_XCHK_CFG) 9 0) * 1000000
    let e := (s.ridge.ns - 20000000) / w * w
    let l := s.net.imu.filter (fun x => decide (e - w ≤ x.t) && decide (x.t < e))
    20000000 + w ≤ s.ridge.ns → s.net.xchkEnd < e → Completes .xchkWindowEval s (fun t => t.net.xchkEnd = e ∧
      (imuMean l 2 0 = none → bit (rd t NETIN_XCHK_STATUS) 0 = false ∧ fld t NETIN_XCHK_STATUS 15 8 = 0 ∧
        t = { s with regs := t.regs, net.xchkEnd := e }) ∧
      ((∀ a, a < 3 → imuMean l 2 a = imuMean l 0 a ∧ imuMean l 2 a ≠ none ∧ imuMean l 3 a = none) →
        bit (rd t NETIN_XCHK_STATUS) 0 = true ∧ fld t NETIN_XCHK_STATUS 4 2 = 0 ∧ fld t NETIN_XCHK_STATUS 15 8 = 0)))

/-- The mailbox commands that stage ports, tables and units of the sensor infeed. Each of NET_PORT_STAGE, SCAN_STAGE, CAN_STAGE and IMU_STAGE in its range is answered with success and stages its words, which the configuration in force does not show but for the enables that act at once; FWD_WRITE, SIGNAL_MAP_WRITE and CAN_SLOT_WRITE stage an entry of their tables, where a sound one is given, and leave the tables in force; GCL_WRITE writes entries of a list without a change pending at once, an interval below 100 ns as 100; UNIT_STAGE of another unit than Planer, Raft and Tally is refused with 0x1006, and of a descriptor that cannot be read with 0x100D. An index beyond the table is refused with 0x1006. -/
def Obligations.SensorStaging : Prop :=
  (∀ (s : State) (f k : Nat), Ready f k 0x0404 s → param s f k 0x0404 0 < 14 → Completes (.netPortStage f k) s (fun t => Answered f k 0 t ∧
    t.net.live = s.net.live ∧ t.mem = s.mem ∧ SameWords s t (fun a => inPage f a ||
      decide (0x31000 + 0x100 * param s f k 0x0404 0 ≤ a ∧ a < 0x31100 + 0x100 * param s f k 0x0404 0)))) ∧
  (∀ (s : State) (f k : Nat), Ready f k 0x0405 s →
    let p := fun i => param s f k 0x0405 i
    (1024 ≤ p 0 → Answers (.fwdWrite f k) f k 0x1006 s s) ∧
    (p 0 < 1024 → p 1 = 0 → Answers (.fwdWrite f k) f k 0 s { s with net.staged.fwd := tdel (p 0) s.net.staged.fwd }) ∧
    (p 0 < 1024 → p 1 ≠ 0 → Answers (.fwdWrite f k) f k 0 s (
      let e : Fwd := { vid := p 2 % 4096, mask := p 3 % 2 ^ 14, mac := beNat ((paramBlock s f k 0x0405 4).take 6) }
      { s with net.staged.fwd := tput (p 0) e s.net.staged.fwd }))) ∧
  (∀ (s : State) (f k : Nat), Ready f k 0x0406 s → param s f k 0x0406 0 < 8 → Completes (.scanStage f k) s (fun t => Answered f k 0 t ∧
    tget (param s f k 0x0406 0) t.net.staged.macs = some (beNat ((paramBlock s f k 0x0406 8).take 6)) ∧
    t = { s with regs := t.regs, emitted := t.emitted, mb.accepted := tdel (16 * f + k) s.mb.accepted, net.staged.macs := t.net.staged.macs })) ∧
  (∀ (s : State) (f k : Nat), Ready f k 0x0407 s →
    let b := paramBlock s f k 0x0407 1
    (signalRejected b = true → Answers (.signalMapWrite f k) f k 0x100D s s) ∧
    (signalRejected b = false → Answers (.signalMapWrite f k) f k 0 s
      { s with net.staged.signals := tput (param s f k 0x0407 0) b s.net.staged.signals })) ∧
  (∀ (s : State) (f k : Nat), Ready f k 0x0408 s → param s f k 0x0408 0 < 4 → Completes (.canStage f k) s (fun t => Answered f k 0 t ∧
    t.net = s.net ∧ t.mem = s.mem ∧ SameWords s t (fun a => inPage f a ||
      decide (0x30400 + 0x100 * param s f k 0x0408 0 ≤ a ∧ a < 0x30500 + 0x100 * param s f k 0x0408 0)))) ∧
  (∀ (s : State) (f k : Nat), Ready f k 0x0409 s →
    let c := param s f k 0x0409 0
    let n := param s f k 0x0409 1
    let b := paramBlock s f k 0x0409 2
    (4 ≤ c → Answers (.canSlotWrite f k) f k 0x1006 s s) ∧
    (c < 4 → n < 15 → canSlotRejected n b = false → Answers (.canSlotWrite f k) f k 0 s
      { s with net.staged.canSlots := tput (16 * c + n) b s.net.staged.canSlots })) ∧
  (∀ (s : State) (f k : Nat), Ready f k 0x040A s → Completes (.imuStage f k) s (fun t => Answered f k 0 t ∧
    t = { s with regs := t.regs, emitted := t.emitted, mb.accepted := tdel (16 * f + k) s.mb.accepted } ∧
    SameWords s t (fun a => inPage f a || decide (0x30900 ≤ a ∧ a < 0x30938)))) ∧
  (∀ (s : State) (f k : Nat), Ready f k 0x040B s →
    (param s f k 0x040B 0 = 4 → Answers (.unitStage f k) f k 0x1006 s s) ∧
    (param s f k 0x040B 0 = 3 → s.memory.allocs = [] → param s f k 0x040B 1 = 0 → Completes (.unitStage f k) s (fun t =>
      Answered f k 0x100D t ∧ t.raft.staged = s.raft.staged ∧ t.raft.live = s.raft.live ∧ t.mem = s.mem))) ∧
  (∀ (s : State) (f k : Nat), Ready f k 0x040C s →
    let p := fun i => param s f k 0x040C i
    p 0 < 12 → p 1 < 256 → 1 ≤ p 2 → p 2 ≤ 12 → p 1 + p 2 ≤ 256 →
    (bit (rd s (NETIN_GCL_STATUS (p 0))) 0 = true → Answers (.gclWrite f k) f k 0x100A s s) ∧
    (bit (rd s (NETIN_GCL_STATUS (p 0))) 0 = false → Completes (.gclWrite f k) s (fun t => Answered f k 0 t ∧
      rd t ⟨0x38004 + 0x800 * p 0 + 8 * p 1, 0⟩ = max 100 ((wordsIn (paramBlock s f k 0x040C 3)).getD 1 0) ∧
      SameWords s t (fun a => inPage f a || decide (0x38000 + 0x800 * p 0 + 8 * p 1 ≤ a ∧ a < 0x38000 + 0x800 * p 0 + 8 * (p 1 + p 2))))))

/-- Ringing, accepting, sessions and quotas of a mailbox. A doorbell sets the busy bits of its slots. Foreman accepts the next rung slot: a request of another version is answered with 0x1001, an opcode that is not in the catalogue with 0x1004, an owner command of a client with 0x1005, and one that passes every check waits with its opcode. HELLO of a revision that both sides know opens the session and answers the revision; of another, 0x1003; beside another busy slot, 0x100A. GOODBYE closes the session. PING answers the Ridge time and the generation, LIMITS the quota and the use of each resource. QUOTA_SET sets one quota, unless it is locked. -/
def Obligations.MailboxProtocol : Prop :=
  (∀ (s : State) (f v : Nat), f < 64 → v < 2 ^ 16 → hostReaches s f = true → inRun s = true → Completes (.mbDoorbell f v) s (fun t =>
    rd t (MB_BUSY f) = rd s (MB_BUSY f) ||| v ∧ (∀ k, k < 16 → bit (rd s (MB_BUSY f)) k = true → bit v k = false) →
    rd t (MB_IGNORED f) = rd s (MB_IGNORED f) ∧ t = setMask (MB_BUSY f) v t ∧ t = { s with regs := t.regs } ∧
    SameWords s t (fun a => decide (a = (MB_BUSY f).addr ∨ a = (MB_IGNORED f).addr)))) ∧
  (∀ (s : State), mailboxServes s = true → ∀ (x : Nat × Nat), nextRung s = some x → Completes .commandAccept s (fun t =>
    let a := slotByte s x.1 x.2 0
    let op := slotNat s x.1 x.2 2 2
    let plain := s.fw.recovery = false ∧ quiescedDomain s x.1 = false ∧ s.sec.fuses.returned = false ∧ a = 1 ∧ bit (rd s (MB_SESSION x.1)) 0 = true
    t.mb.lastServed = x.1 ∧ (a ≠ 1 → Answered x.1 x.2 0x1001 t) ∧ (plain → cmdRow op = none → Answered x.1 x.2 0x1004 t) ∧
    (plain → ∀ r, cmdRow op = some r →
      (r.owner = true → x.1 ≠ 0 → Answered x.1 x.2 0x1005 t) ∧
      (r.owner = false ∨ x.1 = 0 → s.ridge.phase = .idle →
        t = { s with mb.lastServed := x.1, mb.accepted := tput (16 * x.1 + x.2) { opcode := op } s.mb.accepted })))) ∧
  (∀ (s : State) (f k : Nat), Ready f k 0x0101 s → s.fw.recovery = false →
    let lo := max 0x0100 (param s f k 0x0101 0)
    let rev := min 0x0102 (param s f k 0x0101 1)
    (alone s f k = false → Answers (.hello f k) f k 0x100A s s) ∧ (alone s f k = true → rev < lo → Answers (.hello f k) f k 0x1003 s s) ∧
    (alone s f k = true → lo ≤ rev → Completes (.hello f k) s (fun t => Answered f k 0 t ∧ bit (rd t (MB_SESSION f)) 0 = true ∧
      fld t (MB_SESSION f) 31 16 = rev ∧ result t f k 0 2 = rev ∧ result t f k 2 2 = 0x0100 ∧ result t f k 4 2 = 0x0102 ∧ result t f k 6 1 = f ∧
      (∀ n, tget f t.mb.sessions = some n → 0 < n ∧ n < 2 ^ 32) ∧ t.mem = s.mem ∧
      t = { s with regs := t.regs, recd := t.recd, emitted := t.emitted, mb.sessions := t.mb.sessions, mb.accepted := tdel (16 * f + k) s.mb.accepted }))) ∧
  (∀ (s : State) (f k : Nat), Ready f k 0x0102 s → bit (rd s (MB_SESSION f)) 0 = true → alone s f k = true →
    Answers (.goodbye f k) f k 0 s (raise 0x0003 f (setFld (MB_SESSION f) 31 16 0 (clearMask (MB_SESSION f) 1 s)))) ∧
  (∀ (s : State) (f k : Nat), Ready f k 0x0103 s → AnswersWith (.ping f k) f k 0 s s (fun t =>
    result t f k 0 8 = s.ridge.ns % 2 ^ 64 ∧ result t f k 8 4 = s.mb.foremanGen % 2 ^ 32)) ∧
  (∀ (s : State) (f k : Nat), Ready f k 0x0104 s → AnswersWith (.limits f k) f k 0 s s (fun t => ∀ r, r < 10 →
    result t f k (8 * r) 4 = min 0xFFFFFFFF (quotaOf s f r) ∧ result t f k (8 * r + 4) 4 = min 0xFFFFFFFF (useOf s f r))) ∧
  (∀ (s : State) (f k : Nat), Ready f k 0x0211 s →
    let d := param s f k 0x0211 0
    let r := param s f k 0x0211 1
    let u : State := { s with mb.quotas := tput (16 * d + r) (param s f k 0x0211 2) s.mb.quotas }
    (bit (rd s FENCE_LOCK) 1 = true → Answers (.quotaSet f k) f k 0x100E s s) ∧
    (bit (rd s FENCE_LOCK) 1 = false → 63 < d → Answers (.quotaSet f k) f k 0x1006 s s) ∧
    (bit (rd s FENCE_LOCK) 1 = false → d < 64 → r < 10 → Answers (.quotaSet f k) f k 0 s u ∧ quotaOf u d r = param s f k 0x0211 2))

/-- Allocations, shares, clearing, and copies between host and device memory. MEM_ALLOC within the quota takes the place that the search finds, aligned, inside its stack or loft and apart from every other allocation, zeroed, and answers its address; an alignment above 2^34 is refused with 0x1101. MEM_RELEASE frees an unreferenced allocation of the domain, whose memory is cleared afterwards; a referenced one is refused with 0x1103. MEM_SHARE replaces the rights of another domain. A copy starts within one allocation, and is refused with 0x1006 or 0x1007 otherwise. A copy in ends with the host's bytes in memory and no other byte changed; a copy out hands the host the bytes; a failed transfer ends with 0x100F. -/
def Obligations.MemoryCommands : Prop :=
  (∀ (s : State) (f k : Nat), Ready f k 0x0201 s →
    let p := param s f k 0x0201
    let len := (p 0 + 4095) / 4096 * 4096
    (34 < p 1 → Answers (.memAlloc f k) f k 0x1101 s s) ∧
    (∀ x, placeOf s (p 2) = some x → p 1 ≤ 34 → 0 < p 0 → p 0 ≤ x.2 → memoryUse s f + len ≤ quotaOf s f 0 * 2 ^ 20 →
      s.memory.allocs.length < 16384 → ∀ a, findRoom s f x.1 x.2 len (2 ^ max 12 (p 1)) = some a →
      (a % 2 ^ max 12 (p 1) = 0 ∧ x.1 ≤ a ∧ a + len ≤ x.1 + x.2 ∧ (∀ q ∈ s.memory.allocs, a + len ≤ q.1 ∨ q.1 + q.2.len ≤ a)) ∧
      AnswersWith (.memAlloc f k) f k 0 s
        (zeroRange a len { s with memory.allocs := tput a { len := len, owner := f, priv := bit (p 3) 0 } s.memory.allocs })
        (fun t => result t f k 0 8 = a % 2 ^ 64 ∧ SameMemory s t a len ∧ readBytes t a 64 = List.replicate 64 0))) ∧
  (∀ (s : State) (f k : Nat), Ready f k 0x0202 s →
    let a := param s f k 0x0202 0
    (tget a s.memory.allocs = none → Answers (.memRelease f k) f k 0x1007 s s) ∧
    (∀ g, tget a s.memory.allocs = some g → (g.owner ≠ f → Answers (.memRelease f k) f k 0x1007 s s) ∧
      (g.owner = f → referenced s a g.len = true → Answers (.memRelease f k) f k 0x1103 s s) ∧
      (g.owner = f → referenced s a g.len = false → Answers (.memRelease f k) f k 0 s
        { s with memory.allocs := tdel a s.memory.allocs, memory.zeroing := s.memory.zeroing ++ [(a, g.len)] }))) ∧
  (∀ (s : State) (f k : Nat), Ready f k 0x0203 s →
    let a := param s f k 0x0203 0
    let d := param s f k 0x0203 1
    let r := param s f k 0x0203 2
    ∀ g, tget a s.memory.allocs = some g → g.owner = f →
      (d = f → Answers (.memShare f k) f k 0x1105 s s) ∧
      (d ≠ f → d < 64 → g.priv = false → bits r 1 0 = 3 → (∀ i, i < g.len / 4096 → d = 0 ∨ windowHolds s d (a + 4096 * i) 4096 true true = true) →
        Answers (.memShare f k) f k 0 s { s with memory.allocs := tput a { g with rmask := g.rmask ||| 2 ^ d, wmask := g.wmask ||| 2 ^ d } s.memory.allocs })) ∧
  (∀ (s : State) (x : Nat × Nat) (rest : List (Nat × Nat)), s.memory.zeroing = x :: rest → Completes .zeroingComplete s (fun t =>
    SameMemory s t x.1 x.2 ∧ (∀ i, i < x.2 → i < 4096 → memGet t (x.1 + i) = 0) ∧
    t = { s with mem := t.mem, poison := t.poison, memory.zeroing := rest })) ∧
  (∀ (s : State) (f k : Nat), tget (16 * f + k) s.memory.copies = none →
    (Ready f k 0x0204 s → let p := param s f k 0x0204
      (p 2 = 0 ∨ 2 ^ 30 < p 2 → Answers (.memCopyIn f k) f k 0x1006 s s) ∧
      (0 < p 2 → p 2 ≤ 2 ^ 30 → holdsRange s f (p 1) (p 2) false true = false → Answers (.memCopyIn f k) f k 0x1007 s s) ∧
      (0 < p 2 → p 2 ≤ 2 ^ 30 → holdsRange s f (p 1) (p 2) false true = true → s.mb.bmeClear = [] → Completes (.memCopyIn f k) s (fun t => t =
        { s with memory.copies := tput (16 * f + k) { function := f, slot := k, toDevice := true, device := p 1, host := p 0, bytes := p 2 } s.memory.copies }))) ∧
    (Ready f k 0x0205 s → let p := param s f k 0x0205
      (0 < p 2 → p 2 ≤ 2 ^ 30 → holdsRange s f (p 0) (p 2) true false = true → s.mb.bmeClear = [] → Completes (.memCopyOut f k) s (fun t => t =
        { s with memory.copies := tput (16 * f + k) { function := f, slot := k, toDevice := false, device := p 0, host := p 1, bytes := p 2 } s.memory.copies })))) ∧
  (∀ (s : State) (f k : Nat), s.memory.downLinks = [] → ∀ (c : HostCopy), tget (16 * f + k) s.memory.copies = some c →
    (Ready f k 0x0204 s → c.toDevice = true → ∀ (data : List Byte), data = (List.range c.bytes).map (fun i => BitVec.ofNat 8 (3 * i + 1)) →
      admitAll s f c.device c.bytes true = true → Completes (.copyComplete f k data none) s (fun t => Answered f k 0 t ∧
        readBytes t c.device c.bytes = data ∧ SameMemory s t c.device c.bytes ∧ t.memory = { s.memory with copies := tdel (16 * f + k) s.memory.copies })) ∧
    (Ready f k 0x0205 s → c.toDevice = false → readable s f c.device c.bytes = true → Completes (.copyComplete f k [] none) s (fun t =>
        Answered f k 0 t ∧ (s.emitted ++ [Emission.hostWrite f c.host (readBytes s c.device c.bytes)]).isPrefixOf t.emitted = true ∧ t.mem = s.mem)) ∧
    (∀ (o : Nat), Ready f k 0x0205 s → c.toDevice = false → Completes (.copyComplete f k [] (some o)) s (fun t => Answered f k 0x100F t ∧
        t.mem = s.mem ∧ tget (16 * f + k) t.memory.copies = none)))

/-- Tensor handles, caches and queries of the Ledger. TENSOR_CREATE of a descriptor that passes its checks takes a free slot of the table and answers its handle, with the slot in bits 19:0 and the next generation above it; a descriptor whose check fails is refused with the status of that check, and one off a 64-byte boundary with 0x170E. TENSOR_DESTROY frees a handle that nothing uses, and refuses one that something binds with 0x170D, an unknown one with 0x170C. TENSOR_QUERY of an unsharded tensor answers its first and last byte. CACHE_CREATE stores a descriptor that passes its checks; CACHE_DESTROY takes a cache without sequences; LEDGER_QUERY answers a page record's fields. -/
def Obligations.TensorsAndCaches : Prop :=
  (∀ (s : State) (f k : Nat), Ready f k 0x0206 s →
    let a := param s f k 0x0206 0
    (a % 64 ≠ 0 → Answers (.tensorCreate f k) f k 0x170E s s) ∧ (∀ st, tensorReject s f a = some st → Answers (.tensorCreate f k) f k st s s) ∧
    (tensorReject s f a = none → quotaOf s f 1 ≤ useOf s f 1 → Answers (.tensorCreate f k) f k 0x170B s s) ∧
    (tensorReject s f a = none → useOf s f 1 < quotaOf s f 1 → ∀ n, tfree s.tensors.table (2 ^ 20 - 1) 1 = some n →
      let gen := match tget n s.tensors.gens with | none => 0 | some g => (g + 1) % 256
      tget n s.tensors.table = none ∧ AnswersWith (.tensorCreate f k) f k 0 s { s with
        tensors.gens := tput n gen s.tensors.gens, tensors.table := tput n { owner := f, gen := gen, bytes := readBytes s a 256 } s.tensors.table }
        (fun t => result t f k 0 4 = (n + gen * 2 ^ 20) % 2 ^ 32))) ∧
  (∀ (s : State) (f k : Nat), Ready f k 0x0207 s →
    let h := param s f k 0x0207 0
    (heldTensor s f h = none → Answers (.tensorDestroy f k) f k 0x170C s s) ∧
    (∀ x, heldTensor s f h = some x → (tensorInUse s f h = true → Answers (.tensorDestroy f k) f k 0x170D s s) ∧
      (tensorInUse s f h = false → Answers (.tensorDestroy f k) f k 0 s { s with tensors.table := tdel (h % 2 ^ 20) s.tensors.table }))) ∧
  (∀ (s : State) (f k : Nat), Ready f k 0x0208 s →
    let h := param s f k 0x0208 0
    (tensorOf s f h = none → Answers (.tensorQuery f k) f k 0x170C s s) ∧
    (∀ x, tensorOf s f h = some x → tdIndexed x.bytes = false → tdSharded x.bytes = false → AnswersWith (.tensorQuery f k) f k 0 s s (fun t =>
      let e := extentOf x.bytes (tdBase x.bytes 0) ((tdDims x.bytes).map (tdShape x.bytes))
      result t f k 8 8 = e.1.toNat % 2 ^ 64 ∧ result t f k 16 8 = e.2.toNat % 2 ^ 64 ∧ result t f k 24 8 = 0))) ∧
  (∀ (s : State) (f k : Nat), Ready f k 0x020E s →
    let a := param s f k 0x020E 0
    let c := readBytes s a 256
    (∀ st, cacheReject s f a = some st → Answers (.cacheCreate f k) f k st s s) ∧
    (cacheReject s f a = none → useOf s f 6 < quotaOf s f 6 → cacheNames s f c = true → s.ledger.caches = [] →
      AnswersWith (.cacheCreate f k) f k 0 s { s with ledger.caches := tput 0 { owner := f, bytes := c } s.ledger.caches } (fun t => result t f k 0 1 = 0))) ∧
  (∀ (s : State) (f k : Nat), Ready f k 0x020F s →
    let c := param s f k 0x020F 0
    (cacheOf s f c = none → Answers (.cacheDestroy f k) f k 0x1007 s s) ∧
    (∀ x, cacheOf s f c = some x →
      (s.ledger.seqs.any (fun p => decide (p.2.cache = c)) = true → Answers (.cacheDestroy f k) f k 0x100A s s) ∧
      (s.ledger.seqs.any (fun p => decide (p.2.cache = c)) = false → nodeNamesCache s f c = false → Completes (.cacheDestroy f k) s (fun t =>
        Answered f k 0 t ∧ tget c t.ledger.caches = none ∧ t.mem = s.mem ∧ t.ledger.seqs = s.ledger.seqs.filter (fun p => decide (p.2.cache ≠ c)))))) ∧
  (∀ (s : State) (f k : Nat), Ready f k 0x0210 s →
    let c := param s f k 0x0210 0
    let i := param s f k 0x0210 2
    let pg := pageOf s i
    (cacheOf s f c = none → Answers (.ledgerQuery f k) f k 0x1007 s s) ∧
    (∀ x, cacheOf s f c = some x → (1 < param s f k 0x0210 1 → Answers (.ledgerQuery f k) f k 0x1006 s s) ∧
      (param s f k 0x0210 1 = 1 → pg.state = .free ∨ pg.cache ≠ c → Answers (.ledgerQuery f k) f k 0x1007 s s) ∧
      (param s f k 0x0210 1 = 1 → pg.state ≠ .free → pg.cache = c → AnswersWith (.ledgerQuery f k) f k 0 s s (fun t =>
        result t f k 2 2 = pg.refcount % 2 ^ 16 ∧ result t f k 4 2 = pg.pins % 2 ^ 16 ∧ result t f k 6 1 = pg.fill % 256 ∧
        result t f k 12 4 = pg.lpage % 2 ^ 32 ∧ result t f k 16 2 = pg.seq % 2 ^ 16 ∧ result t f k 18 1 = c % 256))))

/-- Rings: creating, destroying, pushing and popping. RING_CREATE of 2^4 to 2^20 entries over memory that the domain holds takes a free number; another size, or a base off its alignment, is refused with 0x1006. RING_DESTROY frees a ring that nothing uses and refuses one in use with 0x100A. RING_QUERY answers its pointers. RING_PUSH writes the entry at the publish pointer and advances it, with no other byte changed; it refuses a full ring with 0x1821 and a packet ring with 0x1823. RING_POP answers the oldest entry and advances the consume pointer, and an empty ring with 0x1822. A read of the pop register does the same for the selected ring. -/
def Obligations.Rings : Prop :=
  (∀ (s : State) (f k : Nat), Ready f k 0x0209 s →
    let l := param s f k 0x0209 0
    let peg := param s f k 0x0209 2
    let base := param s f k 0x0209 3
    (l < 4 ∨ 20 < l → Answers (.ringCreate f k) f k 0x1006 s s) ∧
    (4 ≤ l → l ≤ 20 → peg ≠ 0xFFFF → mayAdd s f peg = false → Answers (.ringCreate f k) f k 0x1007 s s) ∧
    (4 ≤ l → l ≤ 20 → peg = 0xFFFF → base % (64 * 2 ^ l) ≠ 0 → Answers (.ringCreate f k) f k 0x1006 s s) ∧
    (4 ≤ l → l ≤ 20 → peg = 0xFFFF → base % (64 * 2 ^ l) = 0 → holdsRange s f base (64 * 2 ^ l) true true = true → useOf s f 3 < quotaOf s f 3 →
      ∀ n, tfree s.scribe.rings 262144 0 = some n → tget n s.scribe.rings = none ∧ AnswersWith (.ringCreate f k) f k 0 s
        { s with scribe.rings := tput n { owner := f, packet := bit (param s f k 0x0209 1) 0, log2 := l, base := base, peg := none } s.scribe.rings }
        (fun t => result t f k 0 4 = n % 2 ^ 32))) ∧
  (∀ (s : State) (f k : Nat), Ready f k 0x020A s →
    let n := param s f k 0x020A 0
    (ringOwned s f n = none → Answers (.ringDestroy f k) f k 0x1007 s s) ∧
    (∀ r, ringOwned s f n = some r → (ringInUse s n r = true → Answers (.ringDestroy f k) f k 0x100A s s) ∧
      (ringInUse s n r = false → Answers (.ringDestroy f k) f k 0 s { s with scribe.rings := tdel n s.scribe.rings }))) ∧
  (∀ (s : State) (f k : Nat), Ready f k 0x020B s → ∀ r, ringOwned s f (param s f k 0x020B 0) = some r → AnswersWith (.ringQuery f k) f k 0 s s (fun t =>
    result t f k 2 1 = r.log2 % 256 ∧ result t f k 8 8 = r.base % 2 ^ 64 ∧ result t f k 16 4 = r.prod % 2 ^ 32 ∧ result t f k 24 4 = r.cons % 2 ^ 32)) ∧
  (∀ (s : State) (f k : Nat), Ready f k 0x020C s →
    let n := param s f k 0x020C 0
    (ringOwned s f n = none → Answers (.ringPush f k 0) f k 0x1007 s s) ∧
    (∀ r, ringOwned s f n = some r → pointersAgree r = true →
      (r.packet = true → Answers (.ringPush f k 0) f k 0x1823 s s) ∧
      (r.packet = false → ringFull r = true → Answers (.ringPush f k 0) f k 0x1821 s s) ∧
      (r.packet = false → ringFull r = false → r.peg = none → s.scribe.work = [] → s.memory.downLinks = [] →
        admitAll s f (r.base + 64 * (r.prod % 2 ^ r.log2)) 64 true = true → Completes (.ringPush f k 0) s (fun t => Answered f k 0 t ∧
          readBytes t (r.base + 64 * (r.prod % 2 ^ r.log2)) 64 = paramBlock s f k 0x020C 1 ∧ SameMemory s t (r.base + 64 * (r.prod % 2 ^ r.log2)) 64 ∧
          tget n t.scribe.rings = some (setProd { r with resv := (r.resv + 1) % 2 ^ 32 } (r.prod + 1)) ∧ (∀ m, m ≠ n → tget m t.scribe.rings = tget m s.scribe.rings) ∧
          SameWords s t (inPage f))))) ∧
  (∀ (s : State) (f k : Nat), Ready f k 0x020D s →
    let n := param s f k 0x020D 0
    ∀ r, ringOwned s f n = some r → pointersAgree r = true →
      (r.cons = r.prod → Answers (.ringPop f k 0 []) f k 0x1822 s s) ∧
      (r.cons ≠ r.prod → readable s f (r.base + 64 * (r.cons % 2 ^ r.log2)) 64 = true → AnswersWith (.ringPop f k 0 []) f k 0 s
        { s with scribe.rings := tput n (setCons r (r.cons + 1)) s.scribe.rings }
        (fun t => ∀ i, i < 64 → result t f k i 1 = (memGet s (r.base + 64 * (r.cons % 2 ^ r.log2) + i)).toNat))) ∧
  (∀ (s : State), let n := rd s SCRIBE_RING_SEL
    (tget n s.scribe.rings = none → Completes (.ringPopRegisterRead 0 []) s (fun t =>
      t = emit (.readValue SCRIBE_RING_POP.addr 0x1007) (wr SCRIBE_POP_STATUS 0x1007 s))) ∧
    (∀ r, tget n s.scribe.rings = some r → pointersAgree r = true →
      (r.cons = r.prod → Completes (.ringPopRegisterRead 0 []) s (fun t => t = emit (.readValue SCRIBE_RING_POP.addr 0x1822) (wr SCRIBE_POP_STATUS 0x1822 s))) ∧
      (r.cons ≠ r.prod → readable s r.owner (r.base + 64 * (r.cons % 2 ^ r.log2)) 64 = true → Completes (.ringPopRegisterRead 0 []) s (fun t =>
        rd t SCRIBE_POP_STATUS = 0 ∧ (∀ i, i < 16 → rd t (SCRIBE_POP_DATA i) = readNat s (r.base + 64 * (r.cons % 2 ^ r.log2) + 4 * i) 4) ∧
        t = { s with regs := t.regs, scribe.rings := tput n (setCons r (r.cons + 1)) s.scribe.rings, emitted := s.emitted ++ [.readValue SCRIBE_RING_POP.addr 0] }))))

/-- Pegs and the waits of the mailbox. PEG_ALLOC gives a free peg its value 0 and its owner, within the quota. PEG_RELEASE, PEG_SET and a write of PEG_SET act on a peg that nothing refers to, and are refused with 0x1820 or ignored otherwise; a set leaves every history slot VALID. PEG_GRANT gives or revokes rights. PEG_ADD and a write of PEG_ADD raise the value by the amount and write the verdict into the history slots of the last increments; an amount of 0 is refused or ignored. PEG_READ answers the value. PEG_WAIT of a target not reached holds an entry, and of one reached is answered at once; a wait that passes its timeout is answered with 0x100C or noted; WAIT_QUERY reads a final state once. -/
def Obligations.Pegs : Prop :=
  (∀ (s : State) (f k : Nat), Ready f k 0x0301 s → (quotaOf s f 2 ≤ useOf s f 2 → Answers (.pegAlloc f k) f k 0x1008 s s) ∧
    (useOf s f 2 < quotaOf s f 2 → ∀ n, tfree s.scribe.pegs 8192 0 = some n → tget n s.scribe.pegs = none ∧
      AnswersWith (.pegAlloc f k) f k 0 s { s with scribe.pegs := tput n { owner := f, value := 0, hist := 0 } s.scribe.pegs } (fun t => result t f k 0 2 = n % 2 ^ 16))) ∧
  (∀ (s : State) (f k : Nat),
    (Ready f k 0x0302 s → ∀ x, tget (param s f k 0x0302 0) s.scribe.pegs = some x →
      (x.owner ≠ f → Answers (.pegRelease f k) f k 0x1007 s s) ∧
      (x.owner = f → 0 < waiters s (param s f k 0x0302 0) → Answers (.pegRelease f k) f k 0x1820 s s) ∧
      (x.owner = f → waiters s (param s f k 0x0302 0) = 0 → Answers (.pegRelease f k) f k 0 s { s with scribe.pegs := tdel (param s f k 0x0302 0) s.scribe.pegs })) ∧
    (Ready f k 0x0303 s → ∀ x, tget (param s f k 0x0303 0) s.scribe.pegs = some x → x.owner = f → param s f k 0x0303 1 < 64 → Completes (.pegGrant f k) s (fun t =>
      Answered f k 0 t ∧ ∀ y, tget (param s f k 0x0303 0) t.scribe.pegs = some y → bit y.addMask (param s f k 0x0303 1) = bit (param s f k 0x0303 2) 0 ∧
        bit y.waitMask (param s f k 0x0303 1) = bit (param s f k 0x0303 2) 1 ∧ y = { x with addMask := y.addMask, waitMask := y.waitMask })) ∧
    (Ready f k 0x0305 s → ∀ x, tget (param s f k 0x0305 0) s.scribe.pegs = some x → x.owner = f → (0 < waiters s (param s f k 0x0305 0) → Answers (.pegSet f k) f k 0x1820 s s) ∧
      (waiters s (param s f k 0x0305 0) = 0 → Completes (.pegSet f k) s (fun t => Answered f k 0 t ∧
        tget (param s f k 0x0305 0) t.scribe.pegs = some { x with value := param s f k 0x0305 1 % 2 ^ 64, hist := 0 }))) ∧
    (Ready f k 0x0306 s → ∀ x, tget (param s f k 0x0306 0) s.scribe.pegs = some x → x.owner = f → AnswersWith (.pegRead f k) f k 0 s s (fun t =>
      result t f k 0 8 = x.value % 2 ^ 64 ∧ result t f k 8 16 = x.hist % 2 ^ 128))) ∧
  (∀ (s : State) (f k : Nat), Ready f k 0x0304 s → let p := param s f k 0x0304
    (p 1 ≤ 3 → p 2 = 0 → Answers (.pegAdd f k) f k 0x1006 s s) ∧ (p 1 ≤ 3 → 0 < p 2 → p 2 < 2 ^ 30 → mayAdd s f (p 0) = false → Answers (.pegAdd f k) f k 0x1007 s s) ∧
    (p 1 ≤ 3 → 0 < p 2 → p 2 < 2 ^ 30 → mayAdd s f (p 0) = true → Quiet s → ∀ x, tget (p 0) s.scribe.pegs = some x → quiescedDomain s x.owner = false →
      x.value + p 2 < 2 ^ 64 → Completes (.pegAdd f k) s (fun t => Answered f k 0 t ∧ result t f k 0 8 = x.value + p 2 ∧
        (∀ y, tget (p 0) t.scribe.pegs = some y → y.value = x.value + p 2 ∧ ∀ j, j < 64 → j < p 2 → histGet y.hist (x.value + p 2 - j) = min 2 (p 1)) ∧
        (∀ q, q ≠ p 0 → tget q t.scribe.pegs = tget q s.scribe.pegs) ∧ SameWords s t (inPage f)))) ∧
  (∀ (s : State) (v : Nat), v < 2 ^ 32 → let p := rd s SCRIBE_PEG_SEL
    (v % 2 ^ 30 = 0 → Completes (.scribePegAddWrite v) s (fun t => t.scribe = s.scribe)) ∧
    (Quiet s → 0 < v % 2 ^ 30 → ∀ x, tget p s.scribe.pegs = some x → quiescedDomain s x.owner = false → x.value + v % 2 ^ 30 < 2 ^ 64 →
      Completes (.scribePegAddWrite v) s (fun t => t = { s with scribe.pegs := t.scribe.pegs, out.streams := t.out.streams } ∧ ∀ y, tget p t.scribe.pegs = some y →
        y.value = x.value + v % 2 ^ 30 ∧ histGet y.hist y.value = min 2 (v / 2 ^ 30))) ∧
    (∀ x, tget p s.scribe.pegs = some x → waiters s p = 0 → tget SCRIBE_PEG_SET_LO.addr s.staged = none → Completes (.pegSetWrite v) s (fun t =>
      tget p t.scribe.pegs = some { x with value := v * 2 ^ 32 + rd s SCRIBE_PEG_SET_LO, hist := 0 } ∧ (∀ q, q ≠ p → tget q t.scribe.pegs = tget q s.scribe.pegs)))) ∧
  (∀ (s : State) (f k : Nat), Ready f k 0x0307 s → slotWaits s f k = false → s.mb.foremanUp = true → let p := param s f k 0x0307
    (mayWait s f (p 0) = false → Answers (.pegWait f k) f k 0x1007 s s) ∧
    (mayWait s f (p 0) = true → bit (p 1) 0 = false → ∀ key, tfree s.mb.waits 64 (64 * f) = some key → ∀ x, tget (p 0) s.scribe.pegs = some x →
      (x.value < p 3 → Completes (.pegWait f k) s (fun t =>
        let d := if p 4 = 0 then none else some (s.ridge.ns + 1000 * p 4)
        let w : MbWait := { peg := p 0, target := p 3, async := false, vector := p 2, slot := k, deadline := d }
        t = { s with mb.waits := tput key w s.mb.waits })) ∧
      (p 3 ≤ x.value → x.value < p 3 + 64 → Completes (.pegWait f k) s (fun t => Answered f k 0 t ∧ result t f k 0 8 = x.value % 2 ^ 64 ∧ tget key t.mb.waits = none)))) ∧
  (∀ (s : State) (f n : Nat), n < 64 → s.mb.foremanUp = true → ∀ w, tget (64 * f + n) s.mb.waits = some w → w.state = 0 → ∀ d, w.deadline = some d → d ≤ s.ridge.ns →
    (w.async = true → w.vector = 0xFF → Completes (.waitTimeout f n) s (fun t => tget (64 * f + n) t.mb.waits = some { w with state := 2 } ∧ bit (rd t (MB_NOTICE f)) 3 = true)) ∧
    (w.async = false → tget (16 * f + w.slot) s.mb.accepted = some { opcode := 0x0307 } → f < 64 → w.slot < 16 → Completes (.waitTimeout f n) s (fun t =>
      Answered f w.slot 0x100C t ∧ tget (64 * f + n) t.mb.waits = none))) ∧
  (∀ (s : State) (f k : Nat), Ready f k 0x0308 s → let n := param s f k 0x0308 0
    (64 ≤ n → Answers (.waitQuery f k) f k 0x1007 s s) ∧
    (n < 64 → ∀ w, tget (64 * f + n) s.mb.waits = some w → 0 < w.state → AnswersWith (.waitQuery f k) f k 0 s { s with mb.waits := tdel (64 * f + n) s.mb.waits }
      (fun t => result t f k 0 1 = w.state % 256 ∧ result t f k 8 8 = w.value % 2 ^ 64)))

/-- Loading, starting, stopping, aborting, unloading and querying graphs. GRAPH_LOAD off a 64-byte boundary is refused with 0x180C; an image that fails a check with that check's status; one that passes becomes resident in the lowest free slot. GRAPH_START takes effect at once or is staged, and is refused with 0x100A where the graph is started; the first instance of a node without dependences becomes ready. GRAPH_STOP stops at once or is staged; GRAPH_ABORT stops, staged changes dropped. GRAPH_UNLOAD frees a stopped graph without instances and refuses others with 0x100A. GRAPH_QUERY answers the counts by state. A graph of another domain is refused with 0x1007. -/
def Obligations.Graphs : Prop :=
  (∀ (s : State) (f k : Nat), Ready f k 0x0309 s →
    let a := param s f k 0x0309 0
    (a % 64 ≠ 0 → Answers (.graphLoad f k) f k 0x180C s s) ∧ (∀ x, graphReject s f a = some x → Answers (.graphLoad f k) f k x.1 s s) ∧
    (graphReject s f a = none → ∀ g, tfree s.scribe.graphs 256 0 = some g → tget g s.scribe.graphs = none ∧
      AnswersWith (.graphLoad f k) f k 0 s { s with scribe.graphs := tput g (graphOf s f a) s.scribe.graphs } (fun t => result t f k 0 1 = g % 256))) ∧
  (∀ (s : State) (f k : Nat), Ready f k 0x030A s → s.ridge.phase = .idle →
    let g := param s f k 0x030A 0
    let t0 := param s f k 0x030A 2
    (graphOwned s f g = none → Answers (.graphStart f k) f k 0x1007 s s) ∧
    (∀ x, graphOwned s f g = some x → (x.started = true → Answers (.graphStart f k) f k 0x100A s s) ∧
      (x.started = false → x.stagedStart = none → bit (param s f k 0x030A 1) 0 = true →
        Answers (.graphStart f k) f k 0 s { s with scribe.graphs := tput g { x with stagedStart := some t0 } s.scribe.graphs }) ∧
      (x.started = false → x.stagedStart = none → bit (param s f k 0x030A 1) 0 = false → Quiet s →
        (∀ nd, x.nodes = [nd] → nd.deps = [] → nd.sigs = [] → nd.flags = 0 → nd.kind ≠ 0 → x.iterations = 0 → Completes (.graphStart f k) s (fun t =>
          Answered f k 0 t ∧ tget g t.scribe.graphs = some { x with started := true, t0 := t0, origins := [], done := 0, next := [] } ∧
          t.scribe.insts = [(s.scribe.nextInst, { graph := g, node := 0, n := 0, st := .ready, tReady := s.ridge.ns, runs := [{ bay := nd.bay % 4 }] })] ∧
          t.scribe.nextInst = s.scribe.nextInst + 1 ∧ t.mem = s.mem ∧ SameWords s t (inPage f)))))) ∧
  (∀ (s : State) (f k : Nat), s.ridge.phase = .idle → Quiet s →
    (Ready f k 0x030B s → ∀ x, graphOwned s f (param s f k 0x030B 0) = some x →
      (bit (param s f k 0x030B 1) 0 = true → Answers (.graphStop f k) f k 0 s
        { s with scribe.graphs := tput (param s f k 0x030B 0) { x with stagedStop := true } s.scribe.graphs }) ∧
      (bit (param s f k 0x030B 1) 0 = false → Completes (.graphStop f k) s (fun t => Answered f k 0 t ∧
        tget (param s f k 0x030B 0) t.scribe.graphs = some { x with started := false } ∧ t.mem = s.mem ∧ SameWords s t (inPage f)))) ∧
    (Ready f k 0x030C s → (graphOwned s f (param s f k 0x030C 0) = none → Answers (.graphAbort f k) f k 0x1007 s s) ∧
      ∀ x, graphOwned s f (param s f k 0x030C 0) = some x → Completes (.graphAbort f k) s (fun t => Answered f k 0 t ∧
        tget (param s f k 0x030C 0) t.scribe.graphs = some { x with started := false, stagedStart := none, stagedStop := false } ∧ t.mem = s.mem))) ∧
  (∀ (s : State) (f k : Nat),
    (Ready f k 0x030D s → ∀ x, graphOwned s f (param s f k 0x030D 0) = some x →
      (x.started = true → Answers (.graphUnload f k) f k 0x100A s s) ∧
      (x.started = false → s.scribe.insts = [] → Answers (.graphUnload f k) f k 0 s { s with scribe.graphs := tdel (param s f k 0x030D 0) s.scribe.graphs })) ∧
    (Ready f k 0x030E s → ∀ x, graphOwned s f (param s f k 0x030E 0) = some x → AnswersWith (.graphQuery f k) f k 0 s s (fun t =>
      result t f k 0 1 = b2n x.started ∧ result t f k 40 4 = x.done % 2 ^ 32 ∧
      ∀ i, i < 9 → ∀ st, [IState.waiting, .ready, .provReady, .running, .provRunning, .provDone, .committing, .discarding, .skipped][i]? = some st →
        result t f k (4 + 4 * i) 4 = (s.scribe.insts.filter (fun p => decide (p.2.st = st) && decide (p.2.graph = param s f k 0x030E 0))).length % 2 ^ 32)))

/-- Registering and releasing problem slots of Plumb and cycle configurations of Tally. PLUMB_REGISTER of a slot below 64 and TALLY_REGISTER of one below 16, with a priority of at most 7, a peg that the domain may add to and no bindings, stage the registration with the domain, descriptor, priority, peg and amount given, and leave the registrations in force; a slot beyond the range or a priority above 7 is refused with 0x1006, and a peg that the domain may not use with 0x1007. PLUMB_RELEASE stages the release of the domain's own slot and refuses another's with 0x1007; TALLY_RELEASE does so for a registered configuration. -/
def Obligations.Registrations : Prop :=
  (∀ (s : State) (f k : Nat), Ready f k 0x030F s →
    let p := param s f k 0x030F
    let c : CycleSlot := { owner := f, desc := p 4, binds := [], priority := p 1, peg := p 2, amount := p 3 }
    (64 ≤ p 0 → Answers (.plumbRegister f k) f k 0x1006 s s) ∧ (p 0 < 64 → 7 < p 1 → Answers (.plumbRegister f k) f k 0x1006 s s) ∧
    (p 0 < 64 → p 1 ≤ 7 → mayAdd s f (p 2) = false → Answers (.plumbRegister f k) f k 0x1007 s s) ∧
    (p 0 < 64 → p 1 ≤ 7 → mayAdd s f (p 2) = true → p 6 = 0 → s.plumb.staged = [] →
      (tget (p 0) s.plumb.slots = none → useOf s f 7 < quotaOf s f 7 → Answers (.plumbRegister f k) f k 0 s { s with plumb.staged := [(p 0, some c)] }) ∧
      (tget (p 0) s.plumb.slots = none → quotaOf s f 7 ≤ useOf s f 7 → Answers (.plumbRegister f k) f k 0x1008 s s) ∧
      (∀ old, tget (p 0) s.plumb.slots = some old → (old.owner = f → Answers (.plumbRegister f k) f k 0 s { s with plumb.staged := [(p 0, some c)] }) ∧
        (old.owner ≠ f → Answers (.plumbRegister f k) f k 0x100A s s)))) ∧
  (∀ (s : State) (f k : Nat), Ready f k 0x0310 s → s.plumb.staged = [] →
    let n := param s f k 0x0310 0
    (64 ≤ n → Answers (.plumbRelease f k) f k 0x1006 s s) ∧
    (n < 64 → tget n s.plumb.slots = none → Answers (.plumbRelease f k) f k 0x1007 s s) ∧
    (n < 64 → ∀ old, tget n s.plumb.slots = some old → (old.owner ≠ f → Answers (.plumbRelease f k) f k 0x1007 s s) ∧
      (old.owner = f → Answers (.plumbRelease f k) f k 0 s { s with plumb.staged := [(n, none)] }))) ∧
  (∀ (s : State) (f k : Nat), Ready f k 0x0311 s →
    let p := param s f k 0x0311
    let c : CycleSlot := { owner := f, desc := p 4, binds := [], priority := p 1, peg := p 2, amount := p 3 }
    (16 ≤ p 0 → Answers (.tallyRegister f k) f k 0x1006 s s) ∧ (p 0 < 16 → 7 < p 1 → Answers (.tallyRegister f k) f k 0x1006 s s) ∧
    (p 0 < 16 → p 1 ≤ 7 → mayAdd s f (p 2) = false → Answers (.tallyRegister f k) f k 0x1007 s s) ∧
    (p 0 < 16 → p 1 ≤ 7 → mayAdd s f (p 2) = true → p 6 = 0 → Answers (.tallyRegister f k) f k 0 s { s with tally.staged := tput (p 0) (some c) s.tally.staged })) ∧
  (∀ (s : State) (f k : Nat), Ready f k 0x0312 s → s.tally.staged = [] →
    let n := param s f k 0x0312 0
    (16 ≤ n → Answers (.tallyRelease f k) f k 0x1006 s s) ∧ (n < 16 → tget n s.tally.slots = none → Answers (.tallyRelease f k) f k 0x1007 s s) ∧
    (n < 16 → tget n s.tally.slots ≠ none → Answers (.tallyRelease f k) f k 0 s { s with tally.staged := [(n, none)] }))

/-- The mailbox commands of output streams, and the vehicle link registers. STREAM_OPEN takes the stream named or the lowest free one, within the quota, and refuses one in use with 0x100A. STREAM_STAGE of the domain's stream stages its header fields and words and leaves those in force; STREAM_HOST_RING registers or unregisters its host ring and refuses a bad slot size, count or vector with 0x1006; STREAM_CLOSE stages its closing; STREAM_QUERY answers its status and counters without clearing them; a stream of another domain is refused with 0x1007. VLINK_SET and writes of VLINK_CTRL and VLINK_ID take effect at once, the pair invalid while valid_out_en is 0; after the lock they are refused with 0x100E, or ignored and counted with bit 1 of the recorded address set. -/
def Obligations.StreamCommands : Prop :=
  (∀ (s : State) (f k : Nat), Ready f k 0x0601 s →
    let n := param s f k 0x0601 0
    let opened := fun m => modStream m (fun x => { x with owner := some f, hdr := {}, stagedHdr := {}, prevHdr := {} }) s
    (31 < n → n ≠ 0xFF → Answers (.streamOpen f k) f k 0x1006 s s) ∧
    (n < 32 → quotaOf s f 5 ≤ useOf s f 5 → Answers (.streamOpen f k) f k 0x1008 s s) ∧
    (n < 32 → useOf s f 5 < quotaOf s f 5 → (streamFree s n = false → Answers (.streamOpen f k) f k 0x100A s s) ∧
      (streamFree s n = true → AnswersWith (.streamOpen f k) f k 0 s (opened n) (fun t => result t f k 0 1 = n))) ∧
    (n = 0xFF → useOf s f 5 < quotaOf s f 5 → ∀ m, (List.range 32).find? (streamFree s) = some m →
      AnswersWith (.streamOpen f k) f k 0 s (opened m) (fun t => result t f k 0 1 = m))) ∧
  (∀ (s : State) (f k : Nat), Ready f k 0x0602 s →
    let p := param s f k 0x0602
    (p 0 < 32 → streamOwned s f (p 0) = false → Answers (.streamStage f k) f k 0x1007 s s) ∧
    (p 0 < 32 → streamOwned s f (p 0) = true → Completes (.streamStage f k) s (fun t => Answered f k 0 t ∧
      (stream t (p 0)).stagedHdr = { dst := beNat ((paramBlock s f k 0x0602 13).take 6), src := beNat ((paramBlock s f k 0x0602 14).take 6), pcpVid := p 15, ipSrc := p 16, ipDst := p 17, dscp := p 18, ttl := p 19, udpSrc := p 20, udpDst := p 21 } ∧ rd t (NETIN_OUT_HANDLE (p 0)) = p 3 ∧
      (stream t (p 0)).hdr = (stream s (p 0)).hdr ∧ t.live = s.live ∧ t.mem = s.mem ∧
      SameWords s t (fun a => inPage f a || decide (0x33000 + 0x40 * p 0 ≤ a ∧ a < 0x33030 + 0x40 * p 0))))) ∧
  (∀ (s : State) (f k : Nat), Ready f k 0x0603 s →
    let p := param s f k 0x0603
    p 0 < 32 → (streamOwned s f (p 0) = false → Answers (.streamHostRing f k) f k 0x1007 s s) ∧
    (streamOwned s f (p 0) = true → (p 1 = 0 → Answers (.streamHostRing f k) f k 0 s (modStream (p 0) (fun x => { x with hostRing := none }) s)) ∧
      (p 1 ≠ 0 → p 2 % 4096 ≠ 0 → Answers (.streamHostRing f k) f k 0x1006 s s) ∧
      (p 1 ≠ 0 → p 2 % 4096 = 0 → 0 < p 2 → p 2 ≤ 2 ^ 26 → 2 ≤ p 3 → p 3 ≤ 1024 → 2 ≤ p 6 → p 6 ≤ 31 → Answers (.streamHostRing f k) f k 0 s
        (modStream (p 0) (fun x => { x with hostRing := some ⟨p 1, p 2, p 3, p 4, p 5, p 6⟩ }) s)))) ∧
  (∀ (s : State) (f k : Nat),
    (Ready f k 0x0604 s → param s f k 0x0604 0 < 32 → streamOwned s f (param s f k 0x0604 0) = true →
      Answers (.streamClose f k) f k 0 s (modStream (param s f k 0x0604 0) (fun x => { x with closing := true }) s)) ∧
    (Ready f k 0x0605 s → param s f k 0x0605 0 < 32 → streamOwned s f (param s f k 0x0605 0) = true → AnswersWith (.streamQuery f k) f k 0 s s (fun t =>
      let n := param s f k 0x0605 0
      result t f k 0 4 = rd s (NETIN_OUT_STATUS n) ∧ result t f k 4 4 = rd s (NETIN_OUT_SENT n) ∧ result t f k 8 4 = rd s (NETIN_OUT_MISS n) ∧
      result t f k 12 4 = rd s (NETIN_OUT_DROP n)))) ∧
  (∀ (s : State) (f k : Nat), Ready f k 0x0606 s → (bit (rd s NETIN_VLINK_CTRL) 31 = true → Answers (.vlinkSet f k) f k 0x100E s s) ∧
    (bit (rd s NETIN_VLINK_CTRL) 31 = false → bit (param s f k 0x0606 0) 0 = false → Completes (.vlinkSet f k) s (fun t => Answered f k 0 t ∧
      rd t NETIN_VLINK_ID = param s f k 0x0606 1 ∧ bit (rd t NETIN_VLINK_CTRL) 0 = false ∧ bit (rd t NETIN_VLINK_STATE) 0 = false ∧ t.mem = s.mem))) ∧
  (∀ (s : State) (v : Nat), v < 2 ^ 32 →
    (bit (rd s NETIN_VLINK_CTRL) 31 = true → Completes (.vlinkCtrlWrite true v) s (Ignored 0x30000 (0x33804 + 2) s)) ∧
    (bit (rd s NETIN_VLINK_CTRL) 31 = false → Completes (.vlinkCtrlWrite true v) s (fun t => t = wr NETIN_VLINK_ID v s)) ∧
    (bit (rd s NETIN_VLINK_CTRL) 31 = false → bit v 0 = false → Completes (.vlinkCtrlWrite false v) s (fun t =>
      bit (rd t NETIN_VLINK_CTRL) 0 = false ∧ bit (rd t NETIN_VLINK_CTRL) 1 = bit v 1 ∧ fld t NETIN_VLINK_CTRL 3 2 = bits v 3 2 ∧
      bit (rd t NETIN_VLINK_CTRL) 31 = bit v 31 ∧ bit (rd t NETIN_VLINK_STATE) 0 = false ∧ rd t NETIN_VLINK_ID = rd s NETIN_VLINK_ID ∧ t.mem = s.mem)))

/-- Capturing, encoding and sending the messages of a stream. A requested capture takes the message that its source gives where it is later than the last and fits a buffer, and otherwise counts a drop. When the encoding is complete the bytes stand in a half of the output area, no other byte is changed, and the message with the next number waits to leave. A segment whose port is down is dropped and counted; one whose port may start it leaves as a frame, and the message is counted as sent after its last segment. A PCIe delivery hands the host the segment header with the message and a completion entry; without a host ring the message is dropped. -/
def Obligations.StreamMessages : Prop :=
  (∀ (s : State) (k : Nat), k < 32 → (stream s k).enabled = true → (stream s k).requested = true → (stream s k).copying = none → inRun s = true →
    let c := streamCfg s k
    let r := readSource s k c
    quiescedDomain s c.dom = false → r.chanError = false → (∀ p ∈ r.reads, readable s c.dom p.1 p.2 = true) →
    (∀ m, r.msg = some m → (stream s k).lastTov.all (fun t => decide (t < m.tov)) = true → m.bytes.length ≤ scHalf c → Completes (.streamCapture k) s (fun t =>
      (stream t k).requested = false ∧ (∀ y, (stream t k).copying = some y → y.tov = m.tov ∧ y.bytes = m.bytes ∧ y.verdict = min 2 m.verdict ∧ y.oldestAge = m.age) ∧
      (stream t k).copying.isSome = true ∧ t = { s with out.streams := t.out.streams })) ∧
    (r.msg = none → scDonePeg c = 0xFFFF → Completes (.streamCapture k) s (fun t => (stream t k).requested = false ∧ (stream t k).copying = none ∧
      fld t (NETIN_OUT_DROP k) 31 16 = min 0xFFFF (fld s (NETIN_OUT_DROP k) 31 16 + 1) ∧ t = { s with regs := t.regs, out.streams := t.out.streams } ∧
      SameWords s t (fun a => decide (a = (NETIN_OUT_DROP k).addr))))) ∧
  (∀ (s : State) (k : Nat), k < 32 → (stream s k).leaving = none → (stream s k).waiting = none → s.memory.downLinks = [] → ∀ m, (stream s k).copying = some m →
    scDonePeg m.cfg = 0xFFFF → m.verdict < 2 → (s.ridge.ns : Int) < windowDue m.cfg (windowFor m.cfg m.tov) → admitAll s m.cfg.dom m.cfg.area m.bytes.length true = true →
    Completes (.captureComplete k) s (fun t => (stream t k).copying = none ∧ (stream t k).nextMsg = ((stream s k).nextMsg + 1) % 2 ^ 32 ∧
      (∀ y, (stream t k).waiting = some y → y.number = (stream s k).nextMsg ∧ y.bytes = m.bytes ∧ y.due = windowDue m.cfg (windowFor m.cfg m.tov)) ∧
      (stream t k).waiting.isSome = true ∧ (stream t k).lastTov = some m.tov ∧ readBytes t m.cfg.area m.bytes.length = m.bytes ∧
      SameMemory s t m.cfg.area m.bytes.length ∧ SameWords s t (fun a => decide (a = (NETIN_OUT_STATUS k).addr)))) ∧
  (∀ (s : State) (k : Nat), k < 32 → (stream s k).leaving = none → ∀ m, (stream s k).waiting = some m → scEth m.cfg = true → m.ethDone = false → m.sent = 0 →
    launchTime m ≤ s.ridge.ns → let p := scPort m.cfg
    (linkUp s p = false → Completes (.segmentLaunch k) s (fun t => rd t (NETIN_TX_DROP p) = min 0xFFFFFFFF (rd s (NETIN_TX_DROP p) + 1) ∧
      t.emitted = s.emitted ∧ rd t (NETIN_OUT_SENT k) = rd s (NETIN_OUT_SENT k) ∧ t.mem = s.mem)) ∧
    (linkUp s p = true → m.bytes.length ≤ scSeg m.cfg → scPcie m.cfg = false → m.broken = false →
      ((s.ridge.ns + lastBitTime s p (segmentFrame s k m 0).length : Nat) : Int) ≤ m.due → mayStart s p (scQueue m.cfg) (segmentFrame s k m 0).length = true →
      Completes (.segmentLaunch k) s (fun t => t.emitted = s.emitted ++ [.eth p (scQueue m.cfg) (segmentFrame s k m 0)] ∧ (stream t k).leaving = none ∧
        (stream t k).waiting = none ∧ (stream t k).left = (stream s k).left ++ [(m.due, decide (m.verdict = 2))] ∧
        rd t (NETIN_OUT_SENT k) = min 0xFFFFFFFF (rd s (NETIN_OUT_SENT k) + 1) ∧ t.mem = s.mem))) ∧
  (∀ (s : State) (k n : Nat), k < 32 → (stream s k).leaving = none → ∀ m, (stream s k).waiting = some m → scPcie m.cfg = true → scEth m.cfg = false → m.pcieDone = false →
    ((stream s k).hostRing = none → Completes (.pcieDelivery k n) s (fun t => (stream t k).waiting = none ∧ (stream t k).leaving = none ∧
      fld t (NETIN_OUT_DROP k) 15 0 = min 0xFFFF (fld s (NETIN_OUT_DROP k) 15 0 + 1) ∧ rd t (NETIN_OUT_SENT k) = rd s (NETIN_OUT_SENT k))) ∧
    (∀ r, (stream s k).hostRing = some r → 64 + m.bytes.length ≤ r.slotBytes → s.mb.linkUp = true → s.mb.bmeClear = [] → m.broken = false →
      (m.number + 2 ^ 32 - n % 2 ^ 32) % 2 ^ 32 ≠ r.slots → Completes (.pcieDelivery k n) s (fun t =>
        let h := segmentHeader s k m 0 1 0 m.bytes.length
        let i := m.number % max 1 r.slots
        t.emitted = s.emitted ++ [.hostWrite m.cfg.dom (r.slotsHost + i * r.slotBytes) (h ++ m.bytes),
          .hostWrite m.cfg.dom (r.compHost + 64 * i) (h.take 48 ++ leBytes 8 s.ridge.ns ++ leBytes 8 0), .msix m.cfg.dom r.vector] ∧
        (stream t k).waiting = none ∧ rd t (NETIN_OUT_SENT k) = min 0xFFFFFFFF (rd s (NETIN_OUT_SENT k) + 1) ∧
        t = { s with regs := t.regs, emitted := t.emitted, out.streams := t.out.streams })))

/-- Window decisions, the readback of the pair, and the heartbeat message. At the deadline of a window without a message the window is a miss: counted, and a stream in VALID is INVALID. With a message that left completely the window is met: a stream in INVALID is RECOVERING at run 1, and one in RECOVERING gains a run and is VALID when the run reaches recover_frames. Before the deadline nothing is decided. A reading of the pair that agrees sets readback_ok; one that disagrees clears it, and the second in a row reports fault 20. At a multiple of the heartbeat period, with msg_en set, the safe-state message is queued once and its counter advances. -/
def Obligations.WindowsAndThePair : Prop :=
  (∀ (s : State) (k : Nat), k < 32 → let x := stream s k
    let c := streamCfg s k
    let d := windowDue c x.nextWindow
    x.enabled = true → x.waiting = none → x.leaving = none → scSafety c = false → x.missed = [] →
    (x.left = [] → (s.ridge.ns : Int) < d → Completes (.windowDecision k) s (fun t => t = s)) ∧
    (x.left = [] → d ≤ s.ridge.ns → Completes (.windowDecision k) s (fun t => (stream t k).nextWindow = x.nextWindow + 1 ∧
      rd t (NETIN_OUT_MISS k) = min 0xFFFFFFFF (rd s (NETIN_OUT_MISS k) + 1) ∧ (streamState s k = 1 → streamState t k = 2) ∧
      (streamState s k = 0 → streamState t k = 0) ∧ t.mem = s.mem)) ∧
    (x.left = [(d, false)] → d ≤ s.ridge.ns → Completes (.windowDecision k) s (fun t => (stream t k).nextWindow = x.nextWindow + 1 ∧ (stream t k).left = [] ∧
      rd t (NETIN_OUT_MISS k) = rd s (NETIN_OUT_MISS k) ∧ (streamState s k = 2 → streamState t k = 3 ∧ fld t (NETIN_OUT_STATUS k) 15 8 = 1) ∧
      (streamState s k = 3 → fld s (NETIN_OUT_STATUS k) 15 8 < 255 → fld t (NETIN_OUT_STATUS k) 15 8 = fld s (NETIN_OUT_STATUS k) 15 8 + 1 ∧
        (streamState t k = 1 ↔ scRecover c ≤ fld s (NETIN_OUT_STATUS k) 15 8 + 1)) ∧ t.mem = s.mem))) ∧
  (∀ (s : State) (b : Bool), (b = bit (rd s NETIN_VLINK_STATE) 0 → Completes (.validOutReadback b) s (fun t =>
      bit (rd t NETIN_VLINK_STATE) 2 = true ∧ t.out.badReads = 0 ∧ t = { s with regs := t.regs, out.badReads := 0 })) ∧
    (b ≠ bit (rd s NETIN_VLINK_STATE) 0 → s.out.badReads = 0 → Completes (.validOutReadback b) s (fun t =>
      bit (rd t NETIN_VLINK_STATE) 2 = false ∧ t.out.badReads = 1 ∧ t = { s with regs := t.regs, out.badReads := 1 } ∧
      SameWords s t (fun a => decide (a = NETIN_VLINK_STATE.addr)))) ∧
    (b ≠ bit (rd s NETIN_VLINK_STATE) 0 → s.out.badReads = 1 → Completes (.validOutReadback b) s (fun t =>
      bit (rd t KINGPOST_FAULT_LATCH) 20 = true ∧ inSafeState t = true ∧ t.out.badReads = 2 ∧ t.mem = s.mem))) ∧
  (∀ (s : State), let p := min 100 (max 1 (fld s NETIN_VLINK_CTRL 15 8)) * 1000000
    (bit (rd s NETIN_VLINK_CTRL) 1 = true → s.out.beat < s.ridge.ns / p * p → Completes .safeStateHeartbeat s (fun t =>
      t.out.slot15 = some (safeMessage s) ∧ t.out.beat = s.ridge.ns / p * p ∧
      fld t NETIN_VLINK_STATE 15 8 = (fld s NETIN_VLINK_STATE 15 8 + 1) % 256 ∧ t = { s with regs := t.regs, out := t.out } ∧
      SameWords s t (fun a => decide (a = NETIN_VLINK_STATE.addr)))) ∧
    (s.ridge.ns / p * p ≤ s.out.beat → Completes .safeStateHeartbeat s (fun t => t = s)))

/-- Set-points, naming of trusses, loading and the start of tasks. A set-point write in range and near its neighbours' is staged; another is ignored and counted. The head of a Bay's queue is named to the lowest free trusses that its plan asks for, the load is counted, and the run joins the order of the Bay. A truss that has loaded its shadow configuration shows it. A task whose trusses all have it starts: its instance runs, is counted, and takes step_bound of its plan; one whose plan fails a check is refused at load with event 0xF005, counted, and its instance ends. -/
def Obligations.NamingAndLoading : Prop :=
  (∀ (s : State) (b v : Nat), b < 4 → v < 2 ^ 32 →
    (setPointOk (bits v 9 0) = true → neighbourOk s b (bits v 9 0) = true → Completes (.baySetPointWrite b v) s (fun t =>
      fld t (BAY_SET_POINT b) 9 0 = bits v 9 0 ∧ t.live = s.live ∧ t = { s with regs := t.regs } )) ∧
    (bits v 9 0 % 10 ≠ 0 ∨ bits v 9 0 < 620 ∨ 800 < bits v 9 0 → Completes (.baySetPointWrite b v) s (fun t =>
      fld t (BAY_SET_POINT b) 9 0 = fld s (BAY_SET_POINT b) 9 0 ∧ t = { s with regs := t.regs }))) ∧
  (∀ (s : State) (b : Nat), b < 4 → ∀ q, queueHead s 1 (some b) = some q → ∀ z, instOf s q.1 = some z → bit z.2.2.flags 3 = false → ∀ r, runOf s q.1 q.2 = some r →
    r.front = false →
    let n := planTrusses s z.2.2.plan
    let free := (available s b).filter (trussFree s b)
    1 ≤ n → n ≤ free.length → Completes (.instanceNamed b) s (fun t =>
      runOf t q.1 q.2 = some { r with named := true, trusses := free.take n } ∧ (∀ u, u < 16 → (free.take n).contains u = true → (truss t b u).task = some q) ∧
      (∀ u, u < 16 → (free.take n).contains u = false → truss t b u = truss s b u) ∧ t.fab.order = s.fab.order ++ [q] ∧
      rd t (BAY_PLAN_LOADS b) = min 0xFFFFFFFF (rd s (BAY_PLAN_LOADS b) + 1) ∧ t = { s with regs := t.regs, fab := t.fab, scribe.insts := t.scribe.insts } ∧
      SameWords s t (fun a => decide (a = (BAY_PLAN_LOADS b).addr)))) ∧
  (∀ (s : State) (b n : Nat), b < 4 → n < 16 → (truss s b n).shadow.isSome = true → Completes (.shadowLoadComplete b n) s (fun t =>
    (truss t b n) = { truss s b n with shadowLoaded := true } ∧ t = { s with fab.trusses := t.fab.trusses })) ∧
  (∀ (s : State) (i : Nat) (u : Bool), ∀ z, instOf s i = some z → Lone s i z.1 z.2.1 z.2.2 → z.2.2.kind = 1 → z.2.2.flags = 0 → z.1.st = .ready → z.1.prov = false →
    ∀ r, z.1.runs = [r] → taskMayStart s i 0 r = true → r.bay < 4 → let p := z.2.2.plan
    (planStatus s z.2.1.domain r.bay p u = none → readable s z.2.1.domain p (readNat s (p + 4) 4) = true → Completes (.taskStart i 0 u) s (fun t =>
      (∀ y, runOf t i 0 = some y → y.started = true ∧ y.bound = readNat s (p + 8) 4 ∧ y.tStart = s.ridge.ns) ∧ (tget i t.scribe.insts).map (·.st) = some .running ∧
      rd t SCRIBE_TASKS_STARTED = min 0xFFFFFFFF (rd s SCRIBE_TASKS_STARTED + 1) ∧ t.mem = s.mem ∧ t.scribe.pegs = s.scribe.pegs)) ∧
    (p % 64 ≠ 0 → readable s z.2.1.domain p 32 = true → readable s z.2.1.domain p (readNat s (p + 4) 4) = true → Completes (.taskStart i 0 u) s (fun t => Ended s t z.1 z.2.1 ∧
      fld t (BAY_TASK_ABORTS r.bay) 31 16 = min 0xFFFF (fld s (BAY_TASK_ABORTS r.bay) 31 16 + 1) ∧ t.mem = s.mem)))

/-- The end of a task, its writes, its stalls and its bound. A task that ends within its bound writes its bytes through its tensor argument, no other byte is changed, what it counted is added to the counts of its Bay, and its instance ends. A task whose stream finds its ring empty stalls on that ring from now; when the ring has an item the item is taken and the task goes on to its end. A stall that has not lasted longer than the limit goes on; one that has ends the task, counted. A task that reaches its bound ends with event 0xF004, counted, and has written nothing through arguments it does not have. -/
def Obligations.TasksEnd : Prop :=
  (∀ (s : State) (i : Nat), ∀ z, instOf s i = some z → Lone s i z.1 z.2.1 z.2.2 → z.2.2.kind = 1 → z.2.2.flags = 0 → z.1.st = .running → z.1.prov = false →
    ∀ r, z.1.runs = [r] → r.started = true → r.ended = false → r.writes = [] → r.pushes = [] → r.undef = false → r.bay < 4 →
    (r.stalled = none → ∀ (n steps : Nat), steps ≤ r.bound → Completes (.taskEnd i 0 { steps := steps, nar := n }) s (fun t => Ended s t z.1 z.2.1 ∧
      rd t (BAY_NAR_COUNT r.bay) = min 0xFFFFFFFF (rd s (BAY_NAR_COUNT r.bay) + n) ∧ t.mem = s.mem)) ∧
    (r.stalled = none → ∀ (o steps : Nat), steps ≤ r.bound → ∀ m, placeWrite s z.2.1.domain r.bay z.2.2.binds ⟨some 0, o, [0x12, 0x34], false⟩ = some m →
      cutOff s (some r.bay) m.addr = false → admitAll s z.2.1.domain m.addr m.data.length true = true →
      Completes (.taskEnd i 0 { steps := steps, writes := [⟨0, o, [⟨.lit 0x3412, 2⟩], false⟩] }) s (fun t => Ended s t z.1 z.2.1 ∧
        readBytes t m.addr m.data.length = m.data ∧ SameMemory s t m.addr m.data.length)) ∧
    (r.stalled = none → ∀ q, ringOf z.2.2 5 2 = some q → ∀ ring, tget q s.scribe.rings = some ring → pointersAgree ring = true → ring.cons = ring.prod →
      Completes (.taskEnd i 0 { steps := 0, io := [.pop 5] }) s (fun t => (∀ y, runOf t i 0 = some y → y.stalled = some (q, s.ridge.ns) ∧ y.ended = false ∧ y.io = [.pop 5]) ∧
        (tget i t.scribe.insts).map (·.st) = some .running ∧ t.mem = s.mem)) ∧
    (∀ st, r.stalled = some st → r.io = [.pop 5] → ∀ q, ringOf z.2.2 5 2 = some q → ∀ ring, tget q s.scribe.rings = some ring → pointersAgree ring = true →
      ring.cons ≠ ring.prod → readable s z.2.1.domain (entryAddr ring ring.cons) 64 = true → Completes (.streamStallEnd i 0) s (fun t => Ended s t z.1 z.2.1 ∧
        tget q t.scribe.rings = some (setCons ring (ring.cons + 1)) ∧ t.mem = s.mem)) ∧
    (∀ st, r.stalled = some st → z.1.stallLimit ≠ 0 → (s.ridge.ns ≤ st.2 + z.1.stallLimit * 1000 → Completes (.stallTimeout i 0) s (fun t => t = s)) ∧
      (st.2 + z.1.stallLimit * 1000 < s.ridge.ns → z.2.2.binds = [] → Completes (.stallTimeout i 0) s (fun t => Ended s t z.1 z.2.1 ∧
        rd t SCRIBE_STALL_TIMEOUTS = min 0xFFFFFFFF (rd s SCRIBE_STALL_TIMEOUTS + 1) ∧ t.mem = s.mem))) ∧
    (r.stalled = none → z.2.2.binds = [] → Completes (.stepBoundReached i 0) s (fun t => Ended s t z.1 z.2.1 ∧
      fld t (BAY_TASK_ABORTS r.bay) 15 0 = min 0xFFFF (fld s (BAY_TASK_ABORTS r.bay) 15 0 + 1) ∧ t.mem = s.mem)))

/-- Self-tests of trusses, bypasses and retirement. An idle truss is tested 500 ms after its last test started, and is not tested before. A test that passes is counted and ends. One that finds a faulty tenon in a chain without a bypass maps it out in SPARE_MAP and keeps the truss; one that finds a second in that chain, or a fault elsewhere, retires the truss: its available bit goes and its retired bit is set. Each failure sets the truss's bit in SELFTEST_FAIL and reports fault 8. -/
def Obligations.TrussTests : Prop :=
  (∀ (s : State) (b n : Nat), (available s b).contains n = true → trussFree s b n = true →
    ((truss s b n).lastTest + 500000000 ≤ s.ridge.ns → Completes (.trussSelftestStart b n) s (fun t => (truss t b n).testing = true ∧ (truss t b n).lastTest = s.ridge.ns ∧
      (truss t b n).task = none ∧ t = { s with fab.trusses := t.fab.trusses })) ∧
    (s.ridge.ns < (truss s b n).lastTest + 500000000 → Completes (.trussSelftestStart b n) s (fun t => t = s))) ∧
  (∀ (s : State) (b n : Nat), b < 4 → n < 16 → (truss s b n).testing = true → (truss s b n).task = none → (truss s b n).shadow = none →
    Completes (.trussSelftestDone b n .pass) s (fun t => (truss t b n).testing = false ∧ (truss t b n).lastPass = s.ridge.ns ∧
      rd t (BAY_SELFTEST_RUNS b) = min 0xFFFFFFFF (rd s (BAY_SELFTEST_RUNS b) + 1) ∧ rd t (BAY_STATUS b) = rd s (BAY_STATUS b) ∧ t = { s with regs := t.regs, fab := t.fab }) ∧
    (∀ (c p : Nat), c < 4 → p ≤ 16 → (spareOf s b n c = 31 → Completes (.trussSelftestDone b n (.tenon c p)) s (fun t => (truss t b n).testing = false ∧
        spareOf t b n c = p ∧ rd t (BAY_STATUS b) = rd s (BAY_STATUS b) ∧ bit (rd t (BAY_SELFTEST_FAIL b)) n = true ∧ bit (rd t KINGPOST_FAULT_LATCH) 8 = true ∧ t.mem = s.mem)) ∧
      (spareOf s b n c ≠ 31 → Completes (.trussSelftestDone b n (.tenon c p)) s (fun t => bit (rd t (BAY_STATUS b)) n = false ∧ bit (rd t (BAY_RETIRED b)) n = true ∧
        (∀ m, m < 16 → m ≠ n → bit (rd t (BAY_STATUS b)) m = bit (rd s (BAY_STATUS b)) m) ∧ t.mem = s.mem))) ∧
    Completes (.trussSelftestDone b n .other) s (fun t => bit (rd t (BAY_STATUS b)) n = false ∧ bit (rd t (BAY_RETIRED b)) n = true ∧
      bit (rd t KINGPOST_FAULT_LATCH) 8 = true ∧ (truss t b n).testing = false ∧ t.mem = s.mem))

/-- Not-before times, provisional instances, their resolution, and duplicated runs. A waiting instance whose not-before time Ridge has passed becomes ready. An instance that is ready but for an early entry starts provisionally with a guard for it; without a pool it is refused, counted. A commit writes what the instance held, changes no other byte, counts it and ends it; a discard drops it, writes nothing, and ends it. Two copies that agree resolve with copy A; two that differ with no Bay for a tiebreak are discarded with fault 16. A tiebreak that agrees with A takes A and counts B's Bay, one that agrees with B takes B, and one that agrees with neither discards. -/
def Obligations.ProvisionalAndDual : Prop :=
  (∀ (s : State) (i : Nat), ∀ z, instOf s i = some z → Lone s i z.1 z.2.1 z.2.2 → z.1.st = .waiting → z.1.entries = [] → z.1.nbPassed = false → z.2.1.started = true → z.2.2.kind ≠ 0 →
    z.2.2.flags = 4 → notBefore z.2.1 z.2.2 0 ≤ s.ridge.ns → Completes (.notBeforePassed i) s (fun t => (∀ y, tget i t.scribe.insts = some y →
      y = { z.1 with nbPassed := true, st := .ready, tReady := s.ridge.ns, guards := y.guards, runs := [{ bay := z.2.2.bay % 4 }] }) ∧ t = { s with scribe := t.scribe })) ∧
  (∀ (s : State) (i : Nat), ∀ z, instOf s i = some z → z.1.st = .waiting → z.2.2.kind = 1 → z.2.2.flags = 1 → z.2.2.binds = [] → bit (live s SCRIBE_CTRL) 0 = true →
    readyButEarly s z.2.1 z.2.2 z.1 = true → earlyOpen z.2.2 z.1 = true → rejected z.2.2 z.1 = false →
    (poolHas s (z.2.2.bay % 4) 0 = true → guardsUsed s + z.2.2.deps.length ≤ 16384 → Completes (.provisionalStart i) s (fun t => (∀ y, tget i t.scribe.insts = some y →
      y.st = .provReady ∧ y.prov = true ∧ y.guards ≠ [] ∧ y.tReady = s.ridge.ns) ∧ t = { s with regs := t.regs, scribe := t.scribe } ∧
      SameWords s t (fun a => decide (a = (SCRIBE_PROV_INUSE (z.2.2.bay % 4)).addr)))) ∧
    (poolHas s (z.2.2.bay % 4) 0 = false → z.1.denied = false → Completes (.provisionalStart i) s (fun t => (tget i t.scribe.insts).map (·.denied) = some true ∧
      t = raise 0x8004 (z.2.2.bay % 4 * 2 ^ 30) (inc SCRIBE_PROV_DENIED (setInst i { z.1 with denied := true } s))))) ∧
  (∀ (s : State) (i : Nat), ∀ z, instOf s i = some z → Lone s i z.1 z.2.1 z.2.2 → z.2.2.kind = 1 → z.1.prov = true → z.1.heldBack = false → z.1.chosen = 0 → z.1.ledgerLog = [] →
    z.1.tallyLog = none → z.1.poseHeld = none → s.tally.unresolved = none → s.scribe.resolving = [i] → ∀ r, z.1.runs = [r] → r.pushes = [] → r.undef = false → s.memory.downLinks = [] →
    (z.1.st = .committing → ∀ w, r.writes = [w] → w.arg = none → w.poison = false → admitAll s z.2.1.domain w.offset w.data.length true = true → Completes .instanceCommit s (fun t =>
      Ended s t z.1 z.2.1 ∧ readBytes t w.offset w.data.length = w.data ∧ SameMemory s t w.offset w.data.length ∧
      rd t SCRIBE_PROV_COMMITTED = min 0xFFFFFFFF (rd s SCRIBE_PROV_COMMITTED + 1) ∧ t.scribe.resolving = [])) ∧
    (z.1.st = .discarding → Completes .instanceDiscard s (fun t => Ended s t z.1 z.2.1 ∧ t.mem = s.mem ∧ t.poison = s.poison ∧
      rd t SCRIBE_PROV_DISCARDED = min 0xFFFFFFFF (rd s SCRIBE_PROV_DISCARDED + 1) ∧ t.scribe.resolving = []))) ∧
  (∀ (s : State) (i : Nat), s.scribe.work = [] → ∀ z, instOf s i = some z → bit z.2.2.flags 3 = true → z.1.st = .running → z.1.prov = false → z.1.compared = false →
    (∀ (a b : Run), z.1.runs = [a, b] → a.ended = true → b.ended = true →
      (copiesAgree s a b = true → Completes (.dualCompare i) s (fun t => (tget i t.scribe.insts).map (fun y => (y.st, y.chosen)) = some (.committing, 0) ∧ t.scribe.resolving = s.scribe.resolving ++ [i] ∧ t.mem = s.mem)) ∧
      (copiesAgree s a b = false → tiebreakBay s z.2.1.domain z.2.2 a.bay b.bay = none → Completes (.dualCompare i) s (fun t =>
        (tget i t.scribe.insts).map (fun y => (y.st, y.noAgree)) = some (.discarding, true) ∧ bit (rd t KINGPOST_FAULT_LATCH) 16 = true ∧ t.mem = s.mem)) ∧
      (copiesAgree s a b = false → ∀ n, tiebreakBay s z.2.1.domain z.2.2 a.bay b.bay = some n → Completes (.dualCompare i) s (fun t =>
        (tget i t.scribe.insts).map (·.runs) = some [a, b, { bay := n, front := true }] ∧ t.mem = s.mem))) ∧
    (∀ (a b c : Run), z.1.runs = [a, b, c] → c.ended = true → a.undef = false → b.undef = false → c.undef = false → b.bay < 4 → a.bay < 4 →
      (copiesAgree s c a = true → Completes (.tiebreakCompare i) s (fun t => (tget i t.scribe.insts).map (fun y => (y.st, y.chosen)) = some (.committing, 0) ∧
        fld t (KINGPOST_DUAL_FAULTS b.bay) 15 0 = min 0xFFFF (fld s (KINGPOST_DUAL_FAULTS b.bay) 15 0 + 1) ∧ bit (rd t KINGPOST_FAULT_LATCH) 15 = true)) ∧
      (copiesAgree s c a = false → copiesAgree s c b = true → Completes (.tiebreakCompare i) s (fun t => (tget i t.scribe.insts).map (fun y => (y.st, y.chosen)) = some (.committing, 1) ∧
        fld t (KINGPOST_DUAL_FAULTS a.bay) 15 0 = min 0xFFFF (fld s (KINGPOST_DUAL_FAULTS a.bay) 15 0 + 1))) ∧
      (copiesAgree s c a = false → copiesAgree s c b = false → Completes (.tiebreakCompare i) s (fun t =>
        (tget i t.scribe.insts).map (·.st) = some .discarding ∧ bit (rd t KINGPOST_FAULT_LATCH) 16 = true))))

/-- What the Planer does with a point, with the pose at t_ref, and with a slice. The oldest ingest record leaves its queue. A record of an open synthetic block joins it. A point outside every grid epoch is counted as one without return, as not used, or as out of epoch. A point within an open slice of a grid epoch joins the epoch's buffer in the vehicle frame and is counted there. The pose at t_ref of a grid epoch is fixed once, from the records of the table, as soon as one of them is not before t_ref; before that a wait is shown. A slice that is due is processed once, and a point of it that lies in the grid occupies its voxel. -/
def Obligations.PlanerPoints : Prop :=
  (∀ s : State, s.ingest = [] → Completes .planerIngest s (fun t => t = s)) ∧
  (∀ s : State, ∀ x rest, s.ingest = x :: rest →
    let fl := fieldU x.point 14 1
    let range := fieldU x.point 0 4
    (bit fl 0 = true → (tgetD x.port [] s.plan.block).length < 7 → Completes .planerIngest s (fun t =>
      t = { s with ingest := rest, plan.block := tput x.port (tgetD x.port [] s.plan.block ++ [x.point]) s.plan.block })) ∧
    (bit fl 0 = false → tgetD x.port [] s.plan.block = [] → s.plan.segs = [] →
      let used := bit (fieldU s.plan.live 2 1) x.port && bit (fieldU s.plan.live 3 1) (if 2 < fieldU x.point 13 1 then 0 else fieldU x.point 13 1)
      let r := if range = 0 then PLANER_NO_RETURN else if used then PLANER_OUT_OF_EPOCH else PLANER_NOT_USED
      Completes .planerIngest s (fun t => rd t PLANER_POINTS_IN = min 0xFFFFFFFF (rd s PLANER_POINTS_IN + 1) ∧ rd t r = min 0xFFFFFFFF (rd s r + 1) ∧
        t = { s with ingest := rest, regs := t.regs, plan.ord := tput x.port ((tgetD x.port 0 s.plan.ord + 1) % 2 ^ 64) s.plan.ord } ∧
        SameWords s t (fun a => decide (a = PLANER_POINTS_IN.addr) || decide (a = r.addr)))) ∧
    (bit fl 0 = false → tgetD x.port [] s.plan.block = [] → range ≠ 0 → ∀ d n, gridOf s x.t = some (d, n) →
      let k := (x.t - gridStart d n) / max 1 (pdSlice d)
      bit (fieldU d 2 1) x.port = true → fieldU x.point 13 1 ≤ 2 → bit (fieldU d 3 1) (fieldU x.point 13 1) = true → s.ridge.ns ≤ sliceClose d n k →
      s.ridge.ns ≤ gridClose d n → inBody d (toVehicle d x.port range (fieldU x.point 4 2) (fieldU x.point 6 2)) = false → Completes .planerIngest s (fun t =>
        let e := gridAt s d n
        let v := toVehicle d x.port range (fieldU x.point 4 2) (fieldU x.point 6 2)
        let y : PlanPoint := { slice := k, xyz := v, range := range, t := x.t, port := x.port, ord := tgetD x.port 0 s.plan.ord, intensity := fieldU x.point 12 1, ret := fieldU x.point 13 1, saturated := bit fl 1, far := outsideS32 (vehiclePoint d x.port range (fieldU x.point 4 2) (fieldU x.point 6 2)) }
        (gridAt t d n).buffer = e.buffer ++ [y] ∧
        (gridAt t d n).pointsIn = e.pointsIn + 1 ∧ rd t PLANER_POINTS_IN = min 0xFFFFFFFF (rd s PLANER_POINTS_IN + 1) ∧
        t = { s with ingest := rest, regs := t.regs, plan.epochs := t.plan.epochs, plan.ord := t.plan.ord }))) ∧
  (∀ (s : State) (n : Nat), ∀ g rest, s.plan.segs = g :: rest →
    let d := g.desc
    let e := gridAt s d n
    g.first ≤ n → g.last = none → (poseWhole s (fieldU d 120 8) (fieldU d 128 2)).any (poseBad (poseWhole s (fieldU d 120 8) (fieldU d 128 2))) = false →
    (e.pose = none → (usablePoses s d).any (fun r => decide (gridRef d n ≤ r.t)) = true → Completes (.poseRefFix n) s (fun t =>
      let p := poseAt (usablePoses s d) (pdExtrap d) (gridRef d n)
      t.plan.epochs = tput (gridStart d n) { e with pose := some p, flags := e.flags ||| howFlag p.how } s.plan.epochs ∧ fld t PLANER_STATE 2 2 = 0 ∧
      t = { s with regs := t.regs, plan.epochs := t.plan.epochs } ∧ SameWords s t (fun a => decide (a = PLANER_STATE.addr)))) ∧
    (e.pose = none → s.ridge.ns < gridRef d n → (usablePoses s d).any (fun r => decide (gridRef d n ≤ r.t)) = false → Completes (.poseRefFix n) s (fun t =>
      fld t PLANER_STATE 2 2 = 1 ∧ t = { s with regs := t.regs } ∧ SameWords s t (fun a => decide (a = PLANER_STATE.addr)))) ∧
    (∀ ref, e.pose = some ref → (rest = [] → Completes (.poseRefFix n) s (fun t => t = s)) ∧
      (e.next < gridSlices d → sliceClose d n e.next + pdWait d < s.ridge.ns →
        let ps := poseAt (usablePoses s d) (pdExtrap d) (sliceTime d n e.next)
        Completes (.sliceRelease n) s (fun t => (gridAt t d n).next = e.next + 1 ∧ (gridAt t d n).flags = e.flags ||| howFlag ps.how ∧
          (gridAt t d n).buffer = e.buffer.filter (fun x => decide (x.slice ≠ e.next)) ∧
          (e.buffer = [] → (gridAt t d n).table = e.table) ∧
          (∀ x, e.buffer = [x] → x.slice = e.next → x.port < 8 → x.far = false →
            outsideS32 (((matVec (sliceMove ref ps).1 x.xyz).zip (sliceMove ref ps).2).map (fun q => q.1 + q.2)) = false → e.table = [] → 0 < pdCap d →
            ∀ i, voxelIndex d (((matVec (sliceMove ref ps).1 x.xyz).zip (sliceMove ref ps).2).map (fun q => satSigned 32 (q.1 + q.2))) = some i →
              ((gridAt t d n).table.map (·.1)) = [i] ∧ t = { s with plan.epochs := t.plan.epochs })))))

/-- The voxel frame, and the start and end of a Raft cycle. When every slice of the oldest grid epoch has been processed, its frame is written with its header, numbered and counted, and the next epoch follows; a frame whose record finds no ring is counted as dropped. A Raft instance at the head of the queue that fails a check of its descriptor ends with that status, shown with the offset, and memory is as before; one that passes starts at T of its time mode, and memory is as before. At its end, a cycle with no input used gives an empty grid frame: it is counted and numbered, its flags and its verdict are those of its start with the empty flag, its steps raise the maximum, and its instance ends. -/
def Obligations.VoxelAndGridFrames : Prop :=
  (∀ s : State, ∀ g rest, s.plan.segs = g :: rest → g.last = none → Quiet s → tget (pdPeg g.desc) s.scribe.pegs = none → s.out.streams = [] → s.scribe.rings = [] →
    let d := g.desc
    let n := g.first
    let e := gridAt s d n
    let a := pdOutBase d + s.plan.frame % max 1 (pdOutSlots d) * pdOutStride d
    gridSlices d ≤ e.next → e.table = [] → e.marked = [] → cutOff s none a = false → admitAll s 0 a 64 true = true → Completes .voxelFrameEmit s (fun t =>
      readBytes t a 2 = [1, BitVec.ofNat 8 (pdRule d)] ∧ readBytes t (a + 4) 12 = leBytes 4 s.plan.frame ++ leBytes 8 (gridRef d n) ∧
      readBytes t (a + 24) 8 = leBytes 8 (gridStart d n) ∧ readBytes t (a + 32) 4 = leBytes 4 0 ∧
      t.plan.frame = (s.plan.frame + 1) % 2 ^ 32 ∧ t.plan.segs = { g with first := n + 1, gap := false } :: rest ∧
      rd t PLANER_FRAMES = min 0xFFFFFFFF (rd s PLANER_FRAMES + 1) ∧ rd t PLANER_REC_DROP = min 0xFFFFFFFF (rd s PLANER_REC_DROP + 1) ∧
      rd t PLANER_VOXELS_OUT = rd s PLANER_VOXELS_OUT)) ∧
  (∀ (s : State) (i : Nat), ∀ z, instOf s i = some z → AtHead s 2 i z.1 z.2.1 z.2.2 → s.raft.run = none → let p := z.2.2.plan
    (∀ q, cycleRefusal s z.2.1 z.2.2 = some q → readable s z.2.1.domain p 256 = true → Completes (.raftCycleStart i) s (fun t => Ended s t z.1 z.2.1 ∧
      rd t RAFT_DESC_ERR = q.1 % 256 + 256 + 65536 * q.2 ∧ bit (rd t RAFT_STATUS) 5 = true ∧ t.raft = s.raft ∧ t.mem = s.mem)) ∧
    (cycleRefusal s z.2.1 z.2.2 = none → let c := readBytes s p (256 + 64 * cyInputs (readBytes s p 256))
      let e := cyEntry c (fieldU c 2 1)
      cyTimeMode c = 0 → Completes (.raftCycleStart i) s (fun t =>
        t.raft.run.map (fun r => (r.inst, r.start, (r.t : Int), r.grid, r.inputs.length)) =
          some (i, s.ridge.ns, ((ofSigned 64 ((stampTime e ((stampOf s z.2.2 e).getD []) : Int) + fieldS c 8 8) : Nat) : Int), s.raft.live, cyInputs c) ∧
        fld t RAFT_STATE 1 1 = 1 ∧ (tget i t.scribe.insts).map (·.st) = some .running ∧ t.raft.cycle = s.raft.cycle ∧ t.mem = s.mem ∧ t.scribe.pegs = s.scribe.pegs))) ∧
  (∀ (s : State) (i steps : Nat), ∀ z, instOf s i = some z → InUnit s 2 i z.1 z.2.1 z.2.2 → ∀ run, s.raft.run = some run → run.inst = i → run.inputs.all (fun x => !x.used) = true →
    run.flags < 0x1000 → cyPeg run.desc = 0xFFFF → Completes (.raftCycleEnd i steps) s (fun t => Ended s t z.1 z.2.1 ∧
      (let v := if run.flags &&& 0x120 ≠ 0 then 2 else if run.flags &&& 0xE9F ≠ 0 then 1 else 0; rd t RAFT_LAST_FRAME = run.flags + 0x1000 + 65536 * v) ∧
      rd t RAFT_CYCLES = min 0xFFFFFFFF (rd s RAFT_CYCLES + 1) ∧ rd t RAFT_CYCLE_STEPS_MAX = max (rd s RAFT_CYCLE_STEPS_MAX) (min 0xFFFFFFFF steps) ∧
      rd t RAFT_FOLDED = rd s RAFT_FOLDED ∧ rd t RAFT_CELLS_OUT = rd s RAFT_CELLS_OUT ∧ fld t RAFT_STATE 1 1 = 0 ∧
      t.raft = { s.raft with run := none, cycle := (s.raft.cycle + 1) % 2 ^ 32 }))

/-- The seven operations of the Ledger on one entry, and what waits for a recompute. A Ledger instance with one entry ends, and its operation is counted under the next serial. OPEN gives the lowest free number to a new sequence of the cache; FORK gives it a copy of the parent, whose page gains a reference; APPEND of one token into a page of its own extends the sequence and the fill; READ pins the page that it lists, under the serial; CLOSE frees the number, and the page if it loses its last reference and has no pin; REFILL makes the page RESIDENT at the right generation only; a collective counts its bytes. A READ that has no page left to wait for ends. A page still RECOMPUTING at its deadline is DROPPED and loses its slot, counted. -/
def Obligations.LedgerOperations : Prop :=
  (∀ (s : State) (i : Nat), ∀ z, instOf s i = some z →
    let x := z.1
    let g := z.2.1
    let nd := z.2.2
    let d := readBytes s nd.plan 128
    let free := (List.range 16384).find? (fun q => (tget q s.ledger.seqs).isNone)
    (LedgerBegins s 1 i x g nd → ∀ q, free = some q → Completes (.ledgerOpen i [] []) s (fun t => LedgerEnds s t x g ∧
      t.ledger.seqs = tput q { cache := loCache d, droppable := bit (fieldU d 3 1) 1 } s.ledger.seqs ∧ t.ledger.pages = s.ledger.pages)) ∧
    (LedgerBegins s 2 i x g nd → ∀ e, tget (ledgerWord s g nd [0]) s.ledger.seqs = some e → e.cache = loCache d → e.faulted = false → ledgerWord s g nd [0] < 16384 →
      ∀ q, free = some q → Completes (.ledgerFork i [] []) s (fun t => LedgerEnds s t x g ∧ t.ledger.seqs = tput q e s.ledger.seqs ∧
        (∀ p, e.list = [p] → (pageOf t p.2).refcount = (pageOf s p.2).refcount + 1 ∧ (pageOf t p.2).droppable = ((pageOf s p.2).droppable && e.droppable)))) ∧
    (LedgerBegins s 3 i x g nd → ledgerWord s g nd [0, 1] = 1 → ∀ e, tget (ledgerWord s g nd [0, 0]) s.ledger.seqs = some e → e.cache = loCache d → e.faulted = false →
      ledgerWord s g nd [0, 0] < 16384 → e.len % 64 ≠ 0 → cdWindow (cacheDesc s e.cache) = false → e.len / 64 < cdMaxPages (cacheDesc s e.cache) →
      ∀ p, tget (e.len / 64) e.list = some p → (pageOf s p).refcount = 1 → Completes (.ledgerAppend i [] []) s (fun t => LedgerEnds s t x g ∧
        t.ledger.seqs = tput (ledgerWord s g nd [0, 0]) { e with len := e.len + 1, list := tput (e.len / 64) p e.list } s.ledger.seqs ∧
        (pageOf t p).fill = e.len % 64 + 1 ∧ (pageOf t p).tagLast = loTag d ∧ (pageOf t p).slot = (pageOf s p).slot ∧ (pageOf t p).refcount = 1)) ∧
    (LedgerBegins s 4 i x g nd → ∀ e, tget (ledgerWord s g nd [0, 0]) s.ledger.seqs = some e → e.cache = loCache d → e.faulted = false → ledgerWord s g nd [0, 0] < 16384 →
      s.ledger.pins = [] → ledgerWord s g nd [0, 1] < e.len → ∀ y, (readList (cacheDesc s e.cache) d e (e.len - 1 - ledgerWord s g nd [0, 1])).1 = [y] →
      (pageOf s y.1).state = .resident → (pageOf s y.1).pins < 65535 → Completes (.ledgerRead i [] []) s (fun t => LedgerEnds s t x g ∧ t.ledger.seqs = s.ledger.seqs ∧
        pageOf t y.1 = { pageOf s y.1 with pins := (pageOf s y.1).pins + 1, lastRead := (s.ledger.serial + 1) % 2 ^ 32 } ∧ t.ledger.pins = [⟨i, x.graph, x.node, [y.1]⟩])) ∧
    (LedgerBegins s 5 i x g nd → ∀ e, tget (ledgerWord s g nd [0]) s.ledger.seqs = some e → e.cache = loCache d → ledgerWord s g nd [0] < 16384 → s.ledger.badPages = [] →
      Completes (.ledgerClose i [] []) s (fun t => LedgerEnds s t x g ∧ t.ledger.seqs = tdel (ledgerWord s g nd [0]) s.ledger.seqs ∧
        (∀ p, e.list = [p] → (pageOf s p.2).refcount = 1 → (pageOf s p.2).pins = 0 → (pageOf s p.2).state = .resident → pageOf t p.2 = { gen := (pageOf s p.2).gen }))) ∧
    (LedgerBegins s 6 i x g nd → let p := ledgerWord s g nd [0, 0]
      (pageOf s p).state = .recomputing → (pageOf s p).cache = loCache d → cdPeg (cacheDesc s (loCache d)) = 0xFFFF → Completes (.ledgerRefill i [] []) s (fun t => LedgerEnds s t x g ∧
        ((pageOf s p).gen = ledgerWord s g nd [0, 1] → t.ledger.pages = tput p { pageOf s p with state := .resident } s.ledger.pages ∧ rd t LEDGER_REFILLS = min 0xFFFFFFFF (rd s LEDGER_REFILLS + 1)) ∧
        ((pageOf s p).gen ≠ ledgerWord s g nd [0, 1] → t.ledger.pages = s.ledger.pages ∧ rd t LEDGER_REFILLS = rd s LEDGER_REFILLS))) ∧
    (LedgerBegins s 7 i x g nd → ∀ ab, collTensors s g.domain nd d = some ab → Completes (.ledgerCollective i) s (fun t => LedgerEnds s t x g ∧
      t.ledger.seqs = s.ledger.seqs ∧ t.ledger.pages = s.ledger.pages ∧ rd t LEDGER_COLL_BYTES = min 0xFFFFFFFF (rd s LEDGER_COLL_BYTES +
        ceilDiv (ceilDiv (((tdDims ab.2).map (tdShape ab.2)).foldl (· * ·) 1 * tdWidth ab.2) 8) 1024))) ∧
    (InUnit s 5 i x g nd → ∀ r, runLed s i = some r → loOp r.desc = 4 → loEntries s g.domain nd r.desc ≤ r.next → recomputing s r = false → Completes (.readResume i) s (fun t =>
      Ended s t x g ∧ t.ledger = { s.ledger with runs := tdel i s.ledger.runs }))) ∧
  (∀ (s : State) (p : Nat), s.ledger.runs = [] → (pageOf s p).state = .recomputing → (pageOf s p).deadline ≤ s.ridge.ns → Completes (.recomputeDeadline p) s (fun t =>
    pageOf t p = { pageOf s p with state := .dropped, slot := none } ∧ rd t LEDGER_RECOMPUTE_TIMEOUT = min 0xFFFFFFFF (rd s LEDGER_RECOMPUTE_TIMEOUT + 1) ∧ t.mem = s.mem ∧
    t.ledger.seqs = s.ledger.seqs))

/-- The cycles of Plumb and of Tally. A cycle at the head of Plumb's queue that passes its checks starts: Plumb shows it, it takes its start time from its mark or from its instance, and memory is as before; a mark cycle leaves its queue. One that fails a check ends with its status. A cycle that ends before its deadline, or at it, is counted with its outcome, and its instance ends. An ASSOCIATE with INVALID input keeps its tracks out of matching and leaves no map; one without detections on an empty table leaves an empty pending map at T. An UPDATE without a pending map gives a frame with verdict INVALID; with an empty one, the verdict follows the flags; the cycle number advances and the map is no longer pending. -/
def Obligations.PlumbAndTally : Prop :=
  (∀ s : State, s.plumb.run = none → (∀ z, s.scribe.insts = [z] → ∀ w, instOf s z.1 = some w → AtHead s 4 z.1 w.1 w.2.1 w.2.2 → s.plumb.queue = [] →
      let fallback := bit (rd s NETIN_REF_IMU_STATUS) 0
      (plumbRefusal s w.2.1.domain w.2.2.plan w.2.2.binds fallback = none → Completes .plumbCycleStart s (fun t =>
        t.plumb.run.map (fun r => (r.inst, r.ts, r.owner, r.desc)) = some (some z.1, s.ridge.ns, w.2.1.domain, readBytes s w.2.2.plan 256) ∧ fld t PLUMB_STATE 7 0 = 1 ∧
        (tget z.1 t.scribe.insts).map (·.st) = some .running ∧ t.mem = s.mem)) ∧
      (∀ q, plumbRefusal s w.2.1.domain w.2.2.plan w.2.2.binds fallback = some q → Completes .plumbCycleStart s (fun t => Ended s t w.1 w.2.1 ∧
        rd t PLUMB_DESC_ERR = q.1 + 65536 * q.2 ∧ bit (rd t PLUMB_STATUS) 4 = true ∧ t.plumb = s.plumb ∧ t.mem = s.mem))) ∧
    (∀ m, s.plumb.queue = [m] → s.scribe.insts = [] → m.slot < 64 → plumbRefusal s m.cfg.owner m.cfg.desc m.cfg.binds (bit (rd s NETIN_REF_IMU_STATUS) 0) = none →
      Completes .plumbCycleStart s (fun t => t.plumb.run.map (fun r => (r.inst, r.mark, r.ts)) = some (none, some m, m.at_) ∧ t.plumb.queue = [] ∧
        fld t PLUMB_STATE 7 0 = 3 + 4 * m.slot ∧ t.mem = s.mem ∧ t.scribe = s.scribe))) ∧
  (∀ (s : State) (steps i : Nat), ∀ w, instOf s i = some w → InUnit s 4 i w.1 w.2.1 w.2.2 → ∀ r, s.plumb.run = some r → r.inst = some i → r.mark = none → pdBatch r.desc = false → pdPoseOut r.desc = false →
    let done := fun (t : State) (outcome : Nat) (c : Reg) => Ended s t w.1 w.2.1 ∧ t.plumb = { s.plumb with run := none } ∧ fld t PLUMB_STATE 7 0 = 0 ∧
      rd t PLUMB_LAST_RESULT % 65536 = outcome ∧ rd t PLUMB_CYCLES = min 0xFFFFFFFF (rd s PLUMB_CYCLES + 1) ∧
      rd t PLUMB_CYCLE_STEPS_MAX = max (rd s PLUMB_CYCLE_STEPS_MAX) (min 0xFFFFFFFF steps) ∧ rd t c = min 0xFFFFFFFF (rd s c + 1)
    let p := plInputs s r
    (problemBad r p 0 = false → (solvePlumb r.desc p.ks p.fs p.x0 (pdMaxIter r.desc)).outcome = 0 → Completes (.plumbCycleEnd steps) s (fun t => done t 0 PLUMB_CONVERGED)) ∧
    (r.ts + pdDeadline r.desc ≤ s.ridge.ns → Completes (.plumbDeadline 0 steps false) s (fun t => done t 0x1B11 PLUMB_DEADLINE_RETURNS ∧ bit (rd t PLUMB_STATUS) 1 = true))) ∧
  (∀ (s : State) (steps : Nat), s.tally.queue = [] → s.tally.unresolved = none → ∀ z, s.scribe.insts = [z] → ∀ w, instOf s z.1 = some w → AtHead s 3 z.1 w.1 w.2.1 w.2.2 →
    ∀ j, tallyJob s = some j → tallyRefusal s j.dom j.addr j.binds j.nbEn = none → let c := readBytes s j.addr 384
    let done := fun (t : State) => Ended s t w.1 w.2.1 ∧ rd t TALLY_CYCLES = min 0xFFFFFFFF (rd s TALLY_CYCLES + 1) ∧ rd t TALLY_CYCLE_STEPS_MAX = max (rd s TALLY_CYCLE_STEPS_MAX) (min 0xFFFFFFFF steps)
    let h := detHeader s j c
    (tcOp c = 1 → 2 ≤ h.2.2 → Completes (.tallyAssociate steps) s (fun t => done t ∧ t.tally.table.pending = false ∧ t.tally.table.last.map = [] ∧
      t.tally.table.tracks.length = (s.tally.table.tracks.filter (fun p => decide (p.2.state ≠ 4))).length ∧ bit (rd t TALLY_STATUS) 2 = true ∧ t.mem = s.mem)) ∧
    (tcOp c = 1 → h.2.2 < 2 → h.2.1 = false → fieldU h.1 4 4 = 0 → tcSchedule c = false → s.tally.table.tracks = [] → Completes (.tallyAssociate steps) s (fun t => done t ∧
      t.tally.table = { s.tally.table with pending := true, last := t.tally.table.last } ∧ t.tally.table.last.map = [] ∧
      t.tally.table.last.t = ofSigned 64 ((fieldU h.1 8 8 : Int) + tcOffset c))) ∧
    (tcOp c = 2 → s.tally.table.tracks = [] → (s.tally.table.pending = true → s.tally.table.last.map = []) → tcPeg c = 0xFFFF → s.tally.table.last.flags < 512 → Completes (.tallyUpdate steps) s (fun t => done t ∧
      t.tally.table = { s.tally.table with pending := false, cycle := (s.tally.table.cycle + 1) % 2 ^ 32, wasReset := false } ∧
      rd t TALLY_LAST_FRAME / 65536 = (if s.tally.table.pending then if s.tally.table.last.flags &&& 0x1BF ≠ 0 then 1 else 0 else 2) ∧
      bit (rd t TALLY_LAST_FRAME) 9 = !s.tally.table.pending ∧ bit (rd t TALLY_LAST_FRAME) 10 = s.tally.table.wasReset)))

/-- The power commands of the mailbox, their BAR0 twins, and the latch of a cap. POWER_READ and THROTTLE_READ answer what the Governor shows and change nothing. SET_POINT_STAGE stages a set-point that is in range and near its neighbours', and refuses another by its parameter. A cap within range goes to the latch, from the mailbox or from BAR0; one out of range is refused with 0x1301, or ignored and counted. The latch makes the oldest request pending, acknowledges it, keeps its settings in the retained store under the next sequence number, and answers the mailbox command that asked. A request for external ceilings waits for the next control interval, with event 0xC00A; one that names no present Bay is refused with 0x1302, or ignored and counted. -/
def Obligations.PowerCommands : Prop :=
  (∀ (s : State) (f k : Nat), Ready f k 0x0701 s → AnswersWith (.powerRead f k) f k 0 s s (fun t => result t f k 0 4 = rd s GOVERNOR_INPUT_MW ∧
    result t f k 4 4 = rd s GOVERNOR_WINDOW_MW ∧ result t f k 8 8 = tgetD f 0 s.gov.charged / 1000 % 2 ^ 64)) ∧
  (∀ (s : State) (f k : Nat), Ready f k 0x0704 s → AnswersWith (.throttleRead f k) f k 0 s s (fun t => result t f k 0 1 = fld s GOVERNOR_STATUS 4 0 ∧
    (∀ i, i < 5 → result t f k (8 + 8 * i) 8 = tgetD i 0 s.gov.durations / 100 % 2 ^ 64))) ∧
  (∀ (s : State) (f k : Nat), Ready f k 0x0702 s → let b := param s f k 0x0702 0
    let v := param s f k 0x0702 1
    (3 < b ∨ bayPresent s b = false → Answers (.setPointStage f k) f k 0x1006 s s) ∧
    (b ≤ 3 → bayPresent s b = true → setPointOk v = false ∨ neighbourOk s b v = false → Answers (.setPointStage f k) f k 0x1006 s s) ∧
    (b ≤ 3 → bayPresent s b = true → setPointOk v = true → neighbourOk s b v = true → AnswersWith (.setPointStage f k) f k 0 s (setFld (BAY_SET_POINT b) 9 0 v s)
      (fun t => fld t (BAY_SET_POINT b) 9 0 = v ∧ t.live = s.live))) ∧
  (∀ (s : State) (f k : Nat), Ready f k 0x0703 s → s.gov.requests = [] → let cap := param s f k 0x0703 0
    let secs := param s f k 0x0703 1
    (cap < 30 ∨ 125 < cap ∨ secs < 1 ∨ 60 < secs → Answers (.capSet f k) f k 0x1301 s s) ∧
    (30 ≤ cap → cap ≤ 125 → 1 ≤ secs → secs ≤ 60 → Completes (.capSet f k) s (fun t => t.gov.requests = [⟨cap, secs, some (16 * f + k)⟩] ∧
      fld t GOVERNOR_STATUS 6 6 = 0 ∧ t = { s with regs := t.regs, gov.requests := t.gov.requests } ∧ SameWords s t (fun a => decide (a = GOVERNOR_STATUS.addr))))) ∧
  (∀ (s : State) (v : Nat), v < 2 ^ 32 → let cap := bits v 7 0
    let secs := bits v 15 8
    (cap < 30 ∨ 125 < cap ∨ secs < 1 ∨ 60 < secs → Completes (.governorCapReqWrite v) s (Ignored 0xC0000 0xC0008 s)) ∧
    (30 ≤ cap → cap ≤ 125 → 1 ≤ secs → secs ≤ 60 → Completes (.governorCapReqWrite v) s (fun t => t.gov.requests = s.gov.requests ++ [⟨cap, secs, none⟩] ∧
      fld t GOVERNOR_STATUS 6 6 = 0 ∧ t = { s with regs := t.regs, gov.requests := t.gov.requests } ∧ SameWords s t (fun a => decide (a = GOVERNOR_STATUS.addr)))) ∧
    ((∀ n, n < 4 → bit v n = false ∨ bayPresent s n = false) → Completes (.governorExtReqWrite v) s (Ignored 0xC0000 GOVERNOR_EXT_REQ.addr s)) ∧
    (∀ n, n < 4 → bits v 3 0 = 2 ^ n → bayPresent s n = true → Completes (.governorExtReqWrite v) s (fun t => t.gov.ext = tput n (bits v 15 8) s.gov.ext ∧
      t = raise 0xC00A 0 { s with gov.ext := t.gov.ext }))) ∧
  (∀ (s : State) (f k : Nat), Ready f k 0x0705 s → let m := param s f k 0x0705 0
    ((∀ n, n < 4 → bit m n = false ∨ bayPresent s n = false) → Answers (.throttleRequest f k) f k 0x1302 s s) ∧
    (∀ n, n < 4 → m = 2 ^ n → bayPresent s n = true → Answers (.throttleRequest f k) f k 0 s
      (raise 0xC00A 0 { s with gov.ext := tput n (param s f k 0x0705 1) s.gov.ext }))) ∧
  (∀ s : State, s.gov.requests = [] → Completes .capLatch s (fun t => t = s)) ∧
  (∀ s : State, ∀ q rest, s.gov.requests = q :: rest → q.cap < 256 → q.secs < 256 → 
    let kept := fun (t : State) => t.gov = { s.gov with requests := rest, pending := some (q.cap, q.secs) } ∧ fld t GOVERNOR_CAP 31 16 = q.cap + 256 * q.secs ∧ fld t GOVERNOR_STATUS 6 5 = 3 ∧
      t.power.retained = { s.power.retained with cap := q.cap, secs := q.secs, seq := (s.power.retained.seq + 1) % 2 ^ 32 }
    (q.by_ = none → Completes .capLatch s (fun t => kept t ∧ t = { s with regs := t.regs, gov := t.gov, power.retained := t.power.retained } ∧
      SameWords s t (fun a => decide (a = GOVERNOR_CAP.addr) || decide (a = GOVERNOR_STATUS.addr)))) ∧
    (∀ n, q.by_ = some n → n < 1024 → Ready (n / 16) (n % 16) 0x0703 s → Completes .capLatch s (fun t => kept t ∧ Answered (n / 16) (n % 16) 0 t ∧ result t (n / 16) (n % 16) 0 1 = 1)))

/-- Samples, rail faults, temperatures, control intervals, seconds and age trims of the Governor. A normal input sample adds its energy, is shown, and moves nothing but measures; one above a peak limit starts the peak clamp, counted, which puts tok_floor on every present Bay. A rail fault and a temperature past its limit are faults 24 and 25, latched and held, with their events. A control interval before its time changes nothing; one at its time shows the input power, and the token count of every present Bay then follows from its ceilings. A second of powered time counts, and opens, counts down or closes the averaging window. An hour of low headroom raises the age trim by 5 mV, to at most 30. A region that leaves its crossing limits is shown and is fault 14. -/
def Obligations.GovernorObserves : Prop :=
  (∀ (s : State) (vin ma : Nat) (rails : List (Nat × Nat)), s.power.state = .run → s.gov.peak = false → s.gov.excursion = false → 10800 ≤ vin → vin ≤ 13200 → ma < 65536 →
    (vin * ma < 150000000 → ma ≤ 11600 → Completes (.inputSample vin ma rails) s (fun t => rd t GOVERNOR_INPUT = vin + 65536 * ma ∧ t.gov.input = s.gov.input + vin * ma ∧
      t.power.vin = vin ∧ t.power.low = 0 ∧ t.power.under = 0 ∧ t.power.past = 0 ∧ t.gov.peak = false ∧ t.gov.excursion = false ∧
      t = { s with regs := t.regs, recd.extremes := t.recd.extremes, gov := t.gov, power := t.power })) ∧
    (160000000 < vin * ma ∨ 14900 < ma → 100 < s.gov.credit → Completes (.inputSample vin ma rails) s (fun t => t.gov.peak = true ∧ t.gov.input = s.gov.input + vin * ma ∧
      rd t GOVERNOR_PEAK_CLAMPS = min 0xFFFFFFFF (rd s GOVERNOR_PEAK_CLAMPS + 1) ∧ (∀ n, n < 4 → bayPresent s n = true → fld t (GOVERNOR_BAY_CEIL n) 15 8 = tokFloor s) ∧
      t = { s with regs := t.regs, recd := t.recd, gov := t.gov, power := t.power, emitted := t.emitted }))) ∧
  (∀ (s : State) (r : Nat), r ≤ 10 → (s.power.state = .run → Completes (.railFault r) s (fun t => Reported s t ∧ bit (rd t KINGPOST_FAULT_LATCH) 24 = true ∧
      bit (rd t KINGPOST_FAULT_HOLD) 24 = true ∧ inSafeState t = true)) ∧ (s.power.state ≠ .run → Completes (.railFault r) s (fun t => t = s))) ∧
  (∀ (s : State) (r v : Nat), r < 23 → bit (rd s KINGPOST_FAULT_HOLD) 25 = false →
    (v < 1300 → Completes (.tjReport r v) s (fun t => t.gov = { s.gov with tj := tput r (v : Int) s.gov.tj, hot := tdel r s.gov.hot } ∧
      (6 ≤ r → r < 22 → fld t (BAY_REGION_ENV ((r - 6) / 4) ((r - 6) % 4)) 31 16 = v) ∧ t = { s with regs := t.regs, recd.extremes := t.recd.extremes, gov := t.gov })) ∧
    (1400 ≤ v → v < 2 ^ 15 → Completes (.tjReport r v) s (fun t => bit (rd t KINGPOST_FAULT_LATCH) 25 = true ∧ bit (rd t KINGPOST_FAULT_HOLD) 25 = true ∧ inSafeState t = true ∧
      t.mem = s.mem ∧ t.gov.tj = tput r (v : Int) s.gov.tj))) ∧
  (∀ (s : State), inRun s = true → (s.ridge.ns < s.gov.nextInterval → Completes (.controlInterval [] [] [] []) s (fun t => t = s)) ∧
    (s.gov.nextInterval ≤ s.ridge.ns → s.gov.window = none → Completes (.controlInterval [] [] [] []) s (fun t => t.gov.nextInterval = s.gov.nextInterval + 1000000 ∧ t.gov.intervals = s.gov.intervals + 1 ∧
      rd t GOVERNOR_INPUT_MW = min 262143 (inputUj s - s.gov.inputRead) ∧ t.gov.inputRead = inputUj s ∧ t.mem = s.mem ∧ fld t GOVERNOR_STATUS 4 0 = s.gov.accrued % 32 ∧
      (∀ n, n < 4 → bayPresent s n = true → let m := (ceilings t n).foldl min 0xFF
        fld t (BAY_TOKENS n) 7 0 = if m = 0xFF then 0xFF else max (tokFloor s) m)))) ∧
  (∀ (s : State), inRun s = true → (s.ridge.ns < s.gov.nextSecond → Completes .secondMark s (fun t => t = s)) ∧
    (s.gov.nextSecond ≤ s.ridge.ns → s.recd.life.s < 0xFFFFFFFF → (s.gov.window = none → s.gov.pending = none → Completes .secondMark s (fun t => t.gov.nextSecond = s.gov.nextSecond + 1000000000 ∧
        t.recd.life = { s.recd.life with s := s.recd.life.s + 1 } ∧ rd t YARD_PASS_AGE = min 0xFFFFFFFF (rd s YARD_PASS_AGE + 1) ∧ t.power.retained.powered = s.recd.life.s + 1 ∧
        t.gov.window.map (fun w => (w.number, w.cap, w.secs, w.left, w.tOpen)) =
          some (s.gov.windows + 1, fld s GOVERNOR_CAP 7 0, fld s GOVERNOR_CAP 15 8, fld s GOVERNOR_CAP 15 8, s.ridge.ns))) ∧
      (∀ w, s.gov.window = some w → (1 < w.left → Completes .secondMark s (fun t => t.gov.window = some { w with left := w.left - 1 } ∧ t.recd.windows = s.recd.windows ∧
        t.recd.life.s = s.recd.life.s + 1)) ∧ (w.left ≤ 1 → s.recd.windows = [] → Completes .secondMark s (fun t => t.gov.window.map (·.number) = some (s.gov.windows + 1) ∧ t.recd.windows.length = 1 ∧
        rd t GOVERNOR_WINDOW_MW = (inputUj s - w.energy) * 100000 / max 1 (s.gov.ticks - w.ticks) % 2 ^ 32))))) ∧
  (∀ (s : State) (r : Nat), r ≤ 4 → let g := if r < 4 then GOVERNOR_BAY_AGE r else GOVERNOR_SILL_AGE
    (tgetD r 0 s.gov.lowHeadroom < 3600 → Completes (.ageTrimRise r) s (fun t => t = s)) ∧
    (3600 ≤ tgetD r 0 s.gov.lowHeadroom → fld s g 5 0 < 25 → Completes (.ageTrimRise r) s (fun t => fld t g 5 0 = fld s g 5 0 + 5 ∧ t.power.retained.ageTrim = tput r (fld s g 5 0 + 5) s.power.retained.ageTrim ∧
      t = { s with regs := t.regs, gov.lowHeadroom := tput r 0 s.gov.lowHeadroom, power.retained.ageTrim := t.power.retained.ageTrim } ∧ SameWords s t (fun a => decide (a = g.addr))))) ∧
  (∀ (s : State) (d r : Nat), d ≤ 4 → (d < 4 → r < 4 ∧ bayPresent s d = true ∧ bit (rd s (BAY_STATUS d)) (16 + r) = true) → (d = 4 → r < 6 ∧ bit (rd s SILL_REGION_ALERT) r = false) →
    Completes (.regionCrossingAlert d r true) s (fun t => (d < 4 → bit (rd t (BAY_STATUS d)) (16 + r) = false) ∧ (d = 4 → bit (rd t SILL_REGION_ALERT) r = true) ∧
      bit (rd t KINGPOST_FAULT_LATCH) 14 = true ∧ bit (rd t KINGPOST_FAULT_HOLD) 14 = true ∧ inSafeState t = true ∧ t.mem = s.mem))

/-- Occurrences, pages and commands of the Event Recorder. The first occurrence of a code takes the lowest free slot, is counted and recorded with its argument, and takes a token of its bucket; one whose bucket is empty is counted as held back and leaves the record as it was. 4 s after the last commit a page is committed under the next sequence, and a request with bit 0 commits one at once; neither happens before, or without the bit. REC_SUMMARY answers the life clock and the sequences of the newest and the oldest page. REC_READ refuses a count or a range it cannot serve, answers 0x1402 where no page is retained, and writes a retained page to device memory. EVENT_NOTIFY sets, replaces or removes a notification, and refuses a vector or a ninth one. -/
def Obligations.RecorderRows : Prop :=
  (∀ (s : State) (code arg x : Nat), 0 < code → code < 0xFFFF → ¬(0xF001 ≤ code ∧ code ≤ 0xF003) → s.recd.notifies = [] →
    let tokens := tgetD code (if classL.contains code then s.recd.fullL else s.recd.fullN) s.recd.buckets
    (s.recd.slots.any (fun e => decide (e.code = code)) = false → s.recd.slots.length < 199 → 1 ≤ tokens → Completes (.eventOccurrence code arg x) s (fun t =>
      let e : EvSlot := { code := code, count := 1, arg := arg, first := s.recd.life, last := s.recd.life, extra := s.ridge.ns }
      t.recd.slots = s.recd.slots ++ [e] ∧ t.recd.buckets = tput code (tokens - 1) s.recd.buckets ∧ rd t RECORDER_LAST_EVENT = code ∧ rd t RECORDER_LAST_ARG = arg % 2 ^ 32 ∧
      rd t RECORDER_EVENTS = min 0xFFFFFFFF (rd s RECORDER_EVENTS + 1) ∧ Logged s t)) ∧
    (∀ e rest, s.recd.slots = e :: rest → e.code = code → tokens = 0 → Completes (.eventOccurrence code arg x) s (fun t =>
      t.recd.slots.tail = rest ∧ t.recd.slots.head?.map (fun y => (y.code, y.count, y.held, y.arg, y.last, y.extra)) = some (code, min 0xFFFFFFFF (e.count + 1), min 0xFFFFFFFF (e.held + 1), e.arg, e.last, e.extra) ∧
      rd t RECORDER_HELD = min 0xFFFFFFFF (rd s RECORDER_HELD + 1) ∧ rd t RECORDER_LAST_EVENT = rd s RECORDER_LAST_EVENT ∧ Logged s t))) ∧
  (∀ s : State, nandWhole s = true → (recentCommits s).length < 1000 →
    let commits := fun (t : State) (cause : Nat) => t.recd.pageSeq = s.recd.pageSeq + 1 ∧
      t.recd.sinceCommit = 0 ∧ t.recd.commits = recentCommits s ++ [s.recd.life.s] ∧ t.recd.windows = [] ∧
      (s.recd.pages = [] → t.recd.pages = [(s.recd.pageSeq + 1, buildPage s cause (s.recd.pageSeq + 1))]) ∧
      t = { s with regs := t.regs, recd := t.recd } ∧ SameWords s t (fun a => decide (a = RECORDER_STATUS.addr) || decide (a = YARD_PROG_PSLC.addr))
    (∀ v, v < 2 → (v = 1 → Completes (.recorderCommitWrite v) s (fun t => commits t 3)) ∧ (v = 0 → Completes (.recorderCommitWrite v) s (fun t => t = s))) ∧
    (inRun s = true → (4 ≤ s.recd.sinceCommit → Completes .recorderPageCommit s (fun t => commits t 0)) ∧ (s.recd.sinceCommit < 4 → Completes .recorderPageCommit s (fun t => t = s)))) ∧
  (∀ (s : State) (f k : Nat), Ready f k 0x0901 s → AnswersWith (.recSummary f k) f k 0 s s (fun t => result t f k 0 4 = s.recd.life.s / 3600 % 2 ^ 32 ∧ result t f k 4 4 = s.recd.life.cycle % 2 ^ 32 ∧
    result t f k 8 4 = s.recd.pageSeq % 2 ^ 32 ∧ result t f k 12 4 = ((s.recd.pages.head?.map (·.1)).getD 0) % 2 ^ 32)) ∧
  (∀ (s : State) (f k : Nat), Ready f k 0x0902 s → let first := param s f k 0x0902 0
    let count := param s f k 0x0902 1
    let dev := param s f k 0x0902 2
    (count = 0 ∨ 1024 < count → Answers (.recRead f k []) f k 0x1006 s s) ∧
    (0 < count → count ≤ 1024 → first < 0xFFFFFFFF → (holdsRange s f dev (16384 * count) false true = false → Answers (.recRead f k []) f k 0x1006 s s) ∧
      (holdsRange s f dev (16384 * count) false true = true → s.recd.pages = [] → Answers (.recRead f k []) f k 0x1402 s s) ∧
      (∀ p, s.recd.pages = [p] → first = p.1 → count = 1 → holdsRange s f dev 16384 false true = true → cutOff s none dev = false → admitAll s f dev p.2.length true = true →
        AnswersWith (.recRead f k []) f k 0 s (writeBytes dev p.2 s) (fun t => result t f k 0 4 = 1)))) ∧
  (∀ (s : State) (f k : Nat), Ready f k 0x0903 s → let c := param s f k 0x0903 0
    let m := param s f k 0x0903 1
    let v := param s f k 0x0903 2
    let others := s.recd.notifies.filter (fun n => !(decide (n.code = c) && decide (n.mask = m)))
    (v < 2 ∨ (31 < v ∧ v ≠ 0xFF) → Answers (.eventNotify f k) f k 0x1006 s s) ∧
    (v = 0xFF → Answers (.eventNotify f k) f k 0 s { s with recd.notifies := others }) ∧
    (2 ≤ v → v ≤ 31 → 8 ≤ others.length → Answers (.eventNotify f k) f k 0x1401 s s) ∧
    (2 ≤ v → v ≤ 31 → others.length < 8 → Answers (.eventNotify f k) f k 0 s { s with recd.notifies := others ++ [{ code := c, mask := m, vector := v }] }))

/-- Fault reports, lockstep, the rotation of self-tests, and the way out of the safe state. A report outside the table, or while the device does not run, has no effect. A fault of class R, D or N is counted and latched and nothing else; the first of class S takes the safe state, with the pair invalid and the Ridge time of the entry. Fault 27 and a lockstep mismatch of Kingpost reset the package. A lockstep mismatch of the Scribe is fault 18; one of a Sill unit at rest is fault 17, counted. A slot of the rotation runs when it is due, is late beyond 40 ns, and one that does not complete within 1 ms is fault 22; one that fails is fault 21. SAFE_STATE_RELEASE is refused while a fault holds or no rotation has completed, and otherwise leaves the safe state. SAFETY_STATUS and SELFTEST_LOG answer what the registers hold. -/
def Obligations.SafetyRows : Prop :=
  (∀ (s : State) (f port : Nat), (28 < f ∨ inRun s = false → Completes (.faultReport f port) s (fun t => t = s)) ∧
    (f ≤ 28 → inRun s = true → f ∉ [3, 5, 23, 26, 27] → (safeFaults.contains f = false → Completes (.faultReport f port) s (fun t => t = { s with regs := t.regs } ∧ bit (rd t KINGPOST_FAULT_LATCH) f = true ∧
        fld t (KINGPOST_FAULT_COUNT f) 15 0 = min 0xFFFF (fld s (KINGPOST_FAULT_COUNT f) 15 0 + 1) ∧ (bit (rd t KINGPOST_FAULT_HOLD) f = (bit (rd s KINGPOST_FAULT_HOLD) f || holdFaults.contains f)) ∧
        SameWords s t (fun a => decide (a = KINGPOST_FAULT_LATCH.addr ∨ a = KINGPOST_FAULT_HOLD.addr ∨ a = (KINGPOST_FAULT_COUNT f).addr)))) ∧
      (safeFaults.contains f = true → inSafeState s = false → Completes (.faultReport f port) s (fun t => Reported s t ∧ inSafeState t = true ∧ fld t KINGPOST_SAFETY_STATE 15 8 = f ∧
        rd64 t KINGPOST_SAFE_ENTRY_LO KINGPOST_SAFE_ENTRY_HI = s.ridge.ns % 2 ^ 64 ∧ bit (rd t NETIN_VLINK_STATE) 0 = (f = 19 && mayBeValid t) ∧ t.kp.rotated = false ∧
        bit (rd t KINGPOST_FAULT_LATCH) f = true)))) ∧
  (∀ s : State, inRun s = true → s.sec.fuses.returnPending = false → 
    let again := fun (t : State) => rd t KINGPOST_RESET_CAUSE % 4096 = 2 + 256 * 4 ∧ bit (rd t NETIN_VLINK_STATE) 0 = false ∧ t.mem = [] ∧ t.scribe = {} ∧ t.live = [] ∧ t.pending = s.pending ∧ t.sec.fuses = s.sec.fuses ∧ t.ridge.ns = 0
    Completes .kingpostLockstepMismatch s again ∧ Completes (.faultReport 27 0) s again) ∧
  (∀ (s : State) (u w : Nat), inRun s = true → u ≤ 6 → (u = 1 → s.plan.segs = []) → (u = 2 → s.raft.run = none) → (u = 3 → s.plumb.run = none) → (u = 4 → tallyJob s = none) → (u = 5 → runLed s w = none) →
    (u = 6 → (stream s w).copying = none) → Completes (.sillLockstepMismatch u w) s (fun t => Reported s t ∧ fld t KINGPOST_LOCKSTEP 3 0 = u ∧ fld t KINGPOST_LOCKSTEP 31 16 = min 0xFFFF (fld s KINGPOST_LOCKSTEP 31 16 + 1) ∧
      bit (rd t KINGPOST_FAULT_LATCH) (if u = 0 then 18 else 17) = true ∧ (u = 0 → inSafeState t = true))) ∧
  (∀ s : State, inRun s = true → s.power.released = true → s.kp.slot < 9 → let due := s.kp.lastFiring.getD 0 + 4900000
    (s.ridge.ns < due → Completes (.rotationSlot (some true)) s (fun t => t = s)) ∧
    (due ≤ s.ridge.ns → s.ridge.ns ≤ due + 40 → s.kp.failedSlots = [] →
      Completes (.rotationSlot none) s (fun t => t.kp.running = some (s.kp.slot, s.ridge.ns) ∧ t.kp.slot = s.kp.slot + 1 ∧ t.kp.lastFiring = some due ∧ t = { s with kp := t.kp }) ∧
      Completes (.rotationSlot (some true)) s (fun t => t.kp.running = none ∧ t.kp.slot = s.kp.slot + 1 ∧ t.kp.pass.contains s.kp.slot = true ∧ bit (rd t KINGPOST_FAULT_HOLD) 21 = false ∧
        t = { s with kp := t.kp, regs := t.regs } ∧ SameWords s t (fun a => decide (a = KINGPOST_FAULT_HOLD.addr))) ∧
      Completes (.rotationSlot (some false)) s (fun t => Reported s t ∧ t.kp.failedSlots = [s.kp.slot] ∧ fld t KINGPOST_ROTATION_FAIL 19 16 = s.kp.slot ∧ bit (rd t KINGPOST_FAULT_HOLD) 21 = true)) ∧
    (∀ r, s.kp.running = some r → (s.ridge.ns < r.2 + 1000000 → Completes .rotationOverdue s (fun t => t = s)) ∧ (r.2 + 1000000 ≤ s.ridge.ns → Completes .rotationOverdue s (fun t =>
      Reported s t ∧ t.kp.running = none ∧ bit (rd t KINGPOST_FAULT_LATCH) 22 = true ∧ inSafeState t = true)))) ∧
  (∀ (s : State) (f k : Nat), Ready f k 0x0A02 s → s.kp.restarts = [] → (inSafeState s = true → s.kp.rotated = false → Answers (.safeStateRelease f k) f k 0x1E01 s (raise 0xE003 0 (faultEnds 23 s))) ∧
    (inSafeState s = true → s.kp.rotated = true → (∀ n, n < 32 → n ≠ 23 → bit (rd s KINGPOST_FAULT_HOLD) n = false) → Completes (.safeStateRelease f k) s (fun t => Answered f k 0 t ∧ inSafeState t = false ∧
      rd64 t KINGPOST_SAFE_EXIT_LO KINGPOST_SAFE_EXIT_HI = s.ridge.ns % 2 ^ 64 ∧ rd t KINGPOST_FAULT_LATCH = 0 ∧ t.mem = s.mem))) ∧
  (∀ (s : State) (f k : Nat), (Ready f k 0x0A01 s → AnswersWith (.safetyStatus f k) f k 0 s s (fun t => result t f k 0 4 = rd s NETIN_VLINK_STATE ∧ result t f k 4 4 = rd s KINGPOST_SAFETY_STATE ∧
      result t f k 8 4 = rd s KINGPOST_FAULT_LATCH)) ∧ (Ready f k 0x0A03 s → AnswersWith (.selftestLog f k) f k 0 s s (fun t => result t f k 8 4 = fld s KINGPOST_ROTATION_FAIL 15 0 ∧
      result t f k 0 8 = rd64 s KINGPOST_ROTATION_LAST_LO KINGPOST_ROTATION_LAST_HI)))

/-- The patrol scrubber, purlin links, and an excursion during the boot. A scrub read of a word that does not exist, is not aligned, or lies in a memory that is not scrubbed changes nothing. One that corrects an error counts it and leaves every byte as it is; one that cannot correct poisons the word, counts it, and latches its address; the end of a pass is counted. A link that loses training is shown at both ends, and is fault 13, held; one that is trained again is shown, with its repaired lanes, and the fault ends with the last of them. An excursion of the boot chain raises its event and nothing else. -/
def Obligations.MemoryHealth : Prop :=
  (∀ (s : State) (a : Nat), a % 8 ≠ 0 → ∀ x, x < 3 → Completes (.scrubRead a x none true) s (fun t => t = s)) ∧
  (∀ (s : State) (a : Nat), a < 4 * stackBytes → stackUsed s (bayOf a) = true → a % 8 = 0 → s.poison.contains (a / 8) = false → let b := bayOf a
    (bit (rd s (BAY_SCRUB_CFG b)) 0 = false → Completes (.scrubRead a 2 none true) s (fun t => t = s)) ∧
    (bit (rd s (BAY_SCRUB_CFG b)) 0 = true →
      Completes (.scrubRead a 0 none true) s (fun t => fld t (BAY_SCRUB_PASSES b) 15 0 = min 0xFFFF (fld s (BAY_SCRUB_PASSES b) 15 0 + 1) ∧ t = { s with regs := t.regs } ∧
        SameWords s t (fun x => decide (x = (BAY_SCRUB_PASSES b).addr))) ∧
      (s.memory.ceTimes = [] → Completes (.scrubRead a 1 none false) s (fun t => rd t (BAY_DRAM_CE b) = min 0xFFFFFFFF (rd s (BAY_DRAM_CE b) + 1) ∧ bit (rd t (BAY_MEM_STATUS b)) 0 = true ∧
        t.recd = { s.recd with dramErrors := s.recd.dramErrors + 1 } ∧ t.memory.ceTimes = [(b, [s.ridge.ns])] ∧ t = { s with regs := t.regs, recd := t.recd, memory.ceTimes := t.memory.ceTimes } ∧
        SameWords s t (fun x => decide (x = (BAY_DRAM_CE b).addr) || decide (x = (BAY_MEM_STATUS b).addr)))) ∧
      Completes (.scrubRead a 2 none false) s (fun t => t.poison = linsert (a / 8) s.poison ∧ rd t (BAY_DRAM_UE b) = min 0xFFFFFFFF (rd s (BAY_DRAM_UE b) + 1) ∧
        rd64 t (BAY_DRAM_ERR_ADDR_LO b) (BAY_DRAM_ERR_ADDR_HI b) = a ∧ bit (rd t (BAY_MEM_STATUS b)) 1 = true ∧ t.mem = s.mem ∧ t = { s with regs := t.regs, poison := t.poison, recd := t.recd, emitted := t.emitted }))) ∧
  (∀ (s : State) (b p : Nat), b < 4 → p < 3 → (∀ n, n < 4 → bayPresent s n = true) → s.memory.downLinks = [] → Completes (.purlinLinkDown b p) s (fun t => t.memory.downLinks = [linkOf b p] ∧
    (∀ n, n < 4 → ∀ q, q < 3 → (bit (rd t (BAY_PURLIN_STATUS n)) q = if (linkEnds b p).contains (n, q) then false else bit (rd s (BAY_PURLIN_STATUS n)) q)) ∧
    (∀ e ∈ linkEnds b p, bit (rd t (BAY_MEM_STATUS e.1)) 4 = true) ∧ bit (rd t KINGPOST_FAULT_LATCH) 13 = true ∧ bit (rd t KINGPOST_FAULT_HOLD) 13 = true ∧ inSafeState t = true ∧ t.mem = s.mem)) ∧
  (∀ (s : State) (b p n : Nat), b < 4 → p < 3 → s.memory.downLinks = [linkOf b p] → Completes (.purlinLinkUp b p n) s (fun t => t.memory.downLinks = [] ∧
    (∀ e ∈ linkEnds b p, bit (rd t (BAY_PURLIN_STATUS e.1)) e.2 = true) ∧ fld t (BAY_PURLIN_STATUS b) 11 8 = min 15 n ∧ bit (rd t KINGPOST_FAULT_HOLD) 13 = false ∧
    t = { s with regs := t.regs, memory.downLinks := [] })) ∧
  (∀ s : State, (s.power.state = .sequencing → s.power.step = 9 → Completes .bootExcursion s (fun t => t = raise 0xA014 0 s)) ∧
    (s.power.state ≠ .sequencing → Completes .bootExcursion s (fun t => t = s)))

/-- The owner secret, the rekey, the service token and the security counter. A submitted owner secret is ignored and counted while it is locked or a decision is pending, and else waits for Kingpost, which the status shows. Kingpost provisions a part without an owner, unlocks for the right secret, and counts a wrong one with its event, locking at the third. A rekey replaces the check value of an unlocked part, and is ignored and counted on a locked one. A service token on a part that has not been returned is refused with 0x1209; on a returned part its service level follows from the checks of its container; each presentation uses up a challenge. The security counter rises to the floor of the image that runs, never falls, and rises once Foreman has run for 60 s. -/
def Obligations.SecretsAndTokens : Prop :=
  (∀ (s : State) (v : Nat), (bit (rd s FENCE_LOCK) 2 = false → s.sec.deciding = none → Completes (.ownerSecretSubmit v) s (fun t =>
      t.sec = { s.sec with deciding := some ((List.range 7).map (fun i => tgetD i 0 s.sec.secret) ++ [v % 2 ^ 32]) } ∧ bit (rd t FENCE_STATUS) 2 = true ∧
      t = { s with regs := t.regs, sec := t.sec } ∧ SameWords s t (fun a => decide (a = FENCE_STATUS.addr)))) ∧
    (bit (rd s FENCE_LOCK) 2 = false → s.sec.deciding.isSome = true → Completes (.ownerSecretSubmit v) s (Ignored 0xA0000 0xA041C s)) ∧
    (bit (rd s FENCE_LOCK) 2 = true → Completes (.ownerSecretSubmit v) s (Ignored 0xA0000 0xA041E s))) ∧
  (∀ s : State, s.sec.deciding = none → Completes .ownerSecretDecision s (fun t => t = s)) ∧
  (∀ s : State, ∀ w, s.sec.deciding = some w → s.sec.fuses.keyKill = false → let check := (Config.ownerCheck w).toNat
    let unlocked := fun (t : State) => fld t FENCE_STATUS 2 0 = 3 ∧ bit (rd t FENCE_LOCK) 2 = true ∧ t.sec = { s.sec with deciding := none, check := some check }
    (s.sec.check = none → Completes .ownerSecretDecision s (fun t => unlocked t ∧ t = { s with regs := t.regs, sec := t.sec, recd := t.recd, emitted := t.emitted })) ∧
    (s.sec.check = some check → Completes .ownerSecretDecision s (fun t => unlocked t ∧ t = { s with regs := t.regs, sec := t.sec } ∧
      SameWords s t (fun a => decide (a = FENCE_STATUS.addr) || decide (a = FENCE_LOCK.addr)))) ∧
    (s.sec.check = some (check + 1) → let n := min 3 (fld s FENCE_STATUS 4 3 + 1)
      Completes .ownerSecretDecision s (fun t => fld t FENCE_STATUS 4 3 = n ∧ bit (rd t FENCE_STATUS) 2 = false ∧ fld t FENCE_STATUS 1 0 = fld s FENCE_STATUS 1 0 ∧
        bit (rd t FENCE_LOCK) 2 = (decide (3 ≤ n) || bit (rd s FENCE_LOCK) 2) ∧ t.sec = { s.sec with deciding := none }))) ∧
  (∀ (s : State) (v : Nat), bit (rd s FENCE_LOCK) 4 = false → (storageUnlocked s = false → Completes (.ownerRekeySubmit v) s (Ignored 0xA0000 0xA043C s)) ∧
    (storageUnlocked s = true → s.sec.fuses.keyKill = false → Completes (.ownerRekeySubmit v) s (fun t =>
      t = raise 0xA013 0 { s with sec.check := some (Config.ownerCheck ((List.range 7).map (fun i => tgetD i 0 s.sec.rekey) ++ [v % 2 ^ 32])).toNat }))) ∧
  (∀ (s : State) (c : List Byte), (s.sec.fuses.returned = false → Completes (.serviceToken c) s (fun t =>
      t = emit (.service 0x1209) (raise 0xA021 0 { s with sec.nonces := s.sec.nonces + 1 }))) ∧
    (s.sec.fuses.returned = true → Completes (.serviceToken c) s (fun t => t.sec = { s.sec with nonces := s.sec.nonces + 1, serviceLevel2 := s.sec.serviceLevel2 || (boxStatus s 4 c).isNone } ∧
      t.emitted.getLast? = some (.service ((boxStatus s 4 c).getD 0)) ∧ t = { s with regs := t.regs, sec := t.sec, recd := t.recd, emitted := t.emitted }))) ∧
  (∀ s : State, (s.sec.raised = true ∨ s.mb.foremanUp = false ∨ s.ridge.ns < s.kp.foremanSince + 60000000000 → Completes .secCounterRaise s (fun t => t = s)) ∧
    (s.sec.raised = false → s.mb.foremanUp = true → s.kp.foremanSince + 60000000000 ≤ s.ridge.ns → let n := max s.sec.fuses.secCounter (fld s KINGPOST_BOOT_STATE 31 24)
      Completes .secCounterRaise s (fun t => t.sec.fuses = { s.sec.fuses with secCounter := n, keyRevoke := s.sec.fuses.keyRevoke ||| s.sec.revoke } ∧ t.sec.raised = true ∧
        fld t KINGPOST_BOOT_STATE 15 8 = n % 256 ∧ t = { s with regs := t.regs, sec := t.sec, recd := t.recd, emitted := t.emitted })))

/-- Resets of functions and of the link, bus mastering, and Foreman's heartbeat and watchdog. A reset of a function that the host reaches closes its session and puts its page at its reset values; a command that it had accepted will run on in silence, and no other page changes; one that the host does not reach changes nothing. Lowering NumVFs does the same to the functions removed, and raising it enables more; a reset of the link does it to all and leaves the link down with no virtual function; training brings it up, with PTM or without. A function whose bus mastering is off has its copies ended with 0x100F. A heartbeat advances the count; 20 ms without one restart Foreman, counted as fault 23, and the fourth restart within 600 s takes the safe state. -/
def Obligations.FunctionsAndTheLink : Prop :=
  (∀ (s : State) (f : Nat), f < 64 → (hostReaches s f = false → Completes (.functionLevelReset f) s (fun t => t = s)) ∧
    (hostReaches s f = true → Completes (.functionLevelReset f) s (fun t => (∀ k, k < 1024 → tget (0x200000 + 0x1000 * f + 4 * k) t.regs = none) ∧
      SameWords s t (fun a => inPage f a || inRecorder a) ∧ (∀ x ∈ t.mb.accepted, x.1 / 16 = f → x.2.silent = true) ∧ t.mb.accepted.map (·.1) = s.mb.accepted.map (·.1) ∧
      (∀ x ∈ t.out.streams, x.2.owner.getD 0 = f → x.2.hostRing = none) ∧ t.mem = s.mem ∧ t.scribe = s.scribe ∧ t.memory = s.memory))) ∧
  (∀ (s : State) (n : Nat), (s.mb.numVfs ≤ n → Completes (.numvfsLowered n) s (fun t => t = s)) ∧
    (n < s.mb.numVfs → s.mb.numVfs < 64 → Completes (.numvfsLowered n) s (fun t => t.mb.numVfs = n ∧ (∀ f, f < 64 → (n < f → f ≤ s.mb.numVfs → bit (rd t (MB_SESSION f)) 0 = false ∧ rd t (MB_BUSY f) = 0) ∧
      (f ≤ n ∨ s.mb.numVfs < f → rd t (MB_SESSION f) = rd s (MB_SESSION f) ∧ rd t (MB_BUSY f) = rd s (MB_BUSY f))) ∧ t.mem = s.mem ∧ t.memory = s.memory)) ∧
    (s.mb.numVfs < n → n ≤ 63 → s.mb.linkUp = true → Completes (.numvfsRaised n) s (fun t => t = { s with mb.numVfs := n })) ∧
    (n ≤ s.mb.numVfs → Completes (.numvfsRaised n) s (fun t => t = s))) ∧
  (∀ s : State, Completes .pcieLinkReset s (fun t => t.mb.linkUp = false ∧ t.mb.numVfs = 0 ∧ (∀ f, f < 64 → bit (rd t (MB_SESSION f)) 0 = false ∧ rd t (MB_BUSY f) = 0) ∧ t.mem = s.mem ∧
    t.memory = s.memory ∧ (∀ x ∈ t.out.streams, x.2.owner.getD 0 < 64 → x.2.hostRing = none))) ∧
  (∀ (s : State) (b : Bool), Completes (.pcieLinkTrained b) s (fun t => t = { s with mb.linkUp := true, mb.ptm := b })) ∧
  (∀ (s : State) (f : Nat), f < 64 → (s.memory.copies = [] → Completes (.busMasterDisable f) s (fun t => t = { s with mb.bmeClear := linsert f s.mb.bmeClear })) ∧
    (∀ c, s.memory.copies = [c] → c.2.function = f → c.2.slot < 16 → c.2.toDevice = false → mailboxServes s = true → ∀ x, tget (16 * f + c.2.slot) s.mb.accepted = some x → x.silent = false → Completes (.busMasterDisable f) s (fun t => t.memory.copies = [] ∧
      Answered f c.2.slot 0x100F t ∧ t.mb.bmeClear = linsert f s.mb.bmeClear ∧ t.mem = s.mem))) ∧
  (∀ s : State, (s.mb.foremanUp = true → Completes .foremanHeartbeat s (fun t => t = { s with mb.heartbeat := (s.mb.heartbeat + 1) % 2 ^ 32, kp.lastBeat := s.ridge.ns })) ∧
    (s.mb.foremanUp = false → Completes .foremanHeartbeat s (fun t => t = s) ∧ Completes .foremanWatchdog s (fun t => t = s)) ∧
    (s.ridge.ns < s.kp.lastBeat + 20000000 → Completes .foremanWatchdog s (fun t => t = s)) ∧
    (s.mb.foremanUp = true → s.kp.lastBeat + 20000000 ≤ s.ridge.ns → let n := (s.kp.restarts.filter (fun x => decide (s.ridge.ns < x + 600000000000))).length + 1
      Completes .foremanWatchdog s (fun t => t.mb = { s.mb with foremanUp := false } ∧ bit (rd t KINGPOST_SAFETY_STATE) 3 = false ∧ fld t KINGPOST_SAFETY_STATE 23 16 = min 255 n ∧
        rd t KINGPOST_FOREMAN_RESTARTS = min 0xFFFFFFFF (rd s KINGPOST_FOREMAN_RESTARTS + 1) ∧ bit (rd t KINGPOST_FAULT_LATCH) 23 = true ∧
        (inSafeState s = false → inSafeState t = decide (4 ≤ n)) ∧ t.mem = s.mem)))

/-- Closing, quiescing, resuming, settling and releasing a domain. A command on domain 0, or above 63, is ignored and counted, and so is a resume of a domain that Kingpost holds. A close shows the domain closed, and not yet settled. A quiesce of a domain without objects shows it closed and quiesced and tells its function. A resume lifts both, with its event, and tells a function that was quiesced; of an open domain it does nothing. A closed domain without lines in flight settles, with the event of a close or of a quiesce. DOMAIN_RELEASE leaves the domain no stream, mark, graph, cache, tensor, ring, peg or allocation, and leaves the pegs and allocations of other domains as they were; it refuses domain 0 and those above 63. -/
def Obligations.Domains : Prop :=
  (∀ (s : State) (d : Nat), (d = 0 ∨ 63 < d → Completes (.domainClose d) s (Ignored 0xA0000 0xA0008 s) ∧ Completes (.domainQuiesce d) s (Ignored 0xA0000 0xA0008 s) ∧
      Completes (.domainResume d) s (Ignored 0xA0000 0xA0008 s)) ∧
    (1 ≤ d → d ≤ 63 → let r := FENCE_DOMAIN_STATE d
      let only := fun (t : State) => t = { s with regs := t.regs } ∧ SameWords s t (fun a => decide (a = r.addr))
      Completes (.domainClose d) s (fun t => only t ∧ bit (rd t r) 0 = true ∧ fld t r 31 3 = fld s r 31 3 ∧ bit (rd t r) 2 = (closedDomain s d && bit (rd s r) 2) ∧ bit (rd t r) 1 = bit (rd s r) 1) ∧
      (quiescedDomain s d = false → s.scribe.graphs = [] → s.scribe.insts = [] → s.scribe.work = [] → s.mb.waits = [] → s.plumb.queue = [] → s.plumb.run = none → s.out.streams = [] →
        Completes (.domainQuiesce d) s (fun t => fld t r 2 0 = 3 ∧ bit (rd t (MB_NOTICE d)) 4 = true ∧ t = { s with regs := t.regs, emitted := t.emitted } ∧
          SameWords s t (fun a => decide (a = r.addr) || decide (a = (MB_NOTICE d).addr)))) ∧
      (kpHold s d = true → Completes (.domainResume d) s (Ignored 0xA0000 0xA0008 s)) ∧
      (kpHold s d = false → closedDomain s d = false → Completes (.domainResume d) s (fun t => t = s)) ∧
      (kpHold s d = false → closedDomain s d = true → Completes (.domainResume d) s (fun t => fld t r 2 0 = 0 ∧ t = { s with regs := t.regs, recd := t.recd, emitted := t.emitted } ∧
        bit (rd t (MB_NOTICE d)) 4 = (quiescedDomain s d || bit (rd s (MB_NOTICE d)) 4))) ∧
      (closedDomain s d = false ∨ bit (rd s r) 2 = true → Completes (.domainSettled d) s (fun t => t = s)) ∧
      (closedDomain s d = true → bit (rd s r) 2 = false → s.kp.quiesceDue = [] → Completes (.domainSettled d) s (fun t =>
        t = raise (if quiescedDomain s d then 0xA003 else 0xA002) d (setMask r 4 s) ∧ bit (rd t r) 2 = true)))) ∧
  (∀ (s : State) (f k : Nat), Ready f k 0x0B05 s → let d := param s f k 0x0B05 0
    (d = 0 ∨ 63 < d → Answers (.domainRelease f k) f k 0x1006 s s) ∧
    (1 ≤ d → d ≤ 63 → f ≠ d → Completes (.domainRelease f k) s (fun t => Answered f k 0 t ∧ (∀ x ∈ t.out.streams, x.2.owner ≠ some d) ∧ (∀ x ∈ t.ridge.markOwner, x.2 ≠ d) ∧
      (∀ x ∈ t.scribe.graphs, x.2.domain ≠ d) ∧ (∀ x ∈ t.ledger.caches, x.2.owner ≠ d) ∧ (∀ x ∈ t.tensors.table, x.2.owner ≠ d) ∧ (∀ x ∈ t.scribe.rings, x.2.owner ≠ d) ∧
      (∀ x ∈ t.memory.allocs, x.2.owner ≠ d ∧ bit x.2.rmask d = false ∧ bit x.2.wmask d = false) ∧ (∀ x ∈ t.scribe.pegs, x.2.owner ≠ d) ∧
      t.memory.allocs.map (·.1) = (s.memory.allocs.filter (fun x => decide (x.2.owner ≠ d))).map (·.1) ∧ (kpHold s d = false → closedDomain t d = false) ∧ bit (rd t (MB_NOTICE d)) 5 = true)))

/-- Foreman resumes, its log, and the return of a part. Foreman does not resume while it is up, or not released; a restarted one serves again under the next generation, tells every function, and answers each command accepted before with 0x100B. FOREMAN_LOG is refused where its range is not held for writing, and otherwise answers a length within the range and writes nothing outside it. RETURN_PREPARE refuses a part whose return is under way or done, with 0x1209, and an authorisation that cannot be read; otherwise the status is that of the first check that the container fails. When the erase of a prepared part is complete, RETURNED is blown, the namespaces, models, adapters and metadata are gone, and the package is reset. -/
def Obligations.ForemanAndTheReturn : Prop :=
  (∀ s : State, (s.mb.foremanUp = true ∨ s.power.released = false ∨ inRun s = false → Completes .foremanResume s (fun t => t = s)) ∧
    (s.mb.foremanUp = false → s.power.released = true → inRun s = true → bit (rd s KINGPOST_SAFETY_STATE) 4 = false →
      (s.mb.accepted = [] → Completes .foremanResume s (fun t => t.mb = { s.mb with foremanUp := true, foremanGen := (s.mb.foremanGen + 1) % 2 ^ 32 } ∧ bit (rd t KINGPOST_SAFETY_STATE) 3 = true ∧
        t.kp = { s.kp with lastBeat := s.ridge.ns, foremanSince := s.ridge.ns } ∧ (∀ f, f < 64 → bit (rd t (MB_NOTICE f)) 0 = true) ∧ t.mem = s.mem ∧ t.fw = { s.fw with trial := t.fw.trial })) ∧
      (∀ x, s.mb.accepted = [x] → x.1 < 1024 → x.2.recorded = none → x.2.silent = false → s.memory.copies = [] → Completes .foremanResume s (fun t =>
        Answered (x.1 / 16) (x.1 % 16) 0x100B t ∧ t.mb.foremanUp = true ∧ t.mb.accepted = [] ∧ t.mem = s.mem)))) ∧
  (∀ (s : State) (f k : Nat), Ready f k 0x0B06 s → let a := param s f k 0x0B06 0
    let n := param s f k 0x0B06 1
    (holdsRange s f a n false true = false → Answers (.foremanLog f k) f k 0x1007 s s) ∧
    (holdsRange s f a n false true = true → n < 2 ^ 32 → Completes (.foremanLog f k) s (fun t => Answered f k 0 t ∧ result t f k 0 4 ≤ n ∧ SameMemory s t a n ∧
      t.scribe = s.scribe ∧ t.memory = s.memory ∧ t.yard = s.yard))) ∧
  (∀ (s : State) (f k : Nat), Ready f k 0x0B07 s → s.sec.returnBy = none → let a := param s f k 0x0B07 0
    (s.sec.fuses.returnPending = true ∨ s.sec.fuses.returned = true → Answers (.returnPrepare f k) f k 0x1209 s s) ∧
    (s.sec.fuses.returnPending = false → s.sec.fuses.returned = false → (readable s f a 256 = false → Answers (.returnPrepare f k) f k 0x1202 s s) ∧
      (readable s f a 256 = true → Completes (.returnPrepare f k) s (fun t => Sum.elim
        (fun c => Answered f k c t ∧ AfterAnswer f k s t)
        (fun _ => t.sec.returnBy = some (16 * f + k) ∧ t.sec.fuses = { s.sec.fuses with returnPending := true, keyKill := true } ∧ inSafeState t = true ∧
            bit (rd t FENCE_STATUS) 0 = false ∧ (∀ d, d < 63 → quiescedDomain t (d + 1) = true))
        (boxAt s f 3 a (256 + boxPart (readBytes s a 256) 48 4)))))) ∧
  (∀ s : State, (s.sec.fuses.returnPending = false ∨ s.sec.fuses.returned = true → Completes .returnEraseComplete s (fun t => t = s)) ∧
    (s.sec.fuses.returnPending = true → s.sec.fuses.keyKill = true → s.sec.fuses.returned = false → Completes .returnEraseComplete s (fun t =>
      t.sec.fuses = { s.sec.fuses with returned := true } ∧ t.sec.check = none ∧ t.yard.blocks = [] ∧ t.yard.models = [] ∧ t.yard.adapters = [] ∧ t.yard.persisted = none ∧
      t.yard.queue = [] ∧ t.yard.retired = s.yard.retired ∧ t.mem = [] ∧ rd t KINGPOST_RESET_CAUSE % 256 = 3 ∧ t.pending = s.pending)))

/-- Staging, activating, trying and reverting firmware, and adapter images. FW_STAGE refuses more than 1 GiB, and otherwise answers the status of the first failed check of the container, or writes it into the slot that does not run. FW_ACTIVATE refuses an invalid slot and stages the switch to a valid one. ADAPTER_STORE refuses adapter 0, and otherwise answers the container's status or stores the image. ADAPTER_STAGE refuses a port above 7 and an unknown adapter, and stages the native one. Kingpost switches between two slots of the rotation. A trial slot that has run 60 s is confirmed above the other's sequence; one whose Foreman restarts within 60 s is rejected, with Foreman down. Recovery ends in a package reset 100 ms after the stage, whose cause and end code are free within the codes of a package reset (log entry 56). -/
def Obligations.FirmwareAndAdapters : Prop :=
  (∀ (s : State) (f k : Nat), Ready f k 0x0B01 s → let n := param s f k 0x0B01 1
    let j := if s.fw.recovery then 0 else 1 - s.fw.running
    (2 ^ 30 < n → Answers (.fwStage f k) f k 0x1006 s s) ∧
    (n ≤ 2 ^ 30 → metadataRefused s = false → Completes (.fwStage f k) s (fun t => Sum.elim (fun c => Answered f k c t ∧ AfterAnswer f k s t)
      (fun box => Answered f k 0 t ∧ result t f k 0 1 = j ∧ (fwSlot t j).box = box ∧ (fwSlot t j).valid = true ∧ (fwSlot t j).state = (if s.fw.recovery then 1 else (fwSlot s j).state) ∧
        fwSlot t (1 - j) = fwSlot s (1 - j) ∧ t.fw.running = s.fw.running) (boxAt s f 1 (param s f k 0x0B01 0) n)))) ∧
  (∀ (s : State) (f k : Nat), Ready f k 0x0B02 s → let x := fwSlot s (1 - s.fw.running)
    (x.valid = false → Answers (.fwActivate f k) f k 0x1202 s s) ∧ (x.valid = true → x.box = [] → Answers (.fwActivate f k) f k 0 s { s with fw.staged := true }) ∧
    (∀ c, boxStatus s 1 x.box = some c → x.valid = true → x.box ≠ [] → Answers (.fwActivate f k) f k c s s)) ∧
  (∀ (s : State) (f k : Nat) (image : AdapterImage), Ready f k 0x0B03 s → let a := param s f k 0x0B03 2
    (a = 0 → Answers (.adapterStore f k image) f k 0x1006 s s) ∧
    (a ≠ 0 → unmountable s = false → metadataRefused s = false → Completes (.adapterStore f k image) s (fun t => Sum.elim (fun c => Answered f k c t ∧ AfterAnswer f k s t)
      (fun box => Answered f k 0 t ∧ tget a t.yard.adapters = some { image with templates := image.templates.take 16, box := box } ∧ t.yard.models = s.yard.models)
      (boxAt s f 2 (param s f k 0x0B03 0) (param s f k 0x0B03 1))))) ∧
  (∀ (s : State) (f k : Nat), Ready f k 0x0B04 s → let p := param s f k 0x0B04 0
    let a := param s f k 0x0B04 1
    (7 < p → Answers (.adapterStage f k) f k 0x1006 s s) ∧ (p ≤ 7 → a ≠ 0 → tget a s.yard.adapters = none → Answers (.adapterStage f k) f k 0x1007 s s) ∧
    (p ≤ 7 → a = 0 → Answers (.adapterStage f k) f k 0 s { s with net.staged.adapters := tdel p s.net.staged.adapters, net.reload := linsert p s.net.reload })) ∧
  (∀ s : State, (s.fw.switching = none ∨ s.kp.running.isSome = true → Completes .kingpostFwSwitch s (fun t => t = s)) ∧
    (∀ k, s.fw.switching = some k → k < 2 → s.kp.running = none → Completes .kingpostFwSwitch s (fun t => t.fw = { s.fw with switching := none, running := k } ∧ fld t KINGPOST_BOOT_STATE 0 0 = k ∧
      fld t KINGPOST_BOOT_STATE 31 24 = boxPart (fwSlot s k).box 8 1 ∧ t.sec.raised = false ∧ t.sec.fuses = s.sec.fuses ∧ t.mem = s.mem))) ∧
  (∀ s : State, let k := s.fw.running
    (s.fw.trial = none → Completes .fwTrialConfirm s (fun t => t = s)) ∧
    (∀ x, s.fw.trial = some x → (s.ridge.ns < x + 60000000000 → Completes .fwTrialConfirm s (fun t => t = s)) ∧
      (x + 60000000000 ≤ s.ridge.ns → s.mb.foremanUp = true → s.fw.switching = none → k < 2 → (fwSlot s k).state = 1 → Completes .fwTrialConfirm s (fun t => (fwSlot t k).state = 2 ∧
        (fwSlot t k).seq = (fwSlot s (1 - k)).seq + 1 ∧ fwSlot t (1 - k) = fwSlot s (1 - k) ∧ t.fw.trial = none ∧ t.sec.raised = true)) ∧
      (s.ridge.ns < x + 60000000000 → s.mb.foremanUp = false → s.fw.switching = none → k < 2 → (fwSlot s k).state = 1 → (fwSlot s (1 - k)).valid = true → (fwSlot s (1 - k)).state = 2 →
        Completes (.fwTrialRevert false) s (fun t => (fwSlot t k).state = 3 ∧ fwSlot t (1 - k) = fwSlot s (1 - k) ∧ t.fw.trial = none ∧ t.fw.switching = some (1 - k) ∧ t.fw.switchedAt = s.ridge.ns ∧
          t.mb = s.mb ∧ t.mem = s.mem)))) ∧
  (∀ s : State, (s.fw.recoverAt = none → Completes .recoveryPackageReset s (fun t => t = s)) ∧ (∀ x, s.fw.recoverAt = some x → (s.ridge.ns < x + 100000000 → Completes .recoveryPackageReset s (fun t => t = s)) ∧
    (x + 100000000 ≤ s.ridge.ns → s.recd.pages = [] → s.power.retained.failedRail = none → Completes .recoveryPackageReset s (fun t => 
      let v := rd t KINGPOST_RESET_CAUSE % 4096
      1 ≤ v % 256 ∧ v % 256 ≤ 3 ∧ 3 ≤ v / 256 ∧ v / 256 ≤ 5 ∧ Restarted (v % 256) (v / 256) s t ∧ t.fw.recoverAt = none))))

/-- The storage commands: acceptance, and completion. On a locked partition each storage command answers 0x1201, and where storage cannot be mounted 0x1D0A; a namespace command whose blocks are none or too many, or reach beyond the quota, answers 0x1D02, and one whose device range is not held 0x1D08; a model name that no object may have answers 0x1D06. Otherwise a command waits in the queue until the mount, or begins: a read takes the versions of its blocks, a flush starts. STORAGE_INFO answers the use, the wear and the reserve. A read whose block is whole is delivered to device memory and answers 0, and nothing else of memory changes; a write whose records have all committed answers its status; a flush answers 0 when no earlier write is left. -/
def Obligations.StorageCommands : Prop :=
  (∀ (s : State) (f k : Nat), inYard s f k = false →
    (Ready f k 0x0801 s → (storageUnlocked s = false → Answers (.nsRead f k) f k 0x1201 s s) ∧ (storageUnlocked s = true → unmountable s = true → Answers (.nsRead f k) f k 0x1D0A s s)) ∧
    (Ready f k 0x0802 s → (storageUnlocked s = false → Answers (.nsWrite f k) f k 0x1201 s s) ∧ (storageUnlocked s = true → unmountable s = true → Answers (.nsWrite f k) f k 0x1D0A s s)) ∧
    (Ready f k 0x0803 s → (storageUnlocked s = false → Answers (.nsFlush f k) f k 0x1201 s s) ∧ (storageUnlocked s = true → unmountable s = true → Answers (.nsFlush f k) f k 0x1D0A s s)) ∧
    (Ready f k 0x0804 s → (storageUnlocked s = false → Answers (.modelPut f k) f k 0x1201 s s) ∧ (storageUnlocked s = true → unmountable s = true → Answers (.modelPut f k) f k 0x1D0A s s)) ∧
    (Ready f k 0x0805 s → (storageUnlocked s = false → Answers (.modelGet f k) f k 0x1201 s s) ∧ (storageUnlocked s = true → unmountable s = true → Answers (.modelGet f k) f k 0x1D0A s s))) ∧
  (∀ (s : State) (f k : Nat), storageUnlocked s = true → unmountable s = false → s.yard.queue = [] →
    let cmd : Nat → Nat → Nat → Nat → StoreCmd := fun op a b c => { serial := s.yard.serial, at_ := s.ridge.ns, slot := 16 * f + k, opcode := op, a := a, b := b, c := c }
    let waits := fun (t : State) (c : StoreCmd) => t = { s with yard.serial := s.yard.serial + 1, yard.queue := [c] }
    (Ready f k 0x0801 s → let q := nsCheck s f 0x0801 (param s f k 0x0801 0) (param s f k 0x0801 1) (param s f k 0x0801 2) true
      let c := cmd 0x0801 (param s f k 0x0801 0) (param s f k 0x0801 1) (param s f k 0x0801 2)
      (param s f k 0x0801 1 = 0 ∨ 262144 < param s f k 0x0801 1 → Answers (.nsRead f k) f k 0x1D02 s s) ∧ (∀ e, q = some e → Answers (.nsRead f k) f k e.1 s s) ∧
      (q = none → (yardServes s = false → Completes (.nsRead f k) s (fun t => waits t c)) ∧
        (YardAtRest s → Completes (.nsRead f k) s (fun t => waits t { c with started := true, snap := some (snapshot s.yard c).1, lost := (snapshot s.yard c).2 })))) ∧
    (Ready f k 0x0802 s → let q := nsCheck s f 0x0802 (param s f k 0x0802 0) (param s f k 0x0802 1) (param s f k 0x0802 2) false
      (∀ e, q = some e → Answers (.nsWrite f k) f k e.1 s s) ∧
      (q = none → yardServes s = false → Completes (.nsWrite f k) s (fun t => waits t (cmd 0x0802 (param s f k 0x0802 0) (param s f k 0x0802 1) (param s f k 0x0802 2))))) ∧
    (Ready f k 0x0803 s → (yardServes s = false → Completes (.nsFlush f k) s (fun t => waits t (cmd 0x0803 0 0 0))) ∧
      (YardAtRest s → Completes (.nsFlush f k) s (fun t => waits t { cmd 0x0803 0 0 0 with started := true }))) ∧
    (Ready f k 0x0804 s → (badName (param s f k 0x0804 0) = true → Answers (.modelPut f k) f k 0x1D06 s s) ∧
      (badName (param s f k 0x0804 0) = false → param s f k 0x0804 2 = 0 → writesRefused s = false → yardServes s = false → Completes (.modelPut f k) s (fun t => waits t (cmd 0x0804 (param s f k 0x0804 0) (param s f k 0x0804 1) 0)))) ∧
    (Ready f k 0x0805 s → (badName (param s f k 0x0805 0) = true → Answers (.modelGet f k) f k 0x1D06 s s) ∧
      (badName (param s f k 0x0805 0) = false → param s f k 0x0805 2 = 0 → yardServes s = false → Completes (.modelGet f k) s (fun t => waits t (cmd 0x0805 (param s f k 0x0805 0) (param s f k 0x0805 1) 0)))) ∧
    (Ready f k 0x0806 s → AnswersWith (.storageInfo f k) f k 0 s s (fun t => result t f k 0 8 = dataBlocks s.yard (fun d => decide (d = f)) % 2 ^ 64 ∧
      result t f k 8 1 = bits s.yard.wearTlc 15 0 * 100 / 3000 % 256 ∧ result t f k 9 1 = s.yard.reserveTlc / 100 % 256))) ∧
  (∀ s : State, yardServes s = true → s.power.state = .run → s.yard.page = [] → s.yard.closing = [] → ∀ c, s.yard.queue = [c] → c.started = true → c.silent = false → c.slot < 1024 → let f := c.slot / 16
    let k := c.slot % 16
    (c.opcode = 0x0801 → c.b = 1 → c.lost = [] → ∀ y, c.snap = some y → ∀ r, y = [r] → recKey r = 2 * nsKey f c.a → ∀ b, recData r = some b → b.length ≤ 4096 → cutOff s none c.c = false → admitAll s f c.c 4096 true = true →
      Ready f k 0x0801 s → Completes (.storageCommandComplete c.serial 0 0 0 []) s (fun t => Answered f k 0 t ∧ readBytes t c.c b.length = b ∧ SameMemory s t c.c b.length ∧ t.yard.queue = [] ∧
        rd t YARD_HOST_READ = min 0xFFFFFFFF (rd s YARD_HOST_READ + 1) ∧ t.yard.blocks = s.yard.blocks)) ∧
    (c.opcode = 0x0802 → c.todo = [] → Ready f k 0x0802 s → Completes (.storageCommandComplete c.serial 0 0 0 []) s (fun t => Answered f k c.status t ∧ t.yard.queue = [] ∧ t.mem = s.mem)) ∧
    (c.opcode = 0x0803 → Ready f k 0x0803 s → Completes (.storageCommandComplete c.serial 0 0 0 []) s (fun t => Answered f k 0 t ∧ t.yard.queue = [] ∧ t.mem = s.mem ∧ t.yard.blocks = s.yard.blocks)))

/-- Programs, the journal, the mount, checkpoints and the care of the cells. A program that verifies appends its record to the open page of the journal and is counted. The page is programmed 20 ms after its first record, and not before; when it verifies, its records commit in order, and the pages are counted. A mount is shown with its time; where no checkpoint can be read storage is not mounted, with event 0xB009. A checkpoint is written 10 minutes after the last one or once the journal is long, and not before. A patrol pass counts its codewords, makes a block that it cannot read unreadable, and at its end starts the age of the pass. An erase leaves the wear of its pool; a failed one retires the block, and the pool's reserve never rises. -/
def Obligations.StorageEvents : Prop :=
  (∀ s : State, yardServes s = true → s.power.state = .run → (∀ c, s.yard.queue = [c] → s.yard.page = [] → ∀ r, c.todo = [r] → ∀ b, recData r = some b → ∀ n, n < 13 → 1 ≤ n → (∀ e, r = .block e (some b) c.serial →
    Completes (.wordlineVerified c.serial n 0 0) s (fun t => t.yard.page = [r] ∧ t.yard.since = s.ridge.ns ∧ t.yard.queue.map (·.todo) = [[]] ∧ t.yard.blocks = s.yard.blocks ∧
      rd t YARD_PROG_TLC = min 0xFFFFFFFF (rd s YARD_PROG_TLC + 1) ∧ t = { s with regs := t.regs, yard := t.yard } ∧ SameWords s t (fun a => decide (a = YARD_PROG_TLC.addr))))) ∧
    (s.yard.page = [] ∨ s.ridge.ns < s.yard.since + 20000000 → Completes .journalWindowExpiry s (fun t => t = s)) ∧
    (s.yard.page ≠ [] → s.yard.since + 20000000 ≤ s.ridge.ns → Completes .journalWindowExpiry s (fun t => t = { s with yard.page := [], yard.closing := s.yard.closing ++ [s.yard.page] })) ∧
    (s.yard.closing = [] → Completes (.journalPageVerified 0 0) s (fun t => t = s)) ∧
    (∀ p, s.yard.closing = [p] → s.yard.queue = [] → Completes (.journalPageVerified 0 0) s (fun t => let y := p.foldl applyRec s.yard
      t.yard = { y with closing := [], pagesSince := s.yard.pagesSince + 1 } ∧ rd t YARD_PROG_PSLC = min 0xFFFFFFFF (rd s YARD_PROG_PSLC + 1) ∧
      rd t YARD_HOST_WRITE = min 0xFFFFFFFF (rd s YARD_HOST_WRITE + (p.map recBlocks).sum) ∧ t = { s with regs := t.regs, yard := t.yard })) ∧
    (s.ridge.ns < s.yard.lastCheckpoint + 600000000000 → s.yard.pagesSince < 4096 → Completes (.checkpointWrite 3) s (fun t => t = s)) ∧
    (s.yard.lastCheckpoint + 600000000000 ≤ s.ridge.ns ∨ 4096 ≤ s.yard.pagesSince → ∀ n, n < 9 → Completes (.checkpointWrite n) s (fun t => t.yard = { s.yard with pagesSince := 0, lastCheckpoint := s.ridge.ns } ∧
      rd t YARD_PROG_PSLC = min 0xFFFFFFFF (rd s YARD_PROG_PSLC + n) ∧ t = { s with regs := t.regs, yard := t.yard } ∧ SameWords s t (fun a => decide (a = YARD_PROG_PSLC.addr))))) ∧
  (∀ s : State, inRun s = true → bit (rd s YARD_STATUS) 0 = false → unmountable s = false → s.yard.queue = [] → ∀ n, n < 9 →
    (s.yard.torn = 0 → Completes (.yardMount true n) s (fun t => bit (rd t YARD_STATUS) 0 = true ∧ bit (rd t YARD_STATUS) 5 = true ∧ fld t YARD_MOUNT_MS 15 0 = n ∧ rd t YARD_TORN_DISCARDED = 0 ∧
      t = { s with regs := t.regs, yard.lastCheckpoint := s.ridge.ns })) ∧
    (s.yard.torn ≠ 0 → s.yard.torn < 511 → Completes (.yardMount true n) s (fun t => rd t YARD_TORN_DISCARDED = s.yard.torn ∧ bit (rd t YARD_EVENTS) 2 = true ∧ t.yard = { s.yard with torn := 0, lastCheckpoint := s.ridge.ns })) ∧
    Completes (.yardMount false n) s (fun t => t.yard = { s.yard with failed := true } ∧ bit (rd t YARD_EVENTS) 6 = true ∧ unmountable t = true ∧ t = { s with regs := t.regs, yard := t.yard, recd := t.recd, emitted := t.emitted })) ∧
  (∀ (s : State) (a b d n : Nat), yardServes s = true →
    Completes (.patrolPass a b [] [] true) s (fun t => rd t YARD_LDPC_RETRY = min 0xFFFFFFFF (rd s YARD_LDPC_RETRY + a) ∧ rd t YARD_LDPC_SOFT = min 0xFFFFFFFF (rd s YARD_LDPC_SOFT + b) ∧ rd t YARD_PASS_AGE = 0 ∧
      t = { s with regs := t.regs } ∧ SameWords s t (fun x => decide (x = YARD_LDPC_RETRY.addr) || decide (x = YARD_LDPC_SOFT.addr) || decide (x = YARD_PASS_AGE.addr))) ∧
    (d < 64 → s.yard.unreadable.contains (nsKey d n) = false → (tgetD (nsKey d n) none s.yard.blocks).isSome = true → Completes (.patrolPass 0 0 [] [(d, n)] false) s (fun t =>
      t.yard = { s.yard with unreadable := linsert (nsKey d n) s.yard.unreadable } ∧ rd t YARD_UNREADABLE = min 0xFFFFFFFF (rd s YARD_UNREADABLE + 1) ∧ bit (rd t YARD_EVENTS) 0 = true))) ∧
  (∀ (s : State) (p avg high r : Nat), yardServes s = true → p < 2 → avg < 2400 → high < 2 ^ 16 → s.yard.worn = true →
    Completes (.freeBlockErase p 0 avg high r false) s (fun t => t = { s with yard.wearTlc := if p = 0 then avg + 65536 * high else s.yard.wearTlc, yard.wearPslc := if p = 0 then s.yard.wearPslc else avg + 65536 * high }) ∧
    Completes (.freeBlockErase p 0 avg high r true) s (fun t => rd t YARD_ERASE_FAIL = min 0xFFFFFFFF (rd s YARD_ERASE_FAIL + 1) ∧ bit (rd t YARD_EVENTS) 1 = true ∧ reserveOf t.yard p = min (reserveOf s.yard p) r ∧
      reserveOf t.yard (1 - p) = reserveOf s.yard (1 - p) ∧ t.yard.blocks = s.yard.blocks ∧ t = { s with regs := t.regs, yard := t.yard, recd := t.recd, emitted := t.emitted }))

/-- Power-on, its sequencing and the boot, and the fall of EN. In STANDBY with EN high and VIN good a power-on starts at step 1 of its first attempt and counts in the part's life; so does the rise of EN; one that comes due while the rails go down waits. A step within limits gives way to the next; a rail that is late fails the attempt, is recorded, and is retried from step 1, until the third failure leaves STANDBY, locked. The charged store is shown. With every rail up and the store charged the device boots: it runs, shows its dies, its stacks and its cause, and Foreman is released from the confirmed slot. The fall of EN in RUN starts the power-down with the pair invalid; the Yard is stopped at once where it is idle. -/
def Obligations.PoweringUp : Prop :=
  (∀ s : State,
    let begins := fun (t : State) => t.power.state = .sequencing ∧ t.power.step = 1 ∧ t.power.attempts = 1 ∧ t.power.waiting = false ∧ t.power.released = false ∧ t.power.due = false ∧
      fld t KINGPOST_POWER_STATE 2 0 = 2 ∧ t.recd = { s.recd with life := { s.recd.life with cycle := min 0xFFFFFFFF (s.recd.life.cycle + 1) } } ∧ t = { s with regs := t.regs, power := t.power, recd := t.recd } ∧
      SameWords s t (fun a => decide (a = KINGPOST_POWER_STATE.addr))
    (s.power.state = .standby → s.power.locked = false → inputGood s = true → (s.power.en = true → Completes .vinRise s begins) ∧ (s.power.en = false → Completes .enHigh s begins)) ∧
    (s.power.state ≠ .standby ∨ s.power.en = false → Completes .vinRise s (fun t => t = s)) ∧ (s.power.en = true → Completes .enHigh s (fun t => t = s)) ∧
    (s.power.en = false → inputGood s = true → s.power.state = .powerDown → Completes .enHigh s (fun t => t = { s with power.en := true, power.due := true })) ∧
    (s.power.state = .sequencing → s.power.waiting = false → 1 ≤ s.power.step → s.power.step ≤ 8 → Completes .railStepInLimits s (fun t => t = { s with power.step := s.power.step + 1 })) ∧
    (s.power.state ≠ .sequencing → Completes .railStepInLimits s (fun t => t = s) ∧ Completes .sequencingRetry s (fun t => t = s) ∧ Completes .holdupCharged s (fun t => t = s)) ∧
    (s.power.state = .sequencing → s.power.waiting = false → ∀ r ∈ stepRails s.power.step, s.power.attempts < 4 →
      (s.power.attempts < 3 → Completes (.railStepTimeout r) s (fun t => t.power = { s.power with step := 0, waiting := true, retained := { s.power.retained with failedRail := some r } } ∧
        fld t KINGPOST_RESET_CAUSE 19 16 = r ∧ fld t KINGPOST_RESET_CAUSE 13 12 = s.power.attempts ∧ t = { s with regs := t.regs, power := t.power })) ∧
      (s.power.attempts = 3 → Completes (.railStepTimeout r) s (fun t => t.power.state = .standby ∧ t.power.locked = true ∧ t.power.retained.failedRail = some r ∧ fld t KINGPOST_POWER_STATE 2 0 = 1))) ∧
    (s.power.state = .sequencing → s.power.waiting = true → Completes .sequencingRetry s (fun t => t = { s with power.step := 1, power.waiting := false, power.attempts := s.power.attempts + 1 })) ∧
    (s.power.state = .sequencing → s.power.step = 9 → Completes .holdupCharged s (fun t => bit (rd t KINGPOST_POWER_STATE) 5 = true ∧ fld t KINGPOST_POWER_STATE 15 8 = 150 ∧ t = { s with regs := t.regs } ∧
      SameWords s t (fun a => decide (a = KINGPOST_POWER_STATE.addr))))) ∧
  (∀ s : State, s.power.state = .sequencing → s.power.step = 9 → (bit (rd s KINGPOST_POWER_STATE) 5 = false → Completes (.powerOn {}) s (fun t => t = s)) ∧
    (bit (rd s KINGPOST_POWER_STATE) 5 = true → s.fw.slotA.valid = true → s.fw.slotA.state = 2 → s.fw.slotA.box = [] → s.fw.slotB.valid = false → s.fw.recovery = false → s.sec.fuses.returnPending = false →
      s.power.attempts < 4 → s.power.retained.ended = none → s.power.retained.failedRail = none → Completes (.powerOn {}) s (fun t => t.power.state = .run ∧ t.power.released = true ∧ t.mb.foremanUp = true ∧
        t.mb.linkUp = false ∧ t.fw.running = 0 ∧ fld t SILL_PACKAGE 9 0 = 0x2FF ∧ rd t SILL_STACKS_USED = 15 ∧ rd t SILL_SYS_RESERVE = 512 ∧ rd t RIDGE_EPOCH_REQUIRED = 0x3FFF ∧
        rd t KINGPOST_RESET_CAUSE = 4096 * s.power.attempts ∧ fld t GOVERNOR_CAP 7 0 = s.power.retained.cap % 256 ∧ t.mem = s.mem ∧ t.sec.fuses = s.sec.fuses))) ∧
  (∀ s : State, (s.power.state = .standby → Completes .enLow s (fun t => t = { s with power.en := false, power.due := false, power.locked := false })) ∧
    (s.power.state = .run → Completes .enLow s (fun t => t.power.state = .powerDown ∧ t.power.en = false ∧ t.power.stopFrom = s.ridge.ns ∧ t.power.ending = 2 ∧ t.power.step = (if yardIdle s then 3 else 2) ∧
      bit (rd t NETIN_VLINK_STATE) 0 = false ∧ fld t KINGPOST_POWER_STATE 2 0 = 4 ∧ t.mem = s.mem ∧ t.yard.blocks = s.yard.blocks ∧ (yardIdle s = false → t.yard = s.yard))))

/-- Package reset, power-down, crash discharge and loss of input. PKG_RESET_N resets a running device with EN high: it ends the session with code 3, clears memory and configuration, keeps what NAND, the fuses and the Plinth hold, and starts again; without EN it has no effect. The rail steps of a power-down follow one another; after the last the end record is written and STANDBY, or OFF, is entered. Step 2 ends at its limit of 100 ms, and not before. A crash discharge records its rail, its phase and its voltages, and ends the session with code 6. A loss of input is declared only when its condition has lasted; in RUN the pair goes invalid and HOLD_UP is entered; the last page is then committed, and the session ends with code 1. -/
def Obligations.PoweringDown : Prop :=
  (∀ s : State, s.power.retained.failedRail = none → s.sec.fuses.returnPending = false → (s.power.en = false → Completes (.pkgReset {}) s (fun t => t = s)) ∧
    (s.power.en = true → s.power.state = .run → Completes (.pkgReset {}) s (fun t => Restarted 1 3 s t ∧ t.power.state = .run ∧ t.sec.fuses = s.sec.fuses ∧ t.recd.life = s.recd.life ∧
      fld t SILL_PACKAGE 9 0 = 0x2FF))) ∧
  (∀ s : State, s.power.due = false → (s.power.state ≠ .powerDown → Completes .powerDownRailStep s (fun t => t = s) ∧ Completes .powerDownStorageLimit s (fun t => t = s)) ∧
    (s.power.state = .powerDown → (3 ≤ s.power.step → s.power.step < 10 → Completes .powerDownRailStep s (fun t => t = { s with power.step := s.power.step + 1 })) ∧
      (s.power.step = 10 → Completes .powerDownRailStep s (fun t => PoweredOff s.power.ending s t)) ∧
      (s.power.step = 2 → s.ridge.ns < s.power.stopFrom + 100000000 → Completes .powerDownStorageLimit s (fun t => t = s)) ∧
      (s.power.step = 2 → s.power.stopFrom + 100000000 ≤ s.ridge.ns → Completes .powerDownStorageLimit s (fun t => t.power.step = 3 ∧ t.yard.stopped = true ∧ t.yard.queue = [] ∧ t.yard.blocks = s.yard.blocks ∧
        t = { s with power.step := 3, yard := t.yard }))) ∧
    (∀ r low high, r < 11 → low < 2 ^ 16 → high < 2 ^ 16 → (s.power.state = .powerDown → s.power.step ≤ 10 → Completes (.crashDischarge r low high) s (fun t => PoweredOff 6 s t ∧
        t.power.retained.crash = some { rail := r, phase := min 3 s.power.step, low := low, high := high, t := s.ridge.ns })) ∧
      (s.power.state = .holdUp → Completes (.crashDischarge r low high) s (fun t => PoweredOff 6 s t ∧ t.power.retained.crash = some { rail := r, phase := 4, low := low, high := high, t := s.ridge.ns })) ∧
      (s.power.state = .run → Completes (.crashDischarge r low high) s (fun t => t = s)))) ∧
  (∀ s : State, (inputLost s = false → Completes .inputLoss s (fun t => t = s)) ∧
    (inputLost s = true → (s.power.state = .run → Completes .inputLoss s (fun t => t.power.state = .holdUp ∧ t.power.step = 4 ∧ t.power.switchOpen = true ∧ bit (rd t NETIN_VLINK_STATE) 0 = false ∧
        t.yard = { s.yard with stopped := true } ∧ t.out.slot15 = s.out.slot15 ∧ t.mem = s.mem)) ∧
      (s.power.state = .sequencing → s.power.due = false → Completes .inputLoss s (fun t => PoweredOff 1 s t)) ∧
      (s.power.state = .powerDown → 3 ≤ s.power.step → Completes .inputLoss s (fun t => t = { s with power.switchOpen := true, power.ending := 1 })))) ∧
  (∀ s : State, (s.power.state ≠ .holdUp → Completes .powerFailCommit s (fun t => t = s)) ∧
    (s.power.state = .holdUp → s.power.due = false → nandWhole s = true → (recentCommits s).length < 1024 → Completes .powerFailCommit s (fun t => PoweredOff 1 s t ∧ t.recd.pageSeq = s.recd.pageSeq + 1)))

/-- The start of the default profile. While Foreman is down, while the device does not run, after the profile has started, or during a mode change, nothing happens. Otherwise a profile without sensors on a part without a persisted set is shown as started, with none found; its allocations, pegs, rings, tensors and graphs become objects of the machine, the descriptors are staged, and one mode change applies them at the first boundary of the epoch grid at least 2 ms ahead; nothing that was staged takes effect before. -/
def Obligations.DefaultProfile : Prop :=
  (∀ (s : State) (p : Profile), (s.mb.foremanUp = false ∨ inRun s = false ∨ bit (rd s SILL_PROFILE) 0 = true ∨ s.ridge.phase ≠ .idle → Completes (.defaultProfileStart p) s (fun t => t = s)) ∧
    (s.mb.foremanUp = true → inRun s = true → bit (rd s SILL_PROFILE) 0 = false → s.ridge.phase = .idle → s.sec.fuses.returned = false → s.yard.persisted = none → p.cams = [] → p.scans = [] → p.marks = [] →
      p.streams = [] → p.image = [] → p.graphs = [] → s.memory.allocs = [] → s.scribe.pegs = [] → s.scribe.rings = [] → s.tensors.table = [] → Completes (.defaultProfileStart p) s (fun t =>
        rd t SILL_PROFILE = 1 ∧ t.memory.allocs = tputs p.allocs [] ∧ t.scribe.pegs.map (·.1) = List.range p.pegs ∧ (∀ x ∈ t.scribe.pegs, x.2 = { owner := 0 }) ∧ t.scribe.rings = tputs p.rings [] ∧
        t.tensors.table = tputs p.tensors [] ∧ t.raft.staged = some p.raft ∧ t.tally.stagedDesc = some p.unit ∧ t.raft.live = s.raft.live ∧ t.plan.live = s.plan.live ∧
        t.ridge.phase = .pending ∧ t.ridge.applyAt = boundaryFrom s (s.ridge.ns + 2000000) ∧ t.live = s.live ∧ t.mem = s.mem)))

/-- Every code of every number format is the encoding of its value. For every floating-point format and every code of it that is not a NaN, under either write-out mode, encoding the value of the code gives the code back, and saturates nothing; so does every integer format; a NaN gives the format's canonical NaN, or 0 and flag 19 in an integer format. A code of Q32 other than NaR is the word of its value, and NaR the word of no value. -/
def Obligations.NumberFormats : Prop :=
  (∀ (c eb mb bias mx : Nat), fpParams c = some (eb, mb, bias, mx) → ∀ v, v < 2 ^ (eb + mb + 1) → ∀ sat : Bool,
    (decode c v ≠ .nan → (encodeFp c sat (decode c v)).code = v ∧ (encodeFp c sat (decode c v)).sat = 0) ∧
    (decode c v = .nan → (encodeFp c sat (decode c v)).code = canonNaN c)) ∧
  (∀ (c w : Nat) (signed : Bool), intParams c = some (signed, w) → (∀ v, v < 2 ^ w → (encodeInt c (decode c v)).code = v ∧ (encodeInt c (decode c v)).sat = 0) ∧
    (encodeInt c .nan).code = 0 ∧ (encodeInt c .nan).nti = 1) ∧
  (∀ v, v < 2 ^ 32 → ∀ sat : Bool, (writeQ sat (qVal v)).code = v ∧ (qVal v = none ↔ v = 0x80000000))

/-- Rounding, accumulation, division and write-out of fixed-point numbers. A right shift gives the nearest integer, halves up, and a left shift is exact. A multiply-accumulate step adds the shifted exact product, gives NaR where the product or the sum leaves 72 bits, and stays NaR. A quotient is the nearest multiple of its unit, halves up; a divisor of zero, the root of a negative value and a NaR operand give NaR. A result outside ±(2^31 − 1) leaves as NaR, counted, or under SAT as the largest magnitude with its sign, counted; one inside leaves as its word, and counts nothing. -/
def Obligations.FixedPointArithmetic : Prop :=
  (∀ (a : Int) (k : Nat), (0 < k → (2 * shiftTo a k - 1) * 2 ^ k ≤ 2 * a ∧ 2 * a < (2 * shiftTo a k + 1) * 2 ^ k) ∧ shiftTo a (-(k : Int)) = a * 2 ^ k) ∧
  (∀ (g fa fb a b : Nat), (∀ acc, qVal a = none ∨ qVal b = none ∨ acc = none → qMac g fa fb [a, b] acc = none) ∧
    (∀ x, qVal a = some x → ∀ y, qVal b = some y → ∀ t : Int, let p := shiftTo (x * y) ((fa : Int) + fb - g)
      qMac g fa fb [a, b] (some t) = (if -(2 ^ 71) ≤ p ∧ p < 2 ^ 71 ∧ -(2 ^ 71) ≤ t + p ∧ t + p < 2 ^ 71 then some (t + p) else none)) ∧
    (∀ r acc, qMac g fa fb (a :: b :: r) acc = qMac g fa fb r (qMac g fa fb [a, b] acc))) ∧
  (∀ (fa fb f a b : Nat), (qVal a = none ∨ qVal b = none ∨ qVal b = some 0 → qDiv fa fb f a b = none) ∧
    (∀ x, qVal a = some x → ∀ y, qVal b = some y → y ≠ 0 → ∀ q, qDiv fa fb f a b = some q → (0 < y → (2 * q - 1) * (y * 2 ^ fa) ≤ 2 * (x * 2 ^ (f + fb)) ∧ 2 * (x * 2 ^ (f + fb)) < (2 * q + 1) * (y * 2 ^ fa)) ∧
      (y < 0 → (2 * q - 1) * (-y * 2 ^ fa) ≤ 2 * (-x * 2 ^ (f + fb)) ∧ 2 * (-x * 2 ^ (f + fb)) < (2 * q + 1) * (-y * 2 ^ fa))) ∧
    (∀ x, qVal a = some x → ∀ y, qVal b = some y → y ≠ 0 → (qDiv fa fb f a b).isSome = true) ∧
    (qVal a = none → qSqrt fa f a = none) ∧ (∀ x, qVal a = some x → x < 0 → qSqrt fa f a = none)) ∧
  (∀ (sat : Bool) (i : Int), (-(2 ^ 31) < i → i < 2 ^ 31 → qVal (writeQ sat (some i)).code = some i ∧ (writeQ sat (some i)).nar = 0 ∧ (writeQ sat (some i)).sat = 0) ∧
    (2 ^ 31 ≤ i → (qVal (writeQ true (some i)).code = some (2 ^ 31 - 1) ∧ (writeQ true (some i)).sat = 1) ∧ (writeQ false (some i)).code = 0x80000000 ∧ (writeQ false (some i)).nar = 1) ∧
    (i ≤ -(2 ^ 31) → (qVal (writeQ true (some i)).code = some (-(2 ^ 31 - 1)) ∧ (writeQ true (some i)).sat = 1) ∧ (writeQ false (some i)).code = 0x80000000 ∧ (writeQ false (some i)).nar = 1) ∧
    (writeQ sat none).code = 0x80000000 ∧ (writeQ sat none).nar = 1)

/-- After reset memory is in its canonical form, no fuse is blown, and nothing waits. At State.reset the memory lists nothing and is in canonical form, no fuse is blown and the security counter is 0 (the model's choice of a part, notes/assumptions/1.md), the queue of commands is empty, nothing has left the package, and no free value has been used. -/
def Obligations.ResetMeetsTheInvariants : Prop :=
  Memory.wf State.reset.mem ∧ State.reset.mem = [] ∧ State.reset.sec.fuses = {} ∧ (∀ f : Fuses, FusesKept State.reset.sec.fuses f) ∧ State.reset.pending = [] ∧
    State.reset.emitted = [] ∧ State.reset.free = 0 ∧ step State.reset = .next State.reset

/-- Every step keeps the canonical form of memory. From every state whose memory lists strictly rising addresses and no byte that is 0, whatever command stands at the front of the queue, the next state's memory lists strictly rising addresses and no byte that is 0. -/
def Obligations.MemoryStaysCanonical : Prop :=
  ∀ s t : State, Memory.wf s.mem → step s = .next t → Memory.wf t.mem

/-- No command unblows a fuse. Whatever the state and whatever command stands at the front of the queue, resets and power cycles among them: in the next state every fuse that was blown is blown (the revoked key slots, RETURN_PENDING, RETURNED and key_kill), and the security counter has not fallen. -/
def Obligations.FusesOnlyBlow : Prop :=
  ∀ s t : State, step s = .next t → FusesKept s.sec.fuses t.sec.fuses

/-- Every step answers a next state, takes one command, and takes nothing back. In every state the step answers a next state, whatever the command: the model stops nowhere. In it the queue has lost its front and nothing else, everything that had left the package stays on the record, and no free value is used twice. A run of any length from any state is therefore safe. -/
def Obligations.EveryCommandEnds : Prop :=
  (∀ s : State, ∃ t, step s = .next t ∧ t.pending = s.pending.tail ∧ s.emitted <+: t.emitted ∧ s.free ≤ t.free) ∧ (∀ (k : Nat) (s : State), Safe k s)
end

