-- ==== Sys2Proof/Laws/State.lean ====
section
/-! SUPPORT. The fields of State that each basic update leaves as they were, one lemma per field and update. -/

namespace Sys2Proof.Machine
open Sys2Proof

/-! ### `wr` -/

@[simp] theorem wr_live (r : Reg) (v : Nat) (s : State) : (wr r v s).live = s.live := rfl
@[simp] theorem wr_prevLive (r : Reg) (v : Nat) (s : State) : (wr r v s).prevLive = s.prevLive := rfl
@[simp] theorem wr_latch (r : Reg) (v : Nat) (s : State) : (wr r v s).latch = s.latch := rfl
@[simp] theorem wr_staged (r : Reg) (v : Nat) (s : State) : (wr r v s).staged = s.staged := rfl
@[simp] theorem wr_mem (r : Reg) (v : Nat) (s : State) : (wr r v s).mem = s.mem := rfl
@[simp] theorem wr_poison (r : Reg) (v : Nat) (s : State) : (wr r v s).poison = s.poison := rfl
@[simp] theorem wr_memory (r : Reg) (v : Nat) (s : State) : (wr r v s).memory = s.memory := rfl
@[simp] theorem wr_ridge (r : Reg) (v : Nat) (s : State) : (wr r v s).ridge = s.ridge := rfl
@[simp] theorem wr_scribe (r : Reg) (v : Nat) (s : State) : (wr r v s).scribe = s.scribe := rfl
@[simp] theorem wr_fab (r : Reg) (v : Nat) (s : State) : (wr r v s).fab = s.fab := rfl
@[simp] theorem wr_tensors (r : Reg) (v : Nat) (s : State) : (wr r v s).tensors = s.tensors := rfl
@[simp] theorem wr_out (r : Reg) (v : Nat) (s : State) : (wr r v s).out = s.out := rfl
@[simp] theorem wr_mb (r : Reg) (v : Nat) (s : State) : (wr r v s).mb = s.mb := rfl
@[simp] theorem wr_sec (r : Reg) (v : Nat) (s : State) : (wr r v s).sec = s.sec := rfl
@[simp] theorem wr_kp (r : Reg) (v : Nat) (s : State) : (wr r v s).kp = s.kp := rfl
@[simp] theorem wr_recd (r : Reg) (v : Nat) (s : State) : (wr r v s).recd = s.recd := rfl
@[simp] theorem wr_cam (r : Reg) (v : Nat) (s : State) : (wr r v s).cam = s.cam := rfl
@[simp] theorem wr_net (r : Reg) (v : Nat) (s : State) : (wr r v s).net = s.net := rfl
@[simp] theorem wr_ingest (r : Reg) (v : Nat) (s : State) : (wr r v s).ingest = s.ingest := rfl
@[simp] theorem wr_plan (r : Reg) (v : Nat) (s : State) : (wr r v s).plan = s.plan := rfl
@[simp] theorem wr_raft (r : Reg) (v : Nat) (s : State) : (wr r v s).raft = s.raft := rfl
@[simp] theorem wr_ledger (r : Reg) (v : Nat) (s : State) : (wr r v s).ledger = s.ledger := rfl
@[simp] theorem wr_plumb (r : Reg) (v : Nat) (s : State) : (wr r v s).plumb = s.plumb := rfl
@[simp] theorem wr_tally (r : Reg) (v : Nat) (s : State) : (wr r v s).tally = s.tally := rfl
@[simp] theorem wr_gov (r : Reg) (v : Nat) (s : State) : (wr r v s).gov = s.gov := rfl
@[simp] theorem wr_power (r : Reg) (v : Nat) (s : State) : (wr r v s).power = s.power := rfl
@[simp] theorem wr_fw (r : Reg) (v : Nat) (s : State) : (wr r v s).fw = s.fw := rfl
@[simp] theorem wr_yard (r : Reg) (v : Nat) (s : State) : (wr r v s).yard = s.yard := rfl
@[simp] theorem wr_emitted (r : Reg) (v : Nat) (s : State) : (wr r v s).emitted = s.emitted := rfl
@[simp] theorem wr_free (r : Reg) (v : Nat) (s : State) : (wr r v s).free = s.free := rfl
@[simp] theorem wr_pending (r : Reg) (v : Nat) (s : State) : (wr r v s).pending = s.pending := rfl

/-! ### `setFld` -/

@[simp] theorem setFld_live (r : Reg) (hi lo v : Nat) (s : State) : (setFld r hi lo v s).live = s.live := rfl
@[simp] theorem setFld_prevLive (r : Reg) (hi lo v : Nat) (s : State) : (setFld r hi lo v s).prevLive = s.prevLive := rfl
@[simp] theorem setFld_latch (r : Reg) (hi lo v : Nat) (s : State) : (setFld r hi lo v s).latch = s.latch := rfl
@[simp] theorem setFld_staged (r : Reg) (hi lo v : Nat) (s : State) : (setFld r hi lo v s).staged = s.staged := rfl
@[simp] theorem setFld_mem (r : Reg) (hi lo v : Nat) (s : State) : (setFld r hi lo v s).mem = s.mem := rfl
@[simp] theorem setFld_poison (r : Reg) (hi lo v : Nat) (s : State) : (setFld r hi lo v s).poison = s.poison := rfl
@[simp] theorem setFld_memory (r : Reg) (hi lo v : Nat) (s : State) : (setFld r hi lo v s).memory = s.memory := rfl
@[simp] theorem setFld_ridge (r : Reg) (hi lo v : Nat) (s : State) : (setFld r hi lo v s).ridge = s.ridge := rfl
@[simp] theorem setFld_scribe (r : Reg) (hi lo v : Nat) (s : State) : (setFld r hi lo v s).scribe = s.scribe := rfl
@[simp] theorem setFld_fab (r : Reg) (hi lo v : Nat) (s : State) : (setFld r hi lo v s).fab = s.fab := rfl
@[simp] theorem setFld_tensors (r : Reg) (hi lo v : Nat) (s : State) : (setFld r hi lo v s).tensors = s.tensors := rfl
@[simp] theorem setFld_out (r : Reg) (hi lo v : Nat) (s : State) : (setFld r hi lo v s).out = s.out := rfl
@[simp] theorem setFld_mb (r : Reg) (hi lo v : Nat) (s : State) : (setFld r hi lo v s).mb = s.mb := rfl
@[simp] theorem setFld_sec (r : Reg) (hi lo v : Nat) (s : State) : (setFld r hi lo v s).sec = s.sec := rfl
@[simp] theorem setFld_kp (r : Reg) (hi lo v : Nat) (s : State) : (setFld r hi lo v s).kp = s.kp := rfl
@[simp] theorem setFld_recd (r : Reg) (hi lo v : Nat) (s : State) : (setFld r hi lo v s).recd = s.recd := rfl
@[simp] theorem setFld_cam (r : Reg) (hi lo v : Nat) (s : State) : (setFld r hi lo v s).cam = s.cam := rfl
@[simp] theorem setFld_net (r : Reg) (hi lo v : Nat) (s : State) : (setFld r hi lo v s).net = s.net := rfl
@[simp] theorem setFld_ingest (r : Reg) (hi lo v : Nat) (s : State) : (setFld r hi lo v s).ingest = s.ingest := rfl
@[simp] theorem setFld_plan (r : Reg) (hi lo v : Nat) (s : State) : (setFld r hi lo v s).plan = s.plan := rfl
@[simp] theorem setFld_raft (r : Reg) (hi lo v : Nat) (s : State) : (setFld r hi lo v s).raft = s.raft := rfl
@[simp] theorem setFld_ledger (r : Reg) (hi lo v : Nat) (s : State) : (setFld r hi lo v s).ledger = s.ledger := rfl
@[simp] theorem setFld_plumb (r : Reg) (hi lo v : Nat) (s : State) : (setFld r hi lo v s).plumb = s.plumb := rfl
@[simp] theorem setFld_tally (r : Reg) (hi lo v : Nat) (s : State) : (setFld r hi lo v s).tally = s.tally := rfl
@[simp] theorem setFld_gov (r : Reg) (hi lo v : Nat) (s : State) : (setFld r hi lo v s).gov = s.gov := rfl
@[simp] theorem setFld_power (r : Reg) (hi lo v : Nat) (s : State) : (setFld r hi lo v s).power = s.power := rfl
@[simp] theorem setFld_fw (r : Reg) (hi lo v : Nat) (s : State) : (setFld r hi lo v s).fw = s.fw := rfl
@[simp] theorem setFld_yard (r : Reg) (hi lo v : Nat) (s : State) : (setFld r hi lo v s).yard = s.yard := rfl
@[simp] theorem setFld_emitted (r : Reg) (hi lo v : Nat) (s : State) : (setFld r hi lo v s).emitted = s.emitted := rfl
@[simp] theorem setFld_free (r : Reg) (hi lo v : Nat) (s : State) : (setFld r hi lo v s).free = s.free := rfl
@[simp] theorem setFld_pending (r : Reg) (hi lo v : Nat) (s : State) : (setFld r hi lo v s).pending = s.pending := rfl

/-! ### `incFld` -/

@[simp] theorem incFld_live (r : Reg) (hi lo n : Nat) (s : State) : (incFld r hi lo n s).live = s.live := rfl
@[simp] theorem incFld_prevLive (r : Reg) (hi lo n : Nat) (s : State) : (incFld r hi lo n s).prevLive = s.prevLive := rfl
@[simp] theorem incFld_latch (r : Reg) (hi lo n : Nat) (s : State) : (incFld r hi lo n s).latch = s.latch := rfl
@[simp] theorem incFld_staged (r : Reg) (hi lo n : Nat) (s : State) : (incFld r hi lo n s).staged = s.staged := rfl
@[simp] theorem incFld_mem (r : Reg) (hi lo n : Nat) (s : State) : (incFld r hi lo n s).mem = s.mem := rfl
@[simp] theorem incFld_poison (r : Reg) (hi lo n : Nat) (s : State) : (incFld r hi lo n s).poison = s.poison := rfl
@[simp] theorem incFld_memory (r : Reg) (hi lo n : Nat) (s : State) : (incFld r hi lo n s).memory = s.memory := rfl
@[simp] theorem incFld_ridge (r : Reg) (hi lo n : Nat) (s : State) : (incFld r hi lo n s).ridge = s.ridge := rfl
@[simp] theorem incFld_scribe (r : Reg) (hi lo n : Nat) (s : State) : (incFld r hi lo n s).scribe = s.scribe := rfl
@[simp] theorem incFld_fab (r : Reg) (hi lo n : Nat) (s : State) : (incFld r hi lo n s).fab = s.fab := rfl
@[simp] theorem incFld_tensors (r : Reg) (hi lo n : Nat) (s : State) : (incFld r hi lo n s).tensors = s.tensors := rfl
@[simp] theorem incFld_out (r : Reg) (hi lo n : Nat) (s : State) : (incFld r hi lo n s).out = s.out := rfl
@[simp] theorem incFld_mb (r : Reg) (hi lo n : Nat) (s : State) : (incFld r hi lo n s).mb = s.mb := rfl
@[simp] theorem incFld_sec (r : Reg) (hi lo n : Nat) (s : State) : (incFld r hi lo n s).sec = s.sec := rfl
@[simp] theorem incFld_kp (r : Reg) (hi lo n : Nat) (s : State) : (incFld r hi lo n s).kp = s.kp := rfl
@[simp] theorem incFld_recd (r : Reg) (hi lo n : Nat) (s : State) : (incFld r hi lo n s).recd = s.recd := rfl
@[simp] theorem incFld_cam (r : Reg) (hi lo n : Nat) (s : State) : (incFld r hi lo n s).cam = s.cam := rfl
@[simp] theorem incFld_net (r : Reg) (hi lo n : Nat) (s : State) : (incFld r hi lo n s).net = s.net := rfl
@[simp] theorem incFld_ingest (r : Reg) (hi lo n : Nat) (s : State) : (incFld r hi lo n s).ingest = s.ingest := rfl
@[simp] theorem incFld_plan (r : Reg) (hi lo n : Nat) (s : State) : (incFld r hi lo n s).plan = s.plan := rfl
@[simp] theorem incFld_raft (r : Reg) (hi lo n : Nat) (s : State) : (incFld r hi lo n s).raft = s.raft := rfl
@[simp] theorem incFld_ledger (r : Reg) (hi lo n : Nat) (s : State) : (incFld r hi lo n s).ledger = s.ledger := rfl
@[simp] theorem incFld_plumb (r : Reg) (hi lo n : Nat) (s : State) : (incFld r hi lo n s).plumb = s.plumb := rfl
@[simp] theorem incFld_tally (r : Reg) (hi lo n : Nat) (s : State) : (incFld r hi lo n s).tally = s.tally := rfl
@[simp] theorem incFld_gov (r : Reg) (hi lo n : Nat) (s : State) : (incFld r hi lo n s).gov = s.gov := rfl
@[simp] theorem incFld_power (r : Reg) (hi lo n : Nat) (s : State) : (incFld r hi lo n s).power = s.power := rfl
@[simp] theorem incFld_fw (r : Reg) (hi lo n : Nat) (s : State) : (incFld r hi lo n s).fw = s.fw := rfl
@[simp] theorem incFld_yard (r : Reg) (hi lo n : Nat) (s : State) : (incFld r hi lo n s).yard = s.yard := rfl
@[simp] theorem incFld_emitted (r : Reg) (hi lo n : Nat) (s : State) : (incFld r hi lo n s).emitted = s.emitted := rfl
@[simp] theorem incFld_free (r : Reg) (hi lo n : Nat) (s : State) : (incFld r hi lo n s).free = s.free := rfl
@[simp] theorem incFld_pending (r : Reg) (hi lo n : Nat) (s : State) : (incFld r hi lo n s).pending = s.pending := rfl

/-! ### `inc` -/

@[simp] theorem inc_live (r : Reg) (s : State) : (inc r s).live = s.live := rfl
@[simp] theorem inc_prevLive (r : Reg) (s : State) : (inc r s).prevLive = s.prevLive := rfl
@[simp] theorem inc_latch (r : Reg) (s : State) : (inc r s).latch = s.latch := rfl
@[simp] theorem inc_staged (r : Reg) (s : State) : (inc r s).staged = s.staged := rfl
@[simp] theorem inc_mem (r : Reg) (s : State) : (inc r s).mem = s.mem := rfl
@[simp] theorem inc_poison (r : Reg) (s : State) : (inc r s).poison = s.poison := rfl
@[simp] theorem inc_memory (r : Reg) (s : State) : (inc r s).memory = s.memory := rfl
@[simp] theorem inc_ridge (r : Reg) (s : State) : (inc r s).ridge = s.ridge := rfl
@[simp] theorem inc_scribe (r : Reg) (s : State) : (inc r s).scribe = s.scribe := rfl
@[simp] theorem inc_fab (r : Reg) (s : State) : (inc r s).fab = s.fab := rfl
@[simp] theorem inc_tensors (r : Reg) (s : State) : (inc r s).tensors = s.tensors := rfl
@[simp] theorem inc_out (r : Reg) (s : State) : (inc r s).out = s.out := rfl
@[simp] theorem inc_mb (r : Reg) (s : State) : (inc r s).mb = s.mb := rfl
@[simp] theorem inc_sec (r : Reg) (s : State) : (inc r s).sec = s.sec := rfl
@[simp] theorem inc_kp (r : Reg) (s : State) : (inc r s).kp = s.kp := rfl
@[simp] theorem inc_recd (r : Reg) (s : State) : (inc r s).recd = s.recd := rfl
@[simp] theorem inc_cam (r : Reg) (s : State) : (inc r s).cam = s.cam := rfl
@[simp] theorem inc_net (r : Reg) (s : State) : (inc r s).net = s.net := rfl
@[simp] theorem inc_ingest (r : Reg) (s : State) : (inc r s).ingest = s.ingest := rfl
@[simp] theorem inc_plan (r : Reg) (s : State) : (inc r s).plan = s.plan := rfl
@[simp] theorem inc_raft (r : Reg) (s : State) : (inc r s).raft = s.raft := rfl
@[simp] theorem inc_ledger (r : Reg) (s : State) : (inc r s).ledger = s.ledger := rfl
@[simp] theorem inc_plumb (r : Reg) (s : State) : (inc r s).plumb = s.plumb := rfl
@[simp] theorem inc_tally (r : Reg) (s : State) : (inc r s).tally = s.tally := rfl
@[simp] theorem inc_gov (r : Reg) (s : State) : (inc r s).gov = s.gov := rfl
@[simp] theorem inc_power (r : Reg) (s : State) : (inc r s).power = s.power := rfl
@[simp] theorem inc_fw (r : Reg) (s : State) : (inc r s).fw = s.fw := rfl
@[simp] theorem inc_yard (r : Reg) (s : State) : (inc r s).yard = s.yard := rfl
@[simp] theorem inc_emitted (r : Reg) (s : State) : (inc r s).emitted = s.emitted := rfl
@[simp] theorem inc_free (r : Reg) (s : State) : (inc r s).free = s.free := rfl
@[simp] theorem inc_pending (r : Reg) (s : State) : (inc r s).pending = s.pending := rfl

/-! ### `setMask` -/

@[simp] theorem setMask_live (r : Reg) (m : Nat) (s : State) : (setMask r m s).live = s.live := rfl
@[simp] theorem setMask_prevLive (r : Reg) (m : Nat) (s : State) : (setMask r m s).prevLive = s.prevLive := rfl
@[simp] theorem setMask_latch (r : Reg) (m : Nat) (s : State) : (setMask r m s).latch = s.latch := rfl
@[simp] theorem setMask_staged (r : Reg) (m : Nat) (s : State) : (setMask r m s).staged = s.staged := rfl
@[simp] theorem setMask_mem (r : Reg) (m : Nat) (s : State) : (setMask r m s).mem = s.mem := rfl
@[simp] theorem setMask_poison (r : Reg) (m : Nat) (s : State) : (setMask r m s).poison = s.poison := rfl
@[simp] theorem setMask_memory (r : Reg) (m : Nat) (s : State) : (setMask r m s).memory = s.memory := rfl
@[simp] theorem setMask_ridge (r : Reg) (m : Nat) (s : State) : (setMask r m s).ridge = s.ridge := rfl
@[simp] theorem setMask_scribe (r : Reg) (m : Nat) (s : State) : (setMask r m s).scribe = s.scribe := rfl
@[simp] theorem setMask_fab (r : Reg) (m : Nat) (s : State) : (setMask r m s).fab = s.fab := rfl
@[simp] theorem setMask_tensors (r : Reg) (m : Nat) (s : State) : (setMask r m s).tensors = s.tensors := rfl
@[simp] theorem setMask_out (r : Reg) (m : Nat) (s : State) : (setMask r m s).out = s.out := rfl
@[simp] theorem setMask_mb (r : Reg) (m : Nat) (s : State) : (setMask r m s).mb = s.mb := rfl
@[simp] theorem setMask_sec (r : Reg) (m : Nat) (s : State) : (setMask r m s).sec = s.sec := rfl
@[simp] theorem setMask_kp (r : Reg) (m : Nat) (s : State) : (setMask r m s).kp = s.kp := rfl
@[simp] theorem setMask_recd (r : Reg) (m : Nat) (s : State) : (setMask r m s).recd = s.recd := rfl
@[simp] theorem setMask_cam (r : Reg) (m : Nat) (s : State) : (setMask r m s).cam = s.cam := rfl
@[simp] theorem setMask_net (r : Reg) (m : Nat) (s : State) : (setMask r m s).net = s.net := rfl
@[simp] theorem setMask_ingest (r : Reg) (m : Nat) (s : State) : (setMask r m s).ingest = s.ingest := rfl
@[simp] theorem setMask_plan (r : Reg) (m : Nat) (s : State) : (setMask r m s).plan = s.plan := rfl
@[simp] theorem setMask_raft (r : Reg) (m : Nat) (s : State) : (setMask r m s).raft = s.raft := rfl
@[simp] theorem setMask_ledger (r : Reg) (m : Nat) (s : State) : (setMask r m s).ledger = s.ledger := rfl
@[simp] theorem setMask_plumb (r : Reg) (m : Nat) (s : State) : (setMask r m s).plumb = s.plumb := rfl
@[simp] theorem setMask_tally (r : Reg) (m : Nat) (s : State) : (setMask r m s).tally = s.tally := rfl
@[simp] theorem setMask_gov (r : Reg) (m : Nat) (s : State) : (setMask r m s).gov = s.gov := rfl
@[simp] theorem setMask_power (r : Reg) (m : Nat) (s : State) : (setMask r m s).power = s.power := rfl
@[simp] theorem setMask_fw (r : Reg) (m : Nat) (s : State) : (setMask r m s).fw = s.fw := rfl
@[simp] theorem setMask_yard (r : Reg) (m : Nat) (s : State) : (setMask r m s).yard = s.yard := rfl
@[simp] theorem setMask_emitted (r : Reg) (m : Nat) (s : State) : (setMask r m s).emitted = s.emitted := rfl
@[simp] theorem setMask_free (r : Reg) (m : Nat) (s : State) : (setMask r m s).free = s.free := rfl
@[simp] theorem setMask_pending (r : Reg) (m : Nat) (s : State) : (setMask r m s).pending = s.pending := rfl

/-! ### `clearMask` -/

@[simp] theorem clearMask_live (r : Reg) (m : Nat) (s : State) : (clearMask r m s).live = s.live := rfl
@[simp] theorem clearMask_prevLive (r : Reg) (m : Nat) (s : State) : (clearMask r m s).prevLive = s.prevLive := rfl
@[simp] theorem clearMask_latch (r : Reg) (m : Nat) (s : State) : (clearMask r m s).latch = s.latch := rfl
@[simp] theorem clearMask_staged (r : Reg) (m : Nat) (s : State) : (clearMask r m s).staged = s.staged := rfl
@[simp] theorem clearMask_mem (r : Reg) (m : Nat) (s : State) : (clearMask r m s).mem = s.mem := rfl
@[simp] theorem clearMask_poison (r : Reg) (m : Nat) (s : State) : (clearMask r m s).poison = s.poison := rfl
@[simp] theorem clearMask_memory (r : Reg) (m : Nat) (s : State) : (clearMask r m s).memory = s.memory := rfl
@[simp] theorem clearMask_ridge (r : Reg) (m : Nat) (s : State) : (clearMask r m s).ridge = s.ridge := rfl
@[simp] theorem clearMask_scribe (r : Reg) (m : Nat) (s : State) : (clearMask r m s).scribe = s.scribe := rfl
@[simp] theorem clearMask_fab (r : Reg) (m : Nat) (s : State) : (clearMask r m s).fab = s.fab := rfl
@[simp] theorem clearMask_tensors (r : Reg) (m : Nat) (s : State) : (clearMask r m s).tensors = s.tensors := rfl
@[simp] theorem clearMask_out (r : Reg) (m : Nat) (s : State) : (clearMask r m s).out = s.out := rfl
@[simp] theorem clearMask_mb (r : Reg) (m : Nat) (s : State) : (clearMask r m s).mb = s.mb := rfl
@[simp] theorem clearMask_sec (r : Reg) (m : Nat) (s : State) : (clearMask r m s).sec = s.sec := rfl
@[simp] theorem clearMask_kp (r : Reg) (m : Nat) (s : State) : (clearMask r m s).kp = s.kp := rfl
@[simp] theorem clearMask_recd (r : Reg) (m : Nat) (s : State) : (clearMask r m s).recd = s.recd := rfl
@[simp] theorem clearMask_cam (r : Reg) (m : Nat) (s : State) : (clearMask r m s).cam = s.cam := rfl
@[simp] theorem clearMask_net (r : Reg) (m : Nat) (s : State) : (clearMask r m s).net = s.net := rfl
@[simp] theorem clearMask_ingest (r : Reg) (m : Nat) (s : State) : (clearMask r m s).ingest = s.ingest := rfl
@[simp] theorem clearMask_plan (r : Reg) (m : Nat) (s : State) : (clearMask r m s).plan = s.plan := rfl
@[simp] theorem clearMask_raft (r : Reg) (m : Nat) (s : State) : (clearMask r m s).raft = s.raft := rfl
@[simp] theorem clearMask_ledger (r : Reg) (m : Nat) (s : State) : (clearMask r m s).ledger = s.ledger := rfl
@[simp] theorem clearMask_plumb (r : Reg) (m : Nat) (s : State) : (clearMask r m s).plumb = s.plumb := rfl
@[simp] theorem clearMask_tally (r : Reg) (m : Nat) (s : State) : (clearMask r m s).tally = s.tally := rfl
@[simp] theorem clearMask_gov (r : Reg) (m : Nat) (s : State) : (clearMask r m s).gov = s.gov := rfl
@[simp] theorem clearMask_power (r : Reg) (m : Nat) (s : State) : (clearMask r m s).power = s.power := rfl
@[simp] theorem clearMask_fw (r : Reg) (m : Nat) (s : State) : (clearMask r m s).fw = s.fw := rfl
@[simp] theorem clearMask_yard (r : Reg) (m : Nat) (s : State) : (clearMask r m s).yard = s.yard := rfl
@[simp] theorem clearMask_emitted (r : Reg) (m : Nat) (s : State) : (clearMask r m s).emitted = s.emitted := rfl
@[simp] theorem clearMask_free (r : Reg) (m : Nat) (s : State) : (clearMask r m s).free = s.free := rfl
@[simp] theorem clearMask_pending (r : Reg) (m : Nat) (s : State) : (clearMask r m s).pending = s.pending := rfl

/-! ### `wr64` -/

@[simp] theorem wr64_live (lo hi : Reg) (v : Nat) (s : State) : (wr64 lo hi v s).live = s.live := rfl
@[simp] theorem wr64_prevLive (lo hi : Reg) (v : Nat) (s : State) : (wr64 lo hi v s).prevLive = s.prevLive := rfl
@[simp] theorem wr64_latch (lo hi : Reg) (v : Nat) (s : State) : (wr64 lo hi v s).latch = s.latch := rfl
@[simp] theorem wr64_staged (lo hi : Reg) (v : Nat) (s : State) : (wr64 lo hi v s).staged = s.staged := rfl
@[simp] theorem wr64_mem (lo hi : Reg) (v : Nat) (s : State) : (wr64 lo hi v s).mem = s.mem := rfl
@[simp] theorem wr64_poison (lo hi : Reg) (v : Nat) (s : State) : (wr64 lo hi v s).poison = s.poison := rfl
@[simp] theorem wr64_memory (lo hi : Reg) (v : Nat) (s : State) : (wr64 lo hi v s).memory = s.memory := rfl
@[simp] theorem wr64_ridge (lo hi : Reg) (v : Nat) (s : State) : (wr64 lo hi v s).ridge = s.ridge := rfl
@[simp] theorem wr64_scribe (lo hi : Reg) (v : Nat) (s : State) : (wr64 lo hi v s).scribe = s.scribe := rfl
@[simp] theorem wr64_fab (lo hi : Reg) (v : Nat) (s : State) : (wr64 lo hi v s).fab = s.fab := rfl
@[simp] theorem wr64_tensors (lo hi : Reg) (v : Nat) (s : State) : (wr64 lo hi v s).tensors = s.tensors := rfl
@[simp] theorem wr64_out (lo hi : Reg) (v : Nat) (s : State) : (wr64 lo hi v s).out = s.out := rfl
@[simp] theorem wr64_mb (lo hi : Reg) (v : Nat) (s : State) : (wr64 lo hi v s).mb = s.mb := rfl
@[simp] theorem wr64_sec (lo hi : Reg) (v : Nat) (s : State) : (wr64 lo hi v s).sec = s.sec := rfl
@[simp] theorem wr64_kp (lo hi : Reg) (v : Nat) (s : State) : (wr64 lo hi v s).kp = s.kp := rfl
@[simp] theorem wr64_recd (lo hi : Reg) (v : Nat) (s : State) : (wr64 lo hi v s).recd = s.recd := rfl
@[simp] theorem wr64_cam (lo hi : Reg) (v : Nat) (s : State) : (wr64 lo hi v s).cam = s.cam := rfl
@[simp] theorem wr64_net (lo hi : Reg) (v : Nat) (s : State) : (wr64 lo hi v s).net = s.net := rfl
@[simp] theorem wr64_ingest (lo hi : Reg) (v : Nat) (s : State) : (wr64 lo hi v s).ingest = s.ingest := rfl
@[simp] theorem wr64_plan (lo hi : Reg) (v : Nat) (s : State) : (wr64 lo hi v s).plan = s.plan := rfl
@[simp] theorem wr64_raft (lo hi : Reg) (v : Nat) (s : State) : (wr64 lo hi v s).raft = s.raft := rfl
@[simp] theorem wr64_ledger (lo hi : Reg) (v : Nat) (s : State) : (wr64 lo hi v s).ledger = s.ledger := rfl
@[simp] theorem wr64_plumb (lo hi : Reg) (v : Nat) (s : State) : (wr64 lo hi v s).plumb = s.plumb := rfl
@[simp] theorem wr64_tally (lo hi : Reg) (v : Nat) (s : State) : (wr64 lo hi v s).tally = s.tally := rfl
@[simp] theorem wr64_gov (lo hi : Reg) (v : Nat) (s : State) : (wr64 lo hi v s).gov = s.gov := rfl
@[simp] theorem wr64_power (lo hi : Reg) (v : Nat) (s : State) : (wr64 lo hi v s).power = s.power := rfl
@[simp] theorem wr64_fw (lo hi : Reg) (v : Nat) (s : State) : (wr64 lo hi v s).fw = s.fw := rfl
@[simp] theorem wr64_yard (lo hi : Reg) (v : Nat) (s : State) : (wr64 lo hi v s).yard = s.yard := rfl
@[simp] theorem wr64_emitted (lo hi : Reg) (v : Nat) (s : State) : (wr64 lo hi v s).emitted = s.emitted := rfl
@[simp] theorem wr64_free (lo hi : Reg) (v : Nat) (s : State) : (wr64 lo hi v s).free = s.free := rfl
@[simp] theorem wr64_pending (lo hi : Reg) (v : Nat) (s : State) : (wr64 lo hi v s).pending = s.pending := rfl

/-! ### `setLive` -/

@[simp] theorem setLive_regs (r : Reg) (v : Nat) (s : State) : (setLive r v s).regs = s.regs := rfl
@[simp] theorem setLive_prevLive (r : Reg) (v : Nat) (s : State) : (setLive r v s).prevLive = s.prevLive := rfl
@[simp] theorem setLive_latch (r : Reg) (v : Nat) (s : State) : (setLive r v s).latch = s.latch := rfl
@[simp] theorem setLive_staged (r : Reg) (v : Nat) (s : State) : (setLive r v s).staged = s.staged := rfl
@[simp] theorem setLive_mem (r : Reg) (v : Nat) (s : State) : (setLive r v s).mem = s.mem := rfl
@[simp] theorem setLive_poison (r : Reg) (v : Nat) (s : State) : (setLive r v s).poison = s.poison := rfl
@[simp] theorem setLive_memory (r : Reg) (v : Nat) (s : State) : (setLive r v s).memory = s.memory := rfl
@[simp] theorem setLive_ridge (r : Reg) (v : Nat) (s : State) : (setLive r v s).ridge = s.ridge := rfl
@[simp] theorem setLive_scribe (r : Reg) (v : Nat) (s : State) : (setLive r v s).scribe = s.scribe := rfl
@[simp] theorem setLive_fab (r : Reg) (v : Nat) (s : State) : (setLive r v s).fab = s.fab := rfl
@[simp] theorem setLive_tensors (r : Reg) (v : Nat) (s : State) : (setLive r v s).tensors = s.tensors := rfl
@[simp] theorem setLive_out (r : Reg) (v : Nat) (s : State) : (setLive r v s).out = s.out := rfl
@[simp] theorem setLive_mb (r : Reg) (v : Nat) (s : State) : (setLive r v s).mb = s.mb := rfl
@[simp] theorem setLive_sec (r : Reg) (v : Nat) (s : State) : (setLive r v s).sec = s.sec := rfl
@[simp] theorem setLive_kp (r : Reg) (v : Nat) (s : State) : (setLive r v s).kp = s.kp := rfl
@[simp] theorem setLive_recd (r : Reg) (v : Nat) (s : State) : (setLive r v s).recd = s.recd := rfl
@[simp] theorem setLive_cam (r : Reg) (v : Nat) (s : State) : (setLive r v s).cam = s.cam := rfl
@[simp] theorem setLive_net (r : Reg) (v : Nat) (s : State) : (setLive r v s).net = s.net := rfl
@[simp] theorem setLive_ingest (r : Reg) (v : Nat) (s : State) : (setLive r v s).ingest = s.ingest := rfl
@[simp] theorem setLive_plan (r : Reg) (v : Nat) (s : State) : (setLive r v s).plan = s.plan := rfl
@[simp] theorem setLive_raft (r : Reg) (v : Nat) (s : State) : (setLive r v s).raft = s.raft := rfl
@[simp] theorem setLive_ledger (r : Reg) (v : Nat) (s : State) : (setLive r v s).ledger = s.ledger := rfl
@[simp] theorem setLive_plumb (r : Reg) (v : Nat) (s : State) : (setLive r v s).plumb = s.plumb := rfl
@[simp] theorem setLive_tally (r : Reg) (v : Nat) (s : State) : (setLive r v s).tally = s.tally := rfl
@[simp] theorem setLive_gov (r : Reg) (v : Nat) (s : State) : (setLive r v s).gov = s.gov := rfl
@[simp] theorem setLive_power (r : Reg) (v : Nat) (s : State) : (setLive r v s).power = s.power := rfl
@[simp] theorem setLive_fw (r : Reg) (v : Nat) (s : State) : (setLive r v s).fw = s.fw := rfl
@[simp] theorem setLive_yard (r : Reg) (v : Nat) (s : State) : (setLive r v s).yard = s.yard := rfl
@[simp] theorem setLive_emitted (r : Reg) (v : Nat) (s : State) : (setLive r v s).emitted = s.emitted := rfl
@[simp] theorem setLive_free (r : Reg) (v : Nat) (s : State) : (setLive r v s).free = s.free := rfl
@[simp] theorem setLive_pending (r : Reg) (v : Nat) (s : State) : (setLive r v s).pending = s.pending := rfl

/-! ### `emit` -/

@[simp] theorem emit_regs (e : Emission) (s : State) : (emit e s).regs = s.regs := rfl
@[simp] theorem emit_live (e : Emission) (s : State) : (emit e s).live = s.live := rfl
@[simp] theorem emit_prevLive (e : Emission) (s : State) : (emit e s).prevLive = s.prevLive := rfl
@[simp] theorem emit_latch (e : Emission) (s : State) : (emit e s).latch = s.latch := rfl
@[simp] theorem emit_staged (e : Emission) (s : State) : (emit e s).staged = s.staged := rfl
@[simp] theorem emit_mem (e : Emission) (s : State) : (emit e s).mem = s.mem := rfl
@[simp] theorem emit_poison (e : Emission) (s : State) : (emit e s).poison = s.poison := rfl
@[simp] theorem emit_memory (e : Emission) (s : State) : (emit e s).memory = s.memory := rfl
@[simp] theorem emit_ridge (e : Emission) (s : State) : (emit e s).ridge = s.ridge := rfl
@[simp] theorem emit_scribe (e : Emission) (s : State) : (emit e s).scribe = s.scribe := rfl
@[simp] theorem emit_fab (e : Emission) (s : State) : (emit e s).fab = s.fab := rfl
@[simp] theorem emit_tensors (e : Emission) (s : State) : (emit e s).tensors = s.tensors := rfl
@[simp] theorem emit_out (e : Emission) (s : State) : (emit e s).out = s.out := rfl
@[simp] theorem emit_mb (e : Emission) (s : State) : (emit e s).mb = s.mb := rfl
@[simp] theorem emit_sec (e : Emission) (s : State) : (emit e s).sec = s.sec := rfl
@[simp] theorem emit_kp (e : Emission) (s : State) : (emit e s).kp = s.kp := rfl
@[simp] theorem emit_recd (e : Emission) (s : State) : (emit e s).recd = s.recd := rfl
@[simp] theorem emit_cam (e : Emission) (s : State) : (emit e s).cam = s.cam := rfl
@[simp] theorem emit_net (e : Emission) (s : State) : (emit e s).net = s.net := rfl
@[simp] theorem emit_ingest (e : Emission) (s : State) : (emit e s).ingest = s.ingest := rfl
@[simp] theorem emit_plan (e : Emission) (s : State) : (emit e s).plan = s.plan := rfl
@[simp] theorem emit_raft (e : Emission) (s : State) : (emit e s).raft = s.raft := rfl
@[simp] theorem emit_ledger (e : Emission) (s : State) : (emit e s).ledger = s.ledger := rfl
@[simp] theorem emit_plumb (e : Emission) (s : State) : (emit e s).plumb = s.plumb := rfl
@[simp] theorem emit_tally (e : Emission) (s : State) : (emit e s).tally = s.tally := rfl
@[simp] theorem emit_gov (e : Emission) (s : State) : (emit e s).gov = s.gov := rfl
@[simp] theorem emit_power (e : Emission) (s : State) : (emit e s).power = s.power := rfl
@[simp] theorem emit_fw (e : Emission) (s : State) : (emit e s).fw = s.fw := rfl
@[simp] theorem emit_yard (e : Emission) (s : State) : (emit e s).yard = s.yard := rfl
@[simp] theorem emit_free (e : Emission) (s : State) : (emit e s).free = s.free := rfl
@[simp] theorem emit_pending (e : Emission) (s : State) : (emit e s).pending = s.pending := rfl

/-! ### `takeFree` -/

@[simp] theorem takeFree_regs (n : Nat) (s : State) : (takeFree n s).regs = s.regs := rfl
@[simp] theorem takeFree_live (n : Nat) (s : State) : (takeFree n s).live = s.live := rfl
@[simp] theorem takeFree_prevLive (n : Nat) (s : State) : (takeFree n s).prevLive = s.prevLive := rfl
@[simp] theorem takeFree_latch (n : Nat) (s : State) : (takeFree n s).latch = s.latch := rfl
@[simp] theorem takeFree_staged (n : Nat) (s : State) : (takeFree n s).staged = s.staged := rfl
@[simp] theorem takeFree_mem (n : Nat) (s : State) : (takeFree n s).mem = s.mem := rfl
@[simp] theorem takeFree_poison (n : Nat) (s : State) : (takeFree n s).poison = s.poison := rfl
@[simp] theorem takeFree_memory (n : Nat) (s : State) : (takeFree n s).memory = s.memory := rfl
@[simp] theorem takeFree_ridge (n : Nat) (s : State) : (takeFree n s).ridge = s.ridge := rfl
@[simp] theorem takeFree_scribe (n : Nat) (s : State) : (takeFree n s).scribe = s.scribe := rfl
@[simp] theorem takeFree_fab (n : Nat) (s : State) : (takeFree n s).fab = s.fab := rfl
@[simp] theorem takeFree_tensors (n : Nat) (s : State) : (takeFree n s).tensors = s.tensors := rfl
@[simp] theorem takeFree_out (n : Nat) (s : State) : (takeFree n s).out = s.out := rfl
@[simp] theorem takeFree_mb (n : Nat) (s : State) : (takeFree n s).mb = s.mb := rfl
@[simp] theorem takeFree_sec (n : Nat) (s : State) : (takeFree n s).sec = s.sec := rfl
@[simp] theorem takeFree_kp (n : Nat) (s : State) : (takeFree n s).kp = s.kp := rfl
@[simp] theorem takeFree_recd (n : Nat) (s : State) : (takeFree n s).recd = s.recd := rfl
@[simp] theorem takeFree_cam (n : Nat) (s : State) : (takeFree n s).cam = s.cam := rfl
@[simp] theorem takeFree_net (n : Nat) (s : State) : (takeFree n s).net = s.net := rfl
@[simp] theorem takeFree_ingest (n : Nat) (s : State) : (takeFree n s).ingest = s.ingest := rfl
@[simp] theorem takeFree_plan (n : Nat) (s : State) : (takeFree n s).plan = s.plan := rfl
@[simp] theorem takeFree_raft (n : Nat) (s : State) : (takeFree n s).raft = s.raft := rfl
@[simp] theorem takeFree_ledger (n : Nat) (s : State) : (takeFree n s).ledger = s.ledger := rfl
@[simp] theorem takeFree_plumb (n : Nat) (s : State) : (takeFree n s).plumb = s.plumb := rfl
@[simp] theorem takeFree_tally (n : Nat) (s : State) : (takeFree n s).tally = s.tally := rfl
@[simp] theorem takeFree_gov (n : Nat) (s : State) : (takeFree n s).gov = s.gov := rfl
@[simp] theorem takeFree_power (n : Nat) (s : State) : (takeFree n s).power = s.power := rfl
@[simp] theorem takeFree_fw (n : Nat) (s : State) : (takeFree n s).fw = s.fw := rfl
@[simp] theorem takeFree_yard (n : Nat) (s : State) : (takeFree n s).yard = s.yard := rfl
@[simp] theorem takeFree_emitted (n : Nat) (s : State) : (takeFree n s).emitted = s.emitted := rfl
@[simp] theorem takeFree_pending (n : Nat) (s : State) : (takeFree n s).pending = s.pending := rfl

/-! ### `writeMem` -/

@[simp] theorem writeMem_regs (w : MemWrite) (s : State) : (writeMem w s).regs = s.regs := rfl
@[simp] theorem writeMem_live (w : MemWrite) (s : State) : (writeMem w s).live = s.live := rfl
@[simp] theorem writeMem_prevLive (w : MemWrite) (s : State) : (writeMem w s).prevLive = s.prevLive := rfl
@[simp] theorem writeMem_latch (w : MemWrite) (s : State) : (writeMem w s).latch = s.latch := rfl
@[simp] theorem writeMem_staged (w : MemWrite) (s : State) : (writeMem w s).staged = s.staged := rfl
@[simp] theorem writeMem_memory (w : MemWrite) (s : State) : (writeMem w s).memory = s.memory := rfl
@[simp] theorem writeMem_ridge (w : MemWrite) (s : State) : (writeMem w s).ridge = s.ridge := rfl
@[simp] theorem writeMem_scribe (w : MemWrite) (s : State) : (writeMem w s).scribe = s.scribe := rfl
@[simp] theorem writeMem_fab (w : MemWrite) (s : State) : (writeMem w s).fab = s.fab := rfl
@[simp] theorem writeMem_tensors (w : MemWrite) (s : State) : (writeMem w s).tensors = s.tensors := rfl
@[simp] theorem writeMem_out (w : MemWrite) (s : State) : (writeMem w s).out = s.out := rfl
@[simp] theorem writeMem_mb (w : MemWrite) (s : State) : (writeMem w s).mb = s.mb := rfl
@[simp] theorem writeMem_sec (w : MemWrite) (s : State) : (writeMem w s).sec = s.sec := rfl
@[simp] theorem writeMem_kp (w : MemWrite) (s : State) : (writeMem w s).kp = s.kp := rfl
@[simp] theorem writeMem_recd (w : MemWrite) (s : State) : (writeMem w s).recd = s.recd := rfl
@[simp] theorem writeMem_cam (w : MemWrite) (s : State) : (writeMem w s).cam = s.cam := rfl
@[simp] theorem writeMem_net (w : MemWrite) (s : State) : (writeMem w s).net = s.net := rfl
@[simp] theorem writeMem_ingest (w : MemWrite) (s : State) : (writeMem w s).ingest = s.ingest := rfl
@[simp] theorem writeMem_plan (w : MemWrite) (s : State) : (writeMem w s).plan = s.plan := rfl
@[simp] theorem writeMem_raft (w : MemWrite) (s : State) : (writeMem w s).raft = s.raft := rfl
@[simp] theorem writeMem_ledger (w : MemWrite) (s : State) : (writeMem w s).ledger = s.ledger := rfl
@[simp] theorem writeMem_plumb (w : MemWrite) (s : State) : (writeMem w s).plumb = s.plumb := rfl
@[simp] theorem writeMem_tally (w : MemWrite) (s : State) : (writeMem w s).tally = s.tally := rfl
@[simp] theorem writeMem_gov (w : MemWrite) (s : State) : (writeMem w s).gov = s.gov := rfl
@[simp] theorem writeMem_power (w : MemWrite) (s : State) : (writeMem w s).power = s.power := rfl
@[simp] theorem writeMem_fw (w : MemWrite) (s : State) : (writeMem w s).fw = s.fw := rfl
@[simp] theorem writeMem_yard (w : MemWrite) (s : State) : (writeMem w s).yard = s.yard := rfl
@[simp] theorem writeMem_emitted (w : MemWrite) (s : State) : (writeMem w s).emitted = s.emitted := rfl
@[simp] theorem writeMem_free (w : MemWrite) (s : State) : (writeMem w s).free = s.free := rfl
@[simp] theorem writeMem_pending (w : MemWrite) (s : State) : (writeMem w s).pending = s.pending := rfl

/-! ### `zeroRange` -/

@[simp] theorem zeroRange_regs (a n : Nat) (s : State) : (zeroRange a n s).regs = s.regs := rfl
@[simp] theorem zeroRange_live (a n : Nat) (s : State) : (zeroRange a n s).live = s.live := rfl
@[simp] theorem zeroRange_prevLive (a n : Nat) (s : State) : (zeroRange a n s).prevLive = s.prevLive := rfl
@[simp] theorem zeroRange_latch (a n : Nat) (s : State) : (zeroRange a n s).latch = s.latch := rfl
@[simp] theorem zeroRange_staged (a n : Nat) (s : State) : (zeroRange a n s).staged = s.staged := rfl
@[simp] theorem zeroRange_memory (a n : Nat) (s : State) : (zeroRange a n s).memory = s.memory := rfl
@[simp] theorem zeroRange_ridge (a n : Nat) (s : State) : (zeroRange a n s).ridge = s.ridge := rfl
@[simp] theorem zeroRange_scribe (a n : Nat) (s : State) : (zeroRange a n s).scribe = s.scribe := rfl
@[simp] theorem zeroRange_fab (a n : Nat) (s : State) : (zeroRange a n s).fab = s.fab := rfl
@[simp] theorem zeroRange_tensors (a n : Nat) (s : State) : (zeroRange a n s).tensors = s.tensors := rfl
@[simp] theorem zeroRange_out (a n : Nat) (s : State) : (zeroRange a n s).out = s.out := rfl
@[simp] theorem zeroRange_mb (a n : Nat) (s : State) : (zeroRange a n s).mb = s.mb := rfl
@[simp] theorem zeroRange_sec (a n : Nat) (s : State) : (zeroRange a n s).sec = s.sec := rfl
@[simp] theorem zeroRange_kp (a n : Nat) (s : State) : (zeroRange a n s).kp = s.kp := rfl
@[simp] theorem zeroRange_recd (a n : Nat) (s : State) : (zeroRange a n s).recd = s.recd := rfl
@[simp] theorem zeroRange_cam (a n : Nat) (s : State) : (zeroRange a n s).cam = s.cam := rfl
@[simp] theorem zeroRange_net (a n : Nat) (s : State) : (zeroRange a n s).net = s.net := rfl
@[simp] theorem zeroRange_ingest (a n : Nat) (s : State) : (zeroRange a n s).ingest = s.ingest := rfl
@[simp] theorem zeroRange_plan (a n : Nat) (s : State) : (zeroRange a n s).plan = s.plan := rfl
@[simp] theorem zeroRange_raft (a n : Nat) (s : State) : (zeroRange a n s).raft = s.raft := rfl
@[simp] theorem zeroRange_ledger (a n : Nat) (s : State) : (zeroRange a n s).ledger = s.ledger := rfl
@[simp] theorem zeroRange_plumb (a n : Nat) (s : State) : (zeroRange a n s).plumb = s.plumb := rfl
@[simp] theorem zeroRange_tally (a n : Nat) (s : State) : (zeroRange a n s).tally = s.tally := rfl
@[simp] theorem zeroRange_gov (a n : Nat) (s : State) : (zeroRange a n s).gov = s.gov := rfl
@[simp] theorem zeroRange_power (a n : Nat) (s : State) : (zeroRange a n s).power = s.power := rfl
@[simp] theorem zeroRange_fw (a n : Nat) (s : State) : (zeroRange a n s).fw = s.fw := rfl
@[simp] theorem zeroRange_yard (a n : Nat) (s : State) : (zeroRange a n s).yard = s.yard := rfl
@[simp] theorem zeroRange_emitted (a n : Nat) (s : State) : (zeroRange a n s).emitted = s.emitted := rfl
@[simp] theorem zeroRange_free (a n : Nat) (s : State) : (zeroRange a n s).free = s.free := rfl
@[simp] theorem zeroRange_pending (a n : Nat) (s : State) : (zeroRange a n s).pending = s.pending := rfl

/-! ### `histo` -/

@[simp] theorem histo_regs (i b : Nat) (s : State) : (histo i b s).regs = s.regs := rfl
@[simp] theorem histo_live (i b : Nat) (s : State) : (histo i b s).live = s.live := rfl
@[simp] theorem histo_prevLive (i b : Nat) (s : State) : (histo i b s).prevLive = s.prevLive := rfl
@[simp] theorem histo_latch (i b : Nat) (s : State) : (histo i b s).latch = s.latch := rfl
@[simp] theorem histo_staged (i b : Nat) (s : State) : (histo i b s).staged = s.staged := rfl
@[simp] theorem histo_mem (i b : Nat) (s : State) : (histo i b s).mem = s.mem := rfl
@[simp] theorem histo_poison (i b : Nat) (s : State) : (histo i b s).poison = s.poison := rfl
@[simp] theorem histo_memory (i b : Nat) (s : State) : (histo i b s).memory = s.memory := rfl
@[simp] theorem histo_ridge (i b : Nat) (s : State) : (histo i b s).ridge = s.ridge := rfl
@[simp] theorem histo_scribe (i b : Nat) (s : State) : (histo i b s).scribe = s.scribe := rfl
@[simp] theorem histo_fab (i b : Nat) (s : State) : (histo i b s).fab = s.fab := rfl
@[simp] theorem histo_tensors (i b : Nat) (s : State) : (histo i b s).tensors = s.tensors := rfl
@[simp] theorem histo_out (i b : Nat) (s : State) : (histo i b s).out = s.out := rfl
@[simp] theorem histo_mb (i b : Nat) (s : State) : (histo i b s).mb = s.mb := rfl
@[simp] theorem histo_sec (i b : Nat) (s : State) : (histo i b s).sec = s.sec := rfl
@[simp] theorem histo_kp (i b : Nat) (s : State) : (histo i b s).kp = s.kp := rfl
@[simp] theorem histo_cam (i b : Nat) (s : State) : (histo i b s).cam = s.cam := rfl
@[simp] theorem histo_net (i b : Nat) (s : State) : (histo i b s).net = s.net := rfl
@[simp] theorem histo_ingest (i b : Nat) (s : State) : (histo i b s).ingest = s.ingest := rfl
@[simp] theorem histo_plan (i b : Nat) (s : State) : (histo i b s).plan = s.plan := rfl
@[simp] theorem histo_raft (i b : Nat) (s : State) : (histo i b s).raft = s.raft := rfl
@[simp] theorem histo_ledger (i b : Nat) (s : State) : (histo i b s).ledger = s.ledger := rfl
@[simp] theorem histo_plumb (i b : Nat) (s : State) : (histo i b s).plumb = s.plumb := rfl
@[simp] theorem histo_tally (i b : Nat) (s : State) : (histo i b s).tally = s.tally := rfl
@[simp] theorem histo_gov (i b : Nat) (s : State) : (histo i b s).gov = s.gov := rfl
@[simp] theorem histo_power (i b : Nat) (s : State) : (histo i b s).power = s.power := rfl
@[simp] theorem histo_fw (i b : Nat) (s : State) : (histo i b s).fw = s.fw := rfl
@[simp] theorem histo_yard (i b : Nat) (s : State) : (histo i b s).yard = s.yard := rfl
@[simp] theorem histo_emitted (i b : Nat) (s : State) : (histo i b s).emitted = s.emitted := rfl
@[simp] theorem histo_free (i b : Nat) (s : State) : (histo i b s).free = s.free := rfl
@[simp] theorem histo_pending (i b : Nat) (s : State) : (histo i b s).pending = s.pending := rfl

/-! ### `faultEnds` -/

@[simp] theorem faultEnds_live (f : Nat) (s : State) : (faultEnds f s).live = s.live := rfl
@[simp] theorem faultEnds_prevLive (f : Nat) (s : State) : (faultEnds f s).prevLive = s.prevLive := rfl
@[simp] theorem faultEnds_latch (f : Nat) (s : State) : (faultEnds f s).latch = s.latch := rfl
@[simp] theorem faultEnds_staged (f : Nat) (s : State) : (faultEnds f s).staged = s.staged := rfl
@[simp] theorem faultEnds_mem (f : Nat) (s : State) : (faultEnds f s).mem = s.mem := rfl
@[simp] theorem faultEnds_poison (f : Nat) (s : State) : (faultEnds f s).poison = s.poison := rfl
@[simp] theorem faultEnds_memory (f : Nat) (s : State) : (faultEnds f s).memory = s.memory := rfl
@[simp] theorem faultEnds_ridge (f : Nat) (s : State) : (faultEnds f s).ridge = s.ridge := rfl
@[simp] theorem faultEnds_scribe (f : Nat) (s : State) : (faultEnds f s).scribe = s.scribe := rfl
@[simp] theorem faultEnds_fab (f : Nat) (s : State) : (faultEnds f s).fab = s.fab := rfl
@[simp] theorem faultEnds_tensors (f : Nat) (s : State) : (faultEnds f s).tensors = s.tensors := rfl
@[simp] theorem faultEnds_out (f : Nat) (s : State) : (faultEnds f s).out = s.out := rfl
@[simp] theorem faultEnds_mb (f : Nat) (s : State) : (faultEnds f s).mb = s.mb := rfl
@[simp] theorem faultEnds_sec (f : Nat) (s : State) : (faultEnds f s).sec = s.sec := rfl
@[simp] theorem faultEnds_kp (f : Nat) (s : State) : (faultEnds f s).kp = s.kp := rfl
@[simp] theorem faultEnds_recd (f : Nat) (s : State) : (faultEnds f s).recd = s.recd := rfl
@[simp] theorem faultEnds_cam (f : Nat) (s : State) : (faultEnds f s).cam = s.cam := rfl
@[simp] theorem faultEnds_net (f : Nat) (s : State) : (faultEnds f s).net = s.net := rfl
@[simp] theorem faultEnds_ingest (f : Nat) (s : State) : (faultEnds f s).ingest = s.ingest := rfl
@[simp] theorem faultEnds_plan (f : Nat) (s : State) : (faultEnds f s).plan = s.plan := rfl
@[simp] theorem faultEnds_raft (f : Nat) (s : State) : (faultEnds f s).raft = s.raft := rfl
@[simp] theorem faultEnds_ledger (f : Nat) (s : State) : (faultEnds f s).ledger = s.ledger := rfl
@[simp] theorem faultEnds_plumb (f : Nat) (s : State) : (faultEnds f s).plumb = s.plumb := rfl
@[simp] theorem faultEnds_tally (f : Nat) (s : State) : (faultEnds f s).tally = s.tally := rfl
@[simp] theorem faultEnds_gov (f : Nat) (s : State) : (faultEnds f s).gov = s.gov := rfl
@[simp] theorem faultEnds_power (f : Nat) (s : State) : (faultEnds f s).power = s.power := rfl
@[simp] theorem faultEnds_fw (f : Nat) (s : State) : (faultEnds f s).fw = s.fw := rfl
@[simp] theorem faultEnds_yard (f : Nat) (s : State) : (faultEnds f s).yard = s.yard := rfl
@[simp] theorem faultEnds_emitted (f : Nat) (s : State) : (faultEnds f s).emitted = s.emitted := rfl
@[simp] theorem faultEnds_free (f : Nat) (s : State) : (faultEnds f s).free = s.free := rfl
@[simp] theorem faultEnds_pending (f : Nat) (s : State) : (faultEnds f s).pending = s.pending := rfl

end Sys2Proof.Machine
end

