-- ==== Sys2Proof/Laws/Tab.lean ====
section
/-! SUPPORT. What sparse tables give: an entry read after a write, a removal or a change of another, and that each keeps the numbers
rising. -/

namespace Sys2Proof.Machine
open Sys2Proof

variable {α : Type}

@[simp] theorem tget_nil (k : Nat) : tget k ([] : Tab α) = none := rfl

@[simp] theorem tget_tput_same (k : Nat) (v : α) (t : Tab α) : tget k (tput k v t) = some v := by
  induction t with
  | nil => simp [tput, tget]
  | cons p r ih =>
    obtain ⟨j, w⟩ := p
    simp only [tput]
    split
    · simp [tget]
    · split
      · simp [tget]
      · simp [tget, *]

theorem tget_tput_ne {k j : Nat} (h : j ≠ k) (v : α) (t : Tab α) : tget j (tput k v t) = tget j t := by
  induction t with
  | nil => simp [tput, tget, Ne.symm h]
  | cons p r ih =>
    obtain ⟨i, w⟩ := p
    simp only [tput]
    split
    · subst_vars; simp [tget, Ne.symm h]
    · split
      · simp [tget, Ne.symm h]
      · simp [tget, ih]

theorem tget_tput (k j : Nat) (v : α) (t : Tab α) : tget j (tput k v t) = if j = k then some v else tget j t := by
  split
  · subst_vars; simp
  · exact tget_tput_ne ‹_› v t

theorem tget_tdel_ne {k j : Nat} (h : j ≠ k) (t : Tab α) : tget j (tdel k t) = tget j t := by
  induction t with
  | nil => rfl
  | cons p r ih =>
    obtain ⟨i, w⟩ := p
    simp only [tdel]
    split
    · subst_vars; simp [tget, Ne.symm h, ih]
    · simp [tget, ih]

@[simp] theorem tget_tdel_same (k : Nat) (t : Tab α) : tget k (tdel k t) = none := by
  induction t with
  | nil => rfl
  | cons p r ih =>
    obtain ⟨i, w⟩ := p
    simp only [tdel]
    split
    · exact ih
    · simp [tget, *]

theorem tget_tmod (k j : Nat) (f : α → α) (t : Tab α) (h : Rising t) :
    tget j (tmod k f t) = if j = k then (tget j t).map f else tget j t := by
  induction t with
  | nil => simp [tmod]
  | cons p r ih =>
    obtain ⟨i, w⟩ := p
    have h' := List.pairwise_cons.1 h
    simp only [tmod]
    split
    · subst_vars
      simp only [tget]
      split
      · subst_vars; simp
      · rename_i h1
        rw [if_neg (fun e => h1 e.symm)]
    · simp only [tget]
      split
      · subst_vars; simp [*]
      · exact ih h'.2

theorem mem_tput {k : Nat} {v : α} {t : Tab α} {p : Nat × α} (h : p ∈ tput k v t) : p = (k, v) ∨ p ∈ t := by
  induction t with
  | nil => simpa [tput] using h
  | cons q r ih =>
    obtain ⟨j, w⟩ := q
    simp only [tput] at h
    split at h
    · rcases List.mem_cons.1 h with rfl | h
      · exact .inl rfl
      · exact .inr (List.mem_cons_of_mem _ h)
    · split at h
      · rcases List.mem_cons.1 h with rfl | h
        · exact .inl rfl
        · exact .inr h
      · rcases List.mem_cons.1 h with rfl | h
        · exact .inr (List.mem_cons_self ..)
        · rcases ih h with h | h
          · exact .inl h
          · exact .inr (List.mem_cons_of_mem _ h)

theorem mem_tdel {k : Nat} {t : Tab α} {p : Nat × α} (h : p ∈ tdel k t) : p ∈ t := by
  induction t with
  | nil => simp [tdel] at h
  | cons q r ih =>
    obtain ⟨j, w⟩ := q
    simp only [tdel] at h
    split at h
    · exact List.mem_cons_of_mem _ (ih h)
    · rcases List.mem_cons.1 h with rfl | h
      · exact List.mem_cons_self ..
      · exact List.mem_cons_of_mem _ (ih h)

theorem rising_tput (k : Nat) (v : α) {t : Tab α} (h : Rising t) : Rising (tput k v t) := by
  induction t with
  | nil => simp [tput, Rising]
  | cons q r ih =>
    obtain ⟨j, w⟩ := q
    have h' := List.pairwise_cons.1 h
    simp only [tput]
    split
    · subst_vars; exact List.pairwise_cons.2 ⟨h'.1, h'.2⟩
    · split
      · refine List.pairwise_cons.2 ⟨fun p hp => ?_, h⟩
        rcases List.mem_cons.1 hp with rfl | hp
        · assumption
        · have := h'.1 p hp
          simp only at *
          omega
      · refine List.pairwise_cons.2 ⟨fun p hp => ?_, ih h'.2⟩
        rcases mem_tput hp with rfl | hp
        · simp only; omega
        · exact h'.1 p hp

theorem rising_tdel (k : Nat) {t : Tab α} (h : Rising t) : Rising (tdel k t) := by
  induction t with
  | nil => simp [tdel, Rising]
  | cons q r ih =>
    obtain ⟨j, w⟩ := q
    have h' := List.pairwise_cons.1 h
    simp only [tdel]
    split
    · exact ih h'.2
    · exact List.pairwise_cons.2 ⟨fun p hp => h'.1 p (mem_tdel hp), ih h'.2⟩

theorem rising_filter (f : Nat × α → Bool) {t : Tab α} (h : Rising t) : Rising (t.filter f) := List.Pairwise.filter f h

end Sys2Proof.Machine
end

