-- ==== Sys2Proof/Laws/Registers.lean ====
section
/-! SUPPORT. What reads and writes of register words and of their fields give, and how the words that stay as they were compose. -/

namespace Sys2Proof.Machine
open Sys2Proof

theorem rd_of_tget {s t : State} {r : Reg} (h : tget r.addr t.regs = tget r.addr s.regs) : rd t r = rd s r := by
  simp [rd, h]

theorem rd_regs {s t : State} (r : Reg) (h : t.regs = s.regs) : rd t r = rd s r := rd_of_tget (by rw [h])

theorem rd_wr_same (r : Reg) (v : Nat) (s : State) : rd (wr r v s) r = v % 2 ^ 32 := by simp [rd, wr]

theorem rd_wr_ne {r q : Reg} (h : q.addr ≠ r.addr) (v : Nat) (s : State) : rd (wr r v s) q = rd s q := by
  simp [rd, wr, tget_tput_ne h]

theorem rd_lt (s : State) (r : Reg) (h : r.reset < 2 ^ 32) : rd s r < 2 ^ 32 := by
  unfold rd
  split
  · exact BitVec.isLt _
  · exact h

/-! ### Fields of a word -/

theorem bits_lt (w hi lo : Nat) : bits w hi lo < 2 ^ (hi + 1 - lo) := Nat.mod_lt _ (Nat.two_pow_pos _)

theorem bits_putBits_same (w hi lo v : Nat) : bits (putBits w hi lo v) hi lo = v % 2 ^ (hi + 1 - lo) := by
  unfold bits putBits
  have hl : w % 2 ^ lo < 2 ^ lo := Nat.mod_lt _ (Nat.two_pow_pos _)
  rcases Nat.lt_or_ge hi lo with h | h
  · have : hi + 1 - lo = 0 := by omega
    simp [this, Nat.mod_one]
  · have e : 2 ^ (hi + 1) = 2 ^ (hi + 1 - lo) * 2 ^ lo := by rw [← Nat.pow_add]; congr 1; omega
    generalize hA : w / 2 ^ (hi + 1) = A
    generalize hB : v % 2 ^ (hi + 1 - lo) = B
    have hB' : B < 2 ^ (hi + 1 - lo) := hB ▸ Nat.mod_lt _ (Nat.two_pow_pos _)
    rw [e, ← Nat.mul_assoc, ← Nat.add_mul, Nat.add_comm _ (w % 2 ^ lo), Nat.add_mul_div_right _ _ (Nat.two_pow_pos _),
      Nat.div_eq_of_lt hl, Nat.zero_add, Nat.add_comm, Nat.add_mul_mod_self_right, Nat.mod_eq_of_lt hB']

theorem putBits_div (w hi lo v : Nat) (h : lo ≤ hi) : putBits w hi lo v / 2 ^ (hi + 1) = w / 2 ^ (hi + 1) := by
  unfold putBits
  have hl : w % 2 ^ lo < 2 ^ lo := Nat.mod_lt _ (Nat.two_pow_pos _)
  have e : 2 ^ (hi + 1) = 2 ^ (hi + 1 - lo) * 2 ^ lo := by rw [← Nat.pow_add]; congr 1; omega
  have hB : v % 2 ^ (hi + 1 - lo) < 2 ^ (hi + 1 - lo) := Nat.mod_lt _ (Nat.two_pow_pos _)
  have hs : v % 2 ^ (hi + 1 - lo) * 2 ^ lo + w % 2 ^ lo < 2 ^ (hi + 1) := by
    rw [e]
    calc _ < v % 2 ^ (hi + 1 - lo) * 2 ^ lo + 2 ^ lo := by omega
      _ = (v % 2 ^ (hi + 1 - lo) + 1) * 2 ^ lo := by rw [Nat.add_mul, Nat.one_mul]
      _ ≤ _ := Nat.mul_le_mul_right _ hB
  rw [Nat.add_assoc, Nat.add_comm, Nat.add_mul_div_right _ _ (Nat.two_pow_pos _), Nat.div_eq_of_lt hs, Nat.zero_add]

theorem putBits_mod (w hi lo v : Nat) (h : lo ≤ hi) : putBits w hi lo v % 2 ^ lo = w % 2 ^ lo := by
  unfold putBits
  have e : 2 ^ (hi + 1) = 2 ^ (hi + 1 - lo) * 2 ^ lo := by rw [← Nat.pow_add]; congr 1; omega
  rw [e, ← Nat.mul_assoc, ← Nat.add_mul, Nat.add_comm, Nat.add_mul_mod_self_right, Nat.mod_mod]

theorem bits_putBits_above {w hi lo v h l : Nat} (hl : lo ≤ hi) (ha : hi < l) : bits (putBits w hi lo v) h l = bits w h l := by
  unfold bits
  have e : 2 ^ l = 2 ^ (hi + 1) * 2 ^ (l - (hi + 1)) := by rw [← Nat.pow_add]; congr 1; omega
  rw [e, ← Nat.div_div_eq_div_mul, ← Nat.div_div_eq_div_mul, putBits_div _ _ _ _ hl]

theorem bits_putBits_below {w hi lo v h l : Nat} (hl : lo ≤ hi) (ha : h < lo) : bits (putBits w hi lo v) h l = bits w h l := by
  have key : ∀ x, bits x h l = x % 2 ^ (h + 1) / 2 ^ l % 2 ^ (h + 1 - l) := by
    intro x
    unfold bits
    rcases Nat.lt_or_ge h l with hh | hh
    · have : h + 1 - l = 0 := by omega
      simp [this, Nat.mod_one]
    · have e : 2 ^ (h + 1) = 2 ^ l * 2 ^ (h + 1 - l) := by rw [← Nat.pow_add]; congr 1; omega
      rw [e, Nat.mod_mul_right_div_self, Nat.mod_mod]
  have e : 2 ^ lo = 2 ^ (h + 1) * 2 ^ (lo - (h + 1)) := by rw [← Nat.pow_add]; congr 1; omega
  rw [key, key, ← Nat.mod_mod_of_dvd (putBits w hi lo v) ⟨_, e⟩, putBits_mod _ _ _ _ hl, Nat.mod_mod_of_dvd _ ⟨_, e⟩]

theorem putBits_lt {w hi lo v : Nat} (hl : lo ≤ hi) (hh : hi < 32) (hw : w < 2 ^ 32) : putBits w hi lo v < 2 ^ 32 := by
  have h := putBits_div w hi lo v hl
  have e : 2 ^ 32 = 2 ^ (31 - hi) * 2 ^ (hi + 1) := by rw [← Nat.pow_add]; congr 1; omega
  rw [e] at hw ⊢
  rw [← Nat.div_lt_iff_lt_mul (Nat.two_pow_pos _)] at hw ⊢
  rwa [h]

theorem fld_setFld_same {r : Reg} {hi lo : Nat} (hl : lo ≤ hi) (hh : hi < 32) (hr : r.reset < 2 ^ 32) (v : Nat) (s : State) :
    fld (setFld r hi lo v s) r hi lo = v % 2 ^ (hi + 1 - lo) := by
  unfold fld setFld
  rw [rd_wr_same, Nat.mod_eq_of_lt (putBits_lt hl hh (rd_lt s r hr)), bits_putBits_same]

theorem bit_bits (w i : Nat) : bit w i = decide (bits w i i = 1) := by
  unfold bit bits; rw [show i + 1 - i = 1 by omega, Nat.pow_one]

/-! ### Words that stay -/

theorem SameWords.refl (s : State) (p : Nat → Bool) : SameWords s s p := fun _ _ => rfl

theorem SameWords.trans {s t u : State} {p : Nat → Bool} (h : SameWords s t p) (k : SameWords t u p) : SameWords s u p :=
  fun a ha => (k a ha).trans (h a ha)

theorem SameWords.of_regs {s t : State} {p : Nat → Bool} (h : t.regs = s.regs) : SameWords s t p := fun _ _ => by rw [h]

theorem SameWords.wr {r : Reg} {p : Nat → Bool} (h : p r.addr = true) (v : Nat) (s : State) : SameWords s (wr r v s) p := by
  intro a ha
  have : a ≠ r.addr := by rintro rfl; rw [h] at ha; cases ha
  simp [Machine.wr, tget_tput_ne this]

theorem SameWords.rd {s t : State} {p : Nat → Bool} (h : SameWords s t p) {r : Reg} (hr : p r.addr = false) : rd t r = rd s r :=
  rd_of_tget (h r.addr hr)

end Sys2Proof.Machine
end

