-- ==== Sys2Proof/Laws/Effects.lean ====
section
/-! SUPPORT. What the shared operations can do beside their results: events and interrupts change only the recorder's part, reports of
faults and refusals only that and the safety part. -/

namespace Sys2Proof.Machine
open Sys2Proof

/-! ### Events -/

theorem Logged.refl (s : State) : Logged s s := ⟨rfl, SameWords.refl _ _⟩

theorem Logged.trans {s t u : State} (h : Logged s t) (k : Logged t u) : Logged s u := by
  refine ⟨?_, h.2.trans k.2⟩
  rw [k.1, h.1]

theorem inRecorder_of {a : Nat} (h1 : 0xD0000 ≤ a) (h2 : a < 0xE0000) : inRecorder a = true := by simp [inRecorder, h1, h2]

theorem Logged.wr {r : Reg} (h : inRecorder r.addr = true) (v : Nat) (s : State) : Logged s (wr r v s) := ⟨rfl, SameWords.wr h v s⟩

theorem Logged.of_emit (s : State) (l : List Emission) : Logged s { s with emitted := l } := ⟨rfl, SameWords.of_regs rfl⟩

theorem Logged.recd (s : State) (r : RecSt) : Logged s { s with recd := r } := ⟨rfl, SameWords.of_regs rfl⟩

theorem Logged.msix (f v : Nat) (s : State) : Logged s (msix f v s) := by
  unfold Machine.msix; split
  · exact Logged.of_emit _ _
  · exact Logged.refl _

theorem Logged.foldl {β : Type} {g : State → β → State} (h : ∀ s b, Logged s (g s b)) (l : List β) (s : State) :
    Logged s (l.foldl g s) := by
  induction l generalizing s with
  | nil => exact Logged.refl _
  | cons b r ih => exact (h s b).trans (ih _)

theorem Logged.notifyEvent (c : Nat) (s : State) : Logged s (notifyEvent c s) := by
  unfold Machine.notifyEvent
  refine Logged.foldl (fun s n => ?_) _ _
  split
  · exact Logged.msix _ _ _
  · exact Logged.refl _

theorem Logged.setFld {r : Reg} (h : inRecorder r.addr = true) (hi lo v : Nat) (s : State) : Logged s (setFld r hi lo v s) := Logged.wr h _ _
theorem Logged.inc {r : Reg} (h : inRecorder r.addr = true) (s : State) : Logged s (inc r s) := Logged.wr h _ _

theorem Logged.ite {p : Prop} [Decidable p] {s a b : State} (ha : Logged s a) (hb : Logged s b) : Logged s (if p then a else b) := by
  split
  · exact ha
  · exact hb

theorem Logged.occur (c a x : Nat) (s : State) : Logged s (occur c a x s) := by
  unfold Machine.occur
  exact Logged.ite
    (((((Logged.recd _ _).trans (Logged.inc rfl _)).trans (Logged.setFld rfl _ _ _ _)).trans (Logged.setFld rfl _ _ _ _)).trans
      (((Logged.wr rfl _ _).trans (Logged.wr rfl _ _)).trans (Logged.notifyEvent _ _)))
    (((((Logged.recd _ _).trans (Logged.inc rfl _)).trans (Logged.setFld rfl _ _ _ _)).trans (Logged.setFld rfl _ _ _ _)).trans
      (Logged.inc rfl _))

/-- Raising an event changes nothing but the recorder's part and the interrupts that announce it (R588–R591). -/
theorem Logged.raise (c a : Nat) (s : State) : Logged s (raise c a s) := by
  unfold Machine.raise raiseX
  dsimp only
  split
  · exact (Logged.occur _ _ _ _).trans (Logged.occur _ _ _ _)
  · exact Logged.occur _ _ _ _

/-! ### Faults and the safe state -/

theorem Reported.refl (s : State) : Reported s s := ⟨rfl, SameWords.refl _ _⟩

theorem Reported.trans {s t u : State} (h : Reported s t) (k : Reported t u) : Reported s u := by
  refine ⟨?_, h.2.trans k.2⟩
  rw [k.1, h.1]

theorem SameWords.mono {s t : State} {p q : Nat → Bool} (h : SameWords s t p) (hpq : ∀ a, p a = true → q a = true) : SameWords s t q := by
  intro a ha
  refine h a ?_
  cases hp : p a with
  | false => rfl
  | true => rw [hpq a hp] at ha; cases ha

theorem Logged.reported {s t : State} (h : Logged s t) : Reported s t := by
  refine ⟨?_, h.2.mono (fun a ha => by simp [inSafety, ha])⟩
  rw [h.1]

theorem Reported.wr {r : Reg} (h : inSafety r.addr = true) (v : Nat) (s : State) : Reported s (wr r v s) := ⟨rfl, SameWords.wr h v s⟩
theorem Reported.setFld {r : Reg} (h : inSafety r.addr = true) (hi lo v : Nat) (s : State) : Reported s (setFld r hi lo v s) := Reported.wr h _ _
theorem Reported.incFld {r : Reg} (h : inSafety r.addr = true) (hi lo n : Nat) (s : State) : Reported s (incFld r hi lo n s) := Reported.wr h _ _
theorem Reported.inc {r : Reg} (h : inSafety r.addr = true) (s : State) : Reported s (inc r s) := Reported.wr h _ _
theorem Reported.setMask {r : Reg} (h : inSafety r.addr = true) (m : Nat) (s : State) : Reported s (setMask r m s) := Reported.wr h _ _
theorem Reported.clearMask {r : Reg} (h : inSafety r.addr = true) (m : Nat) (s : State) : Reported s (clearMask r m s) := Reported.wr h _ _
theorem Reported.wr64 {l h : Reg} (hl : inSafety l.addr = true) (hh : inSafety h.addr = true) (v : Nat) (s : State) :
    Reported s (wr64 l h v s) := (Reported.wr hl _ _).trans (Reported.wr hh _ _)
theorem Reported.kp (s : State) (k : KpSt) : Reported s { s with kp := k } := ⟨rfl, SameWords.of_regs rfl⟩
theorem Reported.recd (s : State) (r : RecSt) : Reported s { s with recd := r } := ⟨rfl, SameWords.of_regs rfl⟩
theorem Reported.raise (c a : Nat) (s : State) : Reported s (raise c a s) := (Logged.raise c a s).reported

theorem Reported.ite {p : Prop} [Decidable p] {s a b : State} (ha : Reported s a) (hb : Reported s b) : Reported s (if p then a else b) := by
  split
  · exact ha
  · exact hb

theorem Reported.queueSafeMessage (s : State) : Reported s (queueSafeMessage s) := by
  unfold Machine.queueSafeMessage; split
  · exact ⟨rfl, SameWords.wr rfl _ _⟩
  · exact Reported.refl _

theorem Reported.drivePair (v : Bool) (r : Nat) (s : State) : Reported s (drivePair v r s) := by
  unfold Machine.drivePair; dsimp only; split
  · exact Reported.refl _
  · exact (((((Reported.setFld rfl _ _ _ _).trans (Reported.setFld rfl _ _ _ _)).trans (Reported.setFld rfl _ _ _ _)).trans
      ((Reported.inc rfl _).trans (Reported.wr64 rfl rfl _ _))).trans ((Reported.raise _ _ _).trans
      (Logged.of_emit _ _).reported)).trans (Reported.queueSafeMessage _)

theorem Reported.updatePair (s : State) : Reported s (updatePair s) := by
  unfold Machine.updatePair
  exact Reported.ite (Reported.drivePair _ _ _) (Reported.ite (Reported.drivePair _ _ _) (Reported.setFld rfl _ _ _ _))

theorem Reported.enterSafe (f c : Nat) (s : State) : Reported s (enterSafe f c s) := by
  unfold Machine.enterSafe; dsimp only; split
  · exact Reported.refl _
  · exact (((((((Reported.wr64 rfl rfl _ _).trans (Reported.setFld rfl _ _ _ _)).trans (Reported.inc rfl _)).trans (Reported.kp _ _)).trans
      (Reported.setMask rfl _ _)).trans (Reported.setFld rfl _ _ _ _)).trans (Reported.recd _ _)).trans
      ((Reported.raise _ _ _).trans (Reported.updatePair _))

theorem inSafety_kingpost {a : Nat} (h1 : 0xE0000 ≤ a) (h2 : a < 0xF0000) : inSafety a = true := by
  simp [inSafety, inWindow, h1]; omega

theorem inSafety_fence {a : Nat} (h1 : 0xA0000 ≤ a) (h2 : a < 0xB0000) : inSafety a = true := by
  simp [inSafety, inWindow, h1]; omega

/-- Reporting a fault changes nothing but the safety part (R542, R543, R547). -/
theorem Reported.faultX {f : Nat} (hf : f < 32) (c : Nat) (s : State) : Reported s (faultX f c s) := by
  have ha : inSafety (KINGPOST_FAULT_COUNT f).addr = true :=
    inSafety_kingpost (by simp [KINGPOST_FAULT_COUNT]; omega) (by simp [KINGPOST_FAULT_COUNT]; omega)
  have h1 : ∀ s, Reported s (Machine.setMask KINGPOST_FAULT_LATCH (2 ^ f) (Machine.incFld (KINGPOST_FAULT_COUNT f) 15 0 1 s)) :=
    fun s => (Reported.incFld ha _ _ _ _).trans (Reported.setMask rfl _ _)
  unfold Machine.faultX
  exact (h1 s).trans ((Reported.ite (Reported.setMask rfl _ _) (Reported.refl _)).trans (Reported.ite (Reported.enterSafe _ _ _) (Reported.refl _)))

theorem Reported.fault {f : Nat} (hf : f < 32) (s : State) : Reported s (fault f s) := Reported.faultX hf 0 s
theorem Reported.faultEnds (f : Nat) (s : State) : Reported s (faultEnds f s) := Reported.clearMask rfl _ _

/-! ### Refusals of the Fence -/

/-- A refused line changes nothing but the safety part (R483, R544). -/
theorem Reported.refuseLine (t l g : Nat) (w : Bool) (s : State) : Reported s (refuseLine t l g w s) := by
  have hd : t < 64 → inSafety (FENCE_DOMAIN_STATE t).addr = true := fun h =>
    inSafety_fence (by simp [FENCE_DOMAIN_STATE]; omega) (by simp [FENCE_DOMAIN_STATE]; omega)
  have h1 : ∀ s : State, Reported s (if t < 64 then Machine.incFld (FENCE_DOMAIN_STATE t) 31 16 1 s else s) := by
    intro s
    split
    · exact Reported.incFld (hd ‹_›) _ _ _ _
    · exact Reported.refl _
  have h2 : ∀ s : State, Reported s (if bit (rd s FENCE_FIRST_DENIED) 31 then s
      else Machine.wr64 FENCE_FIRST_ADDR_LO FENCE_FIRST_ADDR_HI l (Machine.wr FENCE_FIRST_DENIED (2 ^ 31 + g % 8 * 512 + b2n w * 256 + t) s)) :=
    fun s => Reported.ite (Reported.refl _) ((Reported.wr rfl _ _).trans (Reported.wr64 rfl rfl _ _))
  have h3 : ∀ (u : State) (tt : Tab (List Nat)), Reported u (Machine.fault 12 (Machine.raise 0xA001 t { u with kp.refusals := tt })) :=
    fun u tt => ((Reported.kp u _).trans (Reported.raise 0xA001 t _)).trans (Reported.fault (f := 12) (by omega) _)
  have h4 : ∀ (u : State) (n : Nat), Reported u (if 1 ≤ t ∧ t < 64 ∧ 10000 < n then
      Machine.raise 0xE00D t (Machine.setMask (FENCE_DOMAIN_STATE t) 0xB { u with kp.quiesceDue := linsert t u.kp.quiesceDue }) else u) := by
    intro u n
    split
    · exact ((Reported.kp u _).trans (Reported.setMask (hd (by omega)) _ _)).trans (Reported.raise _ _ _)
    · exact Reported.refl _
  unfold Machine.refuseLine
  exact (Reported.inc rfl s).trans ((h1 _).trans (Reported.ite (Reported.refl _) ((h2 _).trans ((h3 _ _).trans (h4 _ _)))))

theorem Reported.foldl {β : Type} {g : State → β → State} (h : ∀ s b, Reported s (g s b)) (l : List β) (s : State) :
    Reported s (l.foldl g s) := by
  induction l generalizing s with
  | nil => exact Reported.refl _
  | cons b r ih => exact (h s b).trans (ih _)

theorem Reported.refuseLines (t a n g : Nat) (w : Bool) (s : State) : Reported s (refuseLines t a n g w s) := by
  unfold Machine.refuseLines
  exact Reported.foldl (fun s' b => Reported.ite (Reported.refl _) (Reported.refuseLine _ _ _ _ _)) _ _

/-! ### What raising an event leaves -/

@[simp] theorem raise_live (c a : Nat) (s : State) : (raise c a s).live = s.live := by rw [(Logged.raise c a s).1]
@[simp] theorem raise_prevLive (c a : Nat) (s : State) : (raise c a s).prevLive = s.prevLive := by rw [(Logged.raise c a s).1]
@[simp] theorem raise_latch (c a : Nat) (s : State) : (raise c a s).latch = s.latch := by rw [(Logged.raise c a s).1]
@[simp] theorem raise_staged (c a : Nat) (s : State) : (raise c a s).staged = s.staged := by rw [(Logged.raise c a s).1]
@[simp] theorem raise_mem (c a : Nat) (s : State) : (raise c a s).mem = s.mem := by rw [(Logged.raise c a s).1]
@[simp] theorem raise_poison (c a : Nat) (s : State) : (raise c a s).poison = s.poison := by rw [(Logged.raise c a s).1]
@[simp] theorem raise_memory (c a : Nat) (s : State) : (raise c a s).memory = s.memory := by rw [(Logged.raise c a s).1]
@[simp] theorem raise_ridge (c a : Nat) (s : State) : (raise c a s).ridge = s.ridge := by rw [(Logged.raise c a s).1]
@[simp] theorem raise_scribe (c a : Nat) (s : State) : (raise c a s).scribe = s.scribe := by rw [(Logged.raise c a s).1]
@[simp] theorem raise_fab (c a : Nat) (s : State) : (raise c a s).fab = s.fab := by rw [(Logged.raise c a s).1]
@[simp] theorem raise_tensors (c a : Nat) (s : State) : (raise c a s).tensors = s.tensors := by rw [(Logged.raise c a s).1]
@[simp] theorem raise_out (c a : Nat) (s : State) : (raise c a s).out = s.out := by rw [(Logged.raise c a s).1]
@[simp] theorem raise_mb (c a : Nat) (s : State) : (raise c a s).mb = s.mb := by rw [(Logged.raise c a s).1]
@[simp] theorem raise_sec (c a : Nat) (s : State) : (raise c a s).sec = s.sec := by rw [(Logged.raise c a s).1]
@[simp] theorem raise_kp (c a : Nat) (s : State) : (raise c a s).kp = s.kp := by rw [(Logged.raise c a s).1]
@[simp] theorem raise_cam (c a : Nat) (s : State) : (raise c a s).cam = s.cam := by rw [(Logged.raise c a s).1]
@[simp] theorem raise_net (c a : Nat) (s : State) : (raise c a s).net = s.net := by rw [(Logged.raise c a s).1]
@[simp] theorem raise_ingest (c a : Nat) (s : State) : (raise c a s).ingest = s.ingest := by rw [(Logged.raise c a s).1]
@[simp] theorem raise_plan (c a : Nat) (s : State) : (raise c a s).plan = s.plan := by rw [(Logged.raise c a s).1]
@[simp] theorem raise_raft (c a : Nat) (s : State) : (raise c a s).raft = s.raft := by rw [(Logged.raise c a s).1]
@[simp] theorem raise_ledger (c a : Nat) (s : State) : (raise c a s).ledger = s.ledger := by rw [(Logged.raise c a s).1]
@[simp] theorem raise_plumb (c a : Nat) (s : State) : (raise c a s).plumb = s.plumb := by rw [(Logged.raise c a s).1]
@[simp] theorem raise_tally (c a : Nat) (s : State) : (raise c a s).tally = s.tally := by rw [(Logged.raise c a s).1]
@[simp] theorem raise_gov (c a : Nat) (s : State) : (raise c a s).gov = s.gov := by rw [(Logged.raise c a s).1]
@[simp] theorem raise_power (c a : Nat) (s : State) : (raise c a s).power = s.power := by rw [(Logged.raise c a s).1]
@[simp] theorem raise_fw (c a : Nat) (s : State) : (raise c a s).fw = s.fw := by rw [(Logged.raise c a s).1]
@[simp] theorem raise_yard (c a : Nat) (s : State) : (raise c a s).yard = s.yard := by rw [(Logged.raise c a s).1]
@[simp] theorem raise_free (c a : Nat) (s : State) : (raise c a s).free = s.free := by rw [(Logged.raise c a s).1]
@[simp] theorem raise_pending (c a : Nat) (s : State) : (raise c a s).pending = s.pending := by rw [(Logged.raise c a s).1]

end Sys2Proof.Machine
end

