-- ==== Sys2Proof/Laws/Mailbox.lean ====
section
/-! SUPPORT. What answering a command can do: the response stands in its slot, and nothing changes but words of the page, MSI-X
messages and the accepted entry. -/

namespace Sys2Proof.Machine
open Sys2Proof

theorem inPage_of {f a : Nat} (h1 : 0x200000 + 0x1000 * f ≤ a) (h2 : a < 0x201000 + 0x1000 * f) : inPage f a = true := by
  simp [inPage, h1, h2]

/-! ### Writing a list of bytes as words -/

theorem wrBytes_eq (bs : List Byte) (a : Nat) (s : State) : wrBytes a bs s = { s with regs := (wrBytes a bs s).regs } := by
  fun_induction wrBytes a bs s with
  | case1 => rename_i ih; rw [ih]; rfl
  | case2 => rfl
  | case3 => rfl

theorem wrBytes_below (bs : List Byte) (a : Nat) (s : State) (j : Nat) (h : j < a ∨ a + bs.length ≤ j) :
    tget j (wrBytes a bs s).regs = tget j s.regs := by
  fun_induction wrBytes a bs s with
  | case1 =>
    rename_i ih
    simp only [List.length_cons] at h
    rw [ih (by omega)]
    exact tget_tput_ne (by intro e; simp at e; omega) _ _
  | case2 => rfl
  | case3 a rest s h0 h1 =>
    refine tget_tput_ne ?_ _ _
    rintro rfl
    cases rest with
    | nil => exact h1 rfl
    | cons => simp only [List.length_cons] at h; omega

/-- The byte of a word at a BAR0 address. -/
def byteAt (s : State) (x : Nat) : Nat := bits (rdWord s (x / 4 * 4)) (8 * (x % 4) + 7) (8 * (x % 4))

theorem leNat_lt (l : List Byte) : leNat l < 256 ^ l.length := by
  induction l with
  | nil => simp [leNat]
  | cons b r ih =>
    simp only [leNat, List.length_cons, Nat.pow_succ]
    have := b.isLt
    omega

theorem leNat_byte (l : List Byte) (i : Nat) (h : i < l.length) : leNat l / 256 ^ i % 256 = (l[i]).toNat := by
  induction l generalizing i with
  | nil => simp at h
  | cons b r ih =>
    have hb : b.toNat < 256 := b.isLt
    cases i with
    | zero => simp only [leNat, Nat.pow_zero, Nat.div_one, List.getElem_cons_zero]; omega
    | succ i =>
      rw [Nat.pow_succ, Nat.mul_comm, ← Nat.div_div_eq_div_mul]
      have : leNat (b :: r) / 256 = leNat r := by simp only [leNat]; omega
      rw [this, ih i (by simpa using h)]; rfl

theorem byteAt_word (l : List Byte) (hl : l.length ≤ 4) (a i : Nat) (ha : a % 4 = 0) (hi : i < l.length) (t : State)
    (ht : tget a t.regs = some (BitVec.ofNat 32 (leNat l))) : byteAt t (a + i) = (l[i]).toNat := by
  have h4 : leNat l < 2 ^ 32 := Nat.lt_of_lt_of_le (leNat_lt l) (by
    calc 256 ^ l.length ≤ 256 ^ 4 := Nat.pow_le_pow_right (by omega) hl
      _ = 2 ^ 32 := by decide)
  have e : (a + i) / 4 * 4 = a := by omega
  have m : (a + i) % 4 = i := by omega
  unfold byteAt rdWord rd
  rw [e, m]
  simp only [ht, BitVec.toNat_ofNat, Nat.mod_eq_of_lt h4]
  rw [← leNat_byte l i hi]
  unfold bits
  rw [show 8 * i + 7 + 1 - 8 * i = 8 by omega, Nat.pow_mul] <;> rfl

theorem byteAt_wrBytes (bs : List Byte) (a : Nat) (s : State) (ha : a % 4 = 0) (i : Nat) (hi : i < bs.length) :
    byteAt (wrBytes a bs s) (a + i) = (bs[i]).toNat := by
  fun_induction wrBytes a bs s generalizing i with
  | case1 a b0 b1 b2 b3 r s ih =>
    by_cases h : i < 4
    · have hw := byteAt_word [b0, b1, b2, b3] (by simp) a i ha (by simpa using h)
        (wrBytes (a + 4) r (wrWord a (leNat [b0, b1, b2, b3]) s))
        (by rw [wrBytes_below _ _ _ _ (by omega)]; exact tget_tput_same _ _ _)
      rw [hw]
      rcases i with _ | _ | _ | _ | i
      · rfl
      · rfl
      · rfl
      · rfl
      · omega
    · have := ih (by omega) (i - 4) (by simp at hi; omega)
      rw [show a + i = a + 4 + (i - 4) by omega, this]
      obtain ⟨j, rfl⟩ : ∃ j, i = j + 4 := ⟨i - 4, by omega⟩
      rfl
  | case2 => simp at hi
  | case3 a rest s h0 h1 =>
    have hl : rest.length ≤ 4 := by
      match rest, h0 with
      | [], _ => simp
      | [_], _ => simp
      | [_, _], _ => simp
      | [_, _, _], _ => simp
      | b0 :: b1 :: b2 :: b3 :: r, h0 => exact absurd rfl (h0 b0 b1 b2 b3 r)
    exact byteAt_word rest hl a i ha hi _ (tget_tput_same _ _ _)

/-! ### Answering -/

theorem msix_eq (f v : Nat) (s : State) : msix f v s = { s with emitted := (msix f v s).emitted } := by
  unfold msix; split <;> rfl

theorem leBytes_length (n v : Nat) : (leBytes n v).length = n := by
  induction n generalizing v with
  | zero => rfl
  | succ n ih => simp [leBytes, ih]

theorem leNat_leBytes (n v : Nat) : leNat (leBytes n v) = v % 256 ^ n := by
  induction n generalizing v with
  | zero => simp [leBytes, leNat, Nat.mod_one]
  | succ n ih =>
    rw [Nat.pow_succ, Nat.mul_comm (256 ^ n), Nat.mod_mul]
    simp only [leBytes, leNat, ih, BitVec.toNat_ofNat]

theorem responseBytes_length (flags status tag detail : Nat) (res : Res) (h : (packRes res []).length ≤ 80) :
    (responseBytes flags status tag detail res).length = 96 := by
  simp only [responseBytes, List.length_append, leBytes_length, List.length_replicate]; omega

/-- The page's words that answering writes. -/
def answerWords (f k flags status detail : Nat) (res : Res) (a : Accepted) (s : State) : State :=
  inc (MB_CMDS f) (setMask (MB_DONE f) (2 ^ k) (clearMask (MB_BUSY f) (2 ^ k)
    (wrBytes (slotAddr f k + 128)
      (responseBytes (flags + 2 * b2n (reservedNonzero s f k a.opcode)) status (slotNat s f k 4 4) detail res)
      { s with mb.accepted := tdel (16 * f + k) s.mb.accepted })))

theorem answerX_eq {f k flags status detail : Nat} {res : Res} {a : Accepted} {s : State}
    (ha : tget (16 * f + k) s.mb.accepted = some a) (hs : a.silent = false) :
    answerX f k flags status detail res s =
      if bit (rd (answerWords f k flags status detail res a s) (MB_IRQ_CFG f)) 0 then msix f 0 (answerWords f k flags status detail res a s)
      else answerWords f k flags status detail res a s := by
  unfold answerX answerWords
  simp only [ha, hs, Bool.false_eq_true, if_false]

theorem answerX_regs {f k flags status detail : Nat} {res : Res} {a : Accepted} {s : State}
    (ha : tget (16 * f + k) s.mb.accepted = some a) (hs : a.silent = false) :
    (answerX f k flags status detail res s).regs = (answerWords f k flags status detail res a s).regs := by
  rw [answerX_eq ha hs]; split
  · rw [msix_eq]
  · rfl

theorem testBit_or_two_pow (x k : Nat) : bit (x ||| 2 ^ k) k = true := by
  simp only [bit, decide_eq_true_eq]
  have : (x ||| 2 ^ k).testBit k = true := by simp
  simpa [Nat.testBit, Nat.shiftRight_eq_div_pow, Nat.one_and_eq_mod_two] using this

theorem bit_eq_testBit (x k : Nat) : bit x k = x.testBit k := by
  rw [Nat.testBit_eq_decide_div_mod_eq]; rfl

theorem and_two_pow_eq (x k : Nat) : x &&& 2 ^ k = if bit x k then 2 ^ k else 0 := by
  apply Nat.eq_of_testBit_eq
  intro j
  rw [bit_eq_testBit, Nat.testBit_and, Nat.testBit_two_pow]
  by_cases h : k = j
  · subst h; cases hx : x.testBit k <;> simp
  · cases hx : x.testBit k <;> simp [h]

theorem bit_sub_and_two_pow (x k : Nat) : bit (x - (x &&& 2 ^ k)) k = false := by
  rw [and_two_pow_eq]
  split
  · rename_i h
    simp only [bit, decide_eq_true_eq, decide_eq_false_iff_not] at h ⊢
    have hp := Nat.two_pow_pos k
    have : x / 2 ^ k = (x - 2 ^ k) / 2 ^ k + 1 := by
      rw [← Nat.add_div_right _ hp, Nat.sub_add_cancel]
      rcases Nat.lt_or_ge x (2 ^ k) with hlt | hge
      · rw [Nat.div_eq_of_lt hlt] at h; simp at h
      · exact hge
    omega
  · rename_i h; simpa using h

theorem slot_in_page (f k : Nat) (hk : k < 16) (o : Nat) (ho : o < 224) : inPage f (slotAddr f k + o) = true :=
  inPage_of (by unfold slotAddr; omega) (by unfold slotAddr; omega)

theorem answerWords_spec {f k flags status detail : Nat} {res : Res} {a : Accepted} {s : State} (hk : k < 16)
    (hl : (packRes res []).length ≤ 80) :
    let t := answerWords f k flags status detail res a s
    t = { s with mb.accepted := tdel (16 * f + k) s.mb.accepted, regs := t.regs } ∧ SameWords s t (inPage f) ∧
    bit (rd t (MB_DONE f)) k = true ∧ bit (rd t (MB_BUSY f)) k = false ∧
    ∀ i, i < 96 → byteAt t (slotAddr f k + 128 + i) =
      ((responseBytes (flags + 2 * b2n (reservedNonzero s f k a.opcode)) status (slotNat s f k 4 4) detail res).getD i 0).toNat := by
  intro t
  generalize hb : responseBytes (flags + 2 * b2n (reservedNonzero s f k a.opcode)) status (slotNat s f k 4 4) detail res = bs at *
  have hbl : bs.length = 96 := by rw [← hb]; exact responseBytes_length _ _ _ _ _ hl
  generalize hu : wrBytes (slotAddr f k + 128) bs { s with mb.accepted := tdel (16 * f + k) s.mb.accepted } = u
  have ht : t = inc (MB_CMDS f) (setMask (MB_DONE f) (2 ^ k) (clearMask (MB_BUSY f) (2 ^ k) u)) := by
    simp only [t, answerWords, hb, hu]
  have hue := hu ▸ wrBytes_eq bs (slotAddr f k + 128) { s with mb.accepted := tdel (16 * f + k) s.mb.accepted }
  have hus : ∀ j, (j < slotAddr f k + 128 ∨ slotAddr f k + 128 + 96 ≤ j) → tget j u.regs = tget j s.regs := by
    intro j h; rw [← hu, wrBytes_below _ _ _ _ (by rw [hbl]; exact h)]
  have other : ∀ j, j ≠ (MB_CMDS f).addr → j ≠ (MB_DONE f).addr → j ≠ (MB_BUSY f).addr → tget j t.regs = tget j u.regs := by
    intro j h1 h2 h3
    rw [ht]
    simp only [inc, incFld, setFld, setMask, clearMask, wr, tget_tput_ne h1, tget_tput_ne h2, tget_tput_ne h3]
  have c : (MB_CMDS f).addr = 0x200028 + 0x1000 * f := rfl
  have d : (MB_DONE f).addr = 0x200008 + 0x1000 * f := rfl
  have b : (MB_BUSY f).addr = 0x200004 + 0x1000 * f := rfl
  refine ⟨?_, ?_, ?_, ?_, ?_⟩
  · rw [ht]; simp only [inc, incFld, setFld, setMask, clearMask, wr]; rw [hue]
  · intro j hj
    have hj' : ¬ (0x200000 + 0x1000 * f ≤ j ∧ j < 0x201000 + 0x1000 * f) := by simpa [inPage] using hj
    rw [other j (by omega) (by omega) (by omega), hus j (by unfold slotAddr; omega)]
  · rw [ht]
    have : rd (inc (MB_CMDS f) (setMask (MB_DONE f) (2 ^ k) (clearMask (MB_BUSY f) (2 ^ k) u))) (MB_DONE f) =
        rd (setMask (MB_DONE f) (2 ^ k) (clearMask (MB_BUSY f) (2 ^ k) u)) (MB_DONE f) := rd_wr_ne (by rw [c, d]; omega) _ _
    rw [this, setMask, rd_wr_same, Nat.mod_eq_of_lt, testBit_or_two_pow]
    exact Nat.or_lt_two_pow (rd_lt _ _ (by simp [MB_DONE])) (Nat.pow_lt_pow_right (by omega) (by omega))
  · rw [ht]
    have h1 : rd (inc (MB_CMDS f) (setMask (MB_DONE f) (2 ^ k) (clearMask (MB_BUSY f) (2 ^ k) u))) (MB_BUSY f) =
        rd (setMask (MB_DONE f) (2 ^ k) (clearMask (MB_BUSY f) (2 ^ k) u)) (MB_BUSY f) := rd_wr_ne (by rw [c, b]; omega) _ _
    have h2 : rd (setMask (MB_DONE f) (2 ^ k) (clearMask (MB_BUSY f) (2 ^ k) u)) (MB_BUSY f) =
        rd (clearMask (MB_BUSY f) (2 ^ k) u) (MB_BUSY f) := rd_wr_ne (by rw [d, b]; omega) _ _
    rw [h1, h2, clearMask, rd_wr_same, Nat.mod_eq_of_lt, bit_sub_and_two_pow]
    have : rd u (MB_BUSY f) < 2 ^ 32 := rd_lt _ _ (by simp [MB_BUSY])
    omega
  · intro i h
    have ha4 : (slotAddr f k + 128) % 4 = 0 := by unfold slotAddr; omega
    have hw := byteAt_wrBytes bs (slotAddr f k + 128) { s with mb.accepted := tdel (16 * f + k) s.mb.accepted } ha4 i (by omega)
    rw [hu] at hw
    rw [List.getD_eq_getElem?_getD, List.getElem?_eq_getElem (by omega), Option.getD_some, ← hw]
    unfold byteAt rdWord rd
    rw [other _ (by rw [c]; unfold slotAddr; simp only; omega) (by rw [d]; unfold slotAddr; simp only; omega)
      (by rw [b]; unfold slotAddr; simp only; omega)]

theorem responseBytes_status (flags status tag detail : Nat) (res : Res) :
    ((responseBytes flags status tag detail res).getD 2 0).toNat = status % 256 ∧
      ((responseBytes flags status tag detail res).getD 3 0).toNat = status / 256 % 256 := by
  simp [responseBytes, leBytes]

theorem word_of_bytes (s : State) (a : Nat) (h : a % 4 = 0) : bits (rdWord s a) 31 16 = byteAt s (a + 2) + 256 * byteAt s (a + 3) := by
  have h2 : (a + 2) / 4 * 4 = a := by omega
  have h3 : (a + 3) / 4 * 4 = a := by omega
  have m2 : (a + 2) % 4 = 2 := by omega
  have m3 : (a + 3) % 4 = 3 := by omega
  unfold byteAt
  rw [h2, h3, m2, m3]
  unfold bits
  simp only [Nat.reduceMul, Nat.reduceAdd, Nat.reduceSub, Nat.reducePow]
  omega

/-- Everything that answering can do (R424, R426). -/
theorem answer_spec {f k st detail : Nat} {res : Res} {a : Accepted} {u : State} (hk : k < 16) (hst : st < 65536)
    (hl : (packRes res []).length ≤ 80) (ha : tget (16 * f + k) u.mb.accepted = some a) (hs : a.silent = false) :
    Answered f k st (answer f k st detail res u) ∧ AfterAnswer f k u (answer f k st detail res u) ∧
    ∀ i, i < 96 → byteAt (answer f k st detail res u) (slotAddr f k + 128 + i) =
      ((responseBytes (2 * b2n (reservedNonzero u f k a.opcode)) st (slotNat u f k 4 4) detail res).getD i 0).toNat := by
  obtain ⟨h1, h2, h3, h4, h5⟩ := answerWords_spec (f := f) (k := k) (flags := 0) (status := st) (detail := detail) (res := res) (a := a)
    (s := u) hk hl
  have hr : (answer f k st detail res u).regs = (answerWords f k 0 st detail res a u).regs := answerX_regs ha hs
  have he : answer f k st detail res u = { answerWords f k 0 st detail res a u with emitted := (answer f k st detail res u).emitted } := by
    unfold answer
    rw [answerX_eq ha hs]; split
    · rw [msix_eq]
    · rfl
  have hby : ∀ x, byteAt (answer f k st detail res u) x = byteAt (answerWords f k 0 st detail res a u) x := by
    intro x; unfold byteAt rdWord; rw [rd_regs _ hr]
  have hacc : (answer f k st detail res u).mb.accepted = tdel (16 * f + k) u.mb.accepted := by rw [he, h1]
  refine ⟨⟨?_, ?_, ?_, ?_⟩, ⟨?_, ?_⟩, ?_⟩
  · rw [hacc]; exact tget_tdel_same _ _
  · have h4' : (slotAddr f k + 128) % 4 = 0 := by unfold slotAddr; omega
    rw [word_of_bytes _ _ h4', hby, hby, h5 2 (by omega), h5 3 (by omega), (responseBytes_status ..).1, (responseBytes_status ..).2]
    omega
  · rw [rd_regs _ hr]; exact h3
  · rw [rd_regs _ hr]; exact h4
  · rw [hr]; rw [he]; rw [h1]
  · intro j hj; rw [hr]; exact h2 j hj
  · intro i hi; rw [hby, h5 i hi]; simp

end Sys2Proof.Machine
end

