-- ==== Sys2Proof/Laws/Memory.lean ====
section
/-! SUPPORT. Memory: every operation keeps its canonical form, and a byte reads as it was last written. -/

namespace Sys2Proof.Machine
open Sys2Proof

theorem Memory.wf_nil : Memory.wf [] := ⟨List.Pairwise.nil, fun _ h => by cases h⟩

theorem wf_putByte (a : Nat) (b : Byte) {m : List Host.Cell} (h : Memory.wf m) : Memory.wf (putByte a b m) := by
  unfold putByte
  split
  · exact ⟨rising_tdel a h.1, fun c hc => h.2 c (mem_tdel hc)⟩
  · refine ⟨rising_tput a b h.1, fun c hc => ?_⟩
    rcases mem_tput hc with rfl | hc
    · assumption
    · exact h.2 c hc

theorem wf_putBytes (bs : List Byte) : ∀ (a : Nat) {m : List Host.Cell}, Memory.wf m → Memory.wf (putBytes a bs m) := by
  induction bs with
  | nil => intro a m h; exact h
  | cons b r ih => intro a m h; exact ih (a + 1) (wf_putByte a b h)

theorem wf_filter (f : Host.Cell → Bool) {m : List Host.Cell} (h : Memory.wf m) : Memory.wf (m.filter f) :=
  ⟨rising_filter f h.1, fun c hc => h.2 c (List.mem_filter.1 hc).1⟩

theorem wf_writeMem (w : MemWrite) {s : State} (h : Memory.wf s.mem) : Memory.wf (writeMem w s).mem := wf_putBytes w.data w.addr h

theorem wf_zeroRange (a n : Nat) {s : State} (h : Memory.wf s.mem) : Memory.wf (zeroRange a n s).mem := wf_filter _ h

theorem tget_putByte (a j : Nat) (b : Byte) (m : List Host.Cell) :
    (tget j (putByte a b m)).getD 0 = if j = a then b else (tget j m).getD 0 := by
  unfold putByte
  split
  · by_cases h : j = a
    · subst_vars; simp
    · simp [tget_tdel_ne h, h]
  · rw [tget_tput]
    split <;> simp

/-- A byte of memory after bytes were written from `a` on. -/
theorem tget_putBytes (bs : List Byte) : ∀ (a j : Nat) (m : List Host.Cell),
    (tget j (putBytes a bs m)).getD 0 = if a ≤ j ∧ j < a + bs.length then bs.getD (j - a) 0 else (tget j m).getD 0 := by
  induction bs with
  | nil => intro a j m; simp [putBytes] <;> omega
  | cons b r ih =>
    intro a j m
    rw [putBytes, ih, tget_putByte]
    simp only [List.length_cons]
    by_cases h : j = a
    · subst h
      rw [if_neg (by omega), if_pos rfl, if_pos (by omega)]
      simp
    · by_cases h2 : a + 1 ≤ j ∧ j < a + 1 + r.length
      · rw [if_pos h2, if_pos (by omega)]
        obtain ⟨n, rfl⟩ : ∃ n, j = a + 1 + n := ⟨j - a - 1, by omega⟩
        rw [show a + 1 + n - (a + 1) = n by omega, show a + 1 + n - a = n + 1 by omega]
        simp
      · rw [if_neg h2, if_neg h, if_neg (by omega)]

/-- The byte at an address after a write. -/
theorem memGet_writeMem (w : MemWrite) (s : State) (j : Nat) :
    memGet (writeMem w s) j = if w.addr ≤ j ∧ j < w.addr + w.data.length then w.data.getD (j - w.addr) 0 else memGet s j :=
  tget_putBytes w.data w.addr j s.mem

end Sys2Proof.Machine
end

