-- ==== Sys2Proof/Tests/Slice0.lean ====
section
/-! SUPPORT. The model's own tests: each well-formedness check refuses an ill-formed command, and the hypotheses of every statement are
met by a concrete state. -/

set_option Elab.async false

namespace Sys2Proof.Tests
open Sys2Proof Sys2Proof.Machine

/-- The reset state with a command accepted in a slot, its parameters as words from byte 16 of the slot. -/
def withCmd (f k op : Nat) (params : List Nat) (s : State) : State :=
  let s := { s with mb.accepted := tput (16 * f + k) { opcode := op } s.mb.accepted }
  params.zipIdx.foldl (fun s p => wrWord (slotAddr f k + 16 + 4 * p.2) p.1 s) s

/-- A check of the next state that a command answers. -/
def after (i : Instr) (s : State) (p : State → Bool) : Bool := match exec i s with | .next t => p t | _ => false

/-- Ready, as a check. -/
def isReady (f k op : Nat) (s : State) : Bool :=
  decide (tget (16 * f + k) s.mb.accepted = some { opcode := op }) && mailboxServes s && decide (f < 64) && decide (k < 16)

/-- The status in an answered slot. -/
def status (t : State) (f k : Nat) : Nat := bits (rdWord t (slotAddr f k + 128)) 31 16

/-- The reset state at a Ridge time. -/
def atTime (ns : Nat) (s : State) : State := { s with ridge.ns := ns }

/-- A mark with its words, armed. -/
def withMark (m time action ctrl : Nat) (s : State) : State :=
  wr (RIDGE_MARK_STATUS m) 0x40000000 (wr (RIDGE_MARK_CTRL m) (0x80000000 + ctrl) (wr (RIDGE_MARK_ACTION m) action
    (wr (RIDGE_MARK_TIME_LO m) time s)))

/-- A mode change to epoch 1 at 100 ms, pending, with these units taking part; the mark of its next step is due. -/
def pendingChange (units m : Nat) : State :=
  let s := beginChange 100000000 (wr RIDGE_EPOCH_REQUIRED units State.reset)
  { atTime 101000000 s with ridge.due := [m] }

/-- The same, reverting at 200 ms. -/
def revertingChange (units m : Nat) : State :=
  let s := pendingChange units m
  { setFld RIDGE_EPOCH_STATE 31 16 2 s with ridge.phase := .reverting, ridge.revertAt := 200000000, ridge.unitEpoch := [(9, 1)] }

/-- Port 2 carries a camera of 4 lines of 8 pixels in RAW12, with its link up; its frame slots lie at 0x100000 of the owner. -/
def camPort : State :=
  let cfg := [(0x21200, 0x99), (0x21220, 0x82C), (0x21224, 0x01F40004), (0x21228, 0x01020064), (0x2122C, 0x00100065), (0x21230, 0x100000),
    (0x21238, 64), (0x2123C, 7)]
  let s := cfg.foldl (fun s p => setLive ⟨p.1, 0⟩ p.2 (wr ⟨p.1, 0⟩ p.2 s)) State.reset
  { setMask CAMIN_LINK_UP 4 s with memory.allocs := [(0x100000, { len := 0x100000, owner := 0 })] }

/-- A frame of that port with this many lines received. -/
def camFrame (n : Nat) : CamFrame := { cfg := camCfg camPort 2 1000, epoch := 0, number := 5, tFs := 1000, received := n, embedded := some [] }

/-- The port with that frame open. -/
def camOpen (n : Nat) : State := putCam 2 { open_ := some (camFrame n), nextFrame := 6 } camPort

/-- An Ethernet frame of 64 bytes from this source address, with an ethertype. -/
def ethFrame (dst src etype : Nat) : List Byte :=
  let be := fun (n v : Nat) => (leBytes n v).reverse
  be 6 dst ++ be 6 src ++ be 2 etype ++ List.replicate 50 0

/-- TEN 2 has its link up and its port enabled, and forwards address 7 of VLAN 1 to TEN 2 and TEN 3. -/
def netPort : State :=
  let s := setMask NETIN_LINK_UP 0xC (setLive (NETIN_PORT_CTRL 2) 0x00010001 (setLive (NETIN_PORT_CTRL 3) 0x00010001 State.reset))
  { s with net.live.fwd := [(0, { mac := 7, vid := 1, mask := 0xC })] }

/-- Domain 0 holds 1 MiB at address 0x100000 of stack 0, which is in use; peg 5 is its own. -/
def withMemory : State :=
  let s := wr SILL_STACKS_USED 15 (wr SILL_PACKAGE 15 State.reset)
  { s with memory.allocs := [(0x100000, { len := 0x100000, owner := 0 })], scribe.pegs := [(5, { owner := 0, value := 7 })] }

/-- The same with plain ring 3 of 16 entries, which holds one entry. -/
def withRing : State :=
  { withMemory with scribe.rings := [(3, { owner := 0, packet := false, log2 := 4, base := 0x100000, prod := 1, prodN := 0xFFFFFFFE, resv := 1 })], mem := [(0x100004, 9)] }

/-- A graph node of a kind that binds nothing and waits for nothing. -/
def aNode (kind : Nat) : Node :=
  { kind := kind, flags := 0, bay := 0, priority := 3, plan := 0, nbOffset := 0, nbPeriod := 0, deps := [], sigs := [], binds := [] }

/-- A graph of domain 0 with these nodes. -/
def aGraph (nodes : List Node) : Graph := { domain := 0, nodes := nodes, iterations := 0, compRing := none }

/-- A wait on peg 5 for value 9. -/
def aWait : MbWait := { peg := 5, target := 9, async := false, vector := 0xFF, slot := 2, deadline := some 0 }

/-- Stream 4 of domain 0 is enabled, sends over PCIe, and its window has a deadline of 1 ms. -/
def withStream : State :=
  let s := setLive (NETIN_OUT_PERIOD 4) 10000000 (setLive (NETIN_OUT_DEADLINE 4) 1000000 (setLive (NETIN_OUT_CTRL 4) 0x45 withMemory))
  let s := setLive (NETIN_OUT_SRC 4) 0xFFFF0005 (setLive (NETIN_OUT_AREA_LO 4) 0x100000 (setLive (NETIN_OUT_AREA_SIZE 4) 8 s))
  { s with out.streams := [(4, { enabled := true, requested := true })], power.state := .run, mb.linkUp := true, mb.foremanUp := true }

/-- A message of that stream with these bytes. -/
def aMessage (s : State) (bs : List Byte) : Message :=
  { cfg := streamCfg s 4, tov := 1000, oldestAge := 7, epoch := 0, degraded := 0, verdict := 0, bytes := bs, due := 5000000 }

/-- A registration of domain 0 without bindings. -/
def aSlot : CycleSlot := { owner := 0, desc := 0x100000, binds := [], priority := 3, peg := 5, amount := 1 }

/-- Instance 2 of a lone node. -/
def aLone (nd : Node) (x : Inst) (s : State) : State :=
  { s with scribe.graphs := [(6, { aGraph [nd] with iterations := 1, started := true })], scribe.insts := [(2, x)] }

/-- A lone instance in a state with one run. -/
def anInst (st : IState) (r : Run) : Inst := { graph := 6, node := 0, n := 0, st := st, runs := [r] }

/-- A run that has started on Bay 0, and one that has ended. -/
def aRun : Run := { bay := 0, named := true, started := true, trusses := [0], bound := 10 }
def doneRun : Run := { aRun with ended := true }

/-- A plan of one truss at 0x100000, without sections, and four Bays with their trusses available. -/
def withPlan : State :=
  (List.range 4).foldl (fun s b => setMask (BAY_STATUS b) 0xFFFF s) { withMemory with mem := [(0x100002, 1)] }

/-- The node that runs the plan. -/
def planNode : Node := { aNode 1 with plan := 0x100000 }

/-- The descriptor of a plain tensor at a base. -/
def plainTensor (fmt base : Nat) (shape : List Nat) : List Byte :=
  let two := decide (shape.length = 2)
  leBytes 1 1 ++ leBytes 1 shape.length ++ leBytes 1 fmt ++ leBytes 5 0 ++ leBytes 8 base ++ leBytes 64 0 ++ leBytes 4 (shape.getD 0 0) ++
    leBytes 4 (shape.getD 1 0) ++ leBytes 56 0 ++ leBytes 8 (if two then shape.getD 1 0 else 1) ++ leBytes 8 1 ++ leBytes 96 0

/-- Tensors in slots from 1, with the bindings of arguments from 0 to them. -/
def withTensors (ts : List (List Byte)) (s : State) : State :=
  { s with tensors.table := (ts.zipIdx).map (fun p => (p.2 + 1, { owner := 0, gen := 0, bytes := p.1 })) }
def bindAll (kinds : List Nat) : List Bind := (kinds.zipIdx).map (fun p => { ref := p.2 + 1, arg := p.2, kind := p.1 })

/-- A ready instance of a unit, and one in progress; its descriptor is at 0x100000. -/
def unitHead (kind : Nat) (kinds : List Nat) (s : State) : State :=
  aLone { aNode kind with plan := 0x100000, binds := bindAll kinds } { anInst .ready { bay := 0 } with tReady := 1 } s
def unitRun (kind : Nat) (kinds : List Nat) (s : State) : State :=
  aLone { aNode kind with plan := 0x100000, binds := bindAll kinds } (anInst .running { bay := 0, named := true, started := true }) s

/-- The same tensor as a sharded one, whose one replica is on Bay 0. -/
def onOneBay (b : List Byte) : List Byte := ((b.set 3 1).set 5 1).set 72 1

/-- A Ledger operation on cache 0 of FP16 vectors, with its tensors at 0x101000: the words of the input are given. -/
def ledgerOp (op inRank second : Nat) (words : List Nat) (s : State) : State :=
  let cache := leBytes 1 1 ++ leBytes 1 0 ++ leBytes 1 1 ++ leBytes 1 1 ++ leBytes 1 1 ++ leBytes 1 0x0B ++ leBytes 2 32 ++ leBytes 8 0 ++ leBytes 4 16 ++
    leBytes 4 16 ++ leBytes 4 0x80000000 ++ leBytes 2 0xFFFF ++ leBytes 2 0 ++ leBytes 4 1000 ++ leBytes 220 0
  let d := leBytes 1 1 ++ leBytes 1 op ++ leBytes 2 0 ++ leBytes 1 0 ++ leBytes 1 1 ++ leBytes 1 2 ++ leBytes 1 3 ++ leBytes 4 0 ++ leBytes 2 2 ++
    leBytes 1 0 ++ leBytes 1 (if op = 7 then 3 else 0) ++ leBytes 8 77
  let s := writeBytes 0x101000 (words.flatMap (leBytes 4)) (writeBytes 0x100000 d s)
  let s := withTensors ([plainTensor 0x0E 0x101000 (if inRank = 2 then [1, second] else [1]), plainTensor 0x0E 0x102000 [if op = 4 then 2 else 1],
    plainTensor 0x0E 0x103000 [2, if op = 4 then 8 else 2], plainTensor 0x0E 0x104000 [1]].map (fun b => if op = 7 then onOneBay b else b)) s
  unitHead 5 [0, 1, 1, 1] { s with ledger.caches := [(0, { owner := 0, bytes := cache })] }

/-- Sequence 3 of cache 0 with five tokens in page 4, which is RESIDENT in slot 2. -/
def withSeq (s : State) : State :=
  { s with ledger.seqs := [(3, { cache := 0, droppable := true, len := 5, list := [(0, 4)] })],
           ledger.pages := [(4, { state := .resident, refcount := 1, fill := 5, slot := some 2, seq := 3, tOld := 9, droppable := true })] }

/-- A Planer descriptor that uses every port, with epochs of 100 ms of 10 slices and voxels of 0.1 m around the vehicle, in force. -/
def withPlaner : State :=
  let d := leBytes 1 1 ++ leBytes 1 1 ++ leBytes 1 0xFF ++ leBytes 1 7 ++ leBytes 2 10000 ++ leBytes 2 1000 ++ leBytes 4 1000 ++ leBytes 4 50000 ++
    leBytes 4 100000000 ++ leBytes 4 0 ++ leBytes 4 100000000 ++ leBytes 4 100 ++ leBytes 4 0xFFFF0000 ++ leBytes 4 0xFFFF0000 ++ leBytes 4 0xFFFF0000 ++
    leBytes 6 0x0064006400640000 ++ leBytes 6 0x001000640064 ++ leBytes 64 0 ++ leBytes 8 0x180000 ++ leBytes 2 16 ++ leBytes 2 0x1FFF ++ leBytes 4 0x3FFFF ++
    leBytes 8 0 ++ leBytes 8 0x190000 ++ leBytes 8 0x100000 ++ leBytes 4 0x1000 ++ leBytes 1 2 ++ leBytes 27 0 ++
    (List.range 8).flatMap (fun _ => leBytes 4 0x40000000 ++ leBytes 28 0)
  { withMemory with plan.live := d, plan.segs := [⟨d, 1, none, false⟩], scribe.pegs := [] }

/-- A point of port 0 at 4 m, straight ahead, of time 205 ms in grid epoch 2, and its record. -/
def aPoint (range flags : Nat) : IngestRec := { point := leBytes 4 range ++ leBytes 10 0 ++ leBytes 2 flags, t := 205000000, port := 0 }

/-- The Raft's grid of 4 × 4 cells with one channel of FP32 is in force. -/
def withGrid (s : State) : State :=
  let g := leBytes 1 1 ++ leBytes 1 1 ++ leBytes 2 1 ++ leBytes 2 4 ++ leBytes 2 4 ++ leBytes 2 100 ++ leBytes 1 0x0D ++ leBytes 1 1 ++ leBytes 12 0 ++
    leBytes 4 1000 ++ leBytes 4 16 ++ leBytes 8 0x180000 ++ leBytes 8 0x190000 ++ leBytes 2 16 ++ leBytes 6 0 ++ leBytes 2 0 ++ leBytes 2 1 ++ leBytes 196 0
  { s with raft.live := g }

/-- A Raft cycle on one voxel input, with T scheduled from the stamp. -/
def raftCycle (s : State) : State :=
  let h := leBytes 1 1 ++ leBytes 1 0 ++ leBytes 1 0 ++ leBytes 1 1 ++ leBytes 1 1 ++ leBytes 1 0 ++ leBytes 2 0xFFFF ++ leBytes 8 5 ++ leBytes 4 1000 ++ leBytes 4 0 ++ leBytes 4 1 ++
    leBytes 228 0
  let e := leBytes 1 2 ++ leBytes 1 2 ++ leBytes 2 0 ++ leBytes 2 1 ++ leBytes 5 0 ++ leBytes 53 0
  let s := writeBytes 0x101000 (leBytes 1 1 ++ leBytes 7 0 ++ leBytes 8 700000) (writeBytes 0x100000 (h ++ e) s)
  withGrid (withTensors [plainTensor 0x02 0x101000 [4096], plainTensor 0x02 0x110000 [4096]] s)

/-- A Plumb problem of one block of one unknown and no skipped factor, dense, by Cholesky, with a deadline of 1 ms. -/
def plumbCycle (s : State) : State :=
  let d := leBytes 1 1 ++ leBytes 3 0 ++ leBytes 2 1 ++ leBytes 2 0 ++ leBytes 4 1 ++ leBytes 2 0 ++ leBytes 2 0 ++ leBytes 4 1000000 ++ leBytes 20 0 ++
    leBytes 4 1 ++ leBytes 12 0 ++ leBytes 2 0x0202 ++ leBytes 2 0 ++ leBytes 8 0x0706050403020100
  let s := writeBytes 0x101000 (leBytes 1 1 ++ leBytes 15 0) (writeBytes 0x100000 d s)
  let s := withTensors ([0x101000, 0x102000, 0x103000, 0x104000, 0x105000, 0x106000, 0x107000, 0x108000].map (fun b => plainTensor 2 b [0x4000])) s
  setLive PLUMB_CTRL 1 s

/-- A Tally cycle on an empty table, whose tensors lie from 0x101000; the detection header has this verdict. -/
def tallyCycle (op verdict : Nat) (s : State) : State :=
  let c := leBytes 1 1 ++ leBytes 1 op ++ leBytes 1 0 ++ leBytes 1 4 ++ leBytes 1 2 ++ leBytes 2 0 ++ leBytes 1 1 ++ leBytes 1 1 ++ leBytes 1 1 ++ leBytes 2 0xFFFF ++
    leBytes 12 0 ++ leBytes 8 5 ++ leBytes 76 0 ++ leBytes 8 0x0706050403020100 ++ leBytes 12 0 ++ leBytes 1 1 ++ leBytes 1 2
  let s := writeBytes 0x101000 (leBytes 1 1 ++ leBytes 1 verdict ++ leBytes 6 0 ++ leBytes 8 90000) (writeBytes 0x100000 c s)
  let b := fun (fmt base : Nat) (shape : List Nat) => plainTensor fmt base shape
  let s := withTensors [b 2 0x101000 [64], b 2 0x102000 [512], b 2 0x103000 [64], b 2 0x104000 [1024], b 2 0x105000 [128],
    leBytes 1 1 ++ leBytes 1 3 ++ leBytes 1 0x0F ++ leBytes 5 0 ++ leBytes 8 0x106000 ++ leBytes 64 0 ++ leBytes 4 1 ++ leBytes 4 12 ++ leBytes 4 12 ++ leBytes 52 0 ++
      leBytes 8 144 ++ leBytes 8 12 ++ leBytes 8 1 ++ leBytes 88 0, b 0x0E 0x107000 [1], b 2 0x108000 [256]] s
  setLive TALLY_CTRL 1 { s with tally.live := leBytes 1 1 ++ leBytes 1 1 ++ leBytes 2 1 ++ leBytes 4 0 ++ leBytes 8 0x180000 ++ leBytes 48 0 }

/-- The session of the device is running, with this event slot table and Ridge time. -/
def withRun (ns : Nat) : State := atTime ns { withMemory with power.state := .run, mb.foremanUp := true, mb.linkUp := true }

/-- The reset state with one object of each kind that belongs to domain 1, and command 0x0B05 for it. -/
def withDomain : State :=
  withCmd 0 1 0x0B05 [1] { withMemory with
    memory.allocs := [(0x100000, { len := 0x100000, owner := 0, rmask := 2 }), (0x200000, { len := 0x100000, owner := 1 })]
    scribe.pegs := [(5, { owner := 0, value := 7 }), (6, { owner := 1 })], scribe.rings := [(3, { owner := 1, packet := false, log2 := 4, base := 0x200000 })]
    scribe.graphs := [(6, { aGraph [aNode 1] with domain := 1 })], ridge.markOwner := [(9, 1)], tensors.table := [(1, { owner := 1, gen := 0, bytes := [] })]
    ledger.caches := [(0, { owner := 1, bytes := leBytes 256 1 })], out.streams := [(4, { owner := some 1, enabled := true })] }

/-- The Plinth in a state, at a step. -/
def plinthAt (p : Plinth) (step : Nat) : State := { withRun 7 with power.state := p, power.step := step, power.released := false }
/-- Storage is unlocked, mounted, and both dies work. -/
def withYard (ns : Nat) : State := setMask FENCE_STATUS 1 (setMask YARD_STATUS 1 (setFld SILL_PACKAGE 9 8 2 (withRun ns)))

/-- A started read of block 7 into 0x100000, and a write of the same with one record to program. -/
def yardRead : StoreCmd := { serial := 3, at_ := 0, slot := 1, opcode := 0x0801, a := 7, b := 1, c := 0x100000, started := true, snap := some [.block (nsKey 0 7) (some [5, 6, 7]) 2] }
def yardWrite : StoreCmd := { serial := 3, at_ := 0, slot := 1, opcode := 0x0802, a := 7, b := 1, c := 0x100000, started := true, todo := [.block (nsKey 0 7) (some [5, 6, 7]) 3] }




/-! ### Ill-formed commands -/

theorem test_illformed_registers_and_time :
    ([.registerWrite 64 0 4 0 [], .registerWrite 0 0 3 0 [], .registerWrite 0 0x23FFFD 4 0 [], .registerWrite 0 0 1 256 [],
    .registerWrite 0 0 4 0 [.incr 0 1 1], .registerWrite 0 0 4 0 [.put 32 0 1], .registerWrite 0 0 4 0 [.set (2 ^ 32)], .rcRead 64 0 4 [],
    .rcRead 0 0 5 [], .rcRead 0 0x23FFF9 8 [], .rcRead 0 0 4 [.set (2 ^ 32)], .lowWordReadLatch 64 0, .lowWordReadLatch 0 2, .lowWordReadLatch 0 0x240000,
    .referenceTick [(64, 0)] 0, .ridgeIncCommit (2 ^ 32), .ridgeStep (2 ^ 32), .ridgeCtrlWrite (2 ^ 32), .ppsOutCfgWrite (2 ^ 32),
    .scribePegAddWrite (2 ^ 32), .pegSetWrite (2 ^ 32), .vlinkCtrlWrite false (2 ^ 32), .ownerSecretSubmit (2 ^ 32), .ownerRekeySubmit (2 ^ 32),
    .governorCapReqWrite (2 ^ 32), .governorExtReqWrite (2 ^ 32), .recorderCommitWrite (2 ^ 32), .disciplineSample 12 0 0 0,
    .announceReceived 12 { priority1 := 0, clockClass := 0, clockAccuracy := 0, variance := 0, priority2 := 0, identity := 0, stepsRemoved := 0, ptpScale := true },
    .pdelayExchange 12 0 0 0 0, .gclConfigApply 12, .gateIntervalEnd 12, .gptpSyncTransmit 12, .announceReceiptTimeout 12, .replicaCorrection 23 0,
    .tjReport 23 0, .markCtrlWrite 1024 0, .markCtrlWrite 0 (2 ^ 32), .markFire 1024 none, .markFire 0 (some (2 ^ 32)), .epochUnitLatch 14,
    .gclConfigChange 12 0, .gclConfigChange 0 (2 ^ 32), .egressFrameStart 14 0, .egressFrameStart 0 8, .canTxStart 4 0 0, .canTxStart 0 16 0] : List Instr).any Instr.wf = false := by
  decide +kernel

theorem test_illformed_sensors :
    ([.pocCommand 16 0, .pocCommand 0 (2 ^ 32), .camPortEnableWrite 16 0, .camPortEnableWrite 0 (2 ^ 32), .pocRampComplete 16 0 0 0, .pocAutoRetry 16,
    .aphyPacketReceived 16 0 true, .aphyLockLoss 16, .aphyLinkUp 16, .cameraAbsentTimeout 16, .frameTimeout 16, .patternCheckDone 16 false false,
    .pocFaultDetected 16 0, .pocFaultDetected 0 128, .pocFaultClear 16 0 0, .pocFaultClear 0 (2 ^ 32) 0, .pocFaultClear 0 0 128,
    .frameStartReceived 16 0 0 0 false, .frameStartReceived 0 4 0 0 false, .frameEndReceived 0 0 3, .lineReceived 16 0 0 0 [], .lineReceived 0 4 0 0 [],
    .lineReceived 0 0 64 0 [], .lineReceived 0 0 0 5 [], .checkerSelftestIdle 24 false, .ethFrameReceived 14 0 true [], .ethLinkDown 14 false,
    .ethLinkUp 14 0 0 0, .jigPacket 8 [] false false, .sweepTimeout 8 false, .synthBlockInject 8 [], .synthBlockInject 0 [(0, 256)],
    .canFrameReceived 4 0 0 false [], .canFrameReceived 0 0 0 false (List.replicate 65 0), .canErrorFrame 4 false, .canBusoffRecovery 4,
    .refImuSample 0 [0, 0] [0, 0, 0] false, .refImuSample 0 [0, 0, 0] [0, 0, 0, 0] false] : List Instr).any Instr.wf = false := by
  decide +kernel

theorem test_illformed_fabric_and_outputs :
    ([.baySetPointWrite 4 0, .baySetPointWrite 0 (2 ^ 32), .instanceNamed 4, .shadowLoadComplete 4 0, .shadowLoadComplete 0 16, .trussSelftestStart 4 0,
    .trussSelftestStart 0 16, .trussSelftestDone 4 0 .pass, .ringPopRegisterRead 3 [], .ledgerOpen 0 [16384] [], .ledgerOpen 0 [] [2 ^ 22],
    .ledgerFork 0 [16384] [], .ledgerAppend 0 [] [2 ^ 22], .ledgerRead 0 [16384] [], .ledgerClose 0 [16384] [], .ledgerRefill 0 [] [2 ^ 22],
    .recomputeDeadline (2 ^ 22), .streamCapture 32, .captureComplete 32, .segmentLaunch 32, .pcieDelivery 32 0, .windowDecision 32] : List Instr).any Instr.wf = false := by
  decide +kernel

theorem test_illformed_host_and_domains :
    ([.mbDoorbell 64 0, .mbDoorbell 0 (2 ^ 32), .copyComplete 64 0 [] none, .copyComplete 0 16 [] none, .timeCorrelate 64 0 0 0, .recRead 0 16 [],
    .adapterStore 64 0 { templates := [] }, .camControlReply 0 16 [], .ringPush 64 0 0, .ringPush 0 0 3, .ringPop 0 16 0 [], .ringPop 0 0 3 [],
    .waitTimeout 64 0, .waitTimeout 0 64, .functionLevelReset 64, .busMasterDisable 64, .numvfsLowered 64, .numvfsRaised 64, .domainClose 64,
    .domainQuiesce 64, .domainResume 64, .domainSettled 64, .scrubRead 4 0 none false, .scrubRead (2 ^ 46) 0 none false, .scrubRead 0 3 none false,
    .purlinLinkDown 4 0, .purlinLinkDown 0 3, .purlinLinkUp 4 0 0, .purlinLinkUp 0 3 0] : List Instr).any Instr.wf = false := by
  decide +kernel

theorem test_illformed_storage_power_and_safety :
    ([.wordlineVerified 0 0 0 10001, .journalPageVerified 0 10001, .patrolPass 0 0 [(2, true)] [] false, .patrolPass 0 0 [] [(64, 0)] false,
    .freeBlockErase 2 0 0 0 0 false, .freeBlockErase 0 0 0 0 10001 false, .faultReport 29 0, .faultReport 0 16, .inputSample 0 0 [], .railFault 11,
    .railStepTimeout 11, .crashDischarge 11 0 0, .controlInterval [] [0, 0, 0, 0, 0] [0, 0, 0, 0] (List.replicate 4 ([], 0)),
    .controlInterval (List.replicate 11 ([], 0)) [] [0, 0, 0, 0] (List.replicate 4 ([], 0)),
    .controlInterval (List.replicate 11 ([], 0)) [0, 0, 0, 0, 0] [] (List.replicate 4 ([], 0)),
    .controlInterval (List.replicate 11 ([], 0)) [0, 0, 0, 0, 0] [0, 0, 0, 0] [], .ageTrimRise 5, .eventOccurrence 65536 0 0,
    .eventOccurrence 0 (2 ^ 32) 0, .eventOccurrence 0 0 (2 ^ 64), .powerOn { bays := 16 }, .powerOn { drams := 16 }, .pkgReset { nand := 4 },
    .defaultProfileStart { cams := [⟨16, 0, 0, 0, 0, 0, 0, 0, 0, 0⟩] }, .defaultProfileStart { scans := [⟨8, 0, 0, 0, 0⟩] },
    .defaultProfileStart { marks := [(32, 0, 0, 0)] }, .sillLockstepMismatch 7 0, .regionCrossingAlert 5 0 true, .regionCrossingAlert 0 6 true] : List Instr).any Instr.wf = false := by
  decide +kernel

theorem test_illformed_mailbox_slots :
    ([Instr.hello, Instr.goodbye, Instr.ping, Instr.limits, Instr.memAlloc, Instr.memRelease, Instr.memShare, Instr.memCopyIn, Instr.memCopyOut,
    Instr.tensorCreate, Instr.tensorDestroy, Instr.tensorQuery, Instr.ringCreate, Instr.ringDestroy, Instr.ringQuery, Instr.cacheCreate,
    Instr.cacheDestroy, Instr.ledgerQuery, Instr.quotaSet, Instr.pegAlloc, Instr.pegRelease, Instr.pegGrant, Instr.pegAdd, Instr.pegSet, Instr.pegRead,
    Instr.pegWait, Instr.waitQuery, Instr.graphLoad, Instr.graphStart, Instr.graphStop, Instr.graphAbort, Instr.graphUnload, Instr.graphQuery,
    Instr.plumbRegister, Instr.plumbRelease, Instr.tallyRegister, Instr.tallyRelease, Instr.camStage, Instr.camPower, Instr.camControl, Instr.netPortStage,
    Instr.fwdWrite, Instr.scanStage, Instr.signalMapWrite, Instr.canStage, Instr.canSlotWrite, Instr.imuStage, Instr.unitStage, Instr.gclWrite,
    Instr.timeRead, Instr.markAlloc, Instr.markRelease, Instr.markArm, Instr.markDisarm, Instr.gptpSet, Instr.epochApply, Instr.epochDiscard,
    Instr.epochStatus, Instr.streamOpen, Instr.streamStage, Instr.streamHostRing, Instr.streamClose, Instr.streamQuery, Instr.vlinkSet, Instr.powerRead,
    Instr.setPointStage, Instr.capSet, Instr.throttleRead, Instr.throttleRequest, Instr.nsRead, Instr.nsWrite, Instr.nsFlush, Instr.modelPut,
    Instr.modelGet, Instr.storageInfo, Instr.recSummary, Instr.eventNotify, Instr.safetyStatus, Instr.safeStateRelease, Instr.selftestLog, Instr.fwStage,
    Instr.fwActivate, Instr.adapterStage, Instr.domainRelease, Instr.foremanLog, Instr.returnPrepare] : List (Nat → Nat → Instr)).any
    (fun c => (c 64 0).wf || (c 0 16).wf || !(c 63 15).wf) = false := by
  decide +kernel

/-! ### Values that the spec's tables state -/

/-- The largest finite values and the smallest subnormals of the formats (R202). -/
theorem test_format_limits : eqNum (decode 0x05 0xFE) (.fin true 448 0) = true ∧ eqNum (decode 0x06 0x7B) (.fin false 57344 0) = true ∧ eqNum (decode 0x07 7) (.fin false 6 0) = true ∧
    eqNum (decode 0x08 0x1F) (.fin false 15 (-1)) = true ∧ eqNum (decode 0x09 0x1F) (.fin false 28 0) = true ∧ eqNum (decode 0x05 1) (.fin false 1 (-9)) = true ∧
    eqNum (decode 0x06 1) (.fin false 1 (-16)) = true ∧ eqNum (decode 0x08 1) (.fin false 1 (-3)) = true ∧ eqNum (decode 0x09 1) (.fin false 1 (-4)) = true := by decide +kernel

/-- FP32 to E4M3 and E5M2 past their ranges, with and without SAT; a tie goes to the even code (R217). -/
theorem test_conversions : (convert 0x0D 0x05 0 false 0x44000000 0).code = 0x7F ∧ (convert 0x0D 0x05 0 true 0xC4000000 0).code = 0xFE ∧ (convert 0x0D 0x06 0 false 0x7F800000 0).code = 0x7C ∧
    (convert 0x0D 0x06 0 true 0x7F7FFFFF 0).code = 0x7B ∧ (convert 0x0D 0x0B 0 false 0x3F808000 0).code = 0x3F80 ∧ (convert 0x0D 0x0B 0 false 0x3F818000 0).code = 0x3F82 ∧
    (convert 0x0D 0x01 0 false 0xC3008000 0).code = 0x80 ∧ (convert 0x0D 0x01 0 false 0x7FC00000 0).nti = 1 := by decide +kernel

/-! ### Witnesses of the statements' hypotheses -/

theorem witness_StepRunsTheFrontCommand : ({ State.reset with pending := [Instr.enLow, Instr.enHigh] } : State).pending = [.enLow, .enHigh] := by decide +kernel

theorem witness_FieldsWriteByAccessType : (findRow 0xB0004).any (fun r => r.flds.any (fun f => f.acc = .w1c)) = true ∧
    (findRow 0x33800).any (fun r => r.flds.any (fun f => f.acc = .rwl) && r.flds.any (fun f => f.acc = .w1s)) = true := by decide +kernel

theorem witness_RegisterAccesses : hostReaches State.reset 0 = true ∧
    after (.registerWrite 0 0xB0004 4 0x7F [.set 4]) (setMask YARD_EVENTS 0x43 State.reset) (fun t => rd t YARD_EVENTS = 4) = true ∧
    after (.registerWrite 0 RIDGE_LOCK_CFG.addr 4 0x01020304 []) State.reset (fun t => rd t RIDGE_LOCK_CFG = 0x01020304) = true ∧
    after (.registerWrite 0 RIDGE_LOCK_CFG.addr 2 7 []) State.reset (fun t => rd t (BLOCK_IGNORED_WRITES 0x10000) = 1) = true ∧
    after (.registerWrite 0 YARD_STATUS.addr 4 7 []) State.reset (fun t => rd t (BLOCK_IGNORED_ADDR 0xB0000) = 1) = true ∧
    after (.rcRead 0 YARD_HOST_READ.addr 4 [.incr 31 0 3]) (wr YARD_HOST_READ 9 State.reset) (fun t => rd t YARD_HOST_READ = 3) = true ∧
    after (.lowWordReadLatch 0 RIDGE_TIME_LO.addr) State.reset (fun t => tget RIDGE_TIME_HI.addr t.latch = some 0) = true := by decide +kernel

theorem witness_ReferenceTickAddsTheIncrement : after (.referenceTick [] 0) State.reset (fun t => t.ridge.ns = 10) = true := by decide +kernel

theorem witness_RidgeRegisterWrites : after (.ridgeIncCommit 9) State.reset (fun t => t.ridge.incNext = some (10 * 2 ^ 32 - 4294967)) = true ∧
    after (.ridgeStep 0x80000000) (withMark 0 5 0 0 State.reset) (fun t => rd t (BLOCK_IGNORED_WRITES 0x10000) = 1) = true ∧
    after (.ridgeStep 0xFFFFFFFF) State.reset (fun t => t.ridge.stepNext = some (-4294967296)) = true ∧
    after (.ridgeCtrlWrite 3) State.reset (fun t => rd t (BLOCK_IGNORED_WRITES 0x10000) = 1) = true ∧
    after (.ridgeCtrlWrite 0x15) State.reset (fun t => loopState t = 1 ∧ gmActive t = false) = true := by decide +kernel

/-- Ridge as a follower on port 2, from reset. -/
def follower : State := match exec (.ridgeCtrlWrite 0x215) State.reset with | .next t => t | _ => State.reset

theorem witness_Discipline : (ridgeSource follower = 1 ∧ gmActive follower = false ∧ followed follower = some 2) ∧
    after (.disciplineSample 2 100 150 0) follower (fun t => rd t RIDGE_PHASE_ERR = 50 ∧ t.ridge.integ = 250) = true ∧
    after (.ppsInEdge 1000000007) (wr RIDGE_CTRL 6 State.reset) (fun t => rd t RIDGE_PHASE_ERR = 0xFFFFFFF9) = true ∧
    after (.ppsInEdge 1300000000) { wr RIDGE_CTRL 6 State.reset with ridge.ppsSeen := true } (fun t => rd t RIDGE_PPS_MISSED = 1) = true ∧
    after .holdoverEntry { atTime 400000000 follower with ridge.sampled := true } (fun t => loopState t = 3) = true ∧
    after .holdoverExpiry (atTime 60000000000 (setFld RIDGE_STATUS 2 0 3 follower)) (fun t => loopState t = 4) = true := by decide +kernel

/-- An Announce of a grandmaster with this first priority. -/
def announce (p : Nat) : Announce :=
  { priority1 := p, clockClass := 6, clockAccuracy := 0x20, variance := 0, priority2 := 128, identity := 5, stepsRemoved := 0, ptpScale := true }

theorem witness_TimeAwareSystem : (ridgeRole (wr RIDGE_CTRL 0x25 State.reset) = 2 ∧ (announce 10).stepsRemoved = 0) ∧
    (announce 10).path.contains Config.clockIdentity.toNat = false ∧
    after (.announceReceived 3 { announce 10 with stepsRemoved := 255 }) (wr RIDGE_CTRL 0x25 State.reset) (fun t => gmActive t = true) = true ∧
    after (.announceReceiptTimeout 3) (wr RIDGE_CTRL 0x25 State.reset) (fun t => gmActive t = true) = true ∧
    after (.pdelayExchange 3 100 1000 1040 160) State.reset (fun t => tget 3 t.ridge.linkDelay = some 10) = true ∧
    after (.gptpSyncTransmit 3) State.reset (fun t => t.emitted = [.gptpSync 3 0 0 0]) = true := by decide +kernel

theorem witness_PulseAndReplicas : after (.ppsOutCfgWrite 0x80000064) (atTime 2500000000 State.reset) (fun t => markTime t 1023 = 3000000000 * 2 ^ 32) = true ∧
    after .ppsPulseEnd { atTime 7 State.reset with ridge.ppsEnd := some 7 } (fun t => t.emitted = [.pps false]) = true ∧
    after (.replicaCorrection 22 (-30)) State.reset (fun t => fld t RIDGE_SKEW_MAX 15 0 = 30) = true := by decide +kernel

/-- Mark 4 interrupts vector 3 of function 2 and is due. -/
def dueMark : State := { withMark 4 100 0xC0020003 0 (atTime 100 State.reset) with ridge.due := [4] }

theorem witness_MarksArmAndFire : after (.markCtrlWrite 4 0) dueMark (fun t => markArmed t 4 = false) = true ∧
    after (.markCtrlWrite 4 0x80000002) (atTime 7 State.reset) (fun t => fld t (RIDGE_MARK_STATUS 4) 15 0 = 1) = true ∧
    after (.markCtrlWrite 4 0x80000002) (wr (RIDGE_MARK_TIME_LO 4) 5000 State.reset) (fun t => markArmed t 4) = true ∧
    after (.markCtrlWrite 1015 0x80000000) (wr (RIDGE_MARK_ACTION 1015) 0xD0000000 State.reset) (fun t => rd t (RIDGE_MARK_STATUS 1015) = 0x88000000) = true ∧
    after (.markCtrlWrite 1016 0) State.reset (fun t => rd t (BLOCK_IGNORED_WRITES 0x10000) = 1) = true ∧
    nextDue dueMark = some 4 ∧ (markKind dueMark 4 = 0xC ∧ markDomain dueMark 4 = 0 ∧ markInstant dueMark 4 = 100) ∧
    after (.markFire 4 none) dueMark (fun t => t.emitted = [.msix 2 3] ∧ markArmed t 4 = false) = true := by decide +kernel

theorem witness_TimeAndMarkCommands : isReady 0 3 0x0501 (withCmd 0 3 0x0501 [] State.reset) = true ∧
    after (.timeRead 0 3) (withCmd 0 3 0x0501 [] (atTime 77 State.reset)) (fun t => result t 0 3 0 8 = 77 ∧ status t 0 3 = 0) = true ∧
    after (.timeCorrelate 0 3 9 2) (withCmd 0 3 0x0502 [] { State.reset with mb.ptm := true }) (fun t => result t 0 3 8 8 = 9) = true ∧
    after (.markAlloc 2 15) (withCmd 2 15 0x0503 [] State.reset) (fun t => result t 2 15 0 2 = 0 ∧ tget 0 t.ridge.markOwner = some 2) = true ∧
    after (.markDisarm 2 0) (withCmd 2 0 0x0506 [4] { dueMark with ridge.markOwner := [(4, 2)] }) (fun t => status t 2 0 = 0 ∧ markArmed t 4 = false) = true ∧
    after (.markRelease 2 0) (withCmd 2 0 0x0504 [4] { dueMark with ridge.markOwner := [(4, 2)] }) (fun t => t.ridge.markOwner = []) = true ∧
    after (.markArm 2 0) (withCmd 2 0 0x0505 [4] { dueMark with ridge.markOwner := [(4, 2)] }) (fun t => status t 2 0 = 0x100A) = true ∧
    param (withCmd 2 0 0x0505 [4, 0, 5000, 0, 0, 0, 0, 0, 0x80000000] State.reset) 2 0 0x0505 1 = 5000 ∧
    after (.markArm 2 0) (withCmd 2 0 0x0505 [4, 0, 5000, 0, 0, 0, 0, 0, 0x80000000] { State.reset with ridge.markOwner := [(4, 2)] })
      (fun t => status t 2 0 = 0 ∧ markArmed t 4 ∧ markDomain t 4 = 2) = true := by decide +kernel

theorem witness_ModeChanges : after (.epochApply 0 1) (withCmd 0 1 0x0508 [] State.reset) (fun t => t.ridge.applyAt = 100000000) = true ∧
    after (.epochApply 0 1) (withCmd 0 1 0x0508 [0, 16] State.reset) (fun t => status t 0 1 = 0x1006) = true ∧
    nextDue (pendingChange 0x200 1016) = some 1016 ∧
    after .epochApplyTime (pendingChange 0x200 1016) (fun t => rd t RIDGE_EPOCH_ACK = 0x200) = true ∧
    after (.epochUnitLatch 3) { pendingChange 0x3FFF 1016 with ridge.mixing := true } (fun t => rd t RIDGE_EPOCH_ACK = 8) = true ∧
    after .epochCheck (wr RIDGE_EPOCH_ACK 0x200 (pendingChange 0x200 1017)) (fun t => fld t RIDGE_EPOCH_STATE 15 0 = 1) = true ∧
    after .epochCheck (pendingChange 0x200 1017) (fun t => rd t RIDGE_EPOCH_FAIL = 0x80000200 ∧ t.ridge.revertAt = 200000000) = true ∧
    after .epochRevert (revertingChange 0x200 1018) (fun t => rd t RIDGE_EPOCH_STATE = 0x00020002) = true ∧
    after .epochRevertCheck (revertingChange 0 1017) (fun t => t.ridge.phase = .idle) = true ∧
    after .epochRevertCheck (revertingChange 0x200 1017) (fun t => bit (rd t RIDGE_EPOCH_FAIL) 30) = true := by decide +kernel

theorem witness_EpochAndTimeSettings : after (.epochStatus 0 1) (withCmd 0 1 0x050A [] (pendingChange 0x200 1016)) (fun t => result t 0 1 0 4 = 0x10000) = true ∧
    after (.epochDiscard 0 1) (withCmd 0 1 0x0509 [] (pendingChange 0x200 1016)) (fun t => status t 0 1 = 0x1009) = true ∧
    after (.epochDiscard 0 1) (withCmd 0 1 0x0509 [] { State.reset with fw.staged := true }) (fun t => status t 0 1 = 0 ∧ t.fw.staged = false) = true ∧
    after (.gptpSet 0 1) (withCmd 0 1 0x0507 [3] State.reset) (fun t => status t 0 1 = 0x1006) = true ∧
    after (.gptpSet 0 1) (withCmd 0 1 0x0507 [0x25, 0x030000FD, 0x20060A0A, 0x1234] State.reset)
      (fun t => status t 0 1 = 0 ∧ t.ridge.priority1 = 10 ∧ t.ridge.logSync = -3) = true := by decide +kernel

theorem witness_CameraPower : after (.pocCommand 11 0x02580402) State.reset (fun t => pocState t 11 = 1) = true ∧
    after (.pocRampComplete 2 12000 300 12600) (setFld (CAMIN_POC_STATUS 2) 2 0 1 (wr (CAMIN_POC_CTRL 2) 2 State.reset)) (fun t => pocState t 2 = 3) = true ∧
    after (.pocFaultDetected 2 0x10) (setFld (CAMIN_POC_STATUS 2) 2 0 1 State.reset) (fun t => pocState t 2 = 5 ∧ rd t (CAMIN_POC_FAULT 2) = 0x10) = true ∧
    after (.pocFaultClear 2 0x7F 0) (wr (CAMIN_POC_FAULT 2) 0x10 (setFld (CAMIN_POC_STATUS 2) 2 0 5 (wr (CAMIN_POC_CTRL 2) 2 State.reset))) (fun t => pocState t 2 = 1) = true ∧
    after (.pocAutoRetry 2) (atTime 1000000000 (wr (CAMIN_POC_FAULT 2) 0x10 (setFld (CAMIN_POC_STATUS 2) 2 0 5 (wr (CAMIN_POC_CTRL 2) 6 State.reset))))
      (fun t => pocState t 2 = 1) = true := by decide +kernel

theorem witness_CameraLink : after (.aphyPacketReceived 2 1 true) camPort (fun t => rd t (CAMIN_RETX_OK 2) = 1) = true ∧
    after (.aphyLockLoss 2) camPort (fun t => camUp t 2 = false) = true ∧
    after (.aphyLinkUp 2) (clearMask CAMIN_LINK_UP 4 camPort) (fun t => camUp t 2) = true ∧
    after (.cameraAbsentTimeout 3) (atTime 600000000 (putCam 3 { onAt := some 0 } State.reset)) (fun t => (cam t 3).onAt = none) = true ∧
    after (.camPortEnableWrite 3 0x99) State.reset (fun t => camEnabled t 3) = true ∧
    after (.camPortEnableWrite 2 0x98) camPort (fun t => camEnabled t 2 = false ∧ camUp t 2 = false) = true := by decide +kernel

theorem witness_CameraFrames : (camUp camPort 2 = true ∧ bits (camCfg camPort 2 9).format 7 6 = 0 ∧ camFreeRun (camCfg camPort 2 9) = false) ∧
    after (.frameStartReceived 2 0 0 1500 false) (putCam 2 { sync := some 1200 } camPort) (fun t => (cam t 2).open_.any (fun f => f.tSync = 1200)) = true ∧
    after (.frameStartReceived 2 1 0 1500 false) camPort (fun t => rd t (CAMIN_UNSUPPORTED 2) = 1) = true ∧
    (camDataType (camFrame 0).cfg = 0x2C ∧ camRows (camFrame 0).cfg = 4 ∧ camBandLines (camFrame 0).cfg = 2) ∧
    admitAll (camOpen 0) 0 (lineAddr (camFrame 0) 0) 16 true = true ∧
    after (.lineReceived 2 0 0x2C 0 [0x123, 2, 3, 4, 5, 6, 7, 8]) (camOpen 0) (fun t => memGet t (lineAddr (camFrame 0) 0) = 0x23) = true ∧
    after (.lineReceived 2 0 0x2C 3 []) { camOpen 0 with memory.allocs := [] } (fun t => rd t (CAMIN_LINES_LOST 2) = 1) = true ∧
    after (.frameEndReceived 2 0 0) (camOpen 4) (fun t => (cam t 2).closed.length = 1) = true ∧
    after (.frameTimeout 2) (atTime 50002000 (camOpen 2)) (fun t => (cam t 2).closed.any (fun f => f.flags = 2)) = true := by decide +kernel

theorem witness_CameraVerdictsAndCommands :
    after (.patternCheckDone 2 false false) (putCam 2 { closed := [camFrame 4] } camPort) (fun t => fld t (CAMIN_LAST_FRAME 2) 17 16 = 2 ∨ (cam t 2).closed = []) = true ∧
    after (.checkerSelftestIdle 2 false) (atTime 50000000 camPort) (fun t => rd t CAMIN_SELFTEST_RUNS = 1) = true ∧
    after (.checkerSelftestIdle 2 true) (atTime 50000000 camPort) (fun t => bit (rd t KINGPOST_FAULT_LATCH) 3) = true ∧
    after (.camStage 0 1) (withCmd 0 1 0x0401 ([2, 0, 0x99, 0, 0, 0, 0, 0, 77, 0, 0x82C, 0x01F40004, 0x01020064, 0x00100065, 0x100000, 0, 64, 7]) State.reset)
      (fun t => status t 0 1 = 0 ∧ rd t (CAMIN_LINE_TIME 2) = 77) = true ∧
    after (.camPower 0 1) (withCmd 0 1 0x0402 [2, 0x02580402] State.reset) (fun t => status t 0 1 = 0 ∧ pocState t 2 = 1) = true ∧
    after (.camControl 0 1) (withCmd 0 1 0x0403 [0x01000002, 0x10, 4] State.reset) (fun t => tget 1 t.cam.control = some 2) = true ∧
    after (.camControlReply 0 1 [1, 2, 3, 4]) { withCmd 0 1 0x0403 [0x01000002, 0x10, 4] camPort with cam.control := [(1, 2)] }
      (fun t => status t 0 1 = 0 ∧ result t 0 1 0 4 = 0x04030201) = true := by decide +kernel

theorem witness_SwitchedFrames : after (.gclConfigChange 2 3) (setFld (NETIN_GCL_STATUS 2) 0 0 1 State.reset) (fun t => rd t (BLOCK_IGNORED_WRITES 0x30000) = 1) = true ∧
    after (.gclConfigChange 2 0x00010003) (wr (NETIN_GCL_BASE_LO 2) 9 State.reset) (fun t => (gclOf t 2).applyAt = some (9 * 2 ^ 32)) = true ∧
    after (.gclConfigApply 2) (atTime 10 (putGcl 2 { applyAt := some (9 * 2 ^ 32) } State.reset)) (fun t => (gclOf t 2).cycleStart = 9 * 2 ^ 32) = true ∧
    after (.gateIntervalEnd 2) (atTime 10 (putGcl 2 { on := true, entries := [(1, 100), (2, 100)] } State.reset)) (fun t => (gclOf t 2).entry = 1) = true ∧
    (mayStart (setQueue 2 1 [{ bytes := [1] }] netPort) 2 1 1 = true ∧ higherReady (setQueue 2 1 [{ bytes := [1] }] netPort) 2 1 = false) ∧
    after (.egressFrameStart 2 1) (setQueue 2 1 [{ bytes := [1] }] netPort) (fun t => t.emitted = [.eth 2 1 [1]]) = true ∧
    after (.ethFrameReceived 2 0 false []) netPort (fun t => rd t (NETIN_RX_FCS_ERR 2) = 1) = true ∧
    after (.ethFrameReceived 2 0 true (ethFrame 9 8 0x0800)) { netPort with net.live.fwd := [] } (fun t => rd t NETIN_FWD_MISS = 1) = true ∧
    after (.ethFrameReceived 2 0 true (ethFrame 7 8 0x0800)) netPort (fun t => (queueAt t 3 0).length = 1 ∧ queueAt t 2 0 = []) = true ∧
    after (.ethLinkDown 2 false) (setQueue 2 1 [{ bytes := [1] }] netPort) (fun t => rd t (NETIN_TX_DROP 2) = 1 ∧ queueAt t 2 1 = []) = true ∧
    after (.ethLinkUp 3 1 1 2) (clearMask NETIN_LINK_UP 8 netPort) (fun t => linkUp t 3 ∧ rd t (NETIN_PORT_STATUS 3) = 0x2B) = true := by decide +kernel

/-- A sweep open on TEN 2 since time 0 with a timeout of 1 ms. -/
def openSweep2 : State := putJig 2 { sweep := some { number := 0, start := 0, epoch := 0, adapter := 0, timing := 1, verdict := 5, ring := 5 } } State.reset

theorem witness_ScannersAndBuses : after (.jigPacket 2 [] true false) (wr (NETIN_SCAN_ADAPTER 2) 7 (putJig 2 { queue := [([], 0)], faults := [0, 1] } State.reset))
      (fun t => bit (rd t (NETIN_SCAN_ADAPTER 2)) 21) = true ∧
    after (.sweepTimeout 2 false) (atTime 1000000 openSweep2) (fun t => (jig t 2).sweep = none) = true ∧
    after (.synthBlockInject 2 []) (setLive (NETIN_SCAN_CTRL 2) 5 State.reset) (fun t => t.ingest.length = 8) = true ∧
    after (.canTxStart 1 3 0) { wr (NETIN_CAN_STATUS 1) 0 State.reset with net.canQueue := [(1, 3, [9])], net.live.canSlots := [(19, leBytes 16 (0x123 * 2 ^ 32))] }
      (fun t => t.emitted = [.can 1 0x123 [9]]) = true ∧
    after (.canFrameReceived 1 5 0 true []) (wr (NETIN_CAN_STATUS 1) 0 State.reset) (fun t => rd t (NETIN_RX_ERR 1) = 1) = true ∧
    after (.canFrameReceived 1 5 0 false [1]) (wr (NETIN_CAN_STATUS 1) 0 State.reset) (fun t => rd t (NETIN_CAN_RX_FRAMES 1) = 1) = true ∧
    after (.canErrorFrame 1 true) (wr (NETIN_CAN_STATUS 1) 0 State.reset) (fun t => fld t (NETIN_CAN_STATUS 1) 15 7 = 8) = true ∧
    after (.canBusoffRecovery 1) (wr (NETIN_CAN_STATUS 1) 2 (setLive (NETIN_CAN_CTRL 1) 0x10 State.reset)) (fun t => rd t (NETIN_CAN_STATUS 1) = 0) = true ∧
    after (.signalStale 40) (atTime 5000000 { State.reset with net.live.signals := [(40, leBytes 32 (5 * 2 ^ 224))] })
      (fun t => bit (rd t (NETIN_SIG_STALE 1)) 8) = true := by decide +kernel

theorem witness_ReferenceImu : after (.refImuSample 10000000 [1, 2, 3] [4, 5, 6] true) State.reset (fun t => t.net.imu.length = 6) = true ∧
    after (.refImuFault true) State.reset (fun t => bit (rd t KINGPOST_FAULT_LATCH) 7) = true ∧
    after .xchkWindowEval (atTime 5000000000 State.reset) (fun t => t.net.xchkEnd ≠ 0) = true ∧
    after .xchkWindowEval (atTime 5000000000 { setLive NETIN_XCHK_CFG 1000 State.reset with net.imu := [0, 1, 2].flatMap (fun a => [⟨3500000000, 0, a, 7⟩, ⟨3500000000, 2, a, 7⟩]) })
      (fun t => bit (rd t NETIN_XCHK_STATUS) 0) = true := by decide +kernel

theorem witness_SensorStaging : after (.netPortStage 0 1) (withCmd 0 1 0x0404 [2, 1] State.reset) (fun t => status t 0 1 = 0) = true ∧
    after (.fwdWrite 0 1) (withCmd 0 1 0x0405 [1024] State.reset) (fun t => status t 0 1 = 0x1006) = true ∧
    after (.fwdWrite 0 1) (withCmd 0 1 0x0405 [0x00000005] State.reset) (fun t => status t 0 1 = 0) = true ∧
    after (.fwdWrite 0 1) (withCmd 0 1 0x0405 [0x00010005, 0x000C0001] State.reset) (fun t => status t 0 1 = 0 ∧ t.net.staged.fwd.length = 1) = true ∧
    after (.scanStage 0 1) (withCmd 0 1 0x0406 [7, 1] State.reset) (fun t => status t 0 1 = 0) = true ∧
    after (.signalMapWrite 0 1) (withCmd 0 1 0x0407 [9, 0, 0] State.reset) (fun t => status t 0 1 = 0x100D) = true ∧
    after (.signalMapWrite 0 1) (withCmd 0 1 0x0407 [9, 0, 0x00010001, 0, 0x00100000] State.reset) (fun t => status t 0 1 = 0) = true ∧
    after (.canStage 0 1) (withCmd 0 1 0x0408 [1, 1] State.reset) (fun t => status t 0 1 = 0) = true ∧
    after (.canSlotWrite 0 1) (withCmd 0 1 0x0409 [4] State.reset) (fun t => status t 0 1 = 0x1006) = true ∧
    after (.canSlotWrite 0 1) (withCmd 0 1 0x0409 [0x0301, 0, 1, 0x123, 8] State.reset) (fun t => status t 0 1 = 0 ∧ t.net.staged.canSlots.length = 1) = true ∧
    after (.imuStage 0 1) (withCmd 0 1 0x040A [1, 2, 3, 4, 5] State.reset) (fun t => status t 0 1 = 0) = true ∧
    after (.unitStage 0 1) (withCmd 0 1 0x040B [4] State.reset) (fun t => status t 0 1 = 0x1006) = true ∧
    after (.unitStage 0 1) (withCmd 0 1 0x040B [3, 0, 0, 0] State.reset) (fun t => status t 0 1 = 0x100D) = true ∧
    after (.gclWrite 0 1) (withCmd 0 1 0x040C [0x00FF0002, 1, 0xFE, 500] State.reset) (fun t => status t 0 1 = 0x0 ∧ rd t ⟨0x397FC, 0⟩ = 500) = true := by decide +kernel

theorem witness_MailboxProtocol : after (.mbDoorbell 0 5) { State.reset with power.state := .run, mb.linkUp := true } (fun t => rd t (MB_BUSY 0) = 5) = true ∧
    after .commandAccept (wrWord (slotAddr 3 2) 0x01030001 (setMask (MB_BUSY 3) 4 { State.reset with mb.foremanUp := true }))
      (fun t => tget 50 t.mb.accepted = some { opcode := 0x0103 } ∧ t.mb.lastServed = 3) = true ∧
    after .commandAccept (setMask (MB_BUSY 3) 4 { State.reset with mb.foremanUp := true }) (fun t => status t 3 2 = 0x1001) = true ∧
    after .commandAccept (wrWord (slotAddr 3 2) 0x02110001 (setMask (MB_SESSION 3) 1 (setMask (MB_BUSY 3) 4 { State.reset with mb.foremanUp := true })))
      (fun t => status t 3 2 = 0x1005) = true ∧
    after .commandAccept (wrWord (slotAddr 3 2) 0x7F110001 (setMask (MB_SESSION 3) 1 (setMask (MB_BUSY 3) 4 { State.reset with mb.foremanUp := true })))
      (fun t => status t 3 2 = 0x1004) = true ∧
    isReady 3 2 0x0101 (withCmd 3 2 0x0101 [0x01020100] State.reset) = true ∧
    after (.hello 3 2) (withCmd 3 2 0x0101 [0x01020100] (setMask (MB_BUSY 3) 12 State.reset)) (fun t => status t 3 2 = 0x100A) = true ∧
    after (.goodbye 3 2) (withCmd 3 2 0x0102 [] (setMask (MB_BUSY 3) 4 (setMask (MB_SESSION 3) 1 State.reset))) (fun t => bit (rd t (MB_SESSION 3)) 0 = false) = true ∧
    after (.ping 3 2) (withCmd 3 2 0x0103 [] (atTime 77 State.reset)) (fun t => result t 3 2 0 8 = 77) = true ∧
    after (.limits 3 2) (withCmd 3 2 0x0104 [] State.reset) (fun t => result t 3 2 16 4 = 64) = true ∧
    after (.quotaSet 0 2) (withCmd 0 2 0x0211 [0x203, 0, 9, 0] State.reset) (fun t => quotaOf t 3 2 = 9) = true ∧
    after (.quotaSet 0 2) (withCmd 0 2 0x0211 [0x203, 0, 9, 0] (wr FENCE_LOCK 2 State.reset)) (fun t => status t 0 2 = 0x100E) = true ∧
    after (.quotaSet 0 2) (withCmd 0 2 0x0211 [0x240, 0, 9, 0] State.reset) (fun t => status t 0 2 = 0x1006) = true := by decide +kernel

theorem witness_MemoryCommands : findRoom withMemory 0 0 0x400000000 4096 4096 = some 0 ∧
    after (.memAlloc 0 1) (withCmd 0 1 0x0201 [4096, 0, 0, 0] withMemory) (fun t => status t 0 1 = 0 ∧ (tget 0 t.memory.allocs).isSome) = true ∧
    after (.memAlloc 0 1) (withCmd 0 1 0x0201 [4096, 0, 40, 0] withMemory) (fun t => status t 0 1 = 0x1101) = true ∧
    after (.memRelease 0 1) (withCmd 0 1 0x0202 [0x100000, 0] withMemory) (fun t => t.memory.allocs = [] ∧ t.memory.zeroing = [(0x100000, 0x100000)]) = true ∧
    after (.memRelease 0 1) (withCmd 0 1 0x0202 [0x100000, 0] withRing) (fun t => status t 0 1 = 0x1103) = true ∧
    after (.memRelease 3 1) (withCmd 3 1 0x0202 [0x100000, 0] withMemory) (fun t => status t 3 1 = 0x1007) = true ∧
    after (.memShare 0 1) (withCmd 0 1 0x0203 [0x100000, 0, 0x300] withMemory) (fun t => status t 0 1 = 0x1105) = true ∧
    after (.memShare 1 1) (withCmd 1 1 0x0203 [0x100000, 0, 0x300] { withMemory with memory.allocs := [(0x100000, { len := 4096, owner := 1 })] })
      (fun t => status t 1 1 = 0 ∧ (tget 0x100000 t.memory.allocs).any (fun g => g.rmask = 1)) = true ∧
    after .zeroingComplete { withRing with memory.zeroing := [(0x100000, 4096)] } (fun t => t.mem = []) = true ∧
    after (.memCopyIn 0 1) (withCmd 0 1 0x0204 [0, 1, 0x100000, 0, 0, 0] withMemory) (fun t => status t 0 1 = 0x1006) = true ∧
    after (.memCopyIn 0 1) (withCmd 0 1 0x0204 [0, 1, 0x200000, 0, 4, 0] withMemory) (fun t => status t 0 1 = 0x1007) = true ∧
    after (.memCopyIn 0 1) (withCmd 0 1 0x0204 [0, 1, 0x100000, 0, 4, 0] withMemory) (fun t => t.memory.copies.length = 1) = true ∧
    after (.memCopyOut 0 1) (withCmd 0 1 0x0205 [0x100000, 0, 0, 1, 4, 0] withMemory) (fun t => t.memory.copies.length = 1) = true ∧
    after (.copyComplete 0 1 [1, 4] none) (withCmd 0 1 0x0204 [] { withMemory with memory.copies := [(1, { function := 0, slot := 1, toDevice := true, device := 0x100008, host := 5, bytes := 2 })] })
      (fun t => memGet t 0x100009 = 4 ∧ status t 0 1 = 0) = true ∧
    after (.copyComplete 0 1 [] none) (withCmd 0 1 0x0205 [] { withRing with memory.copies := [(1, { function := 0, slot := 1, toDevice := false, device := 0x100004, host := 5, bytes := 2 })] })
      (fun t => t.emitted = [.hostWrite 0 5 [9, 0], .msix 0 0]) = true ∧
    after (.copyComplete 0 1 [] (some 1)) (withCmd 0 1 0x0205 [] { withRing with memory.copies := [(1, { function := 0, slot := 1, toDevice := false, device := 0x100004, host := 5, bytes := 2 })] })
      (fun t => status t 0 1 = 0x100F) = true := by decide +kernel

/-- Memory with the descriptor of a plain tensor of 16 FP32 elements, and cache 0 with a page. -/
def withTensor : State :=
  let d := leBytes 1 1 ++ leBytes 1 1 ++ leBytes 1 0x0D ++ leBytes 5 0 ++ leBytes 8 0x101000 ++ leBytes 64 0 ++ leBytes 4 16 ++ leBytes 60 0 ++ leBytes 8 1 ++ leBytes 104 0
  let s := writeBytes 0x100000 d withMemory
  { s with tensors.table := [(1, { owner := 0, gen := 0, bytes := d })], ledger.caches := [(0, { owner := 0, bytes := leBytes 256 1 })],
           ledger.pages := [(4, { state := .resident, cache := 0, refcount := 2, lpage := 6 })] }

theorem witness_TensorsAndCaches : after (.tensorCreate 0 1) (withCmd 0 1 0x0206 [0x100004, 0] withTensor) (fun t => status t 0 1 = 0x170E) = true ∧
    after (.tensorCreate 0 1) (withCmd 0 1 0x0206 [0x100000, 0] withTensor) (fun t => status t 0 1 = 0 ∧ result t 0 1 0 4 = 2) = true ∧
    after (.tensorCreate 0 1) (withCmd 0 1 0x0206 [0x100000, 0] { withTensor with mb.quotas := [(1, 1)] }) (fun t => status t 0 1 = 0x170B) = true ∧
    after (.tensorDestroy 0 1) (withCmd 0 1 0x0207 [1] withTensor) (fun t => t.tensors.table = []) = true ∧
    after (.tensorDestroy 0 1) (withCmd 0 1 0x0207 [2] withTensor) (fun t => status t 0 1 = 0x170C) = true ∧
    after (.tensorDestroy 0 1) (withCmd 0 1 0x0207 [1] { withTensor with scribe.graphs := [(0, aGraph [{ aNode 1 with binds := [{ arg := 0, kind := 0, ref := 1 }] }])] })
      (fun t => status t 0 1 = 0x170D) = true ∧
    after (.tensorQuery 0 1) (withCmd 0 1 0x0208 [1] withTensor) (fun t => result t 0 1 8 8 = 0x101000 ∧ result t 0 1 16 8 = 0x10103F) = true ∧
    after (.cacheCreate 0 1) (withCmd 0 1 0x020E [0x100000, 0] withTensor) (fun t => status t 0 1 = 0x1A31) = true ∧
    after (.cacheDestroy 0 1) (withCmd 0 1 0x020F [0] withTensor) (fun t => t.ledger.caches = []) = true ∧
    after (.cacheDestroy 0 1) (withCmd 0 1 0x020F [0] { withTensor with ledger.seqs := [(0, { cache := 0, droppable := false })] }) (fun t => status t 0 1 = 0x100A) = true ∧
    after (.ledgerQuery 0 1) (withCmd 0 1 0x0210 [0x200, 4] withTensor) (fun t => status t 0 1 = 0x1006) = true ∧
    after (.ledgerQuery 0 1) (withCmd 0 1 0x0210 [0x100, 3] withTensor) (fun t => status t 0 1 = 0x1007) = true ∧
    after (.ledgerQuery 0 1) (withCmd 0 1 0x0210 [0x100, 4] withTensor) (fun t => result t 0 1 12 4 = 6) = true := by decide +kernel

theorem witness_Rings : after (.ringCreate 0 1) (withCmd 0 1 0x0209 [0xFFFF0003, 0, 0x100000, 0] withMemory) (fun t => status t 0 1 = 0x1006) = true ∧
    after (.ringCreate 0 1) (withCmd 0 1 0x0209 [0x00090004, 0, 0x100000, 0] withMemory) (fun t => status t 0 1 = 0x1007) = true ∧
    after (.ringCreate 0 1) (withCmd 0 1 0x0209 [0xFFFF0004, 0, 0x100040, 0] withMemory) (fun t => status t 0 1 = 0x1006) = true ∧
    after (.ringCreate 0 1) (withCmd 0 1 0x0209 [0xFFFF0004, 0, 0x100000, 0] withMemory) (fun t => t.scribe.rings.length = 1) = true ∧
    after (.ringDestroy 0 1) (withCmd 0 1 0x020A [3] withRing) (fun t => t.scribe.rings = []) = true ∧
    after (.ringDestroy 0 1) (withCmd 0 1 0x020A [3] (wr (CAMIN_PORT_CTRL 2) 1 (wr (CAMIN_RECORD_RING 2) 3 withRing))) (fun t => status t 0 1 = 0x100A) = true ∧
    after (.ringQuery 0 1) (withCmd 0 1 0x020B [3] withRing) (fun t => result t 0 1 16 4 = 1) = true ∧
    after (.ringPush 0 1 0) (withCmd 0 1 0x020C [3, 0, 77] withRing) (fun t => memGet t 0x100040 = 77 ∧ status t 0 1 = 0) = true ∧
    after (.ringPush 0 1 0) (withCmd 0 1 0x020C [3, 0, 77] { withRing with scribe.rings := [(3, { owner := 0, log2 := 4, base := 0x100000, packet := true })] }) (fun t => status t 0 1 = 0x1823) = true ∧
    after (.ringPush 0 1 0) (withCmd 0 1 0x020C [3, 0, 77] { withRing with scribe.rings := [(3, { owner := 0, packet := false, log2 := 4, base := 0x100000, held := 16 })] }) (fun t => status t 0 1 = 0x1821) = true ∧
    after (.ringPop 0 1 0 []) (withCmd 0 1 0x020D [3] withRing) (fun t => result t 0 1 4 1 = 9) = true ∧
    after (.ringPop 0 1 0 []) (withCmd 0 1 0x020D [3] { withRing with scribe.rings := [(3, { owner := 0, packet := false, log2 := 4, base := 0x100000 })] }) (fun t => status t 0 1 = 0x1822) = true ∧
    after (.ringPopRegisterRead 0 []) (wr SCRIBE_RING_SEL 3 withRing) (fun t => rd t (SCRIBE_POP_DATA 1) = 9) = true ∧
    after (.ringPopRegisterRead 0 []) withRing (fun t => rd t SCRIBE_POP_STATUS = 0x1007) = true := by decide +kernel

theorem witness_Pegs : after (.pegAlloc 3 1) (withCmd 3 1 0x0301 [] withMemory) (fun t => result t 3 1 0 2 = 0 ∧ (tget 0 t.scribe.pegs).any (fun x => x.owner = 3)) = true ∧
    after (.pegRelease 0 1) (withCmd 0 1 0x0302 [5] withMemory) (fun t => t.scribe.pegs = []) = true ∧
    after (.pegRelease 3 1) (withCmd 3 1 0x0302 [5] withMemory) (fun t => status t 3 1 = 0x1007) = true ∧
    after (.pegRelease 0 1) (withCmd 0 1 0x0302 [5] { withMemory with mb.waits := [(1, aWait)] }) (fun t => status t 0 1 = 0x1820) = true ∧
    after (.pegGrant 0 1) (withCmd 0 1 0x0303 [0x02030005] withMemory) (fun t => (tget 5 t.scribe.pegs).any (fun x => x.waitMask = 8)) = true ∧
    after (.pegSet 0 1) (withCmd 0 1 0x0305 [5, 0, 11] withMemory) (fun t => pegValue t 5 = 11) = true ∧
    after (.pegRead 0 1) (withCmd 0 1 0x0306 [5] withMemory) (fun t => result t 0 1 0 8 = 7) = true ∧
    after (.pegAdd 0 1) (withCmd 0 1 0x0304 [0x00010005, 3] withMemory) (fun t => pegValue t 5 = 10 ∧ (tget 5 t.scribe.pegs).any (fun x => histGet x.hist 9 = 1)) = true ∧
    after (.pegAdd 0 1) (withCmd 0 1 0x0304 [0x00010005, 0] withMemory) (fun t => status t 0 1 = 0x1006) = true ∧
    after (.pegAdd 3 1) (withCmd 3 1 0x0304 [0x00010005, 3] withMemory) (fun t => status t 3 1 = 0x1007) = true ∧
    after (.scribePegAddWrite 0x80000002) (wr SCRIBE_PEG_SEL 5 withMemory) (fun t => pegValue t 5 = 9) = true ∧
    after (.pegSetWrite 1) (wr SCRIBE_PEG_SEL 5 withMemory) (fun t => pegValue t 5 = 2 ^ 32) = true ∧
    after (.pegWait 0 1) (withCmd 0 1 0x0307 [5, 0, 9, 0, 4] { withMemory with mb.foremanUp := true }) (fun t => (tget 0 t.mb.waits).any (fun w => w.deadline = some 4000)) = true ∧
    after (.pegWait 0 1) (withCmd 0 1 0x0307 [5, 0, 7, 0, 4] { withMemory with mb.foremanUp := true }) (fun t => result t 0 1 0 8 = 7 ∧ t.mb.waits = []) = true ∧
    after (.pegWait 3 1) (withCmd 3 1 0x0307 [5, 0, 7, 0, 4] { withMemory with mb.foremanUp := true }) (fun t => status t 3 1 = 0x1007) = true ∧
    after (.waitTimeout 0 1) (withCmd 0 2 0x0307 [] { withMemory with mb.foremanUp := true, mb.waits := [(1, aWait)] }) (fun t => status t 0 2 = 0x100C) = true ∧
    after (.waitTimeout 0 1) { withMemory with mb.foremanUp := true, mb.waits := [(1, { aWait with async := true })] }
      (fun t => rd t (MB_NOTICE 0) = 8) = true ∧
    after (.waitQuery 0 1) (withCmd 0 1 0x0308 [1] { withMemory with mb.waits := [(1, { aWait with async := true, state := 2 })] }) (fun t => result t 0 1 0 1 = 2 ∧ t.mb.waits = []) = true := by decide +kernel

theorem witness_Graphs : after (.graphLoad 0 1) (withCmd 0 1 0x0309 [0x100004, 0] withMemory) (fun t => status t 0 1 = 0x180C) = true ∧
    after (.graphLoad 0 1) (withCmd 0 1 0x0309 [0x100000, 0] withMemory) (fun t => status t 0 1 = 0x1801) = true ∧
    after (.graphStart 0 1) (withCmd 0 1 0x030A [0x106, 0, 9, 0] { withMemory with scribe.graphs := [(6, aGraph [])] })
      (fun t => (tget 6 t.scribe.graphs).any (fun x => x.stagedStart = some 9)) = true ∧
    after (.graphStart 0 1) (withCmd 0 1 0x030A [6, 0, 9, 0] { withMemory with scribe.graphs := [(6, aGraph [aNode 1])] })
      (fun t => status t 0 1 = 0 ∧ (tget 0 t.scribe.insts).any (fun x => x.st = .ready)) = true ∧
    after (.graphStart 0 1) (withCmd 0 1 0x030A [6, 0, 9, 0] { withMemory with scribe.graphs := [(6, { aGraph [] with started := true })] }) (fun t => status t 0 1 = 0x100A) = true ∧
    after (.graphStop 0 1) (withCmd 0 1 0x030B [6] { withMemory with scribe.graphs := [(6, { aGraph [] with started := true })] })
      (fun t => (tget 6 t.scribe.graphs).any (fun x => x.started = false)) = true ∧
    after (.graphStop 0 1) (withCmd 0 1 0x030B [0x106] { withMemory with scribe.graphs := [(6, aGraph [])] }) (fun t => (tget 6 t.scribe.graphs).any (fun x => x.stagedStop)) = true ∧
    after (.graphAbort 0 1) (withCmd 0 1 0x030C [6] { withMemory with scribe.graphs := [(6, { aGraph [] with started := true, stagedStop := true })] })
      (fun t => (tget 6 t.scribe.graphs).any (fun x => x.started = false ∧ x.stagedStop = false)) = true ∧
    after (.graphAbort 3 1) (withCmd 3 1 0x030C [6] { withMemory with scribe.graphs := [(6, aGraph [])] }) (fun t => status t 3 1 = 0x1007) = true ∧
    after (.graphUnload 0 1) (withCmd 0 1 0x030D [6] { withMemory with scribe.graphs := [(6, aGraph [])] }) (fun t => t.scribe.graphs = []) = true ∧
    after (.graphUnload 0 1) (withCmd 0 1 0x030D [6] { withMemory with scribe.graphs := [(6, { aGraph [] with started := true })] }) (fun t => status t 0 1 = 0x100A) = true ∧
    after (.graphQuery 0 1) (withCmd 0 1 0x030E [6] { withMemory with scribe.graphs := [(6, { aGraph [] with done := 77 })], scribe.insts := [(2, { graph := 6, node := 0, n := 0 })] })
      (fun t => result t 0 1 40 4 = 77 ∧ result t 0 1 4 4 = 1) = true := by decide +kernel

theorem witness_Registrations : after (.plumbRegister 0 1) (withCmd 0 1 0x030F [0x00050303, 1, 0x100000, 0, 0, 0, 0] withMemory)
      (fun t => t.plumb.staged = [(3, some aSlot)]) = true ∧
    after (.plumbRegister 0 1) (withCmd 0 1 0x030F [0x00050803] withMemory) (fun t => status t 0 1 = 0x1006) = true ∧
    after (.plumbRegister 0 1) (withCmd 0 1 0x030F [0x00060303] withMemory) (fun t => status t 0 1 = 0x1007) = true ∧
    after (.plumbRegister 0 1) (withCmd 0 1 0x030F [0x00050303] { withMemory with plumb.slots := [(3, { aSlot with owner := 2 })] }) (fun t => status t 0 1 = 0x100A) = true ∧
    after (.plumbRegister 0 1) (withCmd 0 1 0x030F [0x00050303] { withMemory with mb.quotas := [(7, 0)] }) (fun t => status t 0 1 = 0x1008) = true ∧
    after (.plumbRelease 0 1) (withCmd 0 1 0x0310 [3] { withMemory with plumb.slots := [(3, aSlot)] }) (fun t => t.plumb.staged = [(3, none)]) = true ∧
    after (.plumbRelease 0 1) (withCmd 0 1 0x0310 [4] { withMemory with plumb.slots := [(3, aSlot)] }) (fun t => status t 0 1 = 0x1007) = true ∧
    after (.tallyRegister 0 1) (withCmd 0 1 0x0311 [0x00050303, 1, 0x100000, 0, 0, 0, 0] withMemory) (fun t => t.tally.staged = [(3, some aSlot)]) = true ∧
    after (.tallyRegister 0 1) (withCmd 0 1 0x0311 [0x00050310] withMemory) (fun t => status t 0 1 = 0x1006) = true ∧
    after (.tallyRelease 0 1) (withCmd 0 1 0x0312 [3] { withMemory with tally.slots := [(3, aSlot)] }) (fun t => t.tally.staged = [(3, none)]) = true ∧
    after (.tallyRelease 0 1) (withCmd 0 1 0x0312 [3] withMemory) (fun t => status t 0 1 = 0x1007) = true := by decide +kernel

theorem witness_StreamCommands : after (.streamOpen 0 1) (withCmd 0 1 0x0601 [0xFF] withStream) (fun t => result t 0 1 0 1 = 0 ∧ (stream t 0).owner = some 0) = true ∧
    after (.streamOpen 0 1) (withCmd 0 1 0x0601 [4] withStream) (fun t => status t 0 1 = 0x100A) = true ∧
    after (.streamOpen 0 1) (withCmd 0 1 0x0601 [40] withStream) (fun t => status t 0 1 = 0x1006) = true ∧
    after (.streamOpen 0 1) (withCmd 0 1 0x0601 [4] { withStream with mb.quotas := [(5, 0)] }) (fun t => status t 0 1 = 0x1008) = true ∧
    after (.streamStage 0 1) (withCmd 0 1 0x0602 [4, 1, 0, 55] withStream) (fun t => rd t (NETIN_OUT_HANDLE 4) = 55) = true ∧
    after (.streamStage 3 1) (withCmd 3 1 0x0602 [4, 1, 0, 55] withStream) (fun t => status t 3 1 = 0x1007) = true ∧
    after (.streamHostRing 0 1) (withCmd 0 1 0x0603 [4, 0, 0x10000, 0, 4096, 8, 0, 0, 0, 0, 5] withStream) (fun t => (stream t 4).hostRing.any (fun r => r.vector = 5)) = true ∧
    after (.streamHostRing 0 1) (withCmd 0 1 0x0603 [4, 0, 0x10000, 0, 4000, 8, 0, 0, 0, 0, 5] withStream) (fun t => status t 0 1 = 0x1006) = true ∧
    after (.streamHostRing 0 1) (withCmd 0 1 0x0603 [4] withStream) (fun t => status t 0 1 = 0) = true ∧
    after (.streamClose 0 1) (withCmd 0 1 0x0604 [4] withStream) (fun t => (stream t 4).closing) = true ∧
    after (.streamQuery 0 1) (withCmd 0 1 0x0605 [4] (wr (NETIN_OUT_MISS 4) 6 withStream)) (fun t => result t 0 1 8 4 = 6) = true ∧
    after (.vlinkSet 0 1) (withCmd 0 1 0x0606 [0xA00, 7] withStream) (fun t => rd t NETIN_VLINK_ID = 7) = true ∧
    after (.vlinkSet 0 1) (withCmd 0 1 0x0606 [0xA00, 7] (wr NETIN_VLINK_CTRL 0x80000000 withStream)) (fun t => status t 0 1 = 0x100E) = true ∧
    after (.vlinkCtrlWrite true 9) (wr NETIN_VLINK_CTRL 0x80000000 State.reset) (fun t => rd t (BLOCK_IGNORED_WRITES 0x30000) = 1) = true ∧
    after (.vlinkCtrlWrite true 9) State.reset (fun t => rd t NETIN_VLINK_ID = 9) = true ∧
    after (.vlinkCtrlWrite false 0xA0A) State.reset (fun t => rd t NETIN_VLINK_CTRL = 0xA0A) = true := by decide +kernel

/-- The same stream on TEN 2, with its link up. -/
def withEthStream : State := setLive (NETIN_OUT_CTRL 4) 0x8205 { netPort with out.streams := withStream.out.streams, power.state := .run }

theorem witness_StreamMessages : ((readSource withStream 4 (streamCfg withStream 4)).msg.isNone = true ∧ scDonePeg (streamCfg withStream 4) = 0xFFFF) ∧
    after (.streamCapture 4) withStream (fun t => rd t (NETIN_OUT_DROP 4) = 65536) = true ∧
    after (.captureComplete 4) { withStream with out.streams := [(4, { enabled := true, copying := some (aMessage withStream [1, 2, 3]) })] }
      (fun t => memGet t 0x100002 = 3 ∧ (stream t 4).waiting.isSome) = true ∧
    after (.segmentLaunch 4) { State.reset with out.streams := [(4, { enabled := true, waiting := some (aMessage withEthStream [1, 2, 3]) })] } (fun t => rd t (NETIN_TX_DROP 2) = 1) = true ∧
    after (.segmentLaunch 4) { withEthStream with out.streams := [(4, { enabled := true, waiting := some (aMessage withEthStream [1, 2, 3]) })] }
      (fun t => rd t (NETIN_OUT_SENT 4) = 1 ∧ t.emitted.length = 1) = true ∧
    after (.pcieDelivery 4 0) { withStream with out.streams := [(4, { enabled := true, waiting := some (aMessage withStream [1, 2, 3]) })] } (fun t => rd t (NETIN_OUT_DROP 4) = 1) = true ∧
    after (.pcieDelivery 4 0) { withStream with out.streams := [(4, { enabled := true, waiting := some (aMessage withStream [1, 2, 3]), hostRing := some ⟨0, 4096, 8, 0, 0, 5⟩ })] }
      (fun t => rd t (NETIN_OUT_SENT 4) = 1 ∧ t.emitted.length = 3) = true := by decide +kernel

theorem witness_WindowsAndThePair : after (.windowDecision 4) (atTime 999999 withStream) (fun t => (stream t 4).nextWindow = 0) = true ∧
    after (.windowDecision 4) (atTime 1000000 (wr (NETIN_OUT_STATUS 4) 1 withStream)) (fun t => streamState t 4 = 2 ∧ rd t (NETIN_OUT_MISS 4) = 1) = true ∧
    after (.windowDecision 4) (atTime 1000000 (wr (NETIN_OUT_STATUS 4) 2 { withStream with out.streams := [(4, { enabled := true, left := [(1000000, false)] })] }))
      (fun t => streamState t 4 = 3) = true ∧
    after (.validOutReadback false) State.reset (fun t => bit (rd t NETIN_VLINK_STATE) 2) = true ∧
    after (.validOutReadback true) State.reset (fun t => t.out.badReads = 1) = true ∧
    after (.validOutReadback true) { State.reset with out.badReads := 1 } (fun t => inSafeState t) = true ∧
    after .safeStateHeartbeat (atTime 25000000 (wr NETIN_VLINK_CTRL 0xA02 State.reset)) (fun t => t.out.beat = 20000000 ∧ rd t NETIN_VLINK_STATE = 0x100) = true ∧
    after .safeStateHeartbeat State.reset (fun t => t.out.beat = 0) = true := by decide +kernel

theorem witness_NamingAndLoading : after (.baySetPointWrite 1 700) withPlan (fun t => fld t (BAY_SET_POINT 1) 9 0 = 700) = true ∧
    after (.baySetPointWrite 1 705) withPlan (fun t => fld t (BAY_SET_POINT 1) 9 0 = fld withPlan (BAY_SET_POINT 1) 9 0) = true ∧
    queueHead (aLone planNode (anInst .ready { bay := 0 }) withPlan) 1 (some 0) = some (2, 0) ∧
    after (.instanceNamed 0) (aLone planNode (anInst .ready { bay := 0 }) withPlan) (fun t => (truss t 0 0).task = some (2, 0)) = true ∧
    after (.shadowLoadComplete 0 3) { State.reset with fab.trusses := [(3, { shadow := some (2, 0) })] } (fun t => (truss t 0 3).shadowLoaded) = true ∧
    after (.taskStart 2 0 false) (aLone { planNode with plan := 0x100004 } (anInst .ready { bay := 0, named := true }) { withPlan with fab.order := [(2, 0)] })
      (fun t => t.scribe.insts = [] ∧ rd t (BAY_TASK_ABORTS 0) = 65536) = true ∧
    taskMayStart (aLone planNode (anInst .ready { bay := 0, named := true, trusses := [0] }) { withPlan with fab.order := [(2, 0)], fab.trusses := [(0, { task := some (2, 0) })] })
      2 0 { bay := 0, named := true, trusses := [0] } = true := by decide +kernel

theorem witness_TasksEnd : after (.taskEnd 2 0 { steps := 3, nar := 4 }) (aLone planNode (anInst .running aRun) withPlan) (fun t => t.scribe.insts = [] ∧ rd t (BAY_NAR_COUNT 0) = 4) = true ∧
    after (.taskEnd 2 0 { steps := 3, writes := [⟨0, 4, [⟨.lit 0x3412, 2⟩], false⟩] })
      (aLone { planNode with binds := [{ arg := 0, kind := 1, ref := 1 }] } (anInst .running aRun) withTensor) (fun t => memGet t 0x101005 = 0x34) = true ∧
    after (.taskEnd 2 0 { steps := 3, io := [.pop 5] })
      (aLone { planNode with binds := [{ arg := 5, kind := 2, ref := 3 }] } (anInst .running aRun) { withRing with scribe.rings := [(3, { owner := 0, packet := false, log2 := 4, base := 0x100000 })] })
      (fun t => (runOf t 2 0).any (fun r => r.stalled = some (3, 0))) = true ∧
    after (.streamStallEnd 2 0) (aLone { planNode with binds := [{ arg := 5, kind := 2, ref := 3 }] } (anInst .running { aRun with io := [.pop 5], stalled := some (3, 0) }) withRing)
      (fun t => t.scribe.insts = [] ∧ (tget 3 t.scribe.rings).any (fun r => r.cons = 1)) = true ∧
    after (.stallTimeout 2 0) (atTime 10000000 (aLone planNode (anInst .running { aRun with stalled := some (3, 0) }) withPlan)) (fun t => t.scribe.insts.length = 1) = true ∧
    after (.stallTimeout 2 0) (atTime 10000001 (aLone planNode (anInst .running { aRun with stalled := some (3, 0) }) withPlan)) (fun t => rd t SCRIBE_STALL_TIMEOUTS = 1) = true ∧
    after (.stepBoundReached 2 0) (aLone planNode (anInst .running aRun) withPlan) (fun t => t.scribe.insts = [] ∧ rd t (BAY_TASK_ABORTS 0) = 1) = true := by decide +kernel

theorem witness_TrussTests : after (.trussSelftestStart 0 3) (atTime 500000000 withPlan) (fun t => (truss t 0 3).testing) = true ∧
    after (.trussSelftestStart 0 3) (atTime 499999999 withPlan) (fun t => !(truss t 0 3).testing) = true ∧
    after (.trussSelftestDone 0 3 .pass) { withPlan with fab.trusses := [(3, { testing := true })] } (fun t => rd t (BAY_SELFTEST_RUNS 0) = 1) = true ∧
    after (.trussSelftestDone 0 3 (.tenon 1 7)) { withPlan with fab.trusses := [(3, { testing := true })] } (fun t => spareOf t 0 3 1 = 7) = true ∧
    after (.trussSelftestDone 0 3 (.tenon 1 7)) (setFld (BAY_SPARE_MAP 0 3) 12 8 4 { withPlan with fab.trusses := [(3, { testing := true })] }) (fun t => rd t (BAY_RETIRED 0) = 8) = true ∧
    after (.trussSelftestDone 0 3 .other) { withPlan with fab.trusses := [(3, { testing := true })] } (fun t => rd t (BAY_RETIRED 0) = 8) = true := by decide +kernel

theorem witness_ProvisionalAndDual : after (.notBeforePassed 2) (atTime 9 (aLone { planNode with flags := 4, nbOffset := 9 } { graph := 6, node := 0, n := 0 } withPlan))
      (fun t => (tget 2 t.scribe.insts).any (fun x => x.st = .ready)) = true ∧
    after (.provisionalStart 2) (setLive SCRIBE_CTRL 1 (setLive (SCRIBE_PROV_SIZE 0) 8 (aLone { planNode with flags := 1, deps := [⟨5, true, true, false, 0, 1, 1, 1, 9⟩] } { graph := 6, node := 0, n := 0, entries := [none] } withPlan)))
      (fun t => (tget 2 t.scribe.insts).any (fun x => x.st = .provReady ∧ x.guards = [0])) = true ∧
    after (.provisionalStart 2) (setLive SCRIBE_CTRL 1 (setLive (SCRIBE_PROV_SIZE 0) 0 (aLone { planNode with flags := 1, deps := [⟨5, true, true, false, 0, 1, 1, 1, 9⟩] } { graph := 6, node := 0, n := 0, entries := [none] } withPlan)))
      (fun t => rd t SCRIBE_PROV_DENIED = 1) = true ∧
    after .instanceCommit (aLone planNode { anInst .committing { doneRun with writes := [⟨none, 0x100100, [7, 8], false⟩] } with prov := true } { withPlan with scribe.resolving := [2] })
      (fun t => memGet t 0x100101 = 8 ∧ t.scribe.insts = []) = true ∧
    after .instanceDiscard (aLone planNode { anInst .discarding { doneRun with writes := [⟨none, 0x100100, [7, 8], false⟩] } with prov := true } { withPlan with scribe.resolving := [2] })
      (fun t => memGet t 0x100101 = 0 ∧ t.scribe.insts = []) = true ∧
    after (.dualCompare 2) (aLone { planNode with flags := 8 } { anInst .running doneRun with runs := [doneRun, { doneRun with bay := 1 }] } withPlan) (fun t => t.scribe.resolving = [2]) = true ∧
    after (.dualCompare 2) (aLone { planNode with flags := 8 } { anInst .running doneRun with runs := [doneRun, { doneRun with bay := 1, completion := 4 }] } withPlan)
      (fun t => (tget 2 t.scribe.insts).any (fun x => x.runs.length = 3)) = true ∧
    after (.dualCompare 2) (wr SILL_PACKAGE 3 (aLone { planNode with flags := 8 } { anInst .running doneRun with runs := [doneRun, { doneRun with bay := 1, completion := 4 }] } withPlan))
      (fun t => bit (rd t KINGPOST_FAULT_LATCH) 16) = true ∧
    after (.tiebreakCompare 2) (aLone { planNode with flags := 8 } { anInst .running doneRun with runs := [doneRun, { doneRun with bay := 1, completion := 4 }, { doneRun with bay := 2 }] } withPlan)
      (fun t => rd t (KINGPOST_DUAL_FAULTS 1) = 1) = true ∧
    after (.tiebreakCompare 2) (aLone { planNode with flags := 8 } { anInst .running doneRun with runs := [doneRun, { doneRun with bay := 1, completion := 4 }, { doneRun with bay := 2, completion := 4 }] } withPlan)
      (fun t => (tget 2 t.scribe.insts).any (fun x => x.chosen = 1)) = true ∧
    after (.tiebreakCompare 2) (aLone { planNode with flags := 8 } { anInst .running doneRun with runs := [doneRun, { doneRun with bay := 1, completion := 4 }, { doneRun with bay := 2, completion := 5 }] } withPlan)
      (fun t => (tget 2 t.scribe.insts).any (fun x => x.noAgree)) = true := by decide +kernel

theorem witness_PlanerPoints : after .planerIngest { withPlaner with ingest := [aPoint 16000 1] } (fun t => t.ingest = [] ∧ (tgetD 0 [] t.plan.block).length = 1) = true ∧
    after .planerIngest { withPlaner with ingest := [aPoint 0 0], plan.segs := [] } (fun t => rd t PLANER_NO_RETURN = 1) = true ∧
    after .planerIngest { withPlaner with ingest := [aPoint 16000 0], plan.segs := [] } (fun t => rd t PLANER_OUT_OF_EPOCH = 1) = true ∧
    (gridOf (atTime 206000000 withPlaner) 205000000).map (·.2) = some 2 ∧
    decide (206000000 ≤ sliceClose withPlaner.plan.live 2 0 ∧ 206000000 ≤ gridClose withPlaner.plan.live 2) = true ∧
    after (.poseRefFix 2) (atTime 206000000 withPlaner) (fun t => fld t PLANER_STATE 2 2 = 1) = true ∧
    (usablePoses (writeBytes 0x180000 (leBytes 1 1 ++ leBytes 3 1 ++ leBytes 4 16 ++ leBytes 8 400000000 ++ leBytes 4 0x40000000 ++ leBytes 40 0 ++ leBytes 4 16) withPlaner)
      withPlaner.plan.live).any (fun r => decide (gridRef withPlaner.plan.live 2 ≤ r.t)) = true ∧
    after (.sliceRelease 2) (atTime 222000000 { withPlaner with plan.epochs := [(200000000, { pose := some ⟨[0x40000000, 0, 0, 0], [0, 0, 0], 0⟩ })] })
      (fun t => let e := gridAt t withPlaner.plan.live 2; e.next = 1 ∧ e.flags = 16) = true := by decide +kernel

theorem witness_VoxelAndGridFrames : after .voxelFrameEmit { withPlaner with plan.epochs := [(100000000, { next := 10 })] }
      (fun t => rd t PLANER_FRAMES = 1 ∧ t.plan.frame = 1 ∧ readNat t 0x100008 8 = 200000000) = true ∧
    unitReady (unitHead 2 [0, 1] withMemory) 2 2 = true ∧ after (.raftCycleStart 2) (unitHead 2 [0, 1] withMemory) (fun t => rd t RAFT_DESC_ERR = 0x101) = true ∧
    (instOf (unitHead 2 [0, 1] (raftCycle withMemory)) 2).map (fun z => cycleRefusal (unitHead 2 [0, 1] (raftCycle withMemory)) z.2.1 z.2.2) = some none ∧
    after (.raftCycleStart 2) (unitHead 2 [0, 1] (raftCycle withMemory)) (fun t => t.raft.run.map (fun r => (r.inst, r.t)) = some (2, 700005)) = true ∧
    after (.raftCycleEnd 2 7) (unitRun 2 [0, 1] { withGrid withMemory with raft.run := some { inst := 2, grid := [], desc := List.replicate 8 255, t := 5, pose := ⟨[], [], 0⟩, inputs := [], flags := 0x20, epoch := 0, start := 0 } })
      (fun t => rd t RAFT_LAST_FRAME = 0x21020 ∧ t.scribe.insts = []) = true := by decide +kernel

theorem witness_LedgerOperations : after (.ledgerOpen 2 [] []) (ledgerOp 1 1 0 [] withMemory) (fun t => t.ledger.seqs.map (·.1) = [0] ∧ t.scribe.insts = [] ∧ t.ledger.serial = 1) = true ∧
    after (.ledgerFork 2 [] []) (withSeq (ledgerOp 2 1 0 [3] withMemory)) (fun t => t.ledger.seqs.map (·.1) = [0, 3] ∧ (pageOf t 4).refcount = 2 ∧ t.scribe.insts = []) = true ∧
    after (.ledgerAppend 2 [] []) (withSeq (ledgerOp 3 2 4 [3, 1, 8, 0] withMemory)) (fun t => (tget 3 t.ledger.seqs).map (·.len) = some 6 ∧ (pageOf t 4).fill = 6 ∧ t.scribe.insts = []) = true ∧
    after (.ledgerRead 2 [] []) (withSeq (ledgerOp 4 2 2 [3, 0] withMemory)) (fun t => (pageOf t 4).pins = 1 ∧ (pageOf t 4).lastRead = 1 ∧ t.scribe.insts = []) = true ∧
    after (.ledgerClose 2 [] []) (withSeq (ledgerOp 5 1 0 [3] withMemory)) (fun t => t.ledger.seqs = [] ∧ (pageOf t 4).state = .free ∧ t.scribe.insts = []) = true ∧
    after (.ledgerRefill 2 [] []) { ledgerOp 6 2 2 [4, 1] withMemory with ledger.pages := [(4, { state := .recomputing, gen := 1, slot := some 2 })] }
      (fun t => (pageOf t 4).state = .resident ∧ t.scribe.insts = []) = true ∧
    after (.ledgerCollective 2) (ledgerOp 7 1 0 [9] withMemory) (fun t => rd t LEDGER_COLL_BYTES = 1 ∧ readNat t 0x102000 4 = 9 ∧ t.scribe.insts = []) = true ∧
    after (.readResume 2) { ledgerOp 4 2 2 [3, 0] withMemory with scribe.insts := (unitRun 5 [0, 1, 1, 1] withMemory).scribe.insts, ledger.runs := [(2, { desc := leBytes 1 1 ++ leBytes 1 4, serial := 1, dropEn := false, next := 1 })] }
      (fun t => t.scribe.insts = [] ∧ t.ledger.runs = []) = true ∧
    after (.recomputeDeadline 4) { atTime 50 withMemory with ledger.pages := [(4, { state := .recomputing, slot := some 2, deadline := 50 })] } (fun t => (pageOf t 4).state = .dropped) = true := by decide +kernel

theorem witness_PlumbAndTally : after .plumbCycleStart (unitHead 4 [0, 0, 1, 1, 1, 1, 1, 1] (plumbCycle withMemory)) (fun t => fld t PLUMB_STATE 7 0 = 1 ∧ t.plumb.run.isSome) = true ∧
    after .plumbCycleStart (unitHead 4 [] withMemory) (fun t => rd t PLUMB_DESC_ERR = 0x1B02) = true ∧
    after .plumbCycleStart { plumbCycle withMemory with plumb.queue := [{ slot := 2, at_ := 8, count := 0, cfg := { aSlot with binds := bindAll [0, 0, 1, 1, 1, 1, 1, 1] } }] }
      (fun t => fld t PLUMB_STATE 7 0 = 11 ∧ t.plumb.queue = []) = true ∧
    after (.plumbDeadline 0 3 false) (atTime 1000000 (unitRun 4 [] { withMemory with plumb.run := some { inst := some 2, mark := none, arg := 0, desc := leBytes 16 1 ++ leBytes 4 1000, binds := [], owner := 0, ts := 0, epoch := 0, fallback := false, disagree := false, mountQ := [], mountT := [] } }))
      (fun t => rd t PLUMB_LAST_RESULT = 0x1B11 ∧ t.scribe.insts = []) = true ∧
    after (.plumbCycleEnd 3) (unitRun 4 [] { withMemory with plumb.run := some { inst := some 2, mark := none, arg := 0, desc := leBytes 16 1 ++ leBytes 4 1000, binds := [], owner := 0, ts := 0, epoch := 0, fallback := false, disagree := false, mountQ := [], mountT := [] } })
      (fun t => rd t PLUMB_CONVERGED = 1 ∧ t.scribe.insts = []) = true ∧
    after (.tallyAssociate 3) (unitHead 3 [0, 1, 1, 1, 1, 0, 1, 1] (tallyCycle 1 2 withMemory)) (fun t => rd t TALLY_CYCLES = 1 ∧ t.tally.table.pending = false) = true ∧
    (tallyJob (unitHead 3 [0, 1, 1, 1, 1, 0, 1, 1] (tallyCycle 1 0 withMemory))).map (fun j => tallyRefusal (unitHead 3 [0, 1, 1, 1, 1, 0, 1, 1] (tallyCycle 1 0 withMemory)) j.dom j.addr j.binds j.nbEn) = some none ∧
    after (.tallyUpdate 3) (unitHead 3 [0, 1, 1, 1, 0, 0, 0, 1] (tallyCycle 2 0 withMemory)) (fun t => rd t TALLY_LAST_FRAME = 0x20200 ∧ t.tally.table.cycle = 1) = true := by decide +kernel

theorem witness_PowerCommands : isReady 0 1 0x0701 (withCmd 0 1 0x0701 [] withMemory) = true ∧ after (.powerRead 0 1) (withCmd 0 1 0x0701 [] { withMemory with gov.charged := [(0, 7000)] }) (fun t => result t 0 1 8 8 = 7) = true ∧
    after (.throttleRead 0 1) (withCmd 0 1 0x0704 [] { withMemory with gov.durations := [(4, 900)] }) (fun t => status t 0 1 = 0 ∧ result t 0 1 40 8 = 9) = true ∧
    after (.setPointStage 0 1) (withCmd 0 1 0x0702 [1 + 0x10000 * 700] withMemory) (fun t => status t 0 1 = 0 ∧ fld t (BAY_SET_POINT 1) 9 0 = 700) = true ∧
    after (.setPointStage 0 1) (withCmd 0 1 0x0702 [4 + 0x10000 * 700] withMemory) (fun t => status t 0 1 = 0x1006) = true ∧
    after (.setPointStage 0 1) (withCmd 0 1 0x0702 [1 + 0x10000 * 705] withMemory) (fun t => status t 0 1 = 0x1006) = true ∧
    after (.capSet 0 1) (withCmd 0 1 0x0703 [80 + 256 * 60] withMemory) (fun t => t.gov.requests = [⟨80, 60, some 1⟩]) = true ∧
    after (.capSet 0 1) (withCmd 0 1 0x0703 [80 + 256 * 61] withMemory) (fun t => status t 0 1 = 0x1301) = true ∧
    after (.governorCapReqWrite (30 + 256)) withMemory (fun t => t.gov.requests = [⟨30, 1, none⟩]) = true ∧
    after (.governorCapReqWrite (29 + 256)) withMemory (fun t => t.gov.requests = [] ∧ rd t (BLOCK_IGNORED_WRITES 0xC0000) = 1) = true ∧
    after (.governorExtReqWrite 0x1002) withMemory (fun t => t.gov.ext = [(1, 16)]) = true ∧
    after (.governorExtReqWrite 0x1000) withMemory (fun t => rd t (BLOCK_IGNORED_WRITES 0xC0000) = 1) = true ∧
    after (.throttleRequest 0 1) (withCmd 0 1 0x0705 [2 + 256 * 16] withMemory) (fun t => status t 0 1 = 0 ∧ t.gov.ext = [(1, 16)]) = true ∧
    after (.throttleRequest 0 1) (withCmd 0 1 0x0705 [256 * 16] withMemory) (fun t => status t 0 1 = 0x1302) = true ∧
    after .capLatch (withCmd 0 1 0x0703 [] { withMemory with gov.requests := [⟨80, 60, some 1⟩] }) (fun t => status t 0 1 = 0 ∧ t.power.retained.cap = 80) = true := by decide +kernel

theorem witness_GovernorObserves : after (.inputSample 12000 5000 []) (withRun 0) (fun t => rd t GOVERNOR_INPUT = 327692000 ∧ t.gov.input = 60000000) = true ∧
    after (.inputSample 12000 14901 []) { withRun 0 with gov.credit := 1000 } (fun t => t.gov.peak ∧ fld t (GOVERNOR_BAY_CEIL 2) 15 8 = 8) = true ∧
    after (.railFault 3) (withRun 0) (fun t => bit (rd t KINGPOST_FAULT_HOLD) 24 ∧ inSafeState t) = true ∧ after (.railFault 3) { withRun 0 with power.state := .sequencing } (fun t => rd t KINGPOST_FAULT_HOLD = 0) = true ∧
    after (.tjReport 9 1299) (withRun 0) (fun t => fld t (BAY_REGION_ENV 0 3) 31 16 = 1299) = true ∧ after (.tjReport 9 1400) (withRun 0) (fun t => bit (rd t KINGPOST_FAULT_HOLD) 25) = true ∧
    decide (inRun (withRun 1000000) = true ∧ (withRun 1000000).gov.nextInterval ≤ 1000000 ∧ 999999 < (withRun 0).gov.nextInterval ∧ (withRun 0).gov.window = none) = true ∧
    after .secondMark (withRun 1000000000) (fun t => t.gov.window.isSome ∧ t.recd.life.s = 1) = true ∧ after .secondMark (withRun 999999999) (fun t => t.recd.life.s = 0) = true ∧
    after .secondMark { withRun 1000000000 with gov.window := some { number := 1, cap := 90, secs := 10, tOpen := 0, ticks := 0, energy := 0, durations := [], left := 1, changed := false } } (fun t => t.recd.windows.length = 1) = true ∧
    after (.ageTrimRise 4) { withRun 0 with gov.lowHeadroom := [(4, 3600)] } (fun t => fld t GOVERNOR_SILL_AGE 5 0 = 5) = true ∧ after (.ageTrimRise 4) { withRun 0 with gov.lowHeadroom := [(4, 3599)] } (fun t => fld t GOVERNOR_SILL_AGE 5 0 = 0) = true ∧
    after (.regionCrossingAlert 4 5 true) (withRun 0) (fun t => bit (rd t SILL_REGION_ALERT) 5 ∧ inSafeState t) = true ∧
    bit (rd (setMask (BAY_STATUS 1) 0xF0000 (withRun 0)) (BAY_STATUS 1)) 18 = true := by decide +kernel

theorem witness_RecorderRows : after (.eventOccurrence 0x4001 9 0) (withRun 7) (fun t => t.recd.slots.map (fun e => (e.code, e.count, e.arg, e.extra)) = [(0x4001, 1, 9, 7)]) = true ∧
    after (.eventOccurrence 0x4001 9 0) { withRun 7 with recd.slots := [{ code := 0x4001, count := 3 }], recd.buckets := [(0x4001, 0)] } (fun t => t.recd.slots.map (fun e => (e.count, e.held, e.arg)) = [(4, 1, 0)]) = true ∧
    nandWhole (setFld SILL_PACKAGE 9 8 2 (withRun 7)) = true ∧ (recentCommits (withRun 7)).length = 0 ∧
    isReady 0 1 0x0901 (withCmd 0 1 0x0901 [] withMemory) = true ∧ after (.recSummary 0 1) (withCmd 0 1 0x0901 [] withMemory) (fun t => status t 0 1 = 0 ∧ result t 0 1 4 4 = 1) = true ∧
    after (.recRead 0 1 []) (withCmd 0 1 0x0902 [0, 0, 0x100000, 0] withMemory) (fun t => status t 0 1 = 0x1006) = true ∧
    after (.recRead 0 1 []) (withCmd 0 1 0x0902 [0, 1, 0x200000, 0] withMemory) (fun t => status t 0 1 = 0x1006) = true ∧
    after (.recRead 0 1 []) (withCmd 0 1 0x0902 [0, 1, 0x100000, 0] withMemory) (fun t => status t 0 1 = 0x1402) = true ∧
    after (.recRead 0 1 []) (withCmd 0 1 0x0902 [5, 1, 0x100000, 0] { withMemory with recd.pages := [(5, [1, 2, 3])] }) (fun t => status t 0 1 = 0 ∧ readNat t 0x100000 3 = 0x30201) = true ∧
    after (.eventNotify 0 1) (withCmd 0 1 0x0903 [0xFFFF4001, 2] withMemory) (fun t => status t 0 1 = 0 ∧ t.recd.notifies = [⟨0x4001, 0xFFFF, 2⟩]) = true ∧
    after (.eventNotify 0 1) (withCmd 0 1 0x0903 [0xFFFF4001, 0xFF] { withMemory with recd.notifies := [⟨0x4001, 0xFFFF, 2⟩] }) (fun t => status t 0 1 = 0 ∧ t.recd.notifies = []) = true ∧
    after (.eventNotify 0 1) (withCmd 0 1 0x0903 [0xFFFF4001, 1] withMemory) (fun t => status t 0 1 = 0x1006) = true ∧
    after (.eventNotify 0 1) (withCmd 0 1 0x0903 [0xFFFF4001, 2] { withMemory with recd.notifies := List.replicate 8 ⟨1, 0xFFFF, 2⟩ }) (fun t => status t 0 1 = 0x1401) = true := by decide +kernel

theorem witness_SafetyRows : after (.faultReport 29 0) (withRun 5) (fun t => rd t KINGPOST_FAULT_LATCH = 0) = true ∧ after (.faultReport 7 0) (withRun 5) (fun t => rd t KINGPOST_FAULT_LATCH = 128) = true ∧
    after (.faultReport 13 0) (withRun 5) (fun t => inSafeState t ∧ fld t KINGPOST_SAFETY_STATE 15 8 = 13 ∧ rd t KINGPOST_SAFE_ENTRY_LO = 5) = true ∧
    decide (inRun (withRun 5) = true ∧ (withRun 5).sec.fuses.returnPending = false ∧ inSafeState (withRun 5) = false) = true ∧
    after (.sillLockstepMismatch 0 0) (withRun 5) (fun t => inSafeState t ∧ bit (rd t KINGPOST_FAULT_LATCH) 18) = true ∧ after (.sillLockstepMismatch 6 3) (withRun 5) (fun t => fld t KINGPOST_LOCKSTEP 3 0 = 6) = true ∧
    after (.rotationSlot (some true)) (withRun 4899999) (fun t => t.kp.slot = 0) = true ∧ after (.rotationSlot none) (withRun 4900000) (fun t => t.kp.running = some (0, 4900000)) = true ∧
    after (.rotationSlot (some true)) (withRun 4900040) (fun t => t.kp.pass = [0]) = true ∧ after (.rotationSlot (some false)) (withRun 4900040) (fun t => t.kp.failedSlots = [0] ∧ inSafeState t) = true ∧
    after .rotationOverdue { withRun 1000005 with kp.running := some (3, 5) } (fun t => t.kp.running = none ∧ inSafeState t) = true ∧
    after .rotationOverdue { withRun 1000004 with kp.running := some (3, 5) } (fun t => t.kp.running = some (3, 5)) = true ∧
    after (.safeStateRelease 0 1) (withCmd 0 1 0x0A02 [] (setMask KINGPOST_SAFETY_STATE 3 withMemory)) (fun t => status t 0 1 = 0x1E01) = true ∧
    after (.safeStateRelease 0 1) (withCmd 0 1 0x0A02 [] (setMask KINGPOST_SAFETY_STATE 3 { withMemory with kp.rotated := true })) (fun t => status t 0 1 = 0 ∧ inSafeState t = false) = true ∧
    after (.safetyStatus 0 1) (withCmd 0 1 0x0A01 [] (wr KINGPOST_FAULT_LATCH 9 withMemory)) (fun t => status t 0 1 = 0 ∧ result t 0 1 8 4 = 9) = true ∧
    after (.selftestLog 0 1) (withCmd 0 1 0x0A03 [] (wr KINGPOST_ROTATION_FAIL 3 withMemory)) (fun t => status t 0 1 = 0 ∧ result t 0 1 8 4 = 3) = true := by decide +kernel

theorem witness_MemoryHealth : after (.scrubRead 0x100004 2 none true) withMemory (fun t => t.poison = []) = true ∧
    after (.scrubRead 0x100008 0 none true) withMemory (fun t => fld t (BAY_SCRUB_PASSES 0) 15 0 = 1) = true ∧
    after (.scrubRead 0x100008 2 none true) (wr (BAY_SCRUB_CFG 0) 2 withMemory) (fun t => t.poison = []) = true ∧
    after (.scrubRead 0x100008 1 none false) withMemory (fun t => rd t (BAY_DRAM_CE 0) = 1 ∧ t.recd.dramErrors = 1) = true ∧
    after (.scrubRead 0x100008 2 none false) withMemory (fun t => t.poison = [0x20001] ∧ rd t (BAY_DRAM_ERR_ADDR_LO 0) = 0x100008) = true ∧
    after (.purlinLinkDown 1 2) withMemory (fun t => t.memory.downLinks = [1] ∧ bit (rd t (BAY_MEM_STATUS 0)) 4 ∧ inSafeState t) = true ∧
    after (.purlinLinkUp 1 2 3) { withMemory with memory.downLinks := [1] } (fun t => t.memory.downLinks = [] ∧ fld t (BAY_PURLIN_STATUS 1) 11 8 = 3) = true ∧
    after .bootExcursion { withMemory with power.state := .sequencing, power.step := 9 } (fun t => t.recd.slots.map (·.code) = [0xA014]) = true ∧
    after .bootExcursion (withRun 0) (fun t => t.recd.slots = []) = true := by decide +kernel

theorem witness_SecretsAndTokens : after (.ownerSecretSubmit 9) withMemory (fun t => t.sec.deciding = some [0, 0, 0, 0, 0, 0, 0, 9] ∧ bit (rd t FENCE_STATUS) 2) = true ∧
    after (.ownerSecretSubmit 9) { withMemory with sec.deciding := some [] } (fun t => rd t (BLOCK_IGNORED_WRITES 0xA0000) = 1) = true ∧
    after (.ownerSecretSubmit 9) (setMask FENCE_LOCK 4 withMemory) (fun t => t.sec.deciding = none) = true ∧
    after .ownerSecretDecision withMemory (fun t => fld t FENCE_STATUS 2 0 = fld withMemory FENCE_STATUS 2 0) = true ∧
    after .ownerSecretDecision { withMemory with sec.deciding := some [1], sec.check := none } (fun t => fld t FENCE_STATUS 2 0 = 3 ∧ t.sec.check.isSome) = true ∧
    after (.ownerRekeySubmit 9) withMemory (fun t => rd t (BLOCK_IGNORED_WRITES 0xA0000) = 1) = true ∧
    after (.ownerRekeySubmit 9) (setMask FENCE_STATUS 1 withMemory) (fun t => t.sec.check.isSome) = true ∧
    after (.serviceToken []) withMemory (fun t => t.emitted = [.service 0x1209] ∧ t.sec.nonces = 1) = true ∧
    after (.serviceToken []) { withMemory with sec.fuses.returned := true } (fun t => t.emitted = [.service 0x1202] ∧ t.sec.nonces = 1) = true ∧
    after .secCounterRaise (withRun 59999999999) (fun t => t.sec.raised) = false ∧
    after .secCounterRaise (setFld KINGPOST_BOOT_STATE 31 24 7 (withRun 60000000000)) (fun t => t.sec.raised ∧ t.sec.fuses.secCounter = 7) = true := by decide +kernel

theorem witness_SecretsAndTokens_right (w : List Nat) : { State.reset with sec.deciding := some w, sec.check := some (Config.ownerCheck w).toNat }.sec.check = some (Config.ownerCheck w).toNat := rfl

theorem witness_SecretsAndTokens_wrong (w : List Nat) :
    { State.reset with sec.deciding := some w, sec.check := some ((Config.ownerCheck w).toNat + 1) }.sec.check = some ((Config.ownerCheck w).toNat + 1) := rfl

theorem witness_FunctionsAndTheLink : after (.functionLevelReset 5) (setMask (MB_SESSION 5) 1 (withRun 0)) (fun t => bit (rd t (MB_SESSION 5)) 0) = true ∧
    after (.functionLevelReset 1) (setMask (MB_SESSION 1) 1 { withRun 0 with mb.numVfs := 3 }) (fun t => bit (rd t (MB_SESSION 1)) 0 = false) = true ∧
    after (.numvfsLowered 3) { withRun 0 with mb.numVfs := 3 } (fun t => t.mb.numVfs = 3) = true ∧
    after (.numvfsLowered 1) (setMask (MB_SESSION 2) 1 { withRun 0 with mb.numVfs := 3 }) (fun t => t.mb.numVfs = 1 ∧ bit (rd t (MB_SESSION 2)) 0 = false) = true ∧
    after (.numvfsRaised 63) { withRun 0 with mb.numVfs := 3 } (fun t => t.mb.numVfs = 63) = true ∧ after (.numvfsRaised 3) { withRun 0 with mb.numVfs := 3 } (fun t => t.mb.numVfs = 3) = true ∧
    after .pcieLinkReset (setMask (MB_SESSION 63) 1 (withRun 0)) (fun t => bit (rd t (MB_SESSION 63)) 0 = false ∧ t.mb.linkUp = false) = true ∧
    after (.pcieLinkTrained true) withMemory (fun t => t.mb.linkUp ∧ t.mb.ptm) = true ∧ after (.busMasterDisable 2) (withRun 0) (fun t => t.mb.bmeClear = [2]) = true ∧
    after (.busMasterDisable 2) { withRun 0 with mb.accepted := [(33, { opcode := 0x0201 })], memory.copies := [(33, { function := 2, slot := 1, toDevice := false, host := 0, device := 0, bytes := 64 })] }
      (fun t => t.memory.copies = []) = true ∧
    after .foremanHeartbeat (withRun 9) (fun t => t.mb.heartbeat = 1 ∧ t.kp.lastBeat = 9) = true ∧ after .foremanWatchdog (withRun 19999999) (fun t => t.mb.foremanUp) = true ∧
    after .foremanWatchdog (withRun 20000000) (fun t => t.mb.foremanUp = false ∧ rd t KINGPOST_FOREMAN_RESTARTS = 1) = true ∧
    after .foremanWatchdog { withRun 20000000 with mb.foremanUp := false } (fun t => rd t KINGPOST_FOREMAN_RESTARTS = 0) = true := by decide +kernel

theorem witness_Domains : after (.domainClose 0) withMemory (fun t => rd t (BLOCK_IGNORED_WRITES 0xA0000) = 1) = true ∧ after (.domainResume 64) withMemory (fun t => rd t (BLOCK_IGNORED_WRITES 0xA0000) = 1) = true ∧
    after (.domainClose 63) withMemory (fun t => rd t (FENCE_DOMAIN_STATE 63) = 1) = true ∧ after (.domainQuiesce 1) withMemory (fun t => rd t (FENCE_DOMAIN_STATE 1) = 3 ∧ rd t (MB_NOTICE 1) = 16) = true ∧
    after (.domainResume 1) (wr (FENCE_DOMAIN_STATE 1) 11 withMemory) (fun t => rd t (FENCE_DOMAIN_STATE 1) = 11) = true ∧ after (.domainResume 1) (wr (FENCE_DOMAIN_STATE 1) 3 withMemory) (fun t => rd t (FENCE_DOMAIN_STATE 1) = 0) = true ∧
    after (.domainResume 1) withMemory (fun t => t.recd.slots = []) = true ∧ after (.domainSettled 1) withMemory (fun t => rd t (FENCE_DOMAIN_STATE 1) = 0) = true ∧
    after (.domainSettled 1) (wr (FENCE_DOMAIN_STATE 1) 3 withMemory) (fun t => rd t (FENCE_DOMAIN_STATE 1) = 7 ∧ t.recd.slots.map (·.code) = [0xA003]) = true ∧
    after (.domainRelease 0 1) (withCmd 0 1 0x0B05 [64] withMemory) (fun t => status t 0 1 = 0x1006) = true ∧
    after (.domainRelease 0 1) withDomain (fun t => status t 0 1 = 0 ∧ t.scribe.graphs = [] ∧ t.memory.allocs.map (·.1) = [0x100000] ∧ t.scribe.pegs.map (·.1) = [5]) = true := by decide +kernel

theorem witness_ForemanAndTheReturn : after .foremanResume (withRun 0) (fun t => t.mb.foremanGen = (withRun 0).mb.foremanGen) = true ∧
    after .foremanResume { withRun 9 with mb.foremanUp := false } (fun t => t.mb.foremanUp ∧ t.kp.lastBeat = 9 ∧ bit (rd t (MB_NOTICE 63)) 0) = true ∧
    after .foremanResume { withRun 9 with mb.foremanUp := false, mb.accepted := [(19, { opcode := 0x0401 })] } (fun t => status t 1 3 = 0x100B ∧ t.mb.accepted = []) = true ∧
    after (.foremanLog 0 1) (withCmd 0 1 0x0B06 [0x200000, 0, 8] withMemory) (fun t => status t 0 1 = 0x1007) = true ∧
    (isReady 0 1 0x0B06 (withCmd 0 1 0x0B06 [0x100000, 0, 64] withMemory) && holdsRange withMemory 0 0x100000 64 false true) = true ∧
    after (.returnPrepare 0 1) (withCmd 0 1 0x0B07 [0x100000] { withMemory with sec.fuses.returned := true }) (fun t => status t 0 1 = 0x1209) = true ∧
    after (.returnPrepare 0 1) (withCmd 0 1 0x0B07 [0x200000] withMemory) (fun t => status t 0 1 = 0x1202) = true ∧
    after (.returnPrepare 0 1) (withCmd 0 1 0x0B07 [0x100000] withMemory) (fun t => status t 0 1 = 0x1202) = true ∧
    after .returnEraseComplete (withRun 0) (fun t => t.sec.fuses.returned) = false ∧
    decide ({ withRun 0 with sec.fuses.returnPending := true, sec.fuses.keyKill := true }.sec.fuses.returned = false) = true := by decide +kernel

theorem witness_FirmwareAndAdapters : after (.fwStage 0 1) (withCmd 0 1 0x0B01 [0x100000, 0, 0x40000001] withMemory) (fun t => status t 0 1 = 0x1006) = true ∧
    after (.fwStage 0 1) (withCmd 0 1 0x0B01 [0x100000, 0, 64] withMemory) (fun t => status t 0 1 = 0x1202) = true ∧
    after (.fwActivate 0 1) (withCmd 0 1 0x0B02 [] withMemory) (fun t => status t 0 1 = 0x1202) = true ∧
    after (.fwActivate 0 1) (withCmd 0 1 0x0B02 [] { withMemory with fw.slotB := { valid := true, state := 2 } }) (fun t => status t 0 1 = 0 ∧ t.fw.staged) = true ∧
    after (.fwActivate 0 1) (withCmd 0 1 0x0B02 [] { withMemory with fw.slotB := { valid := true, state := 2, box := [1] } }) (fun t => status t 0 1 = 0x1202) = true ∧
    isReady 0 1 0x0B03 (withCmd 0 1 0x0B03 [0x100000, 0, 64, 0] withMemory) = true ∧ unmountable (withYard 0) = false ∧ metadataRefused (withYard 0) = false ∧
    after (.adapterStage 0 1) (withCmd 0 1 0x0B04 [0x50008] withMemory) (fun t => status t 0 1 = 0x1006) = true ∧
    after (.adapterStage 0 1) (withCmd 0 1 0x0B04 [0x50007] withMemory) (fun t => status t 0 1 = 0x1007) = true ∧
    after (.adapterStage 0 1) (withCmd 0 1 0x0B04 [7] withMemory) (fun t => status t 0 1 = 0 ∧ t.net.reload = [7]) = true ∧
    after .kingpostFwSwitch { withRun 0 with fw.switching := some 1 } (fun t => t.fw.running = 1 ∧ t.fw.switching = none) = true ∧
    after .kingpostFwSwitch { withRun 0 with fw.switching := some 1, kp.running := some (0, 0) } (fun t => t.fw.running = 0) = true ∧
    after .fwTrialConfirm (withRun 0) (fun t => t.sec.raised) = false ∧
    after .fwTrialConfirm { withRun 60000000000 with fw.trial := some 0, fw.slotA := { valid := true, state := 1 } } (fun t => t.fw.slotA.state = 2) = true ∧
    after .fwTrialConfirm { withRun 59999999999 with fw.trial := some 0, fw.slotA := { valid := true, state := 1 } } (fun t => t.fw.slotA.state = 1) = true ∧
    after (.fwTrialRevert false) { withRun 9 with mb.foremanUp := false, fw.trial := some 0, fw.slotA := { valid := true, state := 1 }, fw.slotB := { valid := true, state := 2 } } (fun t => t.fw.slotA.state = 3 ∧ t.fw.switching = some 1) = true ∧
    after .recoveryPackageReset (withRun 0) (fun t => t.recd.slots = []) = true ∧ after .recoveryPackageReset { withRun 99999999 with fw.recoverAt := some 0 } (fun t => t.fw.recoverAt = some 0) = true ∧
    decide ({ withRun 100000000 with fw.recoverAt := some 0 }.recd.pages = [] ∧ { withRun 100000000 with fw.recoverAt := some 0 }.power.retained.failedRail = none) = true := by decide +kernel

theorem witness_StorageCommands : after (.nsFlush 0 1) (withCmd 0 1 0x0803 [] withMemory) (fun t => status t 0 1 = 0x1201) = true ∧
    after (.modelGet 0 1) (withCmd 0 1 0x0805 [1] { withYard 0 with yard.failed := true }) (fun t => status t 0 1 = 0x1D0A) = true ∧
    after (.nsRead 0 1) (withCmd 0 1 0x0801 [7, 0, 0, 0x100000] (withYard 0)) (fun t => status t 0 1 = 0x1D02) = true ∧
    after (.nsRead 0 1) (withCmd 0 1 0x0801 [7, 0, 1, 0, 0x100000, 0] (withYard 0)) (fun t => t.yard.queue.map (fun c => (c.opcode, c.a, c.started, c.snap)) = [(0x0801, 7, true, some [])]) = true ∧
    after (.nsRead 0 1) (withCmd 0 1 0x0801 [7, 0, 1, 0, 0x100000, 0] (clearMask YARD_STATUS 1 (withYard 0))) (fun t => t.yard.queue.map (·.started) = [false]) = true ∧
    after (.nsWrite 0 1) (withCmd 0 1 0x0802 [7, 0, 1, 0, 0x200000, 0] (withYard 0)) (fun t => status t 0 1 = 0x1D08) = true ∧
    after (.nsWrite 0 1) (withCmd 0 1 0x0802 [7, 0, 1, 0, 0x100000, 0] (clearMask YARD_STATUS 1 (withYard 0))) (fun t => t.yard.queue.map (·.c) = [0x100000]) = true ∧
    after (.nsFlush 0 1) (withCmd 0 1 0x0803 [] (clearMask YARD_STATUS 1 (withYard 0))) (fun t => t.yard.queue.map (·.opcode) = [0x0803]) = true ∧
    after (.nsFlush 0 1) (withCmd 0 1 0x0803 [] (withYard 0)) (fun t => t.yard.queue.map (·.started) = [true]) = true ∧
    after (.modelPut 0 1) (withCmd 0 1 0x0804 [0] (withYard 0)) (fun t => status t 0 1 = 0x1D06) = true ∧
    after (.modelPut 0 1) (withCmd 0 1 0x0804 [9] (clearMask YARD_STATUS 1 (withYard 0))) (fun t => t.yard.queue.map (·.a) = [9]) = true ∧
    after (.modelGet 0 1) (withCmd 0 1 0x0805 [0xFFFFFFFF] (withYard 0)) (fun t => status t 0 1 = 0x1D06) = true ∧
    after (.modelGet 0 1) (withCmd 0 1 0x0805 [9] (clearMask YARD_STATUS 1 (withYard 0))) (fun t => t.yard.queue.map (·.a) = [9]) = true ∧
    after (.storageInfo 0 1) (withCmd 0 1 0x0806 [] { withYard 0 with yard.wearTlc := 3000 }) (fun t => status t 0 1 = 0 ∧ result t 0 1 8 1 = 100 ∧ result t 0 1 9 1 = 100) = true ∧
    after (.storageCommandComplete 3 0 0 0 []) (withCmd 0 1 0x0801 [] { withYard 0 with yard.queue := [yardRead] }) (fun t => status t 0 1 = 0 ∧ readBytes t 0x100000 3 = [5, 6, 7]) = true ∧
    after (.storageCommandComplete 3 0 0 0 []) (withCmd 0 1 0x0802 [] { withYard 0 with yard.queue := [{ yardWrite with todo := [], status := 0x1D08 }] }) (fun t => status t 0 1 = 0x1D08 ∧ t.yard.queue = []) = true ∧
    after (.storageCommandComplete 3 0 0 0 []) (withCmd 0 1 0x0803 [] { withYard 0 with yard.queue := [{ yardWrite with todo := [], opcode := 0x0803 }] }) (fun t => status t 0 1 = 0 ∧ t.yard.queue = []) = true := by decide +kernel

theorem witness_StorageEvents : after (.wordlineVerified 3 1 0 0) { withYard 9 with yard.queue := [yardWrite] } (fun t => t.yard.page.length = 1 ∧ t.yard.since = 9 ∧ rd t YARD_PROG_TLC = 1) = true ∧
    after .journalWindowExpiry (withYard 20000000) (fun t => t.yard.closing = []) = true ∧
    after .journalWindowExpiry { withYard 20000000 with yard.page := [.block 7 none 3] } (fun t => t.yard.closing.length = 1) = true ∧ after .journalWindowExpiry { withYard 19999999 with yard.page := [.block 7 none 3] } (fun t => t.yard.closing = []) = true ∧
    after (.journalPageVerified 0 0) (withYard 0) (fun t => rd t YARD_PROG_PSLC = 0) = true ∧
    after (.journalPageVerified 0 0) { withYard 0 with yard.closing := [[.block 7 none 3]] } (fun t => t.yard.blocks = [(7, none)] ∧ rd t YARD_HOST_WRITE = 1) = true ∧
    after (.checkpointWrite 3) (withYard 0) (fun t => rd t YARD_PROG_PSLC = 0) = true ∧ after (.checkpointWrite 3) { withYard 0 with yard.pagesSince := 4096 } (fun t => rd t YARD_PROG_PSLC = 3) = true ∧
    after (.yardMount true 8) (clearMask YARD_STATUS 1 (withYard 5)) (fun t => bit (rd t YARD_STATUS) 0 ∧ t.yard.lastCheckpoint = 5) = true ∧
    after (.yardMount true 8) (clearMask YARD_STATUS 1 { withYard 5 with yard.torn := 4 }) (fun t => rd t YARD_TORN_DISCARDED = 4) = true ∧
    after (.yardMount false 8) (clearMask YARD_STATUS 1 (withYard 5)) (fun t => t.yard.failed) = true ∧ after (.patrolPass 1 2 [] [] true) (withYard 0) (fun t => rd t YARD_LDPC_RETRY = 1 ∧ rd t YARD_LDPC_SOFT = 2) = true ∧
    after (.patrolPass 0 0 [] [(1, 2)] false) { withYard 0 with yard.blocks := [(129, some [])] } (fun t => t.yard.unreadable = [129]) = true ∧
    after (.freeBlockErase 0 0 7 9 400 false) { withYard 0 with yard.worn := true } (fun t => t.yard.wearTlc = 589831) = true ∧
    after (.freeBlockErase 1 0 7 9 400 true) { withYard 0 with yard.worn := true } (fun t => t.yard.reservePslc = 400 ∧ bit (rd t YARD_EVENTS) 1) = true := by decide +kernel

theorem witness_PoweringUp : after .vinRise (plinthAt .standby 0) (fun t => t.power.state = .sequencing ∧ t.recd.life.cycle = 2) = true ∧
    after .enHigh { plinthAt .standby 0 with power.en := false } (fun t => t.power.state = .sequencing) = true ∧ after .vinRise (plinthAt .run 0) (fun t => t.power.state = .run) = true ∧
    after .enHigh { plinthAt .powerDown 0 with power.en := false } (fun t => t.power.due) = true ∧ after .railStepInLimits (plinthAt .sequencing 8) (fun t => t.power.step = 9) = true ∧
    after .sequencingRetry (plinthAt .run 3) (fun t => t.power.step = 3) = true ∧ after (.railStepTimeout 10) { plinthAt .sequencing 1 with power.attempts := 2 } (fun t => t.power.waiting) = true ∧
    after (.railStepTimeout 3) { plinthAt .sequencing 8 with power.attempts := 3 } (fun t => t.power.locked ∧ t.power.state = .standby) = true ∧
    after .sequencingRetry { plinthAt .sequencing 0 with power.waiting := true, power.attempts := 1 } (fun t => t.power.attempts = 2 ∧ t.power.step = 1) = true ∧
    after .holdupCharged (wr KINGPOST_POWER_STATE 2 (plinthAt .sequencing 9)) (fun t => bit (rd t KINGPOST_POWER_STATE) 5) = true ∧
    after (.powerOn {}) (wr KINGPOST_POWER_STATE 2 (plinthAt .sequencing 9)) (fun t => t.power.step = 9) = true ∧
    after (.powerOn {}) (setMask KINGPOST_POWER_STATE 32 (plinthAt .sequencing 9)) (fun t => t.power.state = .run ∧ t.mb.foremanUp ∧ rd t SILL_SYS_RESERVE = 512) = true ∧
    after .enLow (plinthAt .standby 0) (fun t => t.power.en = false) = true ∧ after .enLow (plinthAt .run 0) (fun t => t.power.state = .powerDown ∧ t.power.step = 3) = true ∧
    after .enLow { plinthAt .run 0 with yard.queue := [yardRead] } (fun t => t.power.step = 2) = true := by decide +kernel

theorem witness_PoweringDown : after (.pkgReset {}) { plinthAt .run 0 with power.en := false } (fun t => t.power.state = .run ∧ t.memory.allocs.length = 1) = true ∧
    decide ((plinthAt .run 0).power.retained.failedRail = none ∧ (plinthAt .run 0).sec.fuses.returnPending = false ∧ (plinthAt .run 0).power.en = true) = true ∧
    after .powerDownRailStep (plinthAt .run 4) (fun t => t.power.step = 4) = true ∧ after .powerDownRailStep (plinthAt .powerDown 9) (fun t => t.power.step = 10) = true ∧
    after .powerDownRailStep (plinthAt .powerDown 10) (fun t => t.power.state = .standby ∧ t.power.retained.ended = some (2, 0, 7)) = true ∧
    after .powerDownStorageLimit (plinthAt .powerDown 2) (fun t => t.power.step = 2) = true ∧ after .powerDownStorageLimit (atTime 100000000 (plinthAt .powerDown 2)) (fun t => t.power.step = 3) = true ∧
    after (.crashDischarge 3 100 200) (plinthAt .powerDown 5) (fun t => t.power.retained.crash = some { rail := 3, phase := 3, low := 100, high := 200, t := 7 }) = true ∧
    after (.crashDischarge 10 100 200) (plinthAt .holdUp 4) (fun t => t.power.retained.ended = some (6, 0, 7)) = true ∧ after (.crashDischarge 3 100 200) (plinthAt .run 5) (fun t => t.power.retained.crash = none) = true ∧
    after .inputLoss (plinthAt .run 0) (fun t => t.power.state = .run) = true ∧ after .inputLoss { plinthAt .run 0 with power.under := 20 } (fun t => t.power.state = .holdUp ∧ t.yard.stopped) = true ∧
    after .inputLoss { plinthAt .sequencing 3 with power.under := 20 } (fun t => t.power.state = .standby) = true ∧ after .inputLoss { plinthAt .powerDown 3 with power.under := 20 } (fun t => t.power.ending = 1) = true ∧
    after .powerFailCommit (plinthAt .run 0) (fun t => t.power.state = .run) = true ∧
    decide (nandWhole (setFld SILL_PACKAGE 9 8 2 (plinthAt .holdUp 4)) = true ∧ (recentCommits (plinthAt .holdUp 4)).length < 1024) = true := by decide +kernel

theorem witness_DefaultProfile : after (.defaultProfileStart {}) { State.reset with mb.foremanUp := false } (fun t => rd t SILL_PROFILE = 0) = true ∧
    after (.defaultProfileStart { pegs := 2, allocs := [(0x1000, { len := 0x1000, owner := 0 })] }) { State.reset with mb.foremanUp := true, power.state := .run }
      (fun t => rd t SILL_PROFILE = 1 ∧ t.scribe.pegs.map (·.1) = [0, 1] ∧ t.memory.allocs.map (·.1) = [0x1000]) = true := by decide +kernel

theorem witness_NumberFormats : (fpParams 0x0D).isSome = true ∧ decode 0x0D 1 ≠ .nan ∧ decode 0x05 0xFF = .nan ∧ decode 0x0C 0xFC00 = .inf true ∧ intParams 0x01 = some (true, 8) ∧
    (encodeFp 0x0C true (decode 0x0C 0xFC00)).code = 0xFC00 ∧ (encodeFp 0x0D false (decode 0x0D 0x80000001)).code = 0x80000001 ∧ (encodeFp 0x07 false (decode 0x07 0xF)).code = 0xF ∧
    (encodeInt 0x03 (decode 0x03 8)).code = 8 ∧ (writeQ false (qVal 0x80000001)).code = 0x80000001 := by decide +kernel

theorem witness_FixedPointArithmetic : shiftTo 3 1 = 2 ∧ shiftTo (-3) 1 = -1 ∧ shiftTo 5 (-2) = 20 ∧ qVal 0x80000000 = none ∧ qVal 0xFFFFFFFF = some (-1) ∧ qVal 7 = some 7 ∧
    qMac 0 0 0 [7, 0xFFFFFFFF] (some 9) = some 2 ∧ qMac 62 0 0 [0x7FFFFFFF, 0x7FFFFFFF] (some 0) = none ∧ qDiv 0 0 0 7 0xFFFFFFFE = some (-3) ∧ qDiv 0 0 0 7 0 = none ∧
    qSqrt 0 0 0xFFFFFFFF = none ∧ (writeQ true (some (2 ^ 31))).code = 0x7FFFFFFF ∧ (writeQ true (some (-(2 ^ 31)))).code = 0x80000001 ∧ (writeQ false (some (2 ^ 31 - 1))).sat = 0 := by decide +kernel

theorem witness_MemoryStaysCanonical : Memory.wf withMemory.mem ∧ (match step { withMemory with pending := [.vinRise] } with | .next t => decide (t.pending = []) | _ => false) = true := by decide +kernel

theorem witness_FusesOnlyBlow : (match step { atTime 60000000000 (setFld KINGPOST_BOOT_STATE 31 24 7 (withRun 0)) with pending := [.secCounterRaise] } with
    | .next t => decide (t.sec.fuses.secCounter = 7) | _ => false) = true := by decide +kernel

end Sys2Proof.Tests
end

section
/-! PROOF. Software accesses to registers (R16–R28): what a write of a whole word, a write of a part of one, and a read with an effect
come to, and the statement about one register of each kind. -/

namespace Sys2Proof.Machine
open Sys2Proof

/-! ### Single bits and counters -/

theorem bit_putBits_same (w i v : Nat) : bit (putBits w i i v) i = decide (v % 2 = 1) := by
  rw [bit_bits, bits_putBits_same, Nat.add_sub_cancel_left, Nat.pow_one]

theorem bit_putBits_ne {w i k v : Nat} (h : i ≠ k) : bit (putBits w k k v) i = bit w i := by
  rw [bit_bits, bit_bits]
  rcases Nat.lt_or_gt_of_ne h with h | h
  · rw [bits_putBits_below (Nat.le_refl k) h]
  · rw [bits_putBits_above (Nat.le_refl k) h]

theorem bits_single (w i : Nat) : bits w i i = b2n (bit w i) := by
  have h : bits w i i < 2 := by simpa using bits_lt w i i
  rcases (by omega : bits w i i = 0 ∨ bits w i i = 1) with h | h <;> simp [bit_bits, b2n, h]

theorem bit_mod_two_pow (w : Nat) {i n : Nat} (h : i < n) : bit (w % 2 ^ n) i = bit w i := by
  simp [bit_eq_testBit, Nat.testBit_mod_two_pow, h]

theorem bits_word {w : Nat} (h : w < 2 ^ 32) : bits w 31 0 = w := by simpa [bits] using h

theorem putBits_word (w v : Nat) (h : w < 2 ^ 32) : putBits w 31 0 v = v % 2 ^ 32 := by
  simp [putBits, Nat.div_eq_of_lt (show w < 4294967296 from h), Nat.mod_one]

/-- Where a word agrees with `v` above a field, taking the field of `v` makes it agree from the field's lowest bit on. -/
theorem putBits_bits_div {w v hi lo : Nat} (hl : lo ≤ hi) (h : w / 2 ^ (hi + 1) = v / 2 ^ (hi + 1)) :
    putBits w hi lo (bits v hi lo) / 2 ^ lo = v / 2 ^ lo := by
  have e : 2 ^ (hi + 1) = 2 ^ (hi + 1 - lo) * 2 ^ lo := by rw [← Nat.pow_add]; congr 1; omega
  have hlow : w % 2 ^ lo < 2 ^ lo := Nat.mod_lt _ (Nat.two_pow_pos _)
  calc putBits w hi lo (bits v hi lo) / 2 ^ lo
      = (w % 2 ^ lo + (v / 2 ^ (hi + 1) * 2 ^ (hi + 1 - lo) + bits v hi lo) * 2 ^ lo) / 2 ^ lo := by
        rw [putBits, h, Nat.mod_eq_of_lt (bits_lt v hi lo)]
        congr 1
        rw [e, Nat.add_mul, Nat.mul_assoc, Nat.add_comm]
    _ = v / 2 ^ lo / 2 ^ (hi + 1 - lo) * 2 ^ (hi + 1 - lo) + v / 2 ^ lo % 2 ^ (hi + 1 - lo) := by
        rw [Nat.add_mul_div_right _ _ (Nat.two_pow_pos _), Nat.div_eq_of_lt hlow, Nat.zero_add, Nat.div_div_eq_div_mul,
          Nat.mul_comm (2 ^ lo), ← e, bits]
    _ = v / 2 ^ lo := Nat.div_add_mod' ..

/-- A 32-bit counter goes up by 1 and saturates (R24). -/
theorem rd_inc {r : Reg} (hr : r.reset < 2 ^ 32) (s : State) : rd (inc r s) r = min 0xFFFFFFFF (rd s r + 1) := by
  have h := rd_lt s r hr
  rw [inc, incFld, setFld, rd_wr_same, fld, bits_word h, putBits_word _ _ h, satAdd]
  omega

/-! ### The words that an access covers (R17) -/

theorem coveredWords_whole {a : Nat} (h : a % 4 = 0) : coveredWords a 4 = [(a, true)] := by
  have hn : (a + 3) / 4 + 1 - a / 4 = 1 := by omega
  have ha : a / 4 * 4 = a := by omega
  simp [coveredWords, hn, ha]

theorem coveredWords_narrow {a n : Nat} (h : a % 4 = 0) (h0 : 0 < n) (h4 : n < 4) : coveredWords a n = [(a, false)] := by
  have hn : (a + n - 1) / 4 + 1 - a / 4 = 1 := by omega
  have ha : a / 4 * 4 = a := by omega
  simp [coveredWords, hn, ha, Nat.ne_of_gt h0, h4]

/-- A write of one whole word by the owner function is a 32-bit write at its address. -/
theorem exec_registerWrite_whole {a v : Nat} {s : State} (hs : hostReaches s 0 = true) (ha : a % 4 = 0) (hv : v < 2 ^ 32)
    (hw : List HwUpdate) : exec (.registerWrite 0 a 4 v hw) s = .next (write32 0 a v hw s) := by
  change execRegisterWrite 0 a 4 v hw s = _
  have hv' : v % 4294967296 = v := Nat.mod_eq_of_lt hv
  simp [execRegisterWrite, hs, coveredWords_whole ha, hv']

theorem hwAlone_nil (a : Nat) (s : State) : hwAlone a [] s = s := by
  unfold hwAlone
  split <;> rfl

/-- A write of less than a word, with no coinciding hardware update, is ignored (R17). -/
theorem exec_registerWrite_narrow {a n : Nat} {s : State} (hs : hostReaches s 0 = true) (ha : a % 4 = 0) (h0 : 0 < n) (h4 : n < 4)
    (v : Nat) : exec (.registerWrite 0 a n v []) s = .next (ignoredWrite 0 a false (2 ^ (8 * n) - 1) s) := by
  change execRegisterWrite 0 a n v [] s = _
  have hn : min n 4 = n := by omega
  simp [execRegisterWrite, hs, coveredWords_narrow ha h0 h4, hwAlone_nil, hn]

/-! ### Ignored writes (R27, R28) -/

/-- The last two words of the block window from `w`, which count and record ignored writes: what `Ignored` lets change. -/
def ignoredWords (w a : Nat) : Bool := decide (w + 0xFFF8 ≤ a) && decide (a < w + 0x10000)

theorem ignoredWords_of {w a : Nat} (h1 : w + 0xFFF8 ≤ a) (h2 : a < w + 0x10000) : ignoredWords w a = true := by
  rw [ignoredWords, decide_eq_true h1, decide_eq_true h2, Bool.and_self]

theorem ignoredWords_writes (w : Nat) : ignoredWords w (BLOCK_IGNORED_WRITES w).addr = true := by
  simp only [BLOCK_IGNORED_WRITES]
  exact ignoredWords_of (by omega) (by omega)

theorem ignoredWords_addr (w : Nat) : ignoredWords w (BLOCK_IGNORED_ADDR w).addr = true := by
  simp only [BLOCK_IGNORED_ADDR]
  exact ignoredWords_of (by omega) (by omega)

theorem blockIgnored_addr_ne (w : Nat) : (BLOCK_IGNORED_WRITES w).addr ≠ (BLOCK_IGNORED_ADDR w).addr := by
  simp only [BLOCK_IGNORED_WRITES, BLOCK_IGNORED_ADDR]
  omega

/-- A write that a block window ignores is counted there, its word recorded with the two flags, and nothing else happens. -/
theorem ignored_ignoredWrite {a w : Nat} (hbar : a < 0x200000) (hwin : windowOf a = some w) (hne : a ≠ w + 0xFFFC)
    (f : Nat) (locked : Bool) (covered : Nat) (s : State) :
    Ignored w (w + ((a - w) / 4 * 4 + 2 * b2n locked + b2n (addressesHw a covered))) s (ignoredWrite f a locked covered s) := by
  have hb : ∀ b, b2n b ≤ 1 := by decide
  have hl := hb locked
  have hh := hb (addressesHw a covered)
  have e : ignoredWrite f a locked covered s = wr (BLOCK_IGNORED_ADDR w)
      ((a - w) / 4 * 4 % 2 ^ 32 + 2 * b2n locked + b2n (addressesHw a covered)) (inc (BLOCK_IGNORED_WRITES w) s) := by
    simp [ignoredWrite, hwin, hne, Nat.not_le.2 hbar]
  rw [e]
  refine ⟨?_, ?_, rfl, ?_⟩
  · exact (rd_wr_ne (blockIgnored_addr_ne w) _ _).trans (rd_inc (Nat.two_pow_pos 32) s)
  · rw [rd_wr_same]
    omega
  · exact (SameWords.wr (ignoredWords_writes w) _ s).trans (SameWords.wr (ignoredWords_addr w) _ _)

/-! ### A 32-bit write of a register without a row of its own (R19, R628) -/

theorem write32_register {a w v v' : Nat} {r : RegRow} {s : State} (hbar : a < 0xA0400 ∨ 0xA043C ≤ a ∧ a < 0xE0000)
    (hwin : windowOf a = some w) (hcount : a < w + 0xFFF8) (hown : ownRow a v = false) (hrow : findRow a = some r)
    (hval : valueRule s a v = some v') (hw : List HwUpdate) : write32 0 a v hw s = acceptWrite a v' hw s := by
  have h1 : ¬ 0x200000 ≤ a := by omega
  have h2 : ¬ (a = w + 0xFFF8 ∨ a = w + 0xFFFC) := by omega
  have h3 : ¬ (0xE0000 ≤ a ∧ a < 0xF0000) := by omega
  have h4 : ¬ (0xA0400 ≤ a ∧ a < 0xA041C) := by omega
  have h5 : ¬ (0xA0420 ≤ a ∧ a < 0xA043C) := by omega
  simp only [write32, if_neg h1, hwin, if_neg h2, hown, hrow, if_neg h3, if_neg h4, if_neg h5, hval,
    ne_eq, not_true_eq_false, Bool.false_eq_true, if_false]

/-- A write that some field accepts and none refuses stores the word and has the register's further effect. -/
theorem acceptWrite_accepted {a v new : Nat} {r : RegRow} {hw : List HwUpdate} {s : State} (hrow : findRow a = some r)
    (hacc : r.flds.any (acceptsWrite (lockOf s a)) = true)
    (hnew : wordWrite r.flds (lockOf s a) (valueAt s a) v hw = (new, false)) :
    acceptWrite a v hw s = postWrite a (commitWord a new s) := by
  simp [acceptWrite, hrow, hnew, hacc]

/-- A write of a register that has no field for software is ignored. -/
theorem acceptWrite_readOnly {a : Nat} {r : RegRow} {s : State} (hrow : findRow a = some r)
    (hacc : r.flds.any (acceptsWrite (lockOf s a)) = false) (v : Nat) :
    acceptWrite a v [] s = ignoredWrite 0 a (lockOf s a) allBits s := by
  have hign : (wordWrite r.flds (lockOf s a) (valueAt s a) v []).2 = true := by
    have hf : (r.flds.filter (fun f => f.acc ≠ .res)).any (acceptsWrite (lockOf s a)) = false := by
      rw [List.any_eq_false] at hacc ⊢
      exact fun f hf => hacc f (List.mem_filter.1 hf).1
    simp only [wordWrite, hf, Bool.not_false, Bool.true_or]
  simp [acceptWrite, hrow, hign, hacc, hwAlone_nil]

/-- The word of a register that is no half of a 64-bit pair and outside the camera ports is stored at once. -/
theorem commitWord_single {a : Nat} (hcam : a < 0x21000 ∨ 0x22000 ≤ a) (hinc : a ≠ 0x10014) (hlow : isLow a = false)
    (hhigh : isLow (a - 4) = false) (w : Nat) (s : State) : commitWord a w s = wr (regAt a) w s := by
  have hat : ∀ u, atOnce u a = false := by
    intro u
    have h : ¬ (0x21000 ≤ a ∧ a < 0x22000 ∧ 0x10 ≤ a % 0x100 ∧ a % 0x100 < 0x40) := by omega
    simp only [atOnce, if_neg h]
  simp only [commitWord, hlow, hinc, hhigh, hat, decide_false, Bool.or_false, Bool.false_eq_true, if_false, and_false]
  split <;> rfl

/-! ### The word after a write, by the access types of its fields (R19, R23) -/

/-- A write that every field accepts is not ignored in any part (R628). -/
theorem wordWrite_of_accepting {fs gs : List Fld} {locked : Bool} (hf : fs.filter (fun f => f.acc ≠ .res) = gs)
    (hall : gs.all (acceptsWrite locked) = true) (hne : gs ≠ []) (old v : Nat) (hw : List HwUpdate) :
    wordWrite fs locked old v hw = (gs.foldl (fieldWrite locked old v hw) old, false) := by
  have hany : gs.any (acceptsWrite locked) = true := by
    obtain ⟨g, hg⟩ := List.exists_mem_of_ne_nil gs hne
    exact List.any_eq_true.2 ⟨g, hg, List.all_eq_true.1 hall g hg⟩
  have hdiff : gs.any (fun f => !acceptsWrite locked f && decide (bits v f.msb f.lsb ≠ bits old f.msb f.lsb)) = false := by
    rw [List.any_eq_false]
    intro g hg
    simp [List.all_eq_true.1 hall g hg]
  simp only [wordWrite, hf, hany, hdiff, Bool.not_true, Bool.or_false]

theorem fieldWrite_rw (locked : Bool) (old v w hi lo : Nat) :
    fieldWrite locked old v [] w ⟨hi, lo, .rw⟩ = putBits w hi lo (bits v hi lo) := by
  simp [fieldWrite]

/-- The W1C field of bit `i`. -/
def w1cBit (i : Nat) : Fld := ⟨i, i, .w1c⟩

/-- A bit written 1 is cleared, and one that hardware sets in the same window is set (R23). -/
theorem fieldWrite_w1cBit (locked : Bool) (old v m w i : Nat) :
    fieldWrite locked old v [.set m] w (w1cBit i) = putBits (putBits w i i (b2n (bit old i && !bit v i))) i i
      (b2n (bit m i || (bit old i && !bit v i))) := by
  have hclear : ∀ o x : Bool, b2n o - (b2n o &&& b2n x) = b2n (o && !x) := by decide
  have hset : ∀ o x : Bool, b2n o % 2 ||| b2n x = b2n (x || o) := by decide
  simp only [fieldWrite, w1cBit, List.foldl_cons, List.foldl_nil, if_true, bits_single old, bits_single v, bits_single m, hclear,
    bits_putBits_same, Nat.add_sub_cancel_left, Nat.pow_one, hset]

theorem bit_foldl_w1cBits (locked : Bool) (old v m i : Nat) (ks : List Nat) (w : Nat) :
    bit ((ks.map w1cBit).foldl (fieldWrite locked old v [.set m]) w) i =
      if i ∈ ks then bit m i || (bit old i && !bit v i) else bit w i := by
  induction ks generalizing w with
  | nil => simp
  | cons k ks ih =>
    rw [List.map_cons, List.foldl_cons, ih, fieldWrite_w1cBit]
    by_cases hk : i = k
    · subst hk
      have hb : ∀ b, decide (b2n b % 2 = 1) = b := by decide
      simp [bit_putBits_same, hb]
    · simp [bit_putBits_ne hk, hk]

/-! ### The registers of the statement -/

def yardEventsRow : RegRow := ⟨0xB0004, 0, 1, 0, 1, 0, ⟨31, 7, .res⟩ :: [6, 5, 4, 3, 2, 1, 0].map w1cBit⟩
def lockCfgRow : RegRow := ⟨0x10034, 0, 1, 0, 1, 0x8030064, [⟨31, 24, .rw⟩, ⟨23, 16, .rw⟩, ⟨15, 0, .rw⟩]⟩
def yardStatusRow : RegRow :=
  ⟨0xB0000, 0, 1, 0, 1, 0, [⟨31, 15, .res⟩, ⟨14, 8, .hwo⟩, ⟨7, 6, .res⟩, ⟨5, 5, .hwo⟩, ⟨4, 3, .hwo⟩, ⟨2, 1, .hwo⟩, ⟨0, 0, .hwo⟩]⟩

theorem findRow_yardEvents : findRow 0xB0004 = some yardEventsRow := by decide
theorem findRow_lockCfg : findRow 0x10034 = some lockCfgRow := by decide
theorem findRow_yardStatus : findRow 0xB0000 = some yardStatusRow := by decide

theorem valueAt_yardEvents (s : State) : valueAt s 0xB0004 = rd s YARD_EVENTS := rfl
theorem valueAt_lockCfg (s : State) : valueAt s 0x10034 = rd s RIDGE_LOCK_CFG := rfl
theorem valueAt_timeLo (s : State) : valueAt s 0x10008 = s.ridge.ns % 2 ^ 32 := rfl
theorem valueAt_timeHi (s : State) : valueAt s 0x1000C = s.ridge.ns / 2 ^ 32 % 2 ^ 32 := rfl

/-- YARD.EVENTS has W1C bits alone, so no write of it is ignored. -/
theorem wordWrite_yardEvents (locked : Bool) (old v : Nat) (hw : List HwUpdate) : wordWrite yardEventsRow.flds locked old v hw =
    (([6, 5, 4, 3, 2, 1, 0].map w1cBit).foldl (fieldWrite locked old v hw) old, false) :=
  wordWrite_of_accepting (by decide) (by simp [w1cBit, acceptsWrite]) (by decide) old v hw

/-- A write of YARD.EVENTS stores the word that its fields give. -/
theorem write32_yardEvents (v : Nat) (hw : List HwUpdate) (s : State) : write32 0 0xB0004 v hw s =
    wr YARD_EVENTS (([6, 5, 4, 3, 2, 1, 0].map w1cBit).foldl (fieldWrite false (rd s YARD_EVENTS) v hw) (rd s YARD_EVENTS)) s := by
  have hreg : regAt 0xB0004 = YARD_EVENTS := rfl
  have hlock : lockOf s 0xB0004 = false := rfl
  have hpost : ∀ u, postWrite 0xB0004 u = u := fun _ => rfl
  rw [write32_register (by decide) rfl (by decide) rfl findRow_yardEvents rfl,
    acceptWrite_accepted findRow_yardEvents rfl (wordWrite_yardEvents _ _ _ _), hpost,
    commitWord_single (by decide) (by decide) (by decide) (by decide), hreg, hlock, valueAt_yardEvents]

/-- Three RW fields that cover a word take the whole word written. -/
theorem wordWrite_lockCfg {old v : Nat} (ho : old < 2 ^ 32) (hv : v < 2 ^ 32) :
    wordWrite lockCfgRow.flds false old v [] = (v, false) := by
  have h32 : old / 2 ^ 32 = v / 2 ^ 32 := by rw [Nat.div_eq_of_lt ho, Nat.div_eq_of_lt hv]
  have h24 := putBits_bits_div (hi := 31) (lo := 24) (by decide) h32
  have h16 := putBits_bits_div (hi := 23) (lo := 16) (by decide) h24
  have h0 := putBits_bits_div (hi := 15) (lo := 0) (by decide) h16
  rw [Nat.pow_zero, Nat.div_one, Nat.div_one] at h0
  have hf : lockCfgRow.flds.filter (fun f => f.acc ≠ .res) = lockCfgRow.flds := by decide
  rw [wordWrite_of_accepting hf (by decide) (by decide), lockCfgRow, List.foldl_cons, List.foldl_cons, List.foldl_cons,
    List.foldl_nil, fieldWrite_rw, fieldWrite_rw, fieldWrite_rw, h0]

theorem write32_lockCfg {v : Nat} (hv : v < 2 ^ 32) (s : State) : write32 0 0x10034 v [] s = wr RIDGE_LOCK_CFG v s := by
  have hold : valueAt s 0x10034 < 2 ^ 32 := valueAt_lockCfg s ▸ rd_lt s RIDGE_LOCK_CFG (by decide)
  rw [write32_register (by decide) rfl (by decide) rfl findRow_lockCfg rfl,
    acceptWrite_accepted findRow_lockCfg rfl (wordWrite_lockCfg hold hv),
    commitWord_single (by decide) (by decide) (by decide) (by decide)]
  rfl

theorem write32_yardStatus (v : Nat) (s : State) : write32 0 0xB0000 v [] s = ignoredWrite 0 0xB0000 false allBits s := by
  rw [write32_register (by decide) rfl (by decide) rfl findRow_yardStatus rfl, acceptWrite_readOnly findRow_yardStatus rfl]
  rfl

/-- A 32-bit RC counter that is cleared keeps the increment that coincides (R25). -/
theorem rcClear_counter {w n : Nat} (hlt : w < 2 ^ 32) (hn : n < 2 ^ 32) : rcClear 0 [⟨31, 0, .rc⟩] [.incr 31 0 n] w = n := by
  have h0 : bits 0 31 0 = 0 := bits_word (by decide)
  have hmin : min 4294967295 n % 4294967296 = n := by omega
  simp [rcClear, h0, putBits_word w 0 hlt, putBits_word 0 _ (Nat.two_pow_pos 32), satAdd, hmin]

/-- A narrow write of RIDGE.LOCK_CFG is recorded at the register's address, with no flag: all its fields are RW. -/
theorem ignored_lockCfg_narrow {n : Nat} (hn : n = 1 ∨ n = 2) (s : State) :
    Ignored 0x10000 0x10034 s (ignoredWrite 0 0x10034 false (2 ^ (8 * n) - 1) s) := by
  have hflag : addressesHw 0x10034 (2 ^ (8 * n) - 1) = false := by rcases hn with rfl | rfl <;> decide
  simpa [hflag, b2n] using ignored_ignoredWrite (a := 0x10034) (by decide) rfl (by decide) 0 false (2 ^ (8 * n) - 1) s

/-- A write of YARD.STATUS is recorded with the flag of a field that software does not write. -/
theorem ignored_yardStatus (s : State) : Ignored 0xB0000 0xB0001 s (ignoredWrite 0 0xB0000 false allBits s) := by
  have hflag : addressesHw 0xB0000 allBits = true := by decide
  simpa [hflag, b2n] using ignored_ignoredWrite (a := 0xB0000) (by decide) rfl (by decide) 0 false allBits s

/-- The read of YARD.HOST_READ returns its value and leaves the increment that coincides. -/
theorem exec_rcRead_hostRead {n : Nat} {s : State} (hs : hostReaches s 0 = true) (hn : n < 2 ^ 32) :
    exec (.rcRead 0 0xB0020 4 [.incr 31 0 n]) s =
      .next (emit (.readValue 0xB0020 (rd s YARD_HOST_READ)) (wr YARD_HOST_READ n s)) := by
  change execRcRead 0 0xB0020 4 [.incr 31 0 n] s = _
  have hreg : regAt 0xB0020 = YARD_HOST_READ := rfl
  have hflds : fieldsAt 0xB0020 = [⟨31, 0, .rc⟩] := by decide
  have hclr : rcClears 0 0xB0020 = true := by decide
  have hlt := rd_lt s YARD_HOST_READ (by decide)
  have hmod : rd s YARD_HOST_READ % 4294967296 = rd s YARD_HOST_READ := Nat.mod_eq_of_lt hlt
  have hword : rcClear YARD_HOST_READ.reset (fieldsAt 0xB0020) [.incr 31 0 n] (rd s YARD_HOST_READ) = n := by
    rw [hflds]
    exact rcClear_counter hlt hn
  simp [execRcRead, hs, coveredWords_whole, hclr, hreg, hword, hmod]

/-- The read of RIDGE.TIME_LO returns the low word of Ridge and latches the high word and the fraction (R18, R56). -/
theorem exec_lowWordReadLatch_timeLo {s : State} (hs : hostReaches s 0 = true) :
    exec (.lowWordReadLatch 0 0x10008) s = .next (emit (.readValue 0x10008 (s.ridge.ns % 2 ^ 32))
      { s with latch := (tput 0x10010 (BitVec.ofNat 32 s.ridge.frac)
          (tput 0x1000C (BitVec.ofNat 32 (s.ridge.ns / 2 ^ 32 % 2 ^ 32)) s.latch)) }) := by
  change execLowWordReadLatch 0 0x10008 s = _
  have hlow : isLow 0x10008 = true := by decide
  simp [execLowWordReadLatch, hs, hlow, valueAt_timeLo, valueAt_timeHi]

/-- Settles O4: each access comes down to one word written, one write ignored, one word cleared or one latch, by the lemma of its
register. -/
theorem registerAccesses : Obligations.RegisterAccesses := by
  intro s hs
  refine ⟨fun v m hv _ => ?_, fun v hv => ?_, fun v n hn => ?_, fun v hv => ?_, fun n hn => ?_, ?_⟩
  · refine ⟨_, exec_registerWrite_whole hs (by decide) hv _, ?_⟩
    rw [write32_yardEvents]
    refine ⟨fun i hi => ?_, rfl, SameWords.wr rfl _ s⟩
    have hmem : i ∈ [6, 5, 4, 3, 2, 1, 0] := by
      simp only [List.mem_cons, List.not_mem_nil, or_false]
      omega
    rw [rd_wr_same, bit_mod_two_pow _ (by omega), bit_foldl_w1cBits, if_pos hmem]
  · refine ⟨_, exec_registerWrite_whole hs (by decide) hv _, ?_⟩
    rw [show RIDGE_LOCK_CFG.addr = 0x10034 from rfl, write32_lockCfg hv]
    exact ⟨(rd_wr_same _ _ s).trans (Nat.mod_eq_of_lt hv), rfl, SameWords.wr rfl _ s⟩
  · obtain ⟨hcount, haddr, hframe, hwords⟩ := ignored_lockCfg_narrow hn s
    exact ⟨_, exec_registerWrite_narrow hs (by decide) (by omega) (by omega) v, hcount, haddr, hframe,
      fun a ha => hwords a (by simpa using ha)⟩
  · obtain ⟨hcount, haddr, hframe, hwords⟩ := ignored_yardStatus s
    refine ⟨_, exec_registerWrite_whole hs (by decide) hv _, ?_⟩
    rw [show YARD_STATUS.addr = 0xB0000 from rfl, write32_yardStatus]
    exact ⟨hcount, haddr, hframe, fun a ha => hwords a (by simpa using ha)⟩
  · refine ⟨_, exec_rcRead_hostRead hs hn, rfl, ?_, rfl, SameWords.wr rfl _ s⟩
    exact (rd_wr_same _ _ s).trans (Nat.mod_eq_of_lt hn)
  · exact ⟨_, exec_lowWordReadLatch_timeLo hs, rfl, (tget_tput_ne (by decide) _ _).trans (tget_tput_same _ _ _), tget_tput_same _ _ _, rfl⟩

end Sys2Proof.Machine
end

section
/-! PROOF. Power-on, the boot and the fall of EN (R32, R601–R607, R611, R620): what each shared operation of the Plinth leaves in the
registers, the stages of a boot in which every die passes, and the statement about the commands. -/

namespace Sys2Proof.Machine
open Sys2Proof

/-! ### Fields of a word after another field is written -/

theorem SameWords.setFld {r : Reg} {p : Nat → Bool} (h : p r.addr = true) (hi lo v : Nat) (s : State) : SameWords s (setFld r hi lo v s) p :=
  SameWords.wr h _ s

/-- Parts of the state that are no registers do not matter. -/
theorem SameWords.update {s u : State} {p : Nat → Bool} (h : SameWords s u p) {out : OutSt} {mb : MbSt} {sec : SecSt} {recd : RecSt}
    {power : PowerSt} {fw : FwSt} : SameWords s { u with out := out, mb := mb, sec := sec, recd := recd, power := power, fw := fw } p := h

theorem SameWords.foldl {β : Type} {g : State → β → State} {p : Nat → Bool} (h : ∀ s b, SameWords s (g s b) p) (l : List β) (s : State) :
    SameWords s (l.foldl g s) p := by
  induction l generalizing s with
  | nil => exact SameWords.refl _ _
  | cons b r ih => exact (h s b).trans (ih _)

theorem rd_setFld_same {r : Reg} {hi lo : Nat} (hl : lo ≤ hi) (hh : hi < 32) (hr : r.reset < 2 ^ 32) (v : Nat) (s : State) :
    rd (setFld r hi lo v s) r = putBits (rd s r) hi lo v := by
  rw [setFld, rd_wr_same, Nat.mod_eq_of_lt (putBits_lt hl hh (rd_lt s r hr))]

theorem rd_setFld_ne {r q : Reg} (h : q.addr ≠ r.addr) (hi lo v : Nat) (s : State) : rd (setFld r hi lo v s) q = rd s q := rd_wr_ne h _ s

theorem fld_setFld_below {r : Reg} {hi lo h l : Nat} (hl : lo ≤ hi) (hh : hi < 32) (hr : r.reset < 2 ^ 32) (hb : h < lo) (v : Nat) (s : State) :
    fld (setFld r hi lo v s) r h l = fld s r h l := by
  rw [fld, rd_setFld_same hl hh hr, bits_putBits_below hl hb, fld]

theorem rd_power (s : State) (p : PowerSt) (r : Reg) : rd { s with power := p } r = rd s r := rfl

theorem fld_power (s : State) (p : PowerSt) (r : Reg) (hi lo : Nat) : fld { s with power := p } r hi lo = fld s r hi lo := rfl

theorem bit_eq_fld (s : State) (r : Reg) (i : Nat) : bit (rd s r) i = decide (fld s r i i = 1) := bit_bits _ _

/-! ### The state of the Plinth (R601) -/

/-- The word that shows the state of the Plinth. -/
abbrev isPowerState (a : Nat) : Bool := decide (a = KINGPOST_POWER_STATE.addr)

theorem putPlinth_words (p : Plinth) (s : State) : SameWords s (putPlinth p s) isPowerState := SameWords.setFld rfl 2 0 _ { s with power.state := p }

theorem fld_putPlinth (p : Plinth) (s : State) : fld (putPlinth p s) KINGPOST_POWER_STATE 2 0 = plinthCode p := by
  rw [putPlinth, fld_setFld_same (by decide) (by decide) (by decide)]
  cases p <;> rfl

/-! ### The start of a power-on (R585, R603, R605) -/

/-- From `s` a power-on begins at step 1 of its first attempt: it is counted in the part's life, and nothing but the Plinth changes. -/
def Begins (s t : State) : Prop :=
  t.power.state = .sequencing ∧ t.power.step = 1 ∧ t.power.attempts = 1 ∧ t.power.waiting = false ∧ t.power.released = false ∧ t.power.due = false ∧
    fld t KINGPOST_POWER_STATE 2 0 = 2 ∧ t.recd = { s.recd with life := { s.recd.life with cycle := min 0xFFFFFFFF (s.recd.life.cycle + 1) } } ∧
    t = { s with regs := t.regs, power := t.power, recd := t.recd } ∧ SameWords s t isPowerState

theorem begins_startSequencing (s : State) (p : PowerSt) : Begins s (startSequencing { s with power := p }) :=
  ⟨rfl, rfl, rfl, rfl, rfl, rfl, fld_putPlinth _ _, rfl, rfl,
    (SameWords.setFld (p := isPowerState) rfl 5 5 0 { s with power := _, recd := _ }).trans (putPlinth_words _ _)⟩

theorem completes_vinRise_standby {s : State} (hs : s.power.state = .standby) (hl : s.power.locked = false) (hg : inputGood s = true)
    (he : s.power.en = true) : Completes .vinRise s (Begins s) := by
  refine ⟨startSequencing s, ?_, begins_startSequencing s s.power⟩
  change execVinRise s = _
  rw [execVinRise, if_pos ⟨hs, he, hg, hl⟩]

theorem completes_vinRise_idle {s : State} (h : s.power.state ≠ .standby ∨ s.power.en = false) : Completes .vinRise s (fun t => t = s) := by
  refine ⟨s, ?_, rfl⟩
  change execVinRise s = _
  have hno : ¬ (s.power.state = .standby ∧ s.power.en = true ∧ inputGood s = true ∧ s.power.locked = false) := by
    rintro ⟨hs, he, -, -⟩
    rcases h with h | h
    · exact h hs
    · rw [he] at h
      cases h
  rw [execVinRise, if_neg hno]

theorem completes_enHigh_standby {s : State} (hs : s.power.state = .standby) (hl : s.power.locked = false) (hg : inputGood s = true)
    (he : s.power.en = false) : Completes .enHigh s (Begins s) := by
  refine ⟨startSequencing { s with power.en := true }, ?_, begins_startSequencing s _⟩
  change execEnHigh s = _
  have hg' : 10000 ≤ s.power.highEnough := of_decide_eq_true hg
  simp [execEnHigh, inputGood, he, hg', hs, hl]

theorem completes_enHigh_again {s : State} (he : s.power.en = true) : Completes .enHigh s (fun t => t = s) := by
  refine ⟨{ s with power.en := true }, ?_, ?_⟩
  · change execEnHigh s = _
    simp [execEnHigh, he]
  · rw [← he]

/-- A power-on that comes due while the rails go down waits. -/
theorem completes_enHigh_powerDown {s : State} (he : s.power.en = false) (hg : inputGood s = true) (hs : s.power.state = .powerDown) :
    Completes .enHigh s (fun t => t = { s with power.en := true, power.due := true }) := by
  refine ⟨_, ?_, rfl⟩
  change execEnHigh s = _
  have hg' : 10000 ≤ s.power.highEnough := of_decide_eq_true hg
  simp [execEnHigh, inputGood, he, hg', hs]

/-! ### Sequencing (R604, R605, R623) -/

theorem stepRails_lt {k r : Nat} (h : r ∈ stepRails k) : r < 11 := by
  have hall : ∀ l ∈ [[], [10], [9], [8], [7], [6], [5], [4], [0, 1, 2, 3]], ∀ r ∈ l, r < 11 := by decide
  rw [stepRails, List.getD_eq_getElem?_getD] at h
  generalize [[], [10], [9], [8], [7], [6], [5], [4], [0, 1, 2, 3]] = steps at h hall
  cases hk : steps[k]? with
  | none =>
    rw [hk] at h
    cases h
  | some l =>
    rw [hk] at h
    exact hall l (List.mem_of_getElem? hk) r h

theorem completes_railStepInLimits {s : State} (hs : s.power.state = .sequencing) (hw : s.power.waiting = false) (h1 : 1 ≤ s.power.step)
    (h8 : s.power.step ≤ 8) : Completes .railStepInLimits s (fun t => t = { s with power.step := s.power.step + 1 }) := by
  refine ⟨_, ?_, rfl⟩
  change execRailStepInLimits s = _
  rw [execRailStepInLimits, if_pos ⟨hs, hw, h1, h8⟩]

theorem completes_sequencingRetry {s : State} (hs : s.power.state = .sequencing) (hw : s.power.waiting = true) : Completes .sequencingRetry s
    (fun t => t = { s with power.step := 1, power.waiting := false, power.attempts := s.power.attempts + 1 }) := by
  refine ⟨_, ?_, rfl⟩
  change execSequencingRetry s = _
  rw [execSequencingRetry, if_pos ⟨hs, hw⟩]

/-- Out of SEQUENCING none of its events occurs. -/
theorem completes_notSequencing {s : State} (hs : s.power.state ≠ .sequencing) : Completes .railStepInLimits s (fun t => t = s) ∧
    Completes .sequencingRetry s (fun t => t = s) ∧ Completes .holdupCharged s (fun t => t = s) := by
  refine ⟨⟨s, ?_, rfl⟩, ⟨s, ?_, rfl⟩, ⟨s, ?_, rfl⟩⟩
  · change execRailStepInLimits s = _
    rw [execRailStepInLimits, if_neg (fun h => hs h.1)]
  · change execSequencingRetry s = _
    rw [execSequencingRetry, if_neg (fun h => hs h.1)]
  · change execHoldupCharged s = _
    rw [execHoldupCharged, if_neg (fun h => hs h.1)]

/-- The rails of an attempt are down, and the rail that failed it is recorded, with the number of the attempt (R605). -/
def attemptFailed (r : Nat) (s : State) : State :=
  setFld KINGPOST_RESET_CAUSE 19 16 r (setFld KINGPOST_RESET_CAUSE 13 12 s.power.attempts
    { s with power := { s.power with step := 0, retained := { s.power.retained with failedRail := some r } } })

theorem fld_attemptFailed_rail {r : Nat} {s : State} (hr : r < 11) : fld (attemptFailed r s) KINGPOST_RESET_CAUSE 19 16 = r := by
  rw [attemptFailed, fld_setFld_same (by decide) (by decide) (by decide)]
  exact Nat.mod_eq_of_lt (Nat.lt_of_lt_of_le hr (by decide))

theorem fld_attemptFailed_attempt {r : Nat} {s : State} (ha : s.power.attempts < 3) :
    fld (attemptFailed r s) KINGPOST_RESET_CAUSE 13 12 = s.power.attempts := by
  rw [attemptFailed, fld_setFld_below (by decide) (by decide) (by decide) (by decide), fld_setFld_same (by decide) (by decide) (by decide)]
  exact Nat.mod_eq_of_lt (Nat.lt_of_lt_of_le ha (by decide))

theorem exec_railStepTimeout {s : State} {r : Nat} (hs : s.power.state = .sequencing) (hw : s.power.waiting = false)
    (hr : r ∈ stepRails s.power.step) : exec (.railStepTimeout r) s = .next (if s.power.attempts < 3 then
      { attemptFailed r s with power.waiting := true } else putPlinth .standby { attemptFailed r s with power.locked := true }) := by
  change execRailStepTimeout r s = _
  have hocc : ¬ (s.power.state ≠ .sequencing ∨ s.power.waiting = true ∨ (!(stepRails s.power.step).contains r) = true) := by
    simp [hs, hw, hr]
  rw [execRailStepTimeout, if_neg hocc, apply_ite Host.Outcome.next]
  rfl

/-- An attempt before the third waits for its retry; RESET_CAUSE shows the rail and the attempt. -/
theorem completes_railStepTimeout_retried {s : State} {r : Nat} (hs : s.power.state = .sequencing) (hw : s.power.waiting = false)
    (hr : r ∈ stepRails s.power.step) (ha : s.power.attempts < 3) : Completes (.railStepTimeout r) s (fun t =>
      t.power = { s.power with step := 0, waiting := true, retained := { s.power.retained with failedRail := some r } } ∧
        fld t KINGPOST_RESET_CAUSE 19 16 = r ∧ fld t KINGPOST_RESET_CAUSE 13 12 = s.power.attempts ∧ t = { s with regs := t.regs, power := t.power }) := by
  refine ⟨{ attemptFailed r s with power.waiting := true }, ?_, rfl, ?_, ?_, rfl⟩
  · rw [exec_railStepTimeout hs hw hr, if_pos ha]
  · exact (fld_power (attemptFailed r s) _ _ _ _).trans (fld_attemptFailed_rail (stepRails_lt hr))
  · exact (fld_power (attemptFailed r s) _ _ _ _).trans (fld_attemptFailed_attempt ha)

/-- The third failure leaves the Plinth in STANDBY, locked. -/
theorem completes_railStepTimeout_locked {s : State} {r : Nat} (hs : s.power.state = .sequencing) (hw : s.power.waiting = false)
    (hr : r ∈ stepRails s.power.step) (ha : s.power.attempts = 3) : Completes (.railStepTimeout r) s (fun t =>
      t.power.state = .standby ∧ t.power.locked = true ∧ t.power.retained.failedRail = some r ∧ fld t KINGPOST_POWER_STATE 2 0 = 1) := by
  refine ⟨putPlinth .standby { attemptFailed r s with power.locked := true }, ?_, rfl, rfl, rfl, fld_putPlinth _ _⟩
  rw [exec_railStepTimeout hs hw hr, if_neg (by omega)]

theorem completes_holdupCharged {s : State} (hs : s.power.state = .sequencing) (h9 : s.power.step = 9) : Completes .holdupCharged s (fun t =>
    bit (rd t KINGPOST_POWER_STATE) 5 = true ∧ fld t KINGPOST_POWER_STATE 15 8 = 150 ∧ t = { s with regs := t.regs } ∧ SameWords s t isPowerState) := by
  refine ⟨setFld KINGPOST_POWER_STATE 15 8 150 (setFld KINGPOST_POWER_STATE 5 5 1 s), ?_, ?_, ?_, rfl, ?_⟩
  · change execHoldupCharged s = _
    rw [execHoldupCharged, if_pos ⟨hs, h9⟩]
  · rw [bit_eq_fld, fld_setFld_below (by decide) (by decide) (by decide) (by decide), fld_setFld_same (by decide) (by decide) (by decide)]
    rfl
  · exact fld_setFld_same (by decide) (by decide) (by decide) _ _
  · exact (SameWords.setFld rfl _ _ _ _).trans (SameWords.setFld rfl _ _ _ _)

/-! ### The boot: what the dies show (R32, R448, R449, R607) -/

/-- RECORDER.STATUS and its event are the recorder's part alone. -/
theorem Logged.recorderFound (kind : Nat) (s : State) : Logged s (recorderFound kind s) :=
  (Logged.wr rfl _ _).trans (Logged.ite (Logged.raise _ _ _) (Logged.refl _))

/-- The words of the Bays. -/
abbrev inBays (a : Nat) : Bool := decide (0x100000 ≤ a)

/-- The truss masks of the Bays as a self-test finds them. -/
def baysShown (s : State) : State :=
  (List.range 4).foldl (fun s n => setFld (BAY_STATUS n) 15 0 (0xFFFF - fld s (BAY_RETIRED n) 15 0) s) s

theorem baysShown_words (s : State) : SameWords s (baysShown s) inBays :=
  SameWords.foldl (fun u n => SameWords.setFld (by simp [BAY_STATUS]) _ _ _ u) _ s

theorem dieResults_passing (s : State) : dieResults {} s = baysShown (wr RIDGE_EPOCH_REQUIRED 0x3FFF (wr SILL_STACKS_USED 15
    (wr SILL_SYS_RESERVE 512 (setFld SILL_PACKAGE 9 8 2 (setFld SILL_PACKAGE 7 0 0xFF s))))) := rfl

theorem dieResults_passing_frame (s : State) : dieResults {} s = { s with regs := (dieResults {} s).regs } := rfl

/-- Two fields that follow one another, read as one. -/
theorem bits_9_0_eq_add (w : Nat) : bits w 9 0 = bits w 7 0 + 256 * bits w 9 8 := by
  simp only [bits]
  omega

theorem fld_packageShown (s : State) : fld (setFld SILL_PACKAGE 9 8 2 (setFld SILL_PACKAGE 7 0 0xFF s)) SILL_PACKAGE 9 0 = 0x2FF := by
  have hnand := fld_setFld_same (r := SILL_PACKAGE) (hi := 9) (lo := 8) (by decide) (by decide) (by decide) 2 (setFld SILL_PACKAGE 7 0 0xFF s)
  have hdies := fld_setFld_same (r := SILL_PACKAGE) (hi := 7) (lo := 0) (by decide) (by decide) (by decide) 0xFF s
  rw [← fld_setFld_below (hi := 9) (lo := 8) (by decide) (by decide) (by decide) (by decide) 2] at hdies
  unfold fld at hnand hdies ⊢
  rw [bits_9_0_eq_add]
  omega

/-- With every die passing: four Bays, four stacks and two NAND dies, every stack in use with its share of the system region, and every
unit in a mode change. -/
theorem dieResults_passing_words (s : State) : fld (dieResults {} s) SILL_PACKAGE 9 0 = 0x2FF ∧ rd (dieResults {} s) SILL_STACKS_USED = 15 ∧
    rd (dieResults {} s) SILL_SYS_RESERVE = 512 ∧ rd (dieResults {} s) RIDGE_EPOCH_REQUIRED = 0x3FFF := by
  rw [dieResults_passing]
  refine ⟨?_, ?_, ?_, ?_⟩
  · rw [fld, (baysShown_words _).rd rfl, rd_wr_ne (by decide), rd_wr_ne (by decide), rd_wr_ne (by decide)]
    exact fld_packageShown s
  · rw [(baysShown_words _).rd rfl, rd_wr_ne (by decide)]
    exact rd_wr_same _ _ _
  · rw [(baysShown_words _).rd rfl, rd_wr_ne (by decide), rd_wr_ne (by decide)]
    exact rd_wr_same _ _ _
  · rw [(baysShown_words _).rd rfl]
    exact rd_wr_same _ _ _

/-! ### The boot: what the retained store brings (R567, R579, R609) -/

/-- The age trims of the retained store in their registers. -/
def agesShown (s : State) (r : Retained) : State :=
  setFld GOVERNOR_SILL_AGE 5 0 (tgetD 4 0 r.ageTrim)
    ((List.range 4).foldl (fun s n => setFld (GOVERNOR_BAY_AGE n) 5 0 (tgetD n 0 r.ageTrim) s) s)

/-- The words from the Governor's of Bay 0 on: above its cap, and above every word of the Sill and of Ridge. -/
abbrev fromBayPower (a : Nat) : Bool := decide (0xC0100 ≤ a)

theorem agesShown_words (s : State) (r : Retained) : SameWords s (agesShown s r) fromBayPower := by
  have hage : ∀ n, fromBayPower (GOVERNOR_BAY_AGE n).addr = true := fun n =>
    decide_eq_true (Nat.le_trans (by decide) (Nat.le_add_right 0xC010C _))
  exact (SameWords.foldl (fun u n => SameWords.setFld (hage n) _ _ _ u) _ s).trans (SameWords.setFld rfl _ _ _ _)

/-- The registers that the retained store brings where it keeps no end record and no failed rail: the cap, the age trims, the cause. -/
def retainedShown (cause : Nat) (s : State) : State :=
  wr KINGPOST_RESET_CAUSE (cause + 4096 * s.power.attempts)
    (agesShown (setFld GOVERNOR_CAP 15 0 (s.power.retained.cap + 256 * s.power.retained.secs) s) s.power.retained)

theorem retainedShown_frame (cause : Nat) (s : State) : retainedShown cause s = { s with regs := (retainedShown cause s).regs } := rfl

theorem recallRetained_clean {s : State} (he : s.power.retained.ended = none) (hf : s.power.retained.failedRail = none) (cause : Nat) :
    recallRetained cause s =
      { retainedShown cause s with power.retained := { s.power.retained with ended := none, failedRail := none } } := by
  simp only [recallRetained, he, hf]
  rfl

/-! ### The boot: what it has found, and the release of Foreman (R604, R611) -/

/-- While the boot goes on, Foreman and the link are down. -/
def booting (s : State) : State := { setForemanUp false s with mb.linkUp := false, power.released := false }

theorem booting_frame (s : State) :
    booting s = { s with regs := (booting s).regs, mb.foremanUp := false, mb.linkUp := false, power.released := false } := rfl

/-- What the dies and the retained store show, before the boot engine chooses a slot. -/
def bootFound (kind cause : Nat) (s : State) : State := recallRetained cause (booting (dieResults {} (recorderFound kind s)))

/-- The retained store keeps no end record and no failed rail. -/
def StoreClean (s : State) : Prop := s.power.retained.ended = none ∧ s.power.retained.failedRail = none

theorem dieResults_recorderFound_frame (kind : Nat) (s : State) : dieResults {} (recorderFound kind s) = { s with
    regs := (dieResults {} (recorderFound kind s)).regs, recd := (recorderFound kind s).recd, emitted := (recorderFound kind s).emitted } := by
  rw [dieResults_passing_frame, (Logged.recorderFound kind s).1]

theorem bootFound_clean {s : State} (h : StoreClean s) (kind cause : Nat) : bootFound kind cause s =
    { retainedShown cause (booting (dieResults {} (recorderFound kind s))) with
      power.retained := { s.power.retained with ended := none, failedRail := none } } := by
  obtain ⟨he, hf⟩ := h
  have hr : (booting (dieResults {} (recorderFound kind s))).power.retained = s.power.retained := by
    rw [booting_frame, dieResults_recorderFound_frame]
  rw [bootFound, recallRetained_clean (by rw [hr, he]) (by rw [hr, hf]), hr]

theorem bootFound_frame {s : State} (h : StoreClean s) (kind cause : Nat) : (bootFound kind cause s).fw = s.fw ∧
    (bootFound kind cause s).sec = s.sec ∧ (bootFound kind cause s).mem = s.mem ∧ (bootFound kind cause s).mb.linkUp = false := by
  rw [bootFound_clean h, retainedShown_frame, booting_frame, dieResults_recorderFound_frame]
  simp only [and_self]

/-- The words from the Governor's on: above every word of the Sill and of Ridge. -/
abbrev fromGovernor (a : Nat) : Bool := decide (0xC0000 ≤ a)

theorem retainedShown_words (cause : Nat) (s : State) : SameWords s (retainedShown cause s) fromGovernor := by
  have hages : ∀ u r, SameWords u (agesShown u r) fromGovernor := fun u r =>
    (agesShown_words u r).mono (fun a ha => decide_eq_true (Nat.le_trans (by decide) (of_decide_eq_true ha)))
  rw [retainedShown]
  exact ((SameWords.setFld rfl 15 0 _ s).trans (hages _ _)).trans (SameWords.wr rfl _ _)

theorem setForemanUp_words {p : Nat → Bool} (h : p KINGPOST_SAFETY_STATE.addr = true) (up : Bool) (s : State) :
    SameWords s (setForemanUp up s) p := SameWords.setFld h 3 3 (b2n up) { s with mb.foremanUp := up }

theorem booting_words {p : Nat → Bool} (h : p KINGPOST_SAFETY_STATE.addr = true) (s : State) : SameWords s (booting s) p :=
  (setForemanUp_words h false s).update

/-- The words of the Sill and of Ridge stay as the dies' self-tests left them. -/
theorem bootFound_words {s : State} (h : StoreClean s) (kind cause : Nat) :
    SameWords (dieResults {} (recorderFound kind s)) (bootFound kind cause s) fromGovernor := by
  rw [bootFound_clean h]
  have hdown := booting_words (p := fromGovernor) rfl (dieResults {} (recorderFound kind s))
  exact (hdown.trans (retainedShown_words cause _)).update

theorem bits_7_0_eq_mod (w : Nat) : bits w 7 0 = bits w 15 0 % 256 := by
  simp only [bits]
  omega

theorem retainedShown_cap (cause : Nat) (s : State) : fld (retainedShown cause s) GOVERNOR_CAP 7 0 = s.power.retained.cap % 256 := by
  rw [retainedShown, fld, rd_wr_ne (by decide), (agesShown_words _ _).rd rfl, bits_7_0_eq_mod, ← fld,
    fld_setFld_same (by decide) (by decide) (by decide)]
  omega

theorem retainedShown_cause {cause : Nat} {s : State} (hc : cause < 2 ^ 12) (ha : s.power.attempts < 4) :
    rd (retainedShown cause s) KINGPOST_RESET_CAUSE = cause + 4096 * s.power.attempts := by
  rw [retainedShown, rd_wr_same]
  omega

theorem bootFound_retained {s : State} (h : StoreClean s) (ha : s.power.attempts < 4) :
    rd (bootFound 0 0 s) KINGPOST_RESET_CAUSE = 4096 * s.power.attempts ∧ fld (bootFound 0 0 s) GOVERNOR_CAP 7 0 = s.power.retained.cap % 256 := by
  have hp : (booting (dieResults {} (recorderFound 0 s))).power = { s.power with released := false } := by
    rw [booting_frame, dieResults_recorderFound_frame]
  rw [bootFound_clean h, rd_power, fld_power, retainedShown_cap, retainedShown_cause (by decide) (by rw [hp]; exact ha), hp]
  exact ⟨Nat.zero_add _, rfl⟩

/-! ### The boot: the choice of the slot, and Foreman's release (R604, R611) -/

/-- Slot A is confirmed and holds an image whose container the model does not know; slot B holds nothing. -/
def SlotAConfirmed (w : FwSt) : Prop := w.slotA.valid = true ∧ w.slotA.state = 2 ∧ w.slotA.box = [] ∧ w.slotB.valid = false

theorem chooseSlot_confirmed {s : State} (h : SlotAConfirmed s.fw) (n : Nat) : chooseSlot {} (n + 1) s = (some 0, s) := by
  obtain ⟨hv, hs, hb, hn⟩ := h
  have ha : candidate {} s 0 = true := by simp [candidate, fwSlot, hv, hs, bit]
  have hno : candidate {} s 1 = false := by simp [candidate, fwSlot, hn]
  have h0 : (fwSlot s 0).state = 2 := hs
  have hexp0 : expireTrial {} s 0 = s := by simp [expireTrial, h0]
  have hexp1 : expireTrial {} s 1 = s := by simp [expireTrial, hno]
  have hpick : pickSlot {} s = some 0 := by simp [pickSlot, ha, hno, h0]
  have hgood : slotGood {} s 0 = true := by simp [slotGood, fwSlot, hb, bit]
  simp [chooseSlot, hexp0, hexp1, hpick, h0, hgood]

/-- From what the boot has found, the device runs: its session is open, and Foreman is released from slot A. -/
def released (kind : Nat) (u : State) : State :=
  let s := runImage 0 (putPlinth .run u)
  setForemanUp true { s with
    recd.sessions := ⟨u.recd.life.cycle, kind, 0, 0, 0xFF, u.recd.life.s, 0, 0⟩ :: u.recd.sessions.take 31
    fw := { s.fw with recovery := false, trial := none }, power.released := true }

theorem bootDevice_confirmed {s : State} (h : StoreClean s) (hw : SlotAConfirmed s.fw) (hrec : s.fw.recovery = false)
    (hret : s.sec.fuses.returnPending = false) (cause kind : Nat) :
    bootDevice {} cause kind s = released kind (bootFound kind cause s) := by
  obtain ⟨hfw, hsec, -, -⟩ := bootFound_frame h kind cause
  unfold bootDevice
  dsimp only
  rw [← booting, ← bootFound]
  generalize bootFound kind cause s = u at hfw hsec
  have hv : SlotAConfirmed (putPlinth .run u).fw := by rwa [← hfw] at hw
  have hret' : ¬ ((putPlinth .run u).sec.fuses.returnPending && !(putPlinth .run u).sec.fuses.returned) = true := by
    simp [putPlinth, hsec, hret]
  have hstate : (fwSlot (runImage 0 (putPlinth .run u)) 0).state = 2 := hv.2.1
  have hrec' : (runImage 0 (putPlinth .run u)).fw.recovery = false := by rw [← hrec, ← hfw]; rfl
  rw [if_neg (by decide), if_neg (by decide), if_neg hret', chooseSlot_confirmed hv]
  simp only [hrec', hstate, Bool.false_eq_true, if_false]
  rfl

/-- The words that change at Foreman's release: the states of the Plinth, of the boot and of safety. -/
def atRelease (a : Nat) : Bool :=
  decide (a = KINGPOST_POWER_STATE.addr) || decide (a = KINGPOST_BOOT_STATE.addr) || decide (a = KINGPOST_SAFETY_STATE.addr)

theorem runImage_words (k : Nat) (s : State) : SameWords s (runImage k s) atRelease :=
  ((((SameWords.setFld rfl 15 8 _ s).trans (SameWords.setFld rfl 0 0 k _)).trans (SameWords.setFld rfl 23 16 _ _)).trans
    (SameWords.setFld rfl 31 24 _ _)).update

theorem released_words (kind : Nat) (u : State) : SameWords u (released kind u) atRelease := by
  have hrun : SameWords u (putPlinth .run u) atRelease := (putPlinth_words .run u).mono (fun a ha => by simp [atRelease, of_decide_eq_true ha])
  exact ((hrun.trans (runImage_words 0 _)).update).trans (setForemanUp_words rfl true _)

theorem released_runs (kind : Nat) (u : State) : (released kind u).power.state = .run ∧ (released kind u).power.released = true ∧
    (released kind u).mb = { u.mb with foremanUp := true } ∧ (released kind u).fw.running = 0 ∧ (released kind u).mem = u.mem ∧
    (released kind u).sec.fuses = u.sec.fuses := ⟨rfl, rfl, rfl, rfl, rfl, rfl⟩

/-- What the first boot of a power-on shows, with every die passing and slot A confirmed. -/
theorem bootDevice_shows {s : State} (h : StoreClean s) (hw : SlotAConfirmed s.fw) (hrec : s.fw.recovery = false)
    (hret : s.sec.fuses.returnPending = false) (ha : s.power.attempts < 4) : let t := bootDevice {} 0 0 s
    fld t SILL_PACKAGE 9 0 = 0x2FF ∧ rd t SILL_STACKS_USED = 15 ∧ rd t SILL_SYS_RESERVE = 512 ∧ rd t RIDGE_EPOCH_REQUIRED = 0x3FFF ∧
      rd t KINGPOST_RESET_CAUSE = 4096 * s.power.attempts ∧ fld t GOVERNOR_CAP 7 0 = s.power.retained.cap % 256 := by
  dsimp only
  rw [bootDevice_confirmed h hw hrec hret]
  have hrel := released_words 0 (bootFound 0 0 s)
  have hfound := bootFound_words h 0 0
  obtain ⟨hdies, hstacks, hreserve, hunits⟩ := dieResults_passing_words (recorderFound 0 s)
  obtain ⟨hcause, hcap⟩ := bootFound_retained h ha
  refine ⟨?_, ?_, ?_, ?_, ?_, ?_⟩
  · rw [fld, hrel.rd rfl, hfound.rd rfl]
    exact hdies
  · rw [hrel.rd rfl, hfound.rd rfl, hstacks]
  · rw [hrel.rd rfl, hfound.rd rfl, hreserve]
  · rw [hrel.rd rfl, hfound.rd rfl, hunits]
  · rw [hrel.rd rfl, hcause]
  · rw [fld, hrel.rd rfl]
    exact hcap

theorem completes_powerOn_uncharged {s : State} (hc : bit (rd s KINGPOST_POWER_STATE) 5 = false) (b : BootResult) :
    Completes (.powerOn b) s (fun t => t = s) := by
  refine ⟨s, ?_, rfl⟩
  change execPowerOn b s = _
  rw [execPowerOn, if_neg (by simp [hc])]

theorem exec_powerOn_charged {s : State} (hs : s.power.state = .sequencing) (h9 : s.power.step = 9)
    (hc : bit (rd s KINGPOST_POWER_STATE) 5 = true) (b : BootResult) :
    exec (.powerOn b) s = .next (bootDevice b 0 0 { s with power.step := 10 }) := by
  change execPowerOn b s = _
  rw [execPowerOn, if_pos ⟨hs, h9, hc⟩]

/-- With every rail up and the store charged, the device boots and Foreman is released (R604). -/
theorem completes_powerOn_boots {s : State} (hs : s.power.state = .sequencing) (h9 : s.power.step = 9)
    (hc : bit (rd s KINGPOST_POWER_STATE) 5 = true) (hstore : StoreClean s) (hslot : SlotAConfirmed s.fw) (hrec : s.fw.recovery = false)
    (hret : s.sec.fuses.returnPending = false) (ha : s.power.attempts < 4) : Completes (.powerOn {}) s (fun t =>
      t.power.state = .run ∧ t.power.released = true ∧ t.mb.foremanUp = true ∧ t.mb.linkUp = false ∧ t.fw.running = 0 ∧
        fld t SILL_PACKAGE 9 0 = 0x2FF ∧ rd t SILL_STACKS_USED = 15 ∧ rd t SILL_SYS_RESERVE = 512 ∧ rd t RIDGE_EPOCH_REQUIRED = 0x3FFF ∧
        rd t KINGPOST_RESET_CAUSE = 4096 * s.power.attempts ∧ fld t GOVERNOR_CAP 7 0 = s.power.retained.cap % 256 ∧ t.mem = s.mem ∧
        t.sec.fuses = s.sec.fuses) := by
  refine ⟨_, exec_powerOn_charged hs h9 hc {}, ?_⟩
  obtain ⟨hdies, hstacks, hreserve, hunits, hcause, hcap⟩ := bootDevice_shows (s := { s with power.step := 10 }) hstore hslot hrec hret ha
  obtain ⟨-, hsec, hmem, hlink⟩ := bootFound_frame (s := { s with power.step := 10 }) hstore 0 0
  rw [bootDevice_confirmed (s := { s with power.step := 10 }) hstore hslot hrec hret] at hdies hstacks hreserve hunits hcause hcap ⊢
  generalize bootFound 0 0 { s with power.step := 10 } = u at hdies hstacks hreserve hunits hcause hcap hsec hmem hlink ⊢
  obtain ⟨hrun, hreleased, hmb, hslot0, hmem', hfuses⟩ := released_runs 0 u
  exact ⟨hrun, hreleased, by rw [hmb], by rw [hmb, ← hlink], hslot0, hdies, hstacks, hreserve, hunits, hcause, hcap, hmem'.trans hmem,
    by rw [hfuses, hsec]⟩

/-! ### The pair at the end of a session (R413, R620) -/

theorem Reported.pairOff (message : Bool) (s : State) : Reported s (pairOff message s) := by
  have hlevel : ∀ n m, Reported s (Machine.setFld NETIN_VLINK_STATE 15 8 n { Machine.drivePair false 4 s with out.slot15 := m }) := fun n m =>
    (Reported.drivePair false 4 s).trans ⟨rfl, (SameWords.of_regs rfl).trans (SameWords.setFld rfl 15 8 n _)⟩
  unfold Machine.pairOff
  exact Reported.ite (Reported.ite (Reported.drivePair _ _ _) (hlevel _ _))
    (Reported.ite ((Reported.setFld rfl _ _ _ _).trans (Reported.queueSafeMessage _)) (Reported.refl _))

/-- The words of the pair and of events: those of the recorder and of the vehicle link, and the state of safety. -/
def inPair (a : Nat) : Bool := inRecorder a || decide (0x33804 ≤ a ∧ a < 0x33820) || decide (a = KINGPOST_SAFETY_STATE.addr)

theorem queueSafeMessage_words (s : State) : SameWords s (queueSafeMessage s) inPair := by
  unfold queueSafeMessage
  split
  · exact SameWords.setFld rfl 15 8 _ { s with out.slot15 := _ }
  · exact SameWords.refl _ _

theorem raise_words (c a : Nat) (s : State) : SameWords s (raise c a s) inPair :=
  (Logged.raise c a s).2.mono (fun a ha => by simp [inPair, ha])

theorem drivePair_words (valid : Bool) (reason : Nat) (s : State) : SameWords s (drivePair valid reason s) inPair := by
  unfold drivePair
  split
  · exact SameWords.refl _ _
  · exact (((((((SameWords.setFld rfl 0 0 _ s).trans (SameWords.setFld rfl 23 16 _ _)).trans (SameWords.setFld rfl 2 2 _ _)).trans
      (SameWords.setFld rfl 31 0 _ _)).trans ((SameWords.wr rfl _ _).trans (SameWords.wr rfl _ _))).trans (raise_words _ _ _)).trans
      (SameWords.of_regs rfl)).trans (queueSafeMessage_words _)

theorem bit_queueSafeMessage (s : State) : bit (rd (queueSafeMessage s) NETIN_VLINK_STATE) 0 = bit (rd s NETIN_VLINK_STATE) 0 := by
  unfold queueSafeMessage
  split
  · rw [bit_eq_fld, fld_setFld_below (by decide) (by decide) (by decide) (by decide), ← bit_eq_fld]
    rfl
  · rfl

theorem bit_drivePair (valid : Bool) (reason : Nat) (s : State) : bit (rd (drivePair valid reason s) NETIN_VLINK_STATE) 0 = valid := by
  unfold drivePair
  split
  · assumption
  · rw [bit_queueSafeMessage, rd_regs _ (emit_regs _ _), (Logged.raise _ _ _).2.rd rfl, wr64, rd_wr_ne (by decide), rd_wr_ne (by decide),
      inc, incFld, rd_setFld_ne (by decide), rd_setFld_ne (by decide), bit_eq_fld,
      fld_setFld_below (by decide) (by decide) (by decide) (by decide), fld_setFld_same (by decide) (by decide) (by decide)]
    cases valid <;> rfl

/-- After the end of a session the pair is invalid. -/
theorem bit_pairOff (message : Bool) (s : State) : bit (rd (pairOff message s) NETIN_VLINK_STATE) 0 = false := by
  unfold pairOff
  split
  · dsimp only
    split
    · exact bit_drivePair _ _ _
    · rw [bit_eq_fld, fld_setFld_below (by decide) (by decide) (by decide) (by decide), ← bit_eq_fld]
      exact bit_drivePair false 4 s
  · rename_i hoff
    have hoff : bit (rd s NETIN_VLINK_STATE) 0 = false := Bool.eq_false_iff.2 hoff
    split
    · rw [bit_queueSafeMessage, bit_eq_fld, fld_setFld_below (by decide) (by decide) (by decide) (by decide), ← bit_eq_fld, hoff]
    · exact hoff

theorem pairOff_words (message : Bool) (s : State) : SameWords s (pairOff message s) inPair := by
  have hlevel := drivePair_words false 4 s
  unfold pairOff
  split
  · dsimp only
    split
    · exact hlevel
    · exact hlevel.update.trans (SameWords.setFld rfl 15 8 _ _)
  · split
    · exact (SameWords.setFld rfl 23 16 4 s).trans (queueSafeMessage_words _)
    · exact SameWords.refl _ _

/-! ### The fall of EN (R605, R620) -/

theorem completes_enLow_standby {s : State} (hs : s.power.state = .standby) :
    Completes .enLow s (fun t => t = { s with power.en := false, power.due := false, power.locked := false }) := by
  refine ⟨_, ?_, rfl⟩
  change execEnLow s = _
  simp [execEnLow, hs]

/-- POWER_DOWN is entered at its step 2, with the session to end with code 2. -/
def stopping (s : State) : State :=
  putPlinth .powerDown { s with power := { s.power with
    en := false, due := false, locked := false, step := 2, stopFrom := s.ridge.ns, ending := 2, waiting := false } }

theorem exec_enLow_run {s : State} (hs : s.power.state = .run) : exec .enLow s = .next (powerDownYard (pairOff true (stopping s))) := by
  change execEnLow s = _
  rw [execEnLow, if_pos (.inl hs)]
  simp only [hs, decide_true, if_true]
  rfl

/-- In step 2 an idle Yard lets the rails fall, and one with work left stays as it is. -/
theorem powerDownYard_step2 {s : State} (hs : s.power.state = .powerDown) (h2 : s.power.step = 2) :
    powerDownYard s = { s with
      power.step := (if yardIdle s then 3 else 2)
      yard := (if yardIdle s then { yardCut s.yard with stopped := true } else s.yard) } := by
  unfold powerDownYard
  cases hidle : yardIdle s with
  | true => rw [if_pos ⟨hs, h2, rfl⟩]; rfl
  | false =>
    rw [if_neg (fun h => Bool.false_ne_true h.2.2)]
    simp only [Bool.false_eq_true, if_false, ← h2]

theorem completes_enLow_run {s : State} (hs : s.power.state = .run) : Completes .enLow s (fun t =>
    t.power.state = .powerDown ∧ t.power.en = false ∧ t.power.stopFrom = s.ridge.ns ∧ t.power.ending = 2 ∧ t.power.step = (if yardIdle s then 3 else 2) ∧
      bit (rd t NETIN_VLINK_STATE) 0 = false ∧ fld t KINGPOST_POWER_STATE 2 0 = 4 ∧ t.mem = s.mem ∧ t.yard.blocks = s.yard.blocks ∧
      (yardIdle s = false → t.yard = s.yard)) := by
  refine ⟨_, exec_enLow_run hs, ?_⟩
  have hoff := bit_pairOff true (stopping s)
  have hshown : fld (pairOff true (stopping s)) KINGPOST_POWER_STATE 2 0 = 4 := by
    rw [fld, (pairOff_words true (stopping s)).rd rfl]
    exact fld_putPlinth _ _
  have hframe := (Reported.pairOff true (stopping s)).1
  generalize pairOff true (stopping s) = u at hoff hshown hframe
  have hpower : u.power = (stopping s).power := by rw [hframe]
  have hyard : u.yard = s.yard := by rw [hframe]; rfl
  have hmem : u.mem = s.mem := by rw [hframe]; rfl
  have hidle : yardIdle u = yardIdle s := by rw [yardIdle, hyard, yardIdle]
  rw [powerDownYard_step2 (by rw [hpower]; rfl) (by rw [hpower]; rfl), hidle, hyard]
  dsimp only
  refine ⟨by rw [hpower]; rfl, by rw [hpower]; rfl, by rw [hpower]; rfl, by rw [hpower]; rfl, rfl, hoff, hshown, hmem, ?_, ?_⟩
  · cases yardIdle s <;> rfl
  · intro hbusy
    rw [hbusy, if_neg Bool.false_ne_true]

/-- Settles O52: each command comes down to the lemma of its case; the boot is told stage by stage, and the fall of EN by what the pair
and the Yard do. -/
theorem poweringUp : Obligations.PoweringUp := by
  refine ⟨fun s => ?_, fun s hs h9 => ?_, fun s => ⟨completes_enLow_standby, completes_enLow_run⟩⟩
  · exact ⟨fun hs hl hg => ⟨completes_vinRise_standby hs hl hg, completes_enHigh_standby hs hl hg⟩, completes_vinRise_idle,
      completes_enHigh_again, completes_enHigh_powerDown, completes_railStepInLimits, completes_notSequencing,
      fun hs hw r hr _ => ⟨completes_railStepTimeout_retried hs hw hr, completes_railStepTimeout_locked hs hw hr⟩,
      completes_sequencingRetry, completes_holdupCharged⟩
  · exact ⟨fun hc => completes_powerOn_uncharged hc {}, fun hc hv hst hb hn hrec hret ha he hf =>
      completes_powerOn_boots hs h9 hc ⟨he, hf⟩ ⟨hv, hst, hb, hn⟩ hrec hret ha⟩

end Sys2Proof.Machine
end

section
/-! PROOF. The reference tick (R53–R58): what it adds to Ridge, stage by stage, and what the rest of the tick can change. -/

namespace Sys2Proof.Machine
open Sys2Proof

/-! ### What the rest of a tick can do (R63, R189, R571) -/

/-- From `s` to `t` nothing changes but the fabric, the Governor's counts, registers and events. -/
def Ticked (s t : State) : Prop :=
  t = { s with regs := t.regs, fab := t.fab, gov := t.gov, recd := t.recd, emitted := t.emitted }

theorem Ticked.refl (s : State) : Ticked s s := rfl

theorem Ticked.trans {s t u : State} (h : Ticked s t) (k : Ticked t u) : Ticked s u := by
  rw [Ticked, k, h]

theorem Ticked.foldl {β : Type} {g : State → β → State} (h : ∀ s b, Ticked s (g s b)) (l : List β) (s : State) : Ticked s (l.foldl g s) := by
  induction l generalizing s with
  | nil => exact Ticked.refl s
  | cons b r ih => exact (h s b).trans (ih _)

theorem Ticked.ite {p : Prop} [Decidable p] {s a b : State} (ha : Ticked s a) (hb : Ticked s b) : Ticked s (if p then a else b) := by
  split
  · exact ha
  · exact hb

theorem Logged.ticked {s t : State} (h : Logged s t) : Ticked s t := by
  rw [Ticked, h.1]

theorem Ticked.holdoverElapsed (s : State) : Ticked s (holdoverElapsed s) := Ticked.ite rfl (Ticked.refl s)

theorem Ticked.bayTick (want : List (Nat × Nat)) (waiting : Bool) (b : Nat) (s : State) : Ticked s (bayTick want waiting b s) := by
  have hfab : ∀ (u : State) (f : FabSt), Ticked u { u with fab := f } := fun _ _ => rfl
  have hwait : ∀ u, Ticked u (inc (BAY_TOKEN_WAIT b) u) := fun _ => rfl
  unfold Machine.bayTick
  refine (hfab s _).trans (Ticked.trans (Ticked.foldl (fun u t => ?_) _ _) (Ticked.ite (hwait _) (Ticked.refl _)))
  exact hfab u _

theorem Ticked.accrueReasons (s : State) : Ticked s (accrueReasons s) := by
  have hcount : ∀ (u : State) (g : GovSt), Ticked u { u with gov := g } := fun _ _ => rfl
  have hhot : ∀ (u : State) (n k : Nat), Ticked u (if k = 0 ∧ tgetD n 0 u.gov.hotTicks = 0 then u else
      let u := { u with gov.hotTicks := tput n k u.gov.hotTicks }
      if k = 1000000000 then raise 0xC004 n u else u) := fun u n k =>
    Ticked.ite (Ticked.refl u) ((hcount u _).trans (Ticked.ite (Logged.raise _ _ _).ticked (Ticked.refl _)))
  unfold Machine.accrueReasons
  exact (hcount s _).trans (Ticked.foldl (fun u n => hhot u n _) _ _)

theorem Ticked.regionRates (b : Nat) (s : State) : Ticked s (regionRates b s) := by
  unfold Machine.regionRates
  refine (Ticked.foldl ?_ _ s).trans (Ticked.foldl ?_ _ _)
  · exact fun _ _ => rfl
  · exact fun _ _ => rfl

/-- After the addition of the tick, Ridge stays. -/
theorem completes_referenceTick (steps : List (Nat × Nat)) (waiting : Nat) (s : State) :
    Completes (.referenceTick steps waiting) s (Ticked (advanceRidge s)) := by
  refine ⟨_, rfl, ?_⟩
  refine Ticked.trans ?_ (Ticked.ite (Ticked.foldl (fun u b => Ticked.regionRates b u) _ _) (Ticked.refl _))
  refine Ticked.trans ?_ (Ticked.accrueReasons _)
  exact (Ticked.holdoverElapsed _).trans (Ticked.foldl (fun u b => Ticked.bayTick steps _ b u) _ _)

/-! ### The addition -/

theorem any_tput {α : Type} {f : Nat × α → Bool} {k : Nat} (hk : ∀ v, f (k, v) = false) (v : α) (t : Tab α) :
    (tput k v t).any f = t.any f := by
  induction t with
  | nil => simp [tput, hk]
  | cons p r ih =>
    obtain ⟨j, w⟩ := p
    simp only [tput]
    split
    · subst_vars; simp [hk]
    · split
      · simp [hk]
      · simp [ih]

/-- A word outside the marks does not pin Ridge (R57). -/
theorem pinned_wr {r : Reg} (hr : r.addr < 0x14000) (v : Nat) (s : State) : pinned (wr r v s) = pinned s := by
  have hmark : ∀ w : Word, (decide (0x14000 ≤ r.addr) && decide (r.addr < 0x14000 + 0x20 * 1016) && decide (r.addr % 0x20 = 0x1C) &&
      decide (bits w.toNat 31 30 = 1)) = false := fun w => by simp [Nat.not_le.2 hr]
  have hnode : ∀ g i, nodeOf (wr r v s) g i = nodeOf s g i := fun _ _ => rfl
  simp only [pinned, hnode, wr_out, wr_scribe]
  rw [show (wr r v s).regs = tput r.addr (BitVec.ofNat 32 v) s.regs from rfl, any_tput hmark]

/-- The increment that a tick adds: the one committed since the last, within the trim limit, or the one in force (R53, R55, R56). -/
def tickInc (s : State) : Nat := match s.ridge.incNext with | some i => clampInc s i | none => s.ridge.inc

/-- An accepted step is dropped where it is negative while Ridge is pinned, or a mode change is in progress (R57, R58). -/
def stepRefused (s : State) (e : Int) : Bool := (decide (e < 0) && pinned s) || changing s

theorem stepRefused_iff (s : State) (e : Int) : stepRefused s e = true ↔ (e < 0 ∧ pinned s = true) ∨ s.ridge.phase ≠ .idle := by
  simp [stepRefused, changing]

/-- First stage of the addition of a tick: a committed increment is put in force (R55, R56). -/
def takeInc (s : State) : State :=
  match s.ridge.incNext with
  | some i =>
    let i := clampInc s i
    wr RIDGE_FREQ_TRIM (ofSigned 32 (incTrim i)) (putInc i { s with ridge.incNext := none, ridge.trim := incTrim i })
  | none => s

/-- Second stage: a step that is refused is dropped, and counted as an ignored write where it is software's (R57, R58). -/
def dropStep (s : State) : State :=
  match s.ridge.stepNext with
  | some e =>
    if stepRefused s e then
      let s := { s with ridge.stepNext := none }
      if s.ridge.stepSoft then ignoredWrite 0 RIDGE_STEP_HI.addr false allBits s else s
    else s
  | none => s

/-- Third stage: Ridge advances by the increment in force and the step that is left (R53, R58). -/
def addInc (s : State) : State :=
  let sum := (s.ridge.ns * 2 ^ 32 + s.ridge.frac + s.ridge.inc) % 2 ^ 96
  let ns := sum / 2 ^ 32
  let stepped := match s.ridge.stepNext with
    | some e => (((ns : Int) + e) % 2 ^ 64).toNat
    | none => ns
  marksDue (if s.ridge.stepNext.isSome then ns else s.ridge.ns) (if s.ridge.stepNext.isSome then stepped else s.ridge.ns)
    { s with ridge.ns := stepped, ridge.frac := sum % 2 ^ 32, ridge.stepNext := none }

theorem advanceRidge_eq (s : State) : advanceRidge s = addInc (dropStep (takeInc s)) := by
  rfl

theorem takeInc_frame (s : State) : ∃ words trim, takeInc s = { s with
    regs := words, ridge := { s.ridge with inc := tickInc s, incNext := none, trim := trim } } := by
  unfold takeInc tickInc
  split
  · exact ⟨_, _, rfl⟩
  · next h => exact ⟨s.regs, s.ridge.trim, by rw [← h]⟩

theorem pinned_takeInc (s : State) : pinned (takeInc s) = pinned s := by
  unfold takeInc
  split
  · rw [pinned_wr (by decide), putInc, pinned_wr (by decide), pinned_wr (by decide)]
    rfl
  · rfl

/-- The step that a tick adds, if any. -/
def tickStep (s : State) : Option Int := s.ridge.stepNext.filter (fun e => !stepRefused s e)

theorem dropStep_frame (s : State) : ∃ words, dropStep s = { s with regs := words, ridge.stepNext := tickStep s } := by
  unfold dropStep tickStep
  split
  · next e h =>
    rw [h]
    cases hr : stepRefused s e with
    | false =>
      simp only [Bool.false_eq_true, if_false, Option.filter_some, hr, Bool.not_false, if_true]
      exact ⟨s.regs, by rw [← h]⟩
    | true =>
      simp only [if_true, Option.filter_some, hr, Bool.not_true, Bool.false_eq_true, if_false]
      split
      · exact ⟨_, rfl⟩
      · exact ⟨s.regs, rfl⟩
  · next h => exact ⟨s.regs, by rw [h, Option.filter_none, ← h]⟩

theorem tickStep_takeInc (s : State) : tickStep (takeInc s) = tickStep s := by
  have hpinned := pinned_takeInc s
  obtain ⟨words, trim, htaken⟩ := takeInc_frame s
  rw [htaken] at hpinned ⊢
  simp only [tickStep, stepRefused, hpinned, changing]

/-- The 96-bit sum of a tick, its carry discarded (R53). -/
def tickSum (s : State) : Nat := (s.ridge.ns * 2 ^ 32 + s.ridge.frac + tickInc s) % 2 ^ 96

/-- The nanoseconds `n` after a step, if there is one (R58). -/
def stepped (step : Option Int) (n : Nat) : Nat :=
  match step with
  | some e => (((n : Int) + e) % 2 ^ 64).toNat
  | none => n

theorem marksDue_frame (a b : Nat) (s : State) : ∃ due skipped, marksDue a b s = { s with
    ridge := { s.ridge with due := due, skipped := skipped, delivered := 0 } } := ⟨_, _, rfl⟩

theorem addInc_frame (s : State) : ∃ due skipped, addInc s = { s with ridge := { s.ridge with
    frac := (s.ridge.ns * 2 ^ 32 + s.ridge.frac + s.ridge.inc) % 2 ^ 96 % 2 ^ 32
    ns := stepped s.ridge.stepNext ((s.ridge.ns * 2 ^ 32 + s.ridge.frac + s.ridge.inc) % 2 ^ 96 / 2 ^ 32)
    stepNext := none, due := due, skipped := skipped, delivered := 0 } } := by
  unfold addInc
  obtain ⟨due, skipped, h⟩ := marksDue_frame _ _ _
  exact ⟨due, skipped, h⟩

/-- What a tick leaves of Ridge: the sum with the step added, the increment in force, and nothing to come. -/
theorem advanceRidge_frame (s : State) : ∃ words trim due skipped, advanceRidge s = { s with
    regs := words
    ridge := { s.ridge with
      frac := tickSum s % 2 ^ 32, ns := stepped (tickStep s) (tickSum s / 2 ^ 32), inc := tickInc s, incNext := none, stepNext := none
      trim := trim, due := due, skipped := skipped, delivered := 0 } } := by
  obtain ⟨_, trim, htaken⟩ := takeInc_frame s
  obtain ⟨words, hdropped⟩ := dropStep_frame (takeInc s)
  obtain ⟨due, skipped, hadded⟩ := addInc_frame (dropStep (takeInc s))
  rw [tickStep_takeInc, htaken] at hdropped
  rw [htaken, hdropped] at hadded
  refine ⟨words, trim, due, skipped, ?_⟩
  rw [advanceRidge_eq, htaken, hdropped, hadded]
  rfl

/-- A step that is refused adds nothing. -/
theorem stepped_tickStep (s : State) (n : Nat) : stepped (tickStep s) n = match s.ridge.stepNext with
    | some e => if (e < 0 ∧ pinned s = true) ∨ s.ridge.phase ≠ .idle then n else (((n : Int) + e) % 2 ^ 64).toNat
    | none => n := by
  unfold tickStep
  cases s.ridge.stepNext with
  | none => rfl
  | some e =>
    simp only [Option.filter_some, ← stepRefused_iff]
    cases stepRefused s e <;> rfl

/-- Settles O5: the addition is told stage by stage, and what follows it in the tick leaves Ridge alone. -/
theorem referenceTickAddsTheIncrement : Obligations.ReferenceTickAddsTheIncrement := by
  intro s steps waiting
  obtain ⟨t, hexec, hticked⟩ := completes_referenceTick steps waiting s
  obtain ⟨words, trim, due, skipped, hadvanced⟩ := advanceRidge_frame s
  rw [Ticked, hadvanced] at hticked
  have hridge : t.ridge = { s.ridge with
      frac := tickSum s % 2 ^ 32, ns := stepped (tickStep s) (tickSum s / 2 ^ 32), inc := tickInc s, incNext := none, stepNext := none
      trim := trim, due := due, skipped := skipped, delivered := 0 } := by rw [hticked]
  have hframe : t = { s with regs := t.regs, ridge := t.ridge, fab := t.fab, gov := t.gov, recd := t.recd, emitted := t.emitted } := by
    rw [hticked]
  have hns : t.ridge.ns = stepped (tickStep s) (tickSum s / 2 ^ 32) := by rw [hridge]
  exact ⟨t, hexec, by rw [hridge]; rfl, hns.trans (stepped_tickStep s _), by rw [hridge]; rfl, by rw [hridge], by rw [hridge],
    by rw [hridge], hframe⟩

end Sys2Proof.Machine
end

section
/-! PROOF. Writes that commit an increment, a step, or a new source and role of Ridge (R55–R58, R61, R63, R629). -/

namespace Sys2Proof.Machine
open Sys2Proof

/-! ### The increment and the step (R55, R56, R58, R61) -/

/-- The fraction of an increment to be committed: the word staged, or the register's (R56). -/
def stagedIncFrac (s : State) : Nat := match tget RIDGE_INC_FRAC.addr s.staged with | some w => w.toNat | none => rd s RIDGE_INC_FRAC

/-- The increment that a write of `v` to INC_INT commits (R55). -/
def committedInc (v : Nat) (s : State) : Nat := clampInc s (v % 256 * 2 ^ 32 + stagedIncFrac s)

theorem exec_ridgeIncCommit (v : Nat) (s : State) : exec (.ridgeIncCommit v) s = .next { s with
    staged := tdel RIDGE_INC_FRAC.addr s.staged
    ridge.incNext := some (committedInc v s)
    ridge.integ := if bit (rd s RIDGE_CTRL) 2 then incTrim (committedInc v s) else s.ridge.integ } := by
  have hint : bits v 7 0 = v % 256 := by simp [bits]
  let u : State := { s with staged := tdel RIDGE_INC_FRAC.addr s.staged, ridge.incNext := some (committedInc v s) }
  change execRidgeIncCommit v s = _
  unfold execRidgeIncCommit
  rw [hint]
  change Host.Outcome.next (if bit (rd s RIDGE_CTRL) 2 then { u with ridge.integ := incTrim (committedInc v s) } else u) = _
  split <;> rfl

/-- A word and a low word make a negative number just where the sign bit of the word is set. -/
theorem toSigned_neg_iff {hi lo : Nat} (hhi : hi < 2 ^ 32) (hlo : lo < 2 ^ 32) : toSigned 64 (hi * 2 ^ 32 + lo) < 0 ↔ 2 ^ 31 ≤ hi := by
  unfold toSigned
  split <;> omega

/-- A write that the window of Ridge ignores is recorded at its register's address, with no flag where only software writes its fields. -/
theorem ignored_ridgeWrite {a : Nat} (hlow : 0x10000 ≤ a) (hhigh : a < 0x1FFFC) (hword : a % 4 = 0) (hflag : addressesHw a allBits = false)
    (s : State) : Ignored 0x10000 a s (ignoredWrite 0 a false allBits s) := by
  have hwin : windowOf a = some 0x10000 := by
    rw [windowOf, if_pos (by omega), show a / 0x10000 = 1 by omega]
  have haddr : 0x10000 + ((a - 0x10000) / 4 * 4 + 2 * b2n false + b2n (addressesHw a allBits)) = a := by
    rw [hflag, show b2n false = 0 from rfl]
    omega
  have hignored := ignored_ignoredWrite (by omega) hwin (by omega) 0 false allBits s
  rwa [haddr] at hignored

/-- The low word of a step: the one staged, or 0. -/
def stagedStepLo (s : State) : Nat := match tget RIDGE_STEP_LO.addr s.staged with | some w => w.toNat | none => 0

theorem stagedStepLo_lt (s : State) : stagedStepLo s < 2 ^ 32 := by
  unfold stagedStepLo
  split
  · exact BitVec.isLt _
  · decide

/-- The committed increment is in force from the next tick, and the integral term follows it where loop_en is 1. -/
theorem completes_ridgeIncCommit (s : State) (v : Nat) : Completes (.ridgeIncCommit v) s (fun t =>
    (bit (rd s RIDGE_CTRL) 2 = false → t.ridge.integ = s.ridge.integ) ∧ (bit (rd s RIDGE_CTRL) 2 = true → t.ridge.integ = incTrim (committedInc v s)) ∧
      t = { s with staged := tdel RIDGE_INC_FRAC.addr s.staged, ridge.incNext := some (committedInc v s), ridge.integ := t.ridge.integ }) :=
  ⟨_, exec_ridgeIncCommit v s, fun h => if_neg (by rw [h]; decide), fun h => if_pos h, rfl⟩

/-- The step that a write of `v` to STEP_HI commits (R58). -/
def committedStep (v : Nat) (s : State) : Int := toSigned 64 (v * 2 ^ 32 + stagedStepLo s)

theorem exec_ridgeStep {v : Nat} (hv : v < 2 ^ 32) (s : State) : let u := { s with staged := tdel RIDGE_STEP_LO.addr s.staged }
    exec (.ridgeStep v) s = .next (if stepRefused u (committedStep v s) then ignoredWrite 0 RIDGE_STEP_HI.addr false allBits u
      else { u with ridge.stepNext := some (committedStep v s), ridge.stepSoft := true }) := by
  change execRidgeStep v s = _
  unfold execRidgeStep
  rw [Nat.mod_eq_of_lt hv]
  exact (apply_ite _ _ _ _).symm

theorem completes_ridgeStep {s : State} {v : Nat} (hv : v < 2 ^ 32) : Completes (.ridgeStep v) s (fun t =>
    let u := { s with staged := tdel RIDGE_STEP_LO.addr s.staged }
    if (2 ^ 31 ≤ v ∧ pinned s = true) ∨ s.ridge.phase ≠ .idle then Ignored 0x10000 RIDGE_STEP_HI.addr u t
    else t = { u with ridge.stepNext := some (committedStep v s), ridge.stepSoft := true }) := by
  refine ⟨_, exec_ridgeStep hv s, ?_⟩
  have hrefused := stepRefused_iff { s with staged := tdel RIDGE_STEP_LO.addr s.staged } (committedStep v s)
  rw [committedStep, toSigned_neg_iff hv (stagedStepLo_lt s), ← committedStep] at hrefused
  have hsame : ((2 ^ 31 ≤ v ∧ pinned s = true) ∨ s.ridge.phase ≠ .idle) ↔
      stepRefused { s with staged := tdel RIDGE_STEP_LO.addr s.staged } (committedStep v s) = true := hrefused.symm
  simp only [hsame]
  split
  · exact ignored_ridgeWrite (by decide) (by decide) (by decide) (by decide) _
  · rfl

/-! ### Source and role (R63, R629, R630) -/

def ctrlRow : RegRow := ⟨0x10000, 0x0, 1, 0x0, 1, 0x4,
  [⟨31, 24, .res⟩, ⟨23, 16, .rw⟩, ⟨15, 12, .res⟩, ⟨11, 8, .rw⟩, ⟨7, 6, .res⟩, ⟨5, 4, .rw⟩, ⟨3, 3, .res⟩, ⟨2, 2, .rw⟩, ⟨1, 0, .rw⟩]⟩

theorem findRow_ctrl : findRow 0x10000 = some ctrlRow := by decide

/-- The word that a write of `v` leaves in RIDGE.CTRL: the reserved bits of the old word, and the fields of `v`. -/
def ctrlWord (old v : Nat) : Nat :=
  putBits (putBits (putBits (putBits (putBits old 23 16 (bits v 23 16)) 11 8 (bits v 11 8)) 5 4 (bits v 5 4)) 2 2 (bits v 2 2)) 1 0 (bits v 1 0)

theorem wordWrite_ctrl (old v : Nat) : wordWrite ctrlRow.flds false old v [] = (ctrlWord old v, false) := by
  have hf : ctrlRow.flds.filter (fun f => f.acc ≠ .res) = [⟨23, 16, .rw⟩, ⟨11, 8, .rw⟩, ⟨5, 4, .rw⟩, ⟨2, 2, .rw⟩, ⟨1, 0, .rw⟩] := by decide
  rw [wordWrite_of_accepting hf (by decide) (by decide), ctrlWord]
  repeat rw [List.foldl_cons, fieldWrite_rw]
  rw [List.foldl_nil]

theorem ctrlWord_lt {old : Nat} (h : old < 2 ^ 32) (v : Nat) : ctrlWord old v < 2 ^ 32 :=
  putBits_lt (by decide) (by decide) (putBits_lt (by decide) (by decide) (putBits_lt (by decide) (by decide)
    (putBits_lt (by decide) (by decide) (putBits_lt (by decide) (by decide) h))))

theorem bits_bits (v hi lo : Nat) : bits v hi lo % 2 ^ (hi + 1 - lo) = bits v hi lo := Nat.mod_eq_of_lt (bits_lt v hi lo)

/-- Source, role, port and loop_en are those of the word written. -/
theorem ctrlWord_fields (old v : Nat) : bits (ctrlWord old v) 1 0 = bits v 1 0 ∧ bits (ctrlWord old v) 5 4 = bits v 5 4 ∧
    bits (ctrlWord old v) 11 8 = bits v 11 8 ∧ bit (ctrlWord old v) 2 = bit v 2 := by
  have hput : ∀ w hi lo, bits (putBits w hi lo (bits v hi lo)) hi lo = bits v hi lo := fun w hi lo => by rw [bits_putBits_same, bits_bits]
  refine ⟨hput _ _ _, ?_, ?_, ?_⟩
  · rw [ctrlWord, bits_putBits_above (by decide) (by decide), bits_putBits_above (by decide) (by decide), hput]
  · rw [ctrlWord, bits_putBits_above (by decide) (by decide), bits_putBits_above (by decide) (by decide),
      bits_putBits_above (by decide) (by decide), hput]
  · rw [ctrlWord, bit_bits, bits_putBits_above (by decide) (by decide), hput, ← bit_bits]

theorem acceptWrite_ctrl (v : Nat) (s : State) : acceptWrite RIDGE_CTRL.addr v [] s = wr RIDGE_CTRL (ctrlWord (rd s RIDGE_CTRL) v) s := by
  have hlock : lockOf s 0x10000 = false := rfl
  have hvalue : valueAt s 0x10000 = rd s RIDGE_CTRL := rfl
  have hreg : regAt 0x10000 = RIDGE_CTRL := rfl
  have hpost : ∀ u, postWrite 0x10000 u = u := fun _ => rfl
  rw [show RIDGE_CTRL.addr = 0x10000 from rfl, acceptWrite_accepted findRow_ctrl rfl (wordWrite_ctrl _ _), hpost,
    commitWord_single (by decide) (by decide) (by decide) (by decide), hreg, hvalue]

/-! ### The state of the loop (R63) -/

/-- The word of RIDGE.STATUS. -/
abbrev isRidgeStatus (a : Nat) : Bool := decide (a = RIDGE_STATUS.addr)

theorem fld_setFld_above {r : Reg} {hi lo h l : Nat} (hl : lo ≤ hi) (hh : hi < 32) (hr : r.reset < 2 ^ 32) (ha : hi < l) (v : Nat) (s : State) :
    fld (setFld r hi lo v s) r h l = fld s r h l := by
  rw [fld, rd_setFld_same hl hh hr, bits_putBits_above hl ha, fld]

theorem setLoop_words (k : Nat) (s : State) : SameWords s (setLoop k s) isRidgeStatus := by
  unfold setLoop
  dsimp only
  split
  · exact SameWords.setFld rfl 2 0 k s
  · exact SameWords.setFld rfl 2 0 k s

theorem setLoop_frame (k : Nat) (s : State) : ∃ good bad, setLoop k s = { s with
    regs := (setLoop k s).regs, ridge := { s.ridge with goodRow := good, badRow := bad } } := by
  unfold setLoop
  dsimp only
  split
  · exact ⟨0, 0, rfl⟩
  · exact ⟨s.ridge.goodRow, s.ridge.badRow, rfl⟩

theorem rd_setLoop_status (k : Nat) (s : State) : rd (setLoop k s) RIDGE_STATUS = putBits (rd s RIDGE_STATUS) 2 0 k := by
  rw [← rd_setFld_same (r := RIDGE_STATUS) (by decide) (by decide) (by decide)]
  unfold setLoop
  dsimp only
  split <;> rfl

theorem loopState_setLoop {k : Nat} (hk : k < 8) (s : State) : loopState (setLoop k s) = k := by
  rw [loopState, fld, rd_setLoop_status, bits_putBits_same]
  exact Nat.mod_eq_of_lt hk

theorem gmActive_setLoop (k : Nat) (s : State) : gmActive (setLoop k s) = gmActive s := by
  rw [gmActive, rd_setLoop_status, bit_bits, bits_putBits_above (by decide) (by decide), ← bit_bits, gmActive]

/-- The flag in bit 6 of RIDGE.STATUS, for an error beyond the limit, does not matter to the state of the loop, -/
theorem loopState_setFld_excess (v : Nat) (s : State) : loopState (setFld RIDGE_STATUS 6 6 v s) = loopState s :=
  fld_setFld_below (by decide) (by decide) (by decide) (by decide) v s

/-- nor to gm_active. -/
theorem gmActive_setFld_excess (v : Nat) (s : State) : gmActive (setFld RIDGE_STATUS 6 6 v s) = gmActive s := by
  rw [gmActive, rd_setFld_same (by decide) (by decide) (by decide), bit_putBits_ne (by decide), gmActive]

/-- The state of the loop that source and gm_active give (R63). -/
def sourceLoop (s : State) : Nat := if ridgeSource s = 0 ∨ (ridgeSource s = 1 ∧ gmActive s = true) then 0 else 1

theorem enterBySource_words (s : State) : SameWords s (enterBySource s) isRidgeStatus :=
  (setLoop_words _ s).trans (SameWords.setFld rfl 6 6 0 _)

theorem enterBySource_frame (s : State) : ∃ good bad, enterBySource s = { s with
    regs := (enterBySource s).regs, ridge := { s.ridge with goodRow := good, badRow := bad } } := by
  obtain ⟨good, bad, h⟩ := setLoop_frame (sourceLoop s) s
  refine ⟨good, bad, ?_⟩
  change setFld RIDGE_STATUS 6 6 0 (setLoop (sourceLoop s) s) = { s with regs := (setFld RIDGE_STATUS 6 6 0 (setLoop (sourceLoop s) s)).regs, ridge := _ }
  generalize setLoop (sourceLoop s) s = u at h
  rw [h]
  rfl

theorem gmActive_enterBySource (s : State) : gmActive (enterBySource s) = gmActive s :=
  (gmActive_setFld_excess _ _).trans (gmActive_setLoop _ s)

theorem loopState_enterBySource (s : State) : loopState (enterBySource s) = sourceLoop s := by
  have hk : sourceLoop s < 8 := by
    unfold sourceLoop
    split <;> decide
  exact (loopState_setFld_excess _ _).trans (loopState_setLoop hk s)

/-! ### A new value of RIDGE.CTRL -/

/-- gm_active after a write: that of the role, or under BMCA what it was, and 1 where the role was another (R63). -/
def newGm (old : Nat) (s : State) : Bool :=
  match ridgeRole s with
  | 0 => true
  | 1 => false
  | _ => if bits old 5 4 = 2 then gmActive s else true

theorem newGm_grandmaster {s : State} (h : ridgeRole s = 0) (old : Nat) : newGm old s = true := by simp only [newGm, h]

theorem newGm_follower {s : State} (h : ridgeRole s = 1) (old : Nat) : newGm old s = false := by simp only [newGm, h]

/-- RIDGE.CTRL holds its new word, and Ridge waits for a sample of the source. -/
def ctrlStored (v : Nat) (s : State) : State :=
  { wr RIDGE_CTRL (ctrlWord (rd s RIDGE_CTRL) v) s with
    ridge.sampled := false, ridge.ppsSeen := if bits (rd s RIDGE_CTRL) 1 0 = 2 then s.ridge.ppsSeen else false }

/-- The same, with gm_active. -/
def roleTaken (v : Nat) (s : State) : State :=
  setFld RIDGE_STATUS 5 5 (b2n (newGm (rd s RIDGE_CTRL) (ctrlStored v s))) (ctrlStored v s)

theorem putRidgeCtrl_eq (v : Nat) (s : State) : putRidgeCtrl v s = enterBySource (roleTaken v s) := by
  unfold putRidgeCtrl
  rw [acceptWrite_ctrl]
  rfl

theorem rd_ctrlStored (v : Nat) (s : State) : rd (ctrlStored v s) RIDGE_CTRL = ctrlWord (rd s RIDGE_CTRL) v :=
  (rd_wr_same _ _ s).trans (Nat.mod_eq_of_lt (ctrlWord_lt (rd_lt s RIDGE_CTRL (by decide)) v))

theorem rd_putRidgeCtrl (v : Nat) (s : State) : rd (putRidgeCtrl v s) RIDGE_CTRL = ctrlWord (rd s RIDGE_CTRL) v := by
  rw [putRidgeCtrl_eq, (enterBySource_words _).rd rfl, roleTaken, rd_setFld_ne (by decide), rd_ctrlStored]

theorem gmActive_putRidgeCtrl (v : Nat) (s : State) : gmActive (putRidgeCtrl v s) = newGm (rd s RIDGE_CTRL) (ctrlStored v s) := by
  rw [putRidgeCtrl_eq, gmActive_enterBySource, roleTaken, gmActive, rd_setFld_same (by decide) (by decide) (by decide), bit_putBits_same]
  cases newGm (rd s RIDGE_CTRL) (ctrlStored v s) <;> rfl

theorem loopState_putRidgeCtrl (v : Nat) (s : State) : loopState (putRidgeCtrl v s) = sourceLoop (putRidgeCtrl v s) := by
  have hsource : ridgeSource (enterBySource (roleTaken v s)) = ridgeSource (roleTaken v s) := by
    rw [ridgeSource, fld, (enterBySource_words _).rd rfl, ← fld, ridgeSource]
  rw [putRidgeCtrl_eq, loopState_enterBySource, sourceLoop, sourceLoop, hsource, gmActive_enterBySource]

theorem putRidgeCtrl_frame (v : Nat) (s : State) : let t := putRidgeCtrl v s
    t = { s with regs := t.regs, ridge := t.ridge } ∧ t.ridge.ns = s.ridge.ns ∧ t.ridge.inc = s.ridge.inc := by
  obtain ⟨_, _, h⟩ := enterBySource_frame (roleTaken v s)
  rw [← putRidgeCtrl_eq] at h
  dsimp only
  generalize putRidgeCtrl v s = t at h
  rw [h]
  exact ⟨rfl, rfl, rfl⟩

theorem putRidgeCtrl_words (v : Nat) (s : State) :
    SameWords s (putRidgeCtrl v s) (fun a => decide (a = RIDGE_CTRL.addr ∨ a = RIDGE_STATUS.addr)) := by
  have hctrl : SameWords s (ctrlStored v s) (fun a => decide (a = RIDGE_CTRL.addr ∨ a = RIDGE_STATUS.addr)) := SameWords.wr (r := RIDGE_CTRL) rfl _ s
  rw [putRidgeCtrl_eq]
  exact (hctrl.trans (SameWords.setFld rfl 5 5 _ _)).trans ((enterBySource_words _).mono (fun a ha => by simp [of_decide_eq_true ha]))

/-- A reserved source, role or port has no value; any other value keeps its fields below the gain (R629, R630). -/
theorem ctrlValue_reserved {v : Nat} (h : bits v 1 0 = 3 ∨ bits v 5 4 = 3 ∨ 12 ≤ bits v 11 8) : ctrlValue v = none := if_pos h

theorem ctrlValue_valid {v : Nat} (h : ¬ (bits v 1 0 = 3 ∨ bits v 5 4 = 3 ∨ 12 ≤ bits v 11 8)) : ∃ w, ctrlValue v = some w ∧
    bits w 1 0 = bits v 1 0 ∧ bits w 5 4 = bits v 5 4 ∧ bits w 11 8 = bits v 11 8 ∧ bit w 2 = bit v 2 := by
  rw [ctrlValue, if_neg h]
  split
  · refine ⟨_, rfl, bits_putBits_below (by decide) (by decide), bits_putBits_below (by decide) (by decide),
      bits_putBits_below (by decide) (by decide), ?_⟩
    rw [bit_bits, bits_putBits_below (by decide) (by decide), ← bit_bits]
  · exact ⟨v, rfl, rfl, rfl, rfl, rfl⟩

theorem exec_ridgeCtrlWrite_reserved {v : Nat} (h : ctrlValue v = none) (s : State) :
    exec (.ridgeCtrlWrite v) s = .next (ignoredWrite 0 RIDGE_CTRL.addr false allBits s) := by
  change execRidgeCtrlWrite v s = _
  rw [execRidgeCtrlWrite, h]

theorem exec_ridgeCtrlWrite_valid {v w : Nat} (h : ctrlValue v = some w) (s : State) : exec (.ridgeCtrlWrite v) s = .next (putRidgeCtrl w s) := by
  change execRidgeCtrlWrite v s = _
  rw [execRidgeCtrlWrite, h]

theorem completes_ridgeCtrlWrite (s : State) (v : Nat) : Completes (.ridgeCtrlWrite v) s (fun t =>
    if bits v 1 0 = 3 ∨ bits v 5 4 = 3 ∨ 12 ≤ bits v 11 8 then Ignored 0x10000 RIDGE_CTRL.addr s t
    else ridgeSource t = bits v 1 0 ∧ ridgeRole t = bits v 5 4 ∧ fld t RIDGE_CTRL 11 8 = bits v 11 8 ∧
      bit (rd t RIDGE_CTRL) 2 = bit v 2 ∧ (bits v 5 4 = 0 → gmActive t = true) ∧ (bits v 5 4 = 1 → gmActive t = false) ∧
      loopState t = (if bits v 1 0 = 0 ∨ (bits v 1 0 = 1 ∧ gmActive t = true) then 0 else 1) ∧
      t = { s with regs := t.regs, ridge := t.ridge } ∧ t.ridge.ns = s.ridge.ns ∧ t.ridge.inc = s.ridge.inc ∧
      SameWords s t (fun a => decide (a = RIDGE_CTRL.addr ∨ a = RIDGE_STATUS.addr))) := by
  by_cases hreserved : bits v 1 0 = 3 ∨ bits v 5 4 = 3 ∨ 12 ≤ bits v 11 8
  · refine ⟨_, exec_ridgeCtrlWrite_reserved (ctrlValue_reserved hreserved) s, ?_⟩
    dsimp only
    rw [if_pos hreserved]
    exact ignored_ridgeWrite (by decide) (by decide) (by decide) (by decide) s
  · obtain ⟨w, hvalue, hsource, hrole, hport, hloop⟩ := ctrlValue_valid hreserved
    refine ⟨_, exec_ridgeCtrlWrite_valid hvalue s, ?_⟩
    dsimp only
    rw [if_neg hreserved, ← hsource, ← hrole, ← hport, ← hloop]
    obtain ⟨hsource', hrole', hport', hloop'⟩ := ctrlWord_fields (rd s RIDGE_CTRL) w
    have hstored : ridgeRole (ctrlStored w s) = bits w 5 4 := by rw [ridgeRole, fld, rd_ctrlStored, hrole']
    have hshown : ridgeSource (putRidgeCtrl w s) = bits w 1 0 := by rw [ridgeSource, fld, rd_putRidgeCtrl, hsource']
    obtain ⟨hframe, hns, hinc⟩ := putRidgeCtrl_frame w s
    refine ⟨hshown, by rw [ridgeRole, fld, rd_putRidgeCtrl, hrole'], by rw [fld, rd_putRidgeCtrl, hport'], by rw [rd_putRidgeCtrl, hloop'],
      fun hmaster => ?_, fun hfollower => ?_, ?_, hframe, hns, hinc, putRidgeCtrl_words w s⟩
    · rw [gmActive_putRidgeCtrl, newGm_grandmaster (hstored.trans hmaster)]
    · rw [gmActive_putRidgeCtrl, newGm_follower (hstored.trans hfollower)]
    · rw [loopState_putRidgeCtrl, sourceLoop, hshown]

/-- Settles O6: each write comes down to the lemma of its register. -/
theorem ridgeRegisterWrites : Obligations.RidgeRegisterWrites :=
  fun s v hv => ⟨completes_ridgeIncCommit s v, completes_ridgeStep hv, completes_ridgeCtrlWrite s v⟩

end Sys2Proof.Machine
end

section
/-! PROOF. Samples of a reference and holdover (R60–R66): what a sample shows and changes of Ridge, and the entry to HOLDOVER and its
expiry. -/

namespace Sys2Proof.Machine
open Sys2Proof

/-! ### What the loop can change (R60, R62, R63) -/

/-- The words of the increment, of the state of the loop and of the trim. -/
def inLoop (a : Nat) : Bool :=
  decide (a = RIDGE_INC_FRAC.addr) || decide (a = RIDGE_INC_INT.addr) || decide (a = RIDGE_STATUS.addr) || decide (a = RIDGE_FREQ_TRIM.addr)

/-- From `s` to `t` nothing changes but the terms of the loop, the increment, a step to come, and the words that show them. -/
def Steered (s t : State) : Prop :=
  t = { s with regs := t.regs, ridge := { s.ridge with inc := t.ridge.inc, integ := t.ridge.integ, trim := t.ridge.trim, goodRow := t.ridge.goodRow,
                                                       badRow := t.ridge.badRow, stepNext := t.ridge.stepNext, stepSoft := t.ridge.stepSoft } } ∧
    SameWords s t inLoop

theorem Steered.refl (s : State) : Steered s s := ⟨rfl, SameWords.refl s _⟩

theorem Steered.trans {s t u : State} (h : Steered s t) (k : Steered t u) : Steered s u := by
  refine ⟨?_, h.2.trans k.2⟩
  rw [k.1, h.1]

theorem Steered.ite {p : Prop} [Decidable p] {s a b : State} (ha : Steered s a) (hb : Steered s b) : Steered s (if p then a else b) := by
  split
  · exact ha
  · exact hb

theorem Steered.wr {r : Reg} (h : inLoop r.addr = true) (v : Nat) (s : State) : Steered s (wr r v s) := ⟨rfl, SameWords.wr h v s⟩

theorem Steered.excess (v : Nat) (s : State) : Steered s (setFld RIDGE_STATUS 6 6 v s) := Steered.wr rfl _ s

theorem Steered.rows (good bad : Nat) (s : State) : Steered s { s with ridge.goodRow := good, ridge.badRow := bad } :=
  ⟨rfl, SameWords.of_regs rfl⟩

theorem Steered.step (e : Option Int) (soft : Bool) (s : State) : Steered s { s with ridge.stepNext := e, ridge.stepSoft := soft } :=
  ⟨rfl, SameWords.of_regs rfl⟩

theorem Steered.setLoop (k : Nat) (s : State) : Steered s (setLoop k s) := by
  have hstate : Steered s (setFld RIDGE_STATUS 2 0 k s) := Steered.wr rfl _ s
  exact Steered.ite (hstate.trans (Steered.rows 0 0 _)) hstate

theorem Steered.putTrim (integ trim : Int) (s : State) : Steered s (putTrim integ trim s) := by
  have hterms : ∀ i, Steered s { s with ridge.integ := integ, ridge.trim := trim, ridge.inc := i } := fun _ => ⟨rfl, SameWords.of_regs rfl⟩
  exact Steered.ite ((hterms _).trans (((Steered.wr rfl _ _).trans (Steered.wr rfl _ _)).trans (Steered.wr rfl _ _))) (Steered.refl s)

/-! ### The stages of a sample -/

/-- First stage of a sample: it is shown, counted in its histogram, and timed (R60, R63). -/
def sampleNoted (e : Int) (s : State) : State :=
  let s := wr RIDGE_PHASE_ERR (ofSigned 32 (satSigned 32 (max (-(2 ^ 31 - 1)) e))) (histo 14 (logBin e.natAbs) s)
  { s with ridge.sampled := true, ridge.lastSample := s.ridge.ns }

/-- Second stage: a loop that is free or in holdover enters ACQUIRE (R63). -/
def sampleEntered (s : State) : State := if loopState s = 0 ∨ 3 ≤ loopState s then setLoop 1 s else s

/-- Third stage, of an error beyond excess_us: Ridge is stepped, or, where it is pinned, driven at the trim limit (R62). -/
def sampleExcess (e : Int) (s : State) : State :=
  if !pinned s then setLoop 1 (if s.ridge.phase = .idle then { s with ridge.stepNext := some e, ridge.stepSoft := false } else s)
  else if bit (rd s RIDGE_STATUS) 6 then s
  else
    let t := if 0 < e then trimLimit s else -trimLimit s
    setLoop 1 (putTrim t t (setFld RIDGE_STATUS 6 6 1 s))

/-- The loop locks after samples in a row within lock_window, and loses its lock after two beyond ten times that (R63). -/
def lockDecided (e : Int) (s : State) : State :=
  let window := fld s RIDGE_LOCK_CFG 15 0
  let good := if e.natAbs ≤ window then s.ridge.goodRow + 1 else 0
  let bad := if 10 * window < e.natAbs then s.ridge.badRow + 1 else 0
  let s := { s with ridge.goodRow := good, ridge.badRow := bad }
  if loopState s = 1 ∧ max 1 (fld s RIDGE_LOCK_CFG 31 24) ≤ good then setLoop 2 s
  else if loopState s = 2 ∧ 2 ≤ bad then setLoop 1 s
  else s

/-- The integral term and the trim that a sample of error `e` gives, within `lim` (R60). -/
def sampleInteg (lim e : Int) (s : State) : Int := max (-lim) (min lim (s.ridge.integ + fld s RIDGE_DISC_GAIN 31 16 * e))
def sampleTrim (lim e : Int) (s : State) : Int := max (-lim) (min lim (sampleInteg lim e s + fld s RIDGE_DISC_GAIN 15 0 * e))

/-- Third stage, of an error within excess_us: the terms of the loop are set, and its lock decided (R60, R63). -/
def sampleWithin (e : Int) (s : State) : State :=
  let lim := trimLimit s
  let s := setFld RIDGE_STATUS 6 6 0 s
  lockDecided e (putTrim (sampleInteg lim e s) (sampleTrim lim e s) s)

theorem sample_eq (e : Int) (s : State) : sample e s =
    let u := sampleEntered (sampleNoted e s)
    if fld u RIDGE_TRIM_LIMIT 31 16 * 1000 < e.natAbs then sampleExcess e u else sampleWithin e u := by
  unfold sample
  rfl

theorem Steered.sampleEntered (s : State) : Steered s (sampleEntered s) := Steered.ite (Steered.setLoop 1 s) (Steered.refl s)

theorem Steered.sampleExcess (e : Int) (s : State) : Steered s (sampleExcess e s) := by
  have hstep : Steered s (if s.ridge.phase = .idle then { s with ridge.stepNext := some e, ridge.stepSoft := false } else s) :=
    Steered.ite (Steered.step _ _ s) (Steered.refl s)
  have hlimit : ∀ t, Steered s (Machine.putTrim t t (Machine.setFld RIDGE_STATUS 6 6 1 s)) := fun t =>
    (Steered.excess 1 s).trans (Steered.putTrim t t _)
  exact Steered.ite (hstep.trans (Steered.setLoop 1 _)) (Steered.ite (Steered.refl s) ((hlimit _).trans (Steered.setLoop 1 _)))

theorem Steered.lockDecided (e : Int) (s : State) : Steered s (lockDecided e s) :=
  (Steered.rows _ _ s).trans (Steered.ite (Steered.setLoop 2 _) (Steered.ite (Steered.setLoop 1 _) (Steered.refl _)))

theorem Steered.sampleWithin (e : Int) (s : State) : Steered s (sampleWithin e s) :=
  (Steered.excess 0 s).trans ((Steered.putTrim _ _ _).trans (Steered.lockDecided e _))

/-- After it is noted, a sample only steers the loop. -/
theorem Steered.sample (e : Int) (s : State) : Steered (sampleNoted e s) (sample e s) := by
  rw [sample_eq]
  exact (Steered.sampleEntered _).trans (Steered.ite (Steered.sampleExcess e _) (Steered.sampleWithin e _))

/-! ### What a sample shows -/

theorem ofSigned_lt (w : Nat) (i : Int) : ofSigned w i < 2 ^ w := by
  have hpos : (0 : Int) < (2 ^ w : Nat) := by exact_mod_cast Nat.two_pow_pos w
  have hlt := Int.emod_lt_of_pos i hpos
  have hge := Int.emod_nonneg i (Int.ne_of_gt hpos)
  rw [ofSigned]
  omega

theorem rd_wr_ofSigned (r : Reg) (i : Int) (s : State) : rd (wr r (ofSigned 32 i) s) r = ofSigned 32 i := by
  rw [rd_wr_same, Nat.mod_eq_of_lt (ofSigned_lt 32 i)]

/-- The error that PHASE_ERR shows, saturated, and never as −2^31. -/
def shownError (e : Int) : Int := max (-(2 ^ 31 - 1)) (min (2 ^ 31 - 1) e)

theorem satSigned_shownError (e : Int) : satSigned 32 (max (-(2 ^ 31 - 1)) e) = shownError e := by
  rw [satSigned, shownError]
  omega

theorem rd_sample_phaseErr (e : Int) (s : State) : rd (sample e s) RIDGE_PHASE_ERR = ofSigned 32 (shownError e) := by
  have hnoted : rd (sampleNoted e s) RIDGE_PHASE_ERR = ofSigned 32 (shownError e) := by
    rw [← satSigned_shownError]
    exact rd_wr_ofSigned _ _ _
  rw [(Steered.sample e s).2.rd rfl, hnoted]

/-- The words that a sample changes. -/
theorem sample_words (e : Int) (s : State) : SameWords s (sample e s) (fun a => inLoop a || decide (a = RIDGE_PHASE_ERR.addr)) := by
  have hnoted : SameWords s (sampleNoted e s) (fun a => inLoop a || decide (a = RIDGE_PHASE_ERR.addr)) :=
    SameWords.wr (r := RIDGE_PHASE_ERR) rfl _ (histo 14 (logBin e.natAbs) s)
  exact hnoted.trans ((Steered.sample e s).2.mono (fun a ha => by rw [ha, Bool.true_or]))

theorem sample_frame (e : Int) (s : State) : let t := sample e s
    t = { s with regs := t.regs, ridge := t.ridge, recd := t.recd } ∧ t.ridge.ns = s.ridge.ns ∧ t.ridge.ppsSeen = s.ridge.ppsSeen ∧
      t.ridge.lastSample = s.ridge.ns := by
  have h := (Steered.sample e s).1
  dsimp only
  generalize Machine.sample e s = t at h
  rw [h]
  exact ⟨rfl, rfl, rfl, rfl⟩

/-! ### The terms of the loop after a sample -/

/-- From `s` to `t` the terms of the loop stay, and no word changes but RIDGE.STATUS. -/
def SameTerms (s t : State) : Prop := t.ridge.integ = s.ridge.integ ∧ t.ridge.trim = s.ridge.trim ∧ SameWords s t isRidgeStatus

theorem SameTerms.refl (s : State) : SameTerms s s := ⟨rfl, rfl, SameWords.refl s _⟩

theorem SameTerms.trans {s t u : State} (h : SameTerms s t) (k : SameTerms t u) : SameTerms s u :=
  ⟨k.1.trans h.1, k.2.1.trans h.2.1, h.2.2.trans k.2.2⟩

theorem SameTerms.ite {p : Prop} [Decidable p] {s a b : State} (ha : SameTerms s a) (hb : SameTerms s b) : SameTerms s (if p then a else b) := by
  split
  · exact ha
  · exact hb

theorem SameTerms.setLoop (k : Nat) (s : State) : SameTerms s (setLoop k s) := by
  obtain ⟨_, _, h⟩ := setLoop_frame k s
  exact ⟨by rw [h], by rw [h], setLoop_words k s⟩

theorem SameTerms.lockDecided (e : Int) (s : State) : SameTerms s (lockDecided e s) := by
  have hrows : ∀ good bad, SameTerms s { s with ridge.goodRow := good, ridge.badRow := bad } := fun _ _ => ⟨rfl, rfl, SameWords.of_regs rfl⟩
  exact (hrows _ _).trans (SameTerms.ite (SameTerms.setLoop 2 _) (SameTerms.ite (SameTerms.setLoop 1 _) (SameTerms.refl _)))

theorem putTrim_terms {s : State} (hen : bit (rd s RIDGE_CTRL) 2 = true) (integ trim : Int) : let t := putTrim integ trim s
    t.ridge.integ = integ ∧ t.ridge.trim = trim ∧ rd t RIDGE_FREQ_TRIM = ofSigned 32 trim := by
  dsimp only
  rw [putTrim, if_pos hen]
  exact ⟨rfl, rfl, rd_wr_ofSigned _ _ _⟩

theorem sampleInteg_setFld_status (hi lo v : Nat) (lim e : Int) (s : State) :
    sampleInteg lim e (setFld RIDGE_STATUS hi lo v s) = sampleInteg lim e s := by
  rw [sampleInteg, fld, rd_setFld_ne (by decide), ← fld, setFld_ridge, ← sampleInteg]

theorem sampleTrim_setFld_status (hi lo v : Nat) (lim e : Int) (s : State) :
    sampleTrim lim e (setFld RIDGE_STATUS hi lo v s) = sampleTrim lim e s := by
  rw [sampleTrim, sampleInteg_setFld_status, fld, rd_setFld_ne (by decide), ← fld, ← sampleTrim]

/-- With loop_en 1, a sample within excess_us puts its terms in force, and the decision on the lock leaves them. -/
theorem sampleWithin_terms {s : State} (hen : bit (rd s RIDGE_CTRL) 2 = true) (e : Int) : let t := sampleWithin e s
    t.ridge.integ = sampleInteg (trimLimit s) e s ∧ t.ridge.trim = sampleTrim (trimLimit s) e s ∧
      rd t RIDGE_FREQ_TRIM = ofSigned 32 (sampleTrim (trimLimit s) e s) := by
  dsimp only
  rw [← rd_setFld_ne (r := RIDGE_STATUS) (by decide) 6 6 0 s] at hen
  obtain ⟨hinteg, htrim, hshown⟩ := putTrim_terms hen (sampleInteg (trimLimit s) e s) (sampleTrim (trimLimit s) e s)
  rw [sampleWithin, sampleInteg_setFld_status, sampleTrim_setFld_status]
  obtain ⟨hinteg', htrim', hwords⟩ := SameTerms.lockDecided e (putTrim (sampleInteg (trimLimit s) e s) (sampleTrim (trimLimit s) e s)
    (setFld RIDGE_STATUS 6 6 0 s))
  exact ⟨hinteg'.trans hinteg, htrim'.trans htrim, (hwords.rd rfl).trans hshown⟩

/-- The loop meets a sample with its integral term and its configuration as they were. -/
theorem sampleEntered_keeps (e : Int) (s : State) : (sampleEntered (sampleNoted e s)).ridge.integ = s.ridge.integ ∧
    ∀ r : Reg, isRidgeStatus r.addr = false → r.addr ≠ RIDGE_PHASE_ERR.addr → rd (sampleEntered (sampleNoted e s)) r = rd s r := by
  have hterms : SameTerms (sampleNoted e s) (sampleEntered (sampleNoted e s)) := SameTerms.ite (SameTerms.setLoop 1 _) (SameTerms.refl _)
  obtain ⟨hinteg, -, hwords⟩ := hterms
  exact ⟨hinteg, fun r hstatus hphase => (hwords.rd hstatus).trans (rd_wr_ne hphase _ (histo 14 (logBin e.natAbs) s))⟩

theorem sample_terms {e : Int} {s : State} (hwithin : e.natAbs ≤ fld s RIDGE_TRIM_LIMIT 31 16 * 1000) (hen : bit (rd s RIDGE_CTRL) 2 = true) :
    let t := sample e s
    t.ridge.integ = sampleInteg (trimLimit s) e s ∧ t.ridge.trim = sampleTrim (trimLimit s) e s ∧
      rd t RIDGE_FREQ_TRIM = ofSigned 32 (sampleTrim (trimLimit s) e s) := by
  obtain ⟨hinteg, hwords⟩ := sampleEntered_keeps e s
  dsimp only
  rw [sample_eq]
  generalize sampleEntered (sampleNoted e s) = u at hinteg hwords
  have hlimit : rd u RIDGE_TRIM_LIMIT = rd s RIDGE_TRIM_LIMIT := hwords _ rfl (by decide)
  have hgain : rd u RIDGE_DISC_GAIN = rd s RIDGE_DISC_GAIN := hwords _ rfl (by decide)
  have hlim : trimLimit u = trimLimit s := by rw [trimLimit, fld, hlimit, ← fld, ← trimLimit]
  have hi : sampleInteg (trimLimit s) e u = sampleInteg (trimLimit s) e s := by rw [sampleInteg, hinteg, fld, hgain, ← fld, ← sampleInteg]
  have ht : sampleTrim (trimLimit s) e u = sampleTrim (trimLimit s) e s := by rw [sampleTrim, hi, fld, hgain, ← fld, ← sampleTrim]
  rw [← hwords RIDGE_CTRL rfl (by decide)] at hen
  have hterms := sampleWithin_terms hen e
  rw [hlim, hi, ht] at hterms
  dsimp only
  rw [fld, hlimit, ← fld, if_neg (Nat.not_lt.2 hwithin)]
  exact hterms

/-! ### Sync messages and edges of PPS_IN (R60, R62, R65, R66) -/

/-- The error of a Sync: its origin, corrected by its way and the link delay, less its stamp. -/
def syncError (port stamp : Nat) (o c : Int) (s : State) : Int := o + c + ((tgetD port 0 s.ridge.linkDelay : Nat) : Int) - stamp

/-- A Sync of the followed port is kept, with the time scale of its master. -/
def syncTaken (port stamp : Nat) (o c : Int) (s : State) : State :=
  { s with
    ridge.lastSync := some (o, c, stamp)
    ridge.ptpScale := match tget port s.ridge.announces with | some a => a.ptpScale | none => s.ridge.ptpScale }

theorem exec_disciplineSample {s : State} {port : Nat} (hsource : ridgeSource s = 1) (hgm : gmActive s = false) (hport : followed s = some port)
    (stamp : Nat) (o c : Int) :
    exec (.disciplineSample port stamp o c) s = .next (sample (syncError port stamp o c s) (syncTaken port stamp o c s)) := by
  change execDisciplineSample port stamp o c s = _
  rw [execDisciplineSample, if_pos (by simp [hsource, hgm, hport])]
  rfl

theorem inLoop_lt {a : Nat} (h : (inLoop a || decide (a = RIDGE_PHASE_ERR.addr)) = true) : 0x10000 ≤ a ∧ a < 0x10044 := by
  simp only [inLoop, Bool.or_eq_true, decide_eq_true_eq] at h
  rcases h with (((rfl | rfl) | rfl) | rfl) | rfl <;> decide

theorem completes_disciplineSample {s : State} {port : Nat} (stamp : Nat) (o c : Int) (hsource : ridgeSource s = 1) (hgm : gmActive s = false)
    (hport : followed s = some port) : Completes (.disciplineSample port stamp o c) s (fun t =>
      let e := syncError port stamp o c s
      rd t RIDGE_PHASE_ERR = ofSigned 32 (shownError e) ∧ t.ridge.lastSample = s.ridge.ns ∧
      (e.natAbs ≤ fld s RIDGE_TRIM_LIMIT 31 16 * 1000 → bit (rd s RIDGE_CTRL) 2 = true → t.ridge.integ = sampleInteg (trimLimit s) e s ∧
        t.ridge.trim = sampleTrim (trimLimit s) e s ∧ rd t RIDGE_FREQ_TRIM = ofSigned 32 t.ridge.trim) ∧
      t = { s with regs := t.regs, ridge := t.ridge, recd := t.recd } ∧ t.ridge.ns = s.ridge.ns ∧
      SameWords s t (fun a => decide (0x10000 ≤ a ∧ a < 0x10044))) := by
  refine ⟨_, exec_disciplineSample hsource hgm hport stamp o c, ?_⟩
  obtain ⟨hframe, hns, -, hlast⟩ := sample_frame (syncError port stamp o c s) (syncTaken port stamp o c s)
  have hwords := sample_words (syncError port stamp o c s) (syncTaken port stamp o c s)
  refine ⟨rd_sample_phaseErr _ _, hlast, fun hwithin hen => ?_, hframe, hns, hwords.mono (fun a ha => decide_eq_true (inLoop_lt ha))⟩
  obtain ⟨hinteg, htrim, hshown⟩ := sample_terms (s := syncTaken port stamp o c s) hwithin hen
  exact ⟨hinteg, htrim, by rw [hshown, htrim]⟩

/-- An edge is nearer than half a second to its whole second. -/
theorem nearestSecond_natAbs_le (stamp : Nat) : ((nearestSecond stamp : Int) - stamp).natAbs ≤ 500000000 := by
  rw [nearestSecond]
  omega

/-- An accepted edge is captured. -/
def edgeTaken (stamp : Nat) (s : State) : State :=
  wr64 RIDGE_PPS_CAP_LO RIDGE_PPS_CAP_HI (stamp % 2 ^ 64) { s with ridge.ppsSeen := true }

theorem exec_ppsInEdge {s : State} (hsource : ridgeSource s = 2) (stamp : Nat) : exec (.ppsInEdge stamp) s =
    .next (if s.ridge.ppsSeen = false ∨ ((nearestSecond stamp : Int) - stamp).natAbs ≤ 1000000
      then sample ((nearestSecond stamp : Int) - stamp) (edgeTaken stamp s) else inc RIDGE_PPS_MISSED s) := by
  change execPpsInEdge stamp s = _
  rw [execPpsInEdge, if_neg (by simp [hsource])]
  simp only [Bool.or_eq_true, Bool.not_eq_true', decide_eq_true_eq]
  split <;> rfl

theorem rd64_edgeTaken (stamp : Nat) (s : State) : rd64 (edgeTaken stamp s) RIDGE_PPS_CAP_LO RIDGE_PPS_CAP_HI = stamp % 2 ^ 64 := by
  rw [rd64, edgeTaken, wr64, rd_wr_same, rd_wr_ne (by decide), rd_wr_same]
  omega

theorem completes_ppsInEdge {s : State} (hsource : ridgeSource s = 2) (stamp : Nat) : Completes (.ppsInEdge stamp) s (fun t =>
    let e : Int := (nearestSecond stamp : Nat) - stamp
    if s.ridge.ppsSeen = false ∨ e.natAbs ≤ 1000000 then
      rd t RIDGE_PHASE_ERR = ofSigned 32 e ∧ t.ridge.ppsSeen = true ∧ rd64 t RIDGE_PPS_CAP_LO RIDGE_PPS_CAP_HI = stamp % 2 ^ 64 ∧
        t = { s with regs := t.regs, ridge := t.ridge, recd := t.recd }
    else rd t RIDGE_PPS_MISSED = min 0xFFFFFFFF (rd s RIDGE_PPS_MISSED + 1) ∧ t = { s with regs := t.regs } ∧
      SameWords s t (fun a => decide (a = RIDGE_PPS_MISSED.addr))) := by
  refine ⟨_, exec_ppsInEdge hsource stamp, ?_⟩
  dsimp only
  split
  · obtain ⟨hframe, -, hseen, -⟩ := sample_frame ((nearestSecond stamp : Int) - stamp) (edgeTaken stamp s)
    have hwords := sample_words ((nearestSecond stamp : Int) - stamp) (edgeTaken stamp s)
    have hshown : shownError ((nearestSecond stamp : Int) - stamp) = (nearestSecond stamp : Int) - stamp := by
      have hnear := nearestSecond_natAbs_le stamp
      rw [shownError]
      omega
    refine ⟨by rw [rd_sample_phaseErr, hshown], hseen, ?_, hframe⟩
    rw [rd64, hwords.rd rfl, hwords.rd rfl, ← rd64, rd64_edgeTaken]
  · exact ⟨rd_inc (by decide) s, rfl, SameWords.wr rfl _ s⟩

/-! ### Holdover (R63, R64) -/

theorem completes_holdoverEntry {s : State} (hstate : loopState s = 1 ∨ loopState s = 2) (hsampled : s.ridge.sampled = true)
    (hlost : s.ridge.lastSample + max 1 (fld s RIDGE_LOCK_CFG 23 16) * sampleInterval s ≤ s.ridge.ns) :
    Completes .holdoverEntry s (fun t => loopState t = 3 ∧ t.ridge.holdSince = s.ridge.ns ∧ fld t RIDGE_HOLDOVER 31 16 = 0 ∧
      t = { s with regs := t.regs, ridge := t.ridge } ∧ t.ridge.ns = s.ridge.ns) := by
  let held := putTrim s.ridge.integ s.ridge.integ { s with ridge.holdSince := s.ridge.ns }
  let steered := setFld RIDGE_STATUS 6 6 0 (setLoop 3 held)
  have hexec : exec .holdoverEntry s = .next (setFld RIDGE_HOLDOVER 31 16 0 steered) := by
    change execHoldoverEntry s = _
    rw [execHoldoverEntry, if_pos ⟨hstate, hsampled, hlost⟩]
  have hsteered : Steered { s with ridge.holdSince := s.ridge.ns } steered :=
    ((Steered.putTrim _ _ _).trans (Steered.setLoop 3 _)).trans (Steered.excess 0 _)
  have hloop : loopState steered = 3 := (loopState_setFld_excess 0 _).trans (loopState_setLoop (by decide) _)
  refine ⟨_, hexec, ?_, ?_, ?_, ?_, ?_⟩
  · rw [loopState, fld, rd_setFld_ne (by decide), ← fld, ← loopState, hloop]
  · rw [setFld_ridge, hsteered.1]
  · exact fld_setFld_same (by decide) (by decide) (by decide) 0 steered
  · have hframe := hsteered.1
    generalize steered = t at hframe
    obtain ⟨words, ridge, rfl⟩ : ∃ words ridge, t = { s with regs := words, ridge := ridge } := ⟨_, _, hframe⟩
    rfl
  · rw [setFld_ridge, hsteered.1]

theorem completes_holdoverExpiry {s : State} (hstate : loopState s = 3)
    (hlimit : s.ridge.holdSince + fld s RIDGE_HOLDOVER 15 0 * 1000000000 ≤ s.ridge.ns) :
    Completes .holdoverExpiry s (fun t => loopState t = 4 ∧ t = { s with regs := t.regs } ∧
      SameWords s t (fun a => decide (a = RIDGE_STATUS.addr))) := by
  refine ⟨setLoop 4 s, ?_, loopState_setLoop (by decide) s, rfl, setLoop_words 4 s⟩
  change execHoldoverExpiry s = _
  rw [execHoldoverExpiry, if_pos ⟨hstate, hlimit⟩]

/-- Settles O7: a Sync and an edge come down to what a sample shows and to the terms that it sets, holdover to the state of the loop. -/
theorem discipline : Obligations.Discipline :=
  ⟨fun _ _ stamp o c hsource hgm hport => completes_disciplineSample stamp o c hsource hgm hport,
    fun _ stamp hsource => completes_ppsInEdge hsource stamp,
    fun _ hstate hsampled hlost => completes_holdoverEntry hstate hsampled hlost,
    fun _ hstate hlimit => completes_holdoverExpiry hstate hlimit⟩

end Sys2Proof.Machine
end

section
/-! PROOF. Two statements that overlook Ridge's fraction of a nanosecond: at ns and a fraction, Ridge has passed ns, so that what lies at
ns is late (R76), and what lies 1 µs after ns is less than 1 µs away (R67). -/

namespace Sys2Proof.Machine
open Sys2Proof

/-- The state that a command answers; where it answers none, the state as it was. -/
def nextOf (i : Instr) (s : State) : State :=
  match exec i s with
  | .next t => t
  | _ => s

theorem Completes.nextOf {i : Instr} {s : State} {P : State → Prop} (h : Completes i s P) : P (nextOf i s) := by
  obtain ⟨t, he, ht⟩ := h
  simpa only [Machine.nextOf, he] using ht

/-- Ridge, from reset, at this many nanoseconds and 2^−32 ns. -/
def pastNanosecond (n : Nat) : State := { State.reset with ridge := { ns := n, frac := 1 } }

/-- Refutes O9: 1 µs before a whole second and a fraction past it, that second is no longer 1 µs away, and PPS_OUT takes the next one. -/
theorem not_pulseAndReplicas : ¬ Obligations.PulseAndReplicas := by
  rintro ⟨hpulse, -, -⟩
  obtain ⟨htime, -⟩ := (hpulse (pastNanosecond 999999000) 0x80000000 (by decide) (by decide) (by decide) (by decide)).nextOf
  have hlater : markTime (nextOf (.ppsOutCfgWrite 0x80000000) (pastNanosecond 999999000)) 1023 = 2000000000 * 2 ^ 32 := by decide +kernel
  rw [hlater] at htime
  exact absurd htime (by decide +kernel)

/-- Refutes O10: a mark whose time is the nanosecond that Ridge has just passed is late at arming, so it fires at once and is not armed. -/
theorem not_marksArmAndFire : ¬ Obligations.MarksArmAndFire := by
  rintro ⟨-, harm, -, -, -⟩
  obtain ⟨harmed, -⟩ := (harm (pastNanosecond 0) 0 0x80000000 (by decide) (by decide) (by decide) (by decide +kernel) (by decide +kernel)
    (by decide +kernel)).nextOf
  have hfired : markArmed (nextOf (.markCtrlWrite 0 0x80000000) (pastNanosecond 0)) 0 = false := by decide +kernel
  rw [hfired] at harmed
  exact Bool.false_ne_true harmed

end Sys2Proof.Machine
end

section
/-! PROOF. What the Scribe's work can reach (R247–R286): an add to a peg, with everything that it releases, changes no configuration, no
Ridge time and no camera, and no register word below the network's window. -/

namespace Sys2Proof.Machine
open Sys2Proof

/-! ### The parts that the work of the Scribe can change -/

/-- An address above the windows of the Sill, of Ridge and of the cameras. -/
abbrev beyondCameras (a : Nat) : Bool := decide (0x30000 ≤ a)

/-- From `s` to `t` nothing changes but what the work of the Scribe can reach. -/
def Worked (s t : State) : Prop :=
  t = { s with
    regs := t.regs, mem := t.mem, poison := t.poison, scribe := t.scribe, fab := t.fab, mb := t.mb, kp := t.kp, recd := t.recd,
    emitted := t.emitted, out := t.out, raft := t.raft, plumb := t.plumb, ledger := t.ledger } ∧ SameWords s t beyondCameras

theorem Worked.refl (s : State) : Worked s s := ⟨rfl, SameWords.refl s _⟩

theorem Worked.trans {s t u : State} (h : Worked s t) (k : Worked t u) : Worked s u := by
  refine ⟨?_, h.2.trans k.2⟩
  rw [k.1, h.1]

theorem Worked.ite {p : Prop} [Decidable p] {s a b : State} (ha : Worked s a) (hb : Worked s b) : Worked s (if p then a else b) := by
  split
  · exact ha
  · exact hb

theorem Worked.foldl {β : Type} {g : State → β → State} (h : ∀ s b, Worked s (g s b)) (l : List β) (s : State) : Worked s (l.foldl g s) := by
  induction l generalizing s with
  | nil => exact Worked.refl s
  | cons b r ih => exact (h s b).trans (ih _)

theorem Worked.wr {r : Reg} (h : 0x30000 ≤ r.addr) (v : Nat) (s : State) : Worked s (wr r v s) := ⟨rfl, SameWords.wr (decide_eq_true h) v s⟩

theorem Worked.inc {r : Reg} (h : 0x30000 ≤ r.addr) (s : State) : Worked s (inc r s) := Worked.wr h _ s

theorem Worked.scribe (s : State) (x : ScribeSt) : Worked s { s with scribe := x } := ⟨rfl, SameWords.of_regs rfl⟩

theorem Worked.mb (s : State) (x : MbSt) : Worked s { s with mb := x } := ⟨rfl, SameWords.of_regs rfl⟩

theorem Worked.out (s : State) (x : OutSt) : Worked s { s with out := x } := ⟨rfl, SameWords.of_regs rfl⟩

theorem inSafety_beyondCameras {a : Nat} (h : inSafety a = true) : beyondCameras a = true := by
  simp only [inSafety, inRecorder, inWindow, Bool.or_eq_true, Bool.and_eq_true, decide_eq_true_eq] at h
  exact decide_eq_true (by omega)

theorem Reported.worked {s t : State} (h : Reported s t) : Worked s t := by
  refine ⟨?_, h.2.mono (fun _ => inSafety_beyondCameras)⟩
  rw [h.1]

theorem Logged.worked {s t : State} (h : Logged s t) : Worked s t := h.reported.worked

theorem Worked.raise (c a : Nat) (s : State) : Worked s (raise c a s) := (Logged.raise c a s).worked

theorem Worked.msix (f v : Nat) (s : State) : Worked s (msix f v s) := (Logged.msix f v s).worked

/-- What work of the Scribe leaves: no camera, no Ridge time, and no configuration in force changes. -/
theorem Worked.keeps {s t : State} (h : Worked s t) : t.cam = s.cam ∧ t.ridge = s.ridge ∧ t.live = s.live ∧ t.prevLive = s.prevLive ∧
    t.staged = s.staged := by
  rw [h.1]
  exact ⟨rfl, rfl, rfl, rfl, rfl⟩

/-! ### Notices and answers (R421–R426) -/

theorem Worked.notice (f m : Nat) (s : State) : Worked s (notice f m s) :=
  have hnotice : 0x30000 ≤ (MB_NOTICE f).addr := Nat.le_add_right_of_le (by decide)
  (Worked.wr hnotice _ s).trans (Worked.ite (Worked.msix f 1 _) (Worked.refl _))

theorem Worked.answerWords (f k flags st detail : Nat) (res : Res) (a : Accepted) (s : State) :
    Worked s (answerWords f k flags st detail res a s) := by
  have hpage : ∀ o : Nat, 0x30000 ≤ 0x200000 + o + 0x1000 * f := fun o => by omega
  have hbytes : ∀ (bs : List Byte) (u : State), Worked u (wrBytes (slotAddr f k + 128) bs u) := by
    intro bs u
    refine ⟨?_, fun j hj => wrBytes_below bs _ u j (Or.inl ?_)⟩
    · rw [wrBytes_eq]
    · have hlow : ¬ 0x30000 ≤ j := of_decide_eq_false hj
      unfold slotAddr
      omega
  unfold Machine.answerWords
  exact ((Worked.mb s _).trans (hbytes _ _)).trans
    (((Worked.wr (hpage 4) _ _).trans (Worked.wr (hpage 8) _ _)).trans (Worked.inc (hpage 0x28) _))

theorem Worked.answer (f k st detail : Nat) (res : Res) (s : State) : Worked s (answer f k st detail res s) := by
  unfold Machine.answer
  cases ha : tget (16 * f + k) s.mb.accepted with
  | none => simpa only [answerX, ha] using Worked.refl s
  | some a =>
    cases hs : a.silent with
    | true => simpa only [answerX, ha, hs, if_true] using Worked.mb s _
    | false =>
      rw [answerX_eq ha hs]
      exact (Worked.answerWords f k 0 st detail res a s).trans (Worked.ite (Worked.msix f 0 _) (Worked.refl _))

/-! ### Memory and rings (R265–R273, R483) -/

theorem Worked.writeMem (w : MemWrite) (s : State) : Worked s (writeMem w s) := ⟨rfl, SameWords.of_regs rfl⟩

theorem Worked.fencedWrite (tag agent : Nat) (w : MemWrite) (s : State) : Worked s (fencedWrite tag agent w s) := by
  have hdrop : 0x30000 ≤ (BAY_LINK_DROP (bayOf w.addr)).addr := Nat.le_add_right_of_le (by decide)
  unfold Machine.fencedWrite
  exact Worked.ite ((Worked.inc hdrop s).trans (Reported.refuseLines _ _ _ _ _ _).worked)
    (Worked.ite (Worked.writeMem w s) (Worked.foldl (fun u _ => Worked.ite (Worked.writeMem _ u) (Reported.refuseLine _ _ _ _ u).worked) _ s))

theorem Worked.enqueue (w : Work) (s : State) : Worked s (enqueue w s) := Worked.scribe s _

theorem Worked.ringReset (k : Nat) (r : Ring) (s : State) : Worked s (ringReset k r s) := by
  have hcounted : ∀ (u : State) (lost : Nat), Worked u (Machine.wr SCRIBE_LAST_RING_RESET k
      (Machine.inc SCRIBE_RING_RESETS (incFld SCRIBE_RING_LOST 31 0 lost u))) := fun u lost =>
    ((Worked.wr (by decide) _ u).trans (Worked.inc (by decide) _)).trans (Worked.wr (by decide) _ _)
  unfold Machine.ringReset
  exact ((Worked.scribe s _).trans (hcounted _ _)).trans
    ((Worked.scribe _ _).trans ((Worked.raise 0x8001 k _).trans (Reported.fault (f := 9) (by decide) _).worked))

theorem Worked.checkRing (k : Nat) (parity : Bool) (s : State) : Worked s (checkRing k parity s) := by
  unfold Machine.checkRing
  split
  · exact Worked.refl s
  · exact (Worked.ite ((Worked.inc (by decide) s).trans (Worked.raise 0x8002 k _)) (Worked.refl s)).trans
      (Worked.ite (Worked.ringReset k _ _) (Worked.refl _))

theorem Worked.ringPeg (r : Ring) (s : State) : Worked s (ringPeg r s) := by
  unfold Machine.ringPeg
  split
  · exact Worked.enqueue _ s
  · exact Worked.refl s

theorem Worked.pushPlain (k tag agent : Nat) (e : List Byte) (s : State) : Worked s (pushPlain k tag agent e s) := by
  unfold Machine.pushPlain
  split
  · exact Worked.refl s
  · exact ((Worked.fencedWrite tag agent _ s).trans (Worked.scribe _ _)).trans (Worked.ringPeg _ _)

theorem Worked.unitPush (k tag : Nat) (e : List Byte) (s : State) : Worked s (unitPush k tag e s).1 := by
  have hchecked := Worked.checkRing k false s
  unfold Machine.unitPush
  dsimp only
  split
  · exact hchecked
  · split
    · exact hchecked
    · exact hchecked.trans (Worked.pushPlain k tag 2 e _)

/-! ### Instances, from their first entry to DONE (R251–R286) -/

theorem Worked.setInst (i : Nat) (x : Inst) (s : State) : Worked s (setInst i x s) := Worked.scribe s _

theorem Worked.modInst (i : Nat) (f : Inst → Inst) (s : State) : Worked s (modInst i f s) := Worked.scribe s _

theorem Worked.resolve (i : Nat) (st : IState) (s : State) : Worked s (resolve i st s) := (Worked.scribe s _).trans (Worked.modInst i _ _)

theorem Worked.freeRuns (mine : Nat × Nat → Bool) (s : State) : Worked s (freeRuns mine s) := ⟨rfl, SameWords.of_regs rfl⟩

theorem Worked.freePages (i : Nat) (s : State) : Worked s (freePages i s) := by
  have hinuse : ∀ b, 0x30000 ≤ (SCRIBE_PROV_INUSE b).addr := fun b => Nat.le_add_right_of_le (by decide)
  unfold Machine.freePages
  split
  · exact Worked.refl s
  · exact (Worked.foldl (fun u (r : Run) => Worked.wr (hinuse r.bay) _ u) _ s).trans (Worked.modInst i _ _)

theorem Worked.stopUnits (i : Nat) (s : State) : Worked s (stopUnits i s) := by
  have hledger : Worked s (stopLedger i s) := ⟨rfl, SameWords.of_regs rfl⟩
  have hraft : ∀ (u : State) (x : RaftSt), Worked u { u with raft := x } := fun _ _ => ⟨rfl, SameWords.of_regs rfl⟩
  have hplumb : ∀ (u : State) (x : PlumbSt), Worked u { u with plumb := x } := fun _ _ => ⟨rfl, SameWords.of_regs rfl⟩
  unfold Machine.stopUnits
  exact (hledger.trans (Worked.ite ((hraft _ _).trans (Worked.wr (by decide) _ _)) (Worked.refl _))).trans
    (Worked.ite ((hplumb _ _).trans (Worked.wr (by decide) _ _)) (Worked.refl _))

theorem Worked.sendSignals (dom : Nat) (nd : Node) (x : Inst) (s : State) : Worked s (sendSignals dom nd x s) :=
  Worked.foldl (fun u _ => Worked.ite (Worked.refl u) (Worked.ite (Worked.msix _ _ u) (Worked.enqueue _ u))) _ s

theorem Worked.pushRecord (g : Graph) (nd : Node) (x : Inst) (s : State) : Worked s (pushRecord g nd x s) := by
  unfold Machine.pushRecord
  split
  · exact Worked.refl s
  · rename_i k _
    have hpushed := Worked.unitPush k g.domain (completionRecord s nd x) s
    exact Worked.ite hpushed (hpushed.trans (Worked.inc (by decide) _))

theorem Worked.recheckNode (g node : Nat) (s : State) : Worked s (recheckNode g node s) := Worked.foldl (fun u _ => Worked.enqueue _ u) _ s

theorem Worked.finishInst (i : Nat) (s : State) : Worked s (finishInst i s) := by
  unfold Machine.finishInst
  split
  · exact Worked.refl s
  rename_i x _
  split
  · exact Worked.modInst i _ s
  split
  · rename_i g nd _ _
    have hsignalled : ∀ p v, Worked s (if voidHeld s g.domain x then s else Machine.enqueue (.add p 1 v) s) := fun _ _ =>
      Worked.ite (Worked.refl s) (Worked.enqueue _ s)
    have hended : ∀ (u : State) (y : ScribeSt),
        let v := incFld (SCRIBE_INSTANCE_COUNTS 9) 31 0 1 { Machine.pushRecord g nd x (Machine.sendSignals g.domain nd x u) with scribe := y }
        Worked u (if x.prov then Machine.recheckNode x.graph x.node v else v) := fun u y =>
      (((Worked.sendSignals g.domain nd x u).trans (Worked.pushRecord g nd x _)).trans ((Worked.scribe _ y).trans (Worked.wr (by decide) _ _))).trans
        (Worked.ite (Worked.recheckNode x.graph x.node _) (Worked.refl _))
    split
    · dsimp only
      split
      · exact ((hsignalled _ _).trans (hended _ _)).trans (Worked.enqueue _ _)
      · exact (hsignalled _ _).trans (hended _ _)
    · dsimp only
      split
      · exact (hended s _).trans (Worked.enqueue _ _)
      · exact hended s _
  · exact Worked.scribe s _

theorem Worked.spawnInst (g node n : Nat) (s : State) : Worked s (spawnInst g node n s) := by
  unfold Machine.spawnInst
  split
  · split
    · exact Worked.refl s
    · split
      · exact Worked.scribe s _
      · exact ((Worked.scribe s _).trans (Worked.setInst _ _ _)).trans (Worked.enqueue _ _)
  · exact Worked.refl s

theorem Worked.skipInst (i : Nat) (x : Inst) (s : State) : Worked s (skipInst i x s) :=
  (((Worked.inc (by decide) s).trans (Worked.raise 0x8007 _ _)).trans ((Worked.freePages i _).trans (Worked.freeRuns _ _))).trans
    ((Worked.setInst i _ _).trans ((Worked.enqueue _ _).trans (Worked.enqueue _ _)))

theorem Worked.beginDiscard (i : Nat) (x : Inst) (s : State) : Worked s (beginDiscard i x s) :=
  (((Worked.setInst i _ s).trans (Worked.freeRuns _ _)).trans (Worked.stopUnits i _)).trans (Worked.resolve i _ _)

theorem Worked.beginRun (i k : Nat) (s : State) : Worked s (beginRun i k s) := by
  unfold Machine.beginRun
  split
  · exact Worked.refl s
  · dsimp only
    exact Worked.ite (Worked.setInst i _ s) ((((Worked.setInst i _ s).trans (Worked.inc (by decide) _)).trans
      (Worked.ite (Worked.inc (by decide) _) (Worked.refl _))).trans ((Worked.scribe _ _).trans (Worked.enqueue _ _)))

theorem Worked.endRun (i k completion : Nat) (s : State) : Worked s (endRun i k completion s) := by
  unfold Machine.endRun
  split
  · exact Worked.refl s
  have hfreed : ∀ x : Inst, Worked s (Machine.freeRuns (fun r => decide (r = (i, k))) (Machine.setInst i x s)) := fun x =>
    (Worked.setInst i x s).trans (Worked.freeRuns _ _)
  dsimp only
  split
  · exact hfreed _
  refine Worked.ite (hfreed _) ?_
  split
  · exact (hfreed _).trans (Worked.enqueue _ _)
  · exact Worked.ite ((hfreed _).trans (Worked.modInst i _ _)) ((hfreed _).trans (Worked.resolve i _ _))
  · exact hfreed _

theorem Worked.checkInst (i : Nat) (s : State) : Worked s (checkInst i s) := by
  have hjudged : ∀ (x : Inst) (expired : List Nat), Worked s (Machine.setInst i x
      (expired.foldl (fun u p => Machine.raise 0x8005 p (Machine.inc SCRIBE_VERDICT_EXPIRED u)) s)) := fun x expired =>
    (Worked.foldl (fun u p => (Worked.inc (by decide) u).trans (Worked.raise 0x8005 p _)) expired s).trans (Worked.setInst i x _)
  unfold Machine.checkInst
  split
  · exact Worked.refl s
  split
  · refine Worked.ite (Worked.refl s) ?_
    dsimp only
    split
    case h_1 | h_2 =>
      exact Worked.ite ((hjudged _ _).trans (Worked.skipInst i _ _)) (Worked.ite
        (Worked.ite (((hjudged _ _).trans (Worked.setInst i _ _)).trans ((Worked.beginRun i 0 _).trans (Worked.endRun i 0 0 _)))
          (Worked.ite ((hjudged _ _).trans (Worked.setInst i _ _))
            ((hjudged _ _).trans ((Worked.ite (Worked.refl _) (Worked.freePages i _)).trans (Worked.modInst i _ _)))))
        (hjudged _ _))
    case h_3 | h_4 =>
      exact Worked.ite ((hjudged _ _).trans (Worked.beginDiscard i _ _))
        (Worked.ite ((hjudged _ _).trans (Worked.resolve i _ _)) (hjudged _ _))
    case h_5 | h_6 => exact hjudged _ _
  · exact Worked.refl s

/-! ### Adds to pegs (R248–R251, R399, R441) -/

theorem Worked.reachWait (key : Nat) (w : MbWait) (pg : Peg) (s : State) : Worked s (reachWait key w pg s) := by
  have hexpired : ∀ expired : Bool, Worked s (if expired then Machine.raise 0x8005 w.peg (Machine.inc SCRIBE_VERDICT_EXPIRED s) else s) :=
    fun _ => Worked.ite ((Worked.inc (by decide) s).trans (Worked.raise 0x8005 _ _)) (Worked.refl s)
  have hreached := fun x => (hexpired (entryVerdict pg w.target 1).2).trans (Worked.mb _ x)
  unfold Machine.reachWait
  dsimp only
  split
  · exact Worked.ite ((hreached _).trans (Worked.notice _ _ _)) ((hreached _).trans ((Worked.notice _ _ _).trans (Worked.msix _ _ _)))
  · exact Worked.ite ((hreached _).trans ((Worked.mb _ _).trans (Worked.answer _ _ _ _ _ _))) (hreached _)

theorem Worked.applyAdd (p amount verdict : Nat) (s : State) : Worked s (applyAdd p amount verdict s) := by
  unfold Machine.applyAdd
  split
  · exact Worked.inc (by decide) s
  refine Worked.ite (Worked.inc (by decide) s) ?_
  dsimp only
  have hwaits : ∀ (u : State) (pg : Peg), Worked u (u.mb.waits.foldl (fun s q =>
      if q.2.peg = p && q.2.state = 0 && decide (q.2.target ≤ pg.value) then Machine.reachWait q.1 q.2 pg s else s) u) := fun u pg =>
    Worked.foldl (fun v q => Worked.ite (Worked.reachWait _ _ _ v) (Worked.refl v)) _ u
  exact ((((Worked.ite ((Worked.inc (by decide) s).trans (Worked.raise 0x8009 p _)) (Worked.refl s)).trans (Worked.scribe _ _)).trans
    (Worked.scribe _ _)).trans (hwaits _ _)).trans (Worked.out _ _)

theorem Worked.drain (fuel : Nat) (s : State) : Worked s (drain fuel s) := by
  induction fuel generalizing s with
  | zero => exact Worked.refl s
  | succ fuel ih =>
    rw [Machine.drain]
    split
    · exact Worked.refl s
    · rename_i w _ _
      refine Worked.trans ?_ (ih _)
      cases w with
      | add p a v => exact (Worked.scribe s _).trans (Worked.applyAdd p a v _)
      | check i => exact (Worked.scribe s _).trans (Worked.checkInst i _)
      | spawn g n k => exact (Worked.scribe s _).trans (Worked.spawnInst g n k _)
      | finish i => exact (Worked.scribe s _).trans (Worked.finishInst i _)

theorem Worked.pegAdd (p amount verdict : Nat) (s : State) : Worked s (pegAdd p amount verdict s) :=
  (Worked.enqueue _ s).trans (Worked.drain drainFuel _)

end Sys2Proof.Machine
end

section
/-! PROOF. Power over coax (R92–R97): the words of a camera port that the switch uses, what its shared operations leave in them, and the
statement about its commands. -/

namespace Sys2Proof.Machine
open Sys2Proof

/-! ### The words of the switch -/

theorem pocCtrl_addr (n : Nat) : (CAMIN_POC_CTRL n).addr = 0x21004 + 0x100 * n := rfl
theorem pocStatus_addr (n : Nat) : (CAMIN_POC_STATUS n).addr = 0x21008 + 0x100 * n := rfl
theorem pocFault_addr (n : Nat) : (CAMIN_POC_FAULT n).addr = 0x2100C + 0x100 * n := rfl

theorem pocStatus_ne_pocCtrl (n : Nat) : (CAMIN_POC_STATUS n).addr ≠ (CAMIN_POC_CTRL n).addr := by
  rw [pocStatus_addr, pocCtrl_addr]
  omega

theorem pocStatus_ne_pocFault (n : Nat) : (CAMIN_POC_STATUS n).addr ≠ (CAMIN_POC_FAULT n).addr := by
  rw [pocStatus_addr, pocFault_addr]
  omega

theorem pocCtrl_ne_pocFault (n : Nat) : (CAMIN_POC_CTRL n).addr ≠ (CAMIN_POC_FAULT n).addr := by
  rw [pocCtrl_addr, pocFault_addr]
  omega

/-- The words that the ports share lie below those of the ports. -/
theorem ne_of_shared {r q : Reg} (hr : r.addr < 0x21000) (hq : 0x21000 ≤ q.addr) : q.addr ≠ r.addr := by omega

theorem le_pocCtrl_addr (n : Nat) : 0x21000 ≤ (CAMIN_POC_CTRL n).addr := Nat.le_add_right_of_le (by decide)
theorem le_pocStatus_addr (n : Nat) : 0x21000 ≤ (CAMIN_POC_STATUS n).addr := Nat.le_add_right_of_le (by decide)
theorem le_pocFault_addr (n : Nat) : 0x21000 ≤ (CAMIN_POC_FAULT n).addr := Nat.le_add_right_of_le (by decide)

/-! ### The state of the switch in its status word (R92) -/

theorem fld_regs {s t : State} (h : t.regs = s.regs) (r : Reg) (hi lo : Nat) : fld t r hi lo = fld s r hi lo := by
  rw [fld, rd_regs r h, fld]

theorem fld_wr_ne {r q : Reg} (h : q.addr ≠ r.addr) (hi lo v : Nat) (s : State) : fld (wr r v s) q hi lo = fld s q hi lo := by
  rw [fld, rd_wr_ne h, fld]

theorem fld_pocStatus_same {hi lo : Nat} (hl : lo ≤ hi) (hh : hi < 32) (n v : Nat) (s : State) :
    fld (setFld (CAMIN_POC_STATUS n) hi lo v s) (CAMIN_POC_STATUS n) hi lo = v % 2 ^ (hi + 1 - lo) :=
  fld_setFld_same hl hh (Nat.two_pow_pos 32) v s

/-- A field of the status word above another one that is written stays, -/
theorem fld_pocStatus_above {hi lo h l : Nat} (hl : lo ≤ hi) (hh : hi < 32) (ha : hi < l) (n v : Nat) (s : State) :
    fld (setFld (CAMIN_POC_STATUS n) hi lo v s) (CAMIN_POC_STATUS n) h l = fld s (CAMIN_POC_STATUS n) h l :=
  fld_setFld_above hl hh (Nat.two_pow_pos 32) ha v s

/-- and so does one below it. -/
theorem fld_pocStatus_below {hi lo h l : Nat} (hl : lo ≤ hi) (hh : hi < 32) (hb : h < lo) (n v : Nat) (s : State) :
    fld (setFld (CAMIN_POC_STATUS n) hi lo v s) (CAMIN_POC_STATUS n) h l = fld s (CAMIN_POC_STATUS n) h l :=
  fld_setFld_below hl hh (Nat.two_pow_pos 32) hb v s

theorem pocState_setFld_state {k : Nat} (hk : k < 8) (n : Nat) (s : State) : pocState (setFld (CAMIN_POC_STATUS n) 2 0 k s) n = k :=
  (fld_pocStatus_same (by decide) (by decide) n k s).trans (Nat.mod_eq_of_lt hk)

/-! ### The ramp toward the commanded level (R92, R93) -/

/-- The ramp moves nothing but the state of the switch. -/
theorem rampTo_cases (n : Nat) (s : State) : rampTo n s = s ∨ ∃ k, rampTo n s = setFld (CAMIN_POC_STATUS n) 2 0 k s := by
  unfold rampTo
  dsimp only
  split
  · exact Or.inl rfl
  split
  · split
    · exact Or.inl rfl
    · exact Or.inr ⟨1, rfl⟩
  split
  · split
    · exact Or.inl rfl
    · split
      · exact Or.inr ⟨4, rfl⟩
      · exact Or.inr ⟨1, rfl⟩
  · split
    · exact Or.inl rfl
    · split
      · exact Or.inr ⟨0, rfl⟩
      · exact Or.inr ⟨4, rfl⟩

theorem rampTo_frame (n : Nat) (s : State) : rampTo n s = { s with regs := (rampTo n s).regs } := by
  obtain h | ⟨k, h⟩ := rampTo_cases n s <;> rw [h]
  rfl

theorem rampTo_words {p : Nat → Bool} {n : Nat} (h : p (CAMIN_POC_STATUS n).addr = true) (s : State) : SameWords s (rampTo n s) p := by
  obtain hr | ⟨k, hr⟩ := rampTo_cases n s <;> rw [hr]
  · exact SameWords.refl s p
  · exact SameWords.setFld h 2 0 k s

theorem rampTo_of_fault {n : Nat} {s : State} (h : rd s (CAMIN_POC_FAULT n) ≠ 0) : rampTo n s = s := if_pos h

theorem rampTo_on {n : Nat} {s : State} (hfault : rd s (CAMIN_POC_FAULT n) = 0) (hcmd : fld s (CAMIN_POC_CTRL n) 1 0 = 2)
    (hstate : pocState s n = 0) : rampTo n s = setFld (CAMIN_POC_STATUS n) 2 0 1 s := by
  simp [rampTo, hfault, hcmd, hstate]

theorem rampTo_off {n : Nat} {s : State} (hfault : rd s (CAMIN_POC_FAULT n) = 0) (hcmd : fld s (CAMIN_POC_CTRL n) 1 0 = 0)
    (hstate : pocState s n = 3) : rampTo n s = setFld (CAMIN_POC_STATUS n) 2 0 4 s := by
  simp [rampTo, hfault, hcmd, hstate]

/-! ### A write in the window of the cameras (R415, R422, R489): no view of a unit, no lock and no further effect -/

theorem one_camera_eq_none {a : Nat} (hlow : 0x20000 ≤ a) (hhigh : a < 0x30000) {r : Reg} (h : r.addr < 0x20000 ∨ 0x30000 ≤ r.addr) (v : Nat) :
    one a r v = none := if_neg (by omega)

theorem idx_camera_eq_none {a : Nat} (hhigh : a < 0x30000) {base : Nat} (h : 0x30000 ≤ base) (stride n : Nat) : idx a base stride n = none := by
  have hbelow : ¬ base ≤ a := by omega
  simp [idx, hbelow]

/-- No word of the cameras is a view of a unit's state. -/
theorem unitView_camera {a : Nat} (hlow : 0x20000 ≤ a) (hhigh : a < 0x30000) (s : State) : unitView s a = none := by
  have hone : ∀ (r : Reg) (v : Nat), (r.addr < 0x20000 ∨ 0x30000 ≤ r.addr) → one a r v = none := fun r v h => one_camera_eq_none hlow hhigh h v
  have hmany : ∀ (base stride n : Nat) (f : Nat → Nat), 0x30000 ≤ base → many a base stride n f = none := fun base stride n f h => by
    rw [many, idx_camera_eq_none hhigh h, Option.map_none]
  have hstacks : ∀ base f, base ≤ 0x130 → many a base 4 4 f = none := fun base f h => by
    have habove : ¬ (a - base) / 4 < 4 := by omega
    simp [many, idx, habove]
  simp (disch := decide) only [unitView, viewRidge, viewScribe, viewMemory, viewRecord, viewBay, viewYard, viewLedger, viewSolvers, viewGovernor,
    viewKingpost, hone, hmany, hstacks]
  rfl

theorem lockOf_camera {a : Nat} (hlow : 0x20000 ≤ a) (hhigh : a < 0x30000) (s : State) : lockOf s a = false := by
  rw [lockOf, if_neg (by omega), if_neg (by omega)]

theorem postWrite_camera {a : Nat} (hlow : 0x20000 ≤ a) (hhigh : a < 0x30000) (s : State) : postWrite a s = s := by
  have hne : ∀ r : Reg, (r.addr < 0x20000 ∨ 0x30000 ≤ r.addr) → a ≠ r.addr := fun r h => by omega
  have hplaner := hne PLANER_DESC_HI (by decide)
  have hraft := hne RAFT_GRID_DESC_HI (by decide)
  have htally := hne TALLY_UNIT_DESC_HI (by decide)
  have htrim := hne RIDGE_TRIM_LIMIT (by decide)
  have hidx : ∀ base stride n : Nat, 0x30000 ≤ base → idx a base stride n = none := fun base stride n h => idx_camera_eq_none hhigh h stride n
  rw [postWrite, if_neg hplaner, if_neg hraft, if_neg htally, if_neg htrim, hidx 0x31000 _ _ (by decide), hidx 0x30400 _ _ (by decide),
    hidx 0x31060 _ _ (by decide)]

/-! ### A write of POC_CTRL (R92, R630) -/

def pocCtrlRow : RegRow := ⟨0x21004, 0x100, 16, 0x0, 1, 0x2580400,
  [⟨31, 26, .res⟩, ⟨25, 16, .rw⟩, ⟨15, 12, .res⟩, ⟨11, 8, .rw⟩, ⟨7, 3, .res⟩, ⟨2, 2, .rw⟩, ⟨1, 0, .rw⟩]⟩

theorem findRow_pocCtrl : ∀ n < 16, findRow (CAMIN_POC_CTRL n).addr = some pocCtrlRow := by decide

/-- The word that a write of `v` leaves in POC_CTRL: the reserved bits of the old word, and the fields of `v`. -/
def pocCtrlWord (old v : Nat) : Nat :=
  putBits (putBits (putBits (putBits old 25 16 (bits v 25 16)) 11 8 (bits v 11 8)) 2 2 (bits v 2 2)) 1 0 (bits v 1 0)

theorem wordWrite_pocCtrl (old v : Nat) : wordWrite pocCtrlRow.flds false old v [] = (pocCtrlWord old v, false) := by
  have hf : pocCtrlRow.flds.filter (fun f => f.acc ≠ .res) = [⟨25, 16, .rw⟩, ⟨11, 8, .rw⟩, ⟨2, 2, .rw⟩, ⟨1, 0, .rw⟩] := by decide
  rw [wordWrite_of_accepting hf (by decide) (by decide), pocCtrlWord]
  repeat rw [List.foldl_cons, fieldWrite_rw]
  rw [List.foldl_nil]

theorem regAt_pocCtrl {n : Nat} (hn : n < 16) : regAt (CAMIN_POC_CTRL n).addr = CAMIN_POC_CTRL n := by
  simp only [regAt, findRow_pocCtrl n hn]
  rfl

/-- A camera word outside the configuration that waits for an epoch, and no half of a 64-bit pair, is stored at once. -/
theorem commitWord_pocCtrl {n : Nat} (hn : n < 16) (w : Nat) (s : State) :
    commitWord (CAMIN_POC_CTRL n).addr w s = wr (CAMIN_POC_CTRL n) w s := by
  have hsingle : ∀ n < 16, isLow (CAMIN_POC_CTRL n).addr = false ∧ isLow ((CAMIN_POC_CTRL n).addr - 4) = false := by decide
  obtain ⟨hlow, hhigh⟩ := hsingle n hn
  have hreg := regAt_pocCtrl hn
  have hinc : (CAMIN_POC_CTRL n).addr ≠ 0x10014 := ne_of_shared (r := RIDGE_INC_FRAC) (by decide) (le_pocCtrl_addr n)
  have hnow : ∀ u, atOnce u (CAMIN_POC_CTRL n).addr = false := by
    intro u
    have h : ¬ 0x10 ≤ (CAMIN_POC_CTRL n).addr % 0x100 := by rw [pocCtrl_addr]; omega
    simp [atOnce, h]
  simp only [commitWord, hlow, hhigh, hreg, hinc, hnow, decide_false, Bool.or_false, Bool.false_eq_true, if_false, and_false]
  split <;> rfl

theorem acceptWrite_pocCtrl {n : Nat} (hn : n < 16) (v : Nat) (s : State) :
    acceptWrite (CAMIN_POC_CTRL n).addr v [] s = wr (CAMIN_POC_CTRL n) (pocCtrlWord (rd s (CAMIN_POC_CTRL n)) v) s := by
  have hlow : 0x20000 ≤ (CAMIN_POC_CTRL n).addr := by rw [pocCtrl_addr]; omega
  have hhigh : (CAMIN_POC_CTRL n).addr < 0x30000 := by rw [pocCtrl_addr]; omega
  have hlock := lockOf_camera hlow hhigh s
  have hvalue : valueAt s (CAMIN_POC_CTRL n).addr = rd s (CAMIN_POC_CTRL n) := by
    simp only [valueAt, unitView_camera hlow hhigh, regAt_pocCtrl hn]
  have hword : wordWrite pocCtrlRow.flds (lockOf s (CAMIN_POC_CTRL n).addr) (valueAt s (CAMIN_POC_CTRL n).addr) v [] =
      (pocCtrlWord (rd s (CAMIN_POC_CTRL n)) v, false) := by rw [hlock, hvalue, wordWrite_pocCtrl]
  rw [acceptWrite_accepted (findRow_pocCtrl n hn) (by rw [hlock]; rfl) hword, postWrite_camera hlow hhigh, commitWord_pocCtrl hn]

/-- The value that the fields of POC_CTRL take: a slope of 0 as 1, and a current limit within its range. -/
def pocCtrlValue (v : Nat) : Nat :=
  let v := if bits v 11 8 = 0 then putBits v 11 8 1 else v
  putBits v 25 16 (clamp 10 600 (bits v 25 16))

theorem bits_pocCtrlValue (v : Nat) : bits (pocCtrlValue v) 1 0 = bits v 1 0 := by
  rw [pocCtrlValue, bits_putBits_below (by decide) (by decide)]
  split
  · exact bits_putBits_below (by decide) (by decide)
  · rfl

/-- The word of POC_CTRL after a command. -/
def pocCommanded (n v : Nat) (s : State) : State := wr (CAMIN_POC_CTRL n) (pocCtrlWord (rd s (CAMIN_POC_CTRL n)) (pocCtrlValue v)) s

theorem putPocCtrl_eq {n v : Nat} (hn : n < 16) (hcmd : bits v 1 0 ≠ 3) (s : State) : putPocCtrl n v s = rampTo n (pocCommanded n v s) := by
  rw [pocCommanded, ← acceptWrite_pocCtrl hn]
  simp only [putPocCtrl, if_neg hcmd, pocCtrlValue]

theorem fld_pocCommanded (n v : Nat) (s : State) : fld (pocCommanded n v s) (CAMIN_POC_CTRL n) 1 0 = bits v 1 0 := by
  have hmod : ∀ w : Nat, bits (w % 2 ^ 32) 1 0 = bits w 1 0 := fun w => by simp only [bits]; omega
  rw [fld, pocCommanded, rd_wr_same, hmod, pocCtrlWord, bits_putBits_same, bits_bits, bits_pocCtrlValue]

theorem completes_pocCommand {n v : Nat} (hn : n < 16) (hcmd : bits v 1 0 ≠ 3) (s : State) : Completes (.pocCommand n v) s (fun t =>
    fld t (CAMIN_POC_CTRL n) 1 0 = bits v 1 0 ∧
    (rd s (CAMIN_POC_FAULT n) = 0 → bits v 1 0 = 2 → pocState s n = 0 → pocState t n = 1) ∧
    (rd s (CAMIN_POC_FAULT n) = 0 → bits v 1 0 = 0 → pocState s n = 3 → pocState t n = 4) ∧
    (rd s (CAMIN_POC_FAULT n) ≠ 0 → pocState t n = pocState s n) ∧
    t = { s with regs := t.regs } ∧ SameWords s t (fun a => decide (a = (CAMIN_POC_CTRL n).addr ∨ a = (CAMIN_POC_STATUS n).addr))) := by
  have hexec : exec (.pocCommand n v) s = .next (rampTo n (pocCommanded n v s)) := by
    change execPocCommand n v s = _
    rw [execPocCommand, if_neg (Nat.not_le.2 hn), putPocCtrl_eq hn hcmd]
  have hfault : rd (pocCommanded n v s) (CAMIN_POC_FAULT n) = rd s (CAMIN_POC_FAULT n) := rd_wr_ne (pocCtrl_ne_pocFault n).symm _ s
  have hstate : pocState (pocCommanded n v s) n = pocState s n := fld_wr_ne (pocStatus_ne_pocCtrl n) 2 0 _ s
  have hstored := fld_pocCommanded n v s
  refine ⟨_, hexec, ?_, fun h0 h2 hoff => ?_, fun h0 hoff hon => ?_, fun h0 => ?_, ?_, ?_⟩
  · rw [fld, (rampTo_words (p := fun a => decide (a = (CAMIN_POC_STATUS n).addr)) (by simp) _).rd
      (decide_eq_false (pocStatus_ne_pocCtrl n).symm), ← fld, hstored]
  · rw [rampTo_on (hfault.trans h0) (hstored.trans h2) (hstate.trans hoff), pocState_setFld_state (by decide)]
  · rw [rampTo_off (hfault.trans h0) (hstored.trans hoff) (hstate.trans hon), pocState_setFld_state (by decide)]
  · rw [rampTo_of_fault (by rwa [hfault]), hstate]
  · rw [rampTo_frame]
    rfl
  · exact (SameWords.wr (by simp) _ s).trans (rampTo_words (by simp) _)

/-! ### The end of a ramp (R92, R113) -/

theorem measurePort_words {p : Nat → Bool} {n : Nat} (hstatus : p (CAMIN_POC_STATUS n).addr = true) (hsum : p CAMIN_POC_SUM.addr = true)
    (mv ma : Nat) (s : State) : SameWords s (measurePort n mv ma s) p :=
  ((SameWords.setFld hstatus 15 6 ma s).trans (SameWords.setFld hstatus 31 16 mv _)).trans (SameWords.wr hsum _ _)

/-- The measured output and current stand above the state of the switch. -/
theorem measurePort_status (n mv ma : Nat) (s : State) : let t := measurePort n mv ma s
    fld t (CAMIN_POC_STATUS n) 31 16 = mv % 65536 ∧ fld t (CAMIN_POC_STATUS n) 15 6 = ma % 1024 ∧ pocState t n = pocState s n := by
  have hsum : (CAMIN_POC_STATUS n).addr ≠ CAMIN_POC_SUM.addr := ne_of_shared (by decide) (le_pocStatus_addr n)
  dsimp only [measurePort]
  refine ⟨?_, ?_, ?_⟩
  · exact (fld_wr_ne hsum 31 16 _ _).trans (fld_pocStatus_same (by decide) (by decide) n mv _)
  · exact (fld_wr_ne hsum 15 6 _ _).trans ((fld_pocStatus_below (by decide) (by decide) (by decide) n mv _).trans
      (fld_pocStatus_same (by decide) (by decide) n ma s))
  · rw [pocState, fld_wr_ne hsum, fld_pocStatus_below (by decide) (by decide) (by decide),
      fld_pocStatus_below (by decide) (by decide) (by decide), pocState]

/-- What a port measures at the end of a ramp. -/
def rampMeasured (n mv ma vpoc : Nat) (s : State) : State := wr CAMIN_VPOC_MV (vpoc % 65536) (measurePort n mv ma s)

theorem rampMeasured_status (n mv ma vpoc : Nat) (s : State) : let t := rampMeasured n mv ma vpoc s
    fld t (CAMIN_POC_STATUS n) 31 16 = mv % 65536 ∧ fld t (CAMIN_POC_STATUS n) 15 6 = ma % 1024 ∧ rd t CAMIN_VPOC_MV = vpoc % 65536 := by
  have hvpoc : (CAMIN_POC_STATUS n).addr ≠ CAMIN_VPOC_MV.addr := ne_of_shared (by decide) (le_pocStatus_addr n)
  obtain ⟨hmv, hma, -⟩ := measurePort_status n mv ma s
  refine ⟨(fld_wr_ne hvpoc 31 16 _ _).trans hmv, (fld_wr_ne hvpoc 15 6 _ _).trans hma, ?_⟩
  rw [rampMeasured, rd_wr_same]
  omega

/-- The state that a completed ramp toward a commanded level enters. -/
def rampTarget (cmd : Nat) : Nat := if cmd = 2 then 3 else if cmd = 1 then 2 else 0

theorem rampTarget_lt (cmd : Nat) : rampTarget cmd < 8 := by
  unfold rampTarget
  split
  · decide
  · split <;> decide

/-- A port enters the state of its commanded level; in ON it begins to wait for the camera. -/
def rampEntered (n cmd : Nat) (u : State) : State :=
  if cmd = 2 then modCam n (fun c => { c with onAt := if camUp u n then none else some u.ridge.ns }) (setFld (CAMIN_POC_STATUS n) 2 0 3 u)
  else if cmd = 1 then setFld (CAMIN_POC_STATUS n) 2 0 2 u
  else setFld (CAMIN_POC_STATUS n) 2 0 0 u

theorem rampEntered_regs (n cmd : Nat) (u : State) :
    (rampEntered n cmd u).regs = (setFld (CAMIN_POC_STATUS n) 2 0 (rampTarget cmd) u).regs := by
  unfold rampEntered rampTarget
  split
  · rfl
  · split <;> rfl

theorem rampEntered_frame (n cmd : Nat) (u : State) :
    rampEntered n cmd u = { u with regs := (rampEntered n cmd u).regs, cam.ports := (rampEntered n cmd u).cam.ports } := by
  unfold rampEntered
  split
  · rfl
  · split <;> rfl

theorem exec_pocRampComplete {n : Nat} {s : State} (hn : n < 16) (hramp : pocState s n = 1 ∨ pocState s n = 4) (mv ma vpoc : Nat) :
    exec (.pocRampComplete n mv ma vpoc) s = .next (rampEntered n (fld s (CAMIN_POC_CTRL n) 1 0) (rampMeasured n mv ma vpoc s)) := by
  have hgoes : ¬ (16 ≤ n ∨ ¬ (pocState s n = 1 ∨ pocState s n = 4)) := by omega
  change execPocRampComplete n mv ma vpoc s = _
  rw [execPocRampComplete, if_neg hgoes, rampEntered, rampMeasured]
  dsimp only
  split
  · rfl
  · split <;> rfl

theorem completes_pocRampComplete {n : Nat} {s : State} (hn : n < 16) (hramp : pocState s n = 1 ∨ pocState s n = 4) (mv ma vpoc : Nat) :
    Completes (.pocRampComplete n mv ma vpoc) s (fun t =>
      pocState t n = (if fld s (CAMIN_POC_CTRL n) 1 0 = 2 then 3 else if fld s (CAMIN_POC_CTRL n) 1 0 = 1 then 2 else 0) ∧
      fld t (CAMIN_POC_STATUS n) 31 16 = mv % 65536 ∧ fld t (CAMIN_POC_STATUS n) 15 6 = ma % 1024 ∧ rd t CAMIN_VPOC_MV = vpoc % 65536 ∧
      t = { s with regs := t.regs, cam.ports := t.cam.ports } ∧
      SameWords s t (fun a => decide (a = (CAMIN_POC_STATUS n).addr ∨ a = CAMIN_VPOC_MV.addr ∨ a = CAMIN_POC_SUM.addr))) := by
  refine ⟨_, exec_pocRampComplete hn hramp mv ma vpoc, ?_⟩
  obtain ⟨hmv, hma, hvpoc⟩ := rampMeasured_status n mv ma vpoc s
  have hwords : SameWords s (rampMeasured n mv ma vpoc s)
      (fun a => decide (a = (CAMIN_POC_STATUS n).addr ∨ a = CAMIN_VPOC_MV.addr ∨ a = CAMIN_POC_SUM.addr)) :=
    (measurePort_words (by simp) (by simp) mv ma s).trans (SameWords.wr (by simp) _ _)
  obtain ⟨words, hframe⟩ : ∃ words, rampMeasured n mv ma vpoc s = { s with regs := words } := ⟨_, rfl⟩
  generalize rampMeasured n mv ma vpoc s = u at *
  generalize fld s (CAMIN_POC_CTRL n) 1 0 = cmd
  have hregs := rampEntered_regs n cmd u
  have hne : CAMIN_VPOC_MV.addr ≠ (CAMIN_POC_STATUS n).addr := (ne_of_shared (by decide) (le_pocStatus_addr n)).symm
  refine ⟨?_, ?_, ?_, ?_, ?_, ?_⟩
  · rw [pocState, fld_regs hregs, ← pocState, pocState_setFld_state (rampTarget_lt cmd), rampTarget]
  · rw [fld_regs hregs, fld_pocStatus_above (by decide) (by decide) (by decide), hmv]
  · rw [fld_regs hregs, fld_pocStatus_above (by decide) (by decide) (by decide), hma]
  · rw [rd_regs _ hregs, rd_setFld_ne hne, hvpoc]
  · rw [rampEntered_frame, hframe]
  · exact hwords.trans ((SameWords.setFld (by simp) 2 0 _ u).trans (SameWords.of_regs hregs))

/-! ### Bits of a mask (R22, R93) -/

theorem rd_setMask_same {r : Reg} {m : Nat} (hr : r.reset < 2 ^ 32) (hm : m < 2 ^ 32) (s : State) : rd (setMask r m s) r = rd s r ||| m := by
  rw [setMask, rd_wr_same, Nat.mod_eq_of_lt (Nat.or_lt_two_pow (rd_lt s r hr) hm)]

theorem rd_clearMask_same {r : Reg} (hr : r.reset < 2 ^ 32) (m : Nat) (s : State) : rd (clearMask r m s) r = rd s r - (rd s r &&& m) := by
  rw [clearMask, rd_wr_same, Nat.mod_eq_of_lt (Nat.lt_of_le_of_lt (Nat.sub_le _ _) (rd_lt s r hr))]

/-! ### The loss of a link (R101, R113) -/

theorem cam_putCam_same (n : Nat) (c : Cam) (s : State) : cam (putCam n c s) n = c := by
  rw [cam, putCam, tgetD, tget_tput_same, Option.getD_some]

/-- A frame that is closed leaves the words of its port and the time of its fault: the port takes the frame from its camera to the closed
ones, and the rest is work of the Scribe. -/
theorem closeFrame_worked (n why : Nat) (s : State) :
    ∃ u, u.regs = s.regs ∧ (cam u n).faultAt = (cam s n).faultAt ∧ Worked u (closeFrame n why s) := by
  have htaken : ∀ closed t, Worked (putCam n { cam s n with open_ := none, closed := closed } s) t →
      ∃ u, u.regs = s.regs ∧ (cam u n).faultAt = (cam s n).faultAt ∧ Worked u t :=
    fun closed t h => ⟨putCam n { cam s n with open_ := none, closed := closed } s, rfl, by rw [cam_putCam_same], h⟩
  unfold closeFrame
  dsimp only
  split
  · exact ⟨s, rfl, rfl, Worked.refl s⟩
  · generalize ite (why = 2) _ _ = f
    split
    · split
      · exact htaken _ _ (Worked.pegAdd _ 1 0 _)
      · exact htaken _ _ ((Worked.fencedWrite 0 2 _ _).trans (Worked.pegAdd _ 1 0 _))
    · split
      · exact htaken _ _ (Worked.refl _)
      · exact htaken _ _ (Worked.fencedWrite 0 2 _ _)

theorem camLink_of_down {n : Nat} {s : State} (h : camUp s n = false) : camLink n false s = s := if_pos h

/-- The words that the loss of a link can change. -/
abbrev linkLossWords (a : Nat) : Bool := beyondCameras a || decide (a = CAMIN_LINK_UP.addr)

theorem camLink_down (n : Nat) (s : State) : let t := camLink n false s
    camUp t n = false ∧ (cam t n).faultAt = (cam s n).faultAt ∧ SameWords s t linkLossWords := by
  dsimp only
  cases hup : camUp s n with
  | false =>
    rw [camLink_of_down hup]
    exact ⟨hup, rfl, SameWords.refl s _⟩
  | true =>
    let lost := clearMask CAMIN_LINK_UP (2 ^ n) s
    have hlink : camLink n false s = raise 0x2030 n (closeFrame n 2 lost) := by simp [camLink, hup, lost]
    obtain ⟨u, hregs, hfault, hclosed⟩ := closeFrame_worked n 2 lost
    have hworked := hclosed.trans (Worked.raise 0x2030 n _)
    have hwords : SameWords lost (camLink n false s) beyondCameras := by
      rw [hlink]
      exact (SameWords.of_regs hregs).trans hworked.2
    refine ⟨?_, ?_, ?_⟩
    · rw [camUp, hwords.rd (by decide), rd_clearMask_same (by decide), bit_sub_and_two_pow]
    · rw [hlink, cam, hworked.keeps.1, ← cam, hfault]
      rfl
    · exact (SameWords.wr (by decide) _ s).trans (hwords.mono (fun a ha => by rw [linkLossWords, ha, Bool.true_or]))

/-! ### A fault of the switch (R93–R97) -/

/-- The bits of a fault are set. -/
def pocFaultMarked (n m : Nat) (s : State) : State := setMask CAMIN_POC_ANY_FAULT (2 ^ n) (setMask (CAMIN_POC_FAULT n) m s)

/-- The bits of a fault are set, and the fault is reported (R93, R96). -/
def pocFaultShown (n m : Nat) (s : State) : State :=
  let s := pocFaultMarked n m s
  let s := if bit m 4 then raise 0x2011 n s else s
  if m &&& 0x6F = 0 then s else raise 0x2010 (n + 256 * m) s

/-- The switch is off, in FAULT (R93). -/
def pocSwitchedOff (n : Nat) (s : State) : State := measurePort n 0 0 (setFld (CAMIN_POC_STATUS n) 2 0 5 s)

/-- The count of retries stands in the status word, and the time of the fault with the port (R97). -/
def pocFaultTimed (n retries : Nat) (s : State) : State :=
  let s := setFld (CAMIN_POC_STATUS n) 5 4 (min 3 retries) s
  modCam n (fun c => { c with faultAt := s.ridge.ns, retryAt := none, onAt := none, open_ := c.open_.map (setFlag 0x80) }) s

/-- A third retry that has failed in a row clears auto_retry (R97). -/
def pocGivenUp (n retries : Nat) (s : State) : State :=
  if 3 ≤ retries ∧ bit (rd s (CAMIN_POC_CTRL n)) 2 then raise 0x2012 n (clearMask (CAMIN_POC_CTRL n) 4 s) else s

/-- A port whose switch a fault has turned off, before its link is lost. -/
def pocFaulted (n m retries : Nat) (s : State) : State := pocFaultTimed n retries (pocSwitchedOff n (pocFaultShown n m s))

theorem exec_pocFaultDetected {n c : Nat} {s : State} (hn : n < 16) (hc : c &&& pocPossible s n ≠ 0) : ∃ retries,
    exec (.pocFaultDetected n c) s = .next (pocGivenUp n retries (camLink n false (pocFaulted n (c &&& pocPossible s n) retries s))) := by
  have hgoes : ¬ (16 ≤ n ∨ c &&& pocPossible s n = 0) := by omega
  change ∃ retries, execPocFaultDetected n c s = _
  rw [execPocFaultDetected, if_neg hgoes]
  exact ⟨_, (apply_ite Host.Outcome.next _ _ _).symm⟩

theorem pocPossible_lt (s : State) (n : Nat) : pocPossible s n < 128 := by
  unfold pocPossible
  dsimp only
  split
  · decide
  · split <;> split <;> split <;> omega

theorem pocFaultMarked_bits {n m : Nat} (hn : n < 16) (hm : m < 128) (s : State) : let t := pocFaultMarked n m s
    rd t (CAMIN_POC_FAULT n) = rd s (CAMIN_POC_FAULT n) ||| m ∧ bit (rd t CAMIN_POC_ANY_FAULT) n = true ∧ camUp t n = camUp s n := by
  have hany : (CAMIN_POC_FAULT n).addr ≠ CAMIN_POC_ANY_FAULT.addr := ne_of_shared (by decide) (le_pocFault_addr n)
  have hlink : (CAMIN_POC_FAULT n).addr ≠ CAMIN_LINK_UP.addr := ne_of_shared (by decide) (le_pocFault_addr n)
  have hpow : 2 ^ n < 2 ^ 32 := Nat.pow_lt_pow_right (by decide) (by omega)
  refine ⟨?_, ?_, ?_⟩
  · exact (rd_wr_ne hany _ _).trans (rd_setMask_same (Nat.two_pow_pos 32) (by omega) s)
  · rw [pocFaultMarked, rd_setMask_same (by decide) hpow, testBit_or_two_pow]
  · rw [camUp, pocFaultMarked, setMask, rd_wr_ne (by decide), setMask, rd_wr_ne hlink.symm, ← camUp]

theorem pocFaultShown_logged (n m : Nat) (s : State) : Logged (pocFaultMarked n m s) (pocFaultShown n m s) :=
  (Logged.ite (Logged.raise 0x2011 n _) (Logged.refl _)).trans (Logged.ite (Logged.refl _) (Logged.raise 0x2010 _ _))

/-- After its bits are set, a fault changes the words of the recorder, the status of the port and the sum of the currents. -/
abbrev pocFaultWords (n a : Nat) : Bool := inRecorder a || decide (a = (CAMIN_POC_STATUS n).addr ∨ a = CAMIN_POC_SUM.addr)

theorem pocFaultWords_of_ne {n a : Nat} (hrec : a < 0xD0000) (hstatus : a ≠ (CAMIN_POC_STATUS n).addr) (hsum : a ≠ CAMIN_POC_SUM.addr) :
    pocFaultWords n a = false := by
  have hbelow : ¬ 0xD0000 ≤ a := by omega
  simp [inRecorder, hbelow, hstatus, hsum]

theorem pocSwitchedOff_words {p : Nat → Bool} {n : Nat} (hstatus : p (CAMIN_POC_STATUS n).addr = true) (hsum : p CAMIN_POC_SUM.addr = true)
    (s : State) : SameWords s (pocSwitchedOff n s) p :=
  (SameWords.setFld hstatus 2 0 5 s).trans (measurePort_words hstatus hsum 0 0 _)

theorem pocState_pocSwitchedOff (n : Nat) (s : State) : pocState (pocSwitchedOff n s) n = 5 := by
  obtain ⟨-, -, hstate⟩ := measurePort_status n 0 0 (setFld (CAMIN_POC_STATUS n) 2 0 5 s)
  exact hstate.trans (pocState_setFld_state (by decide) n s)

theorem pocFaultTimed_regs (n retries : Nat) (s : State) :
    (pocFaultTimed n retries s).regs = (setFld (CAMIN_POC_STATUS n) 5 4 (min 3 retries) s).regs := rfl

theorem pocFaulted_words (n m retries : Nat) (s : State) : SameWords (pocFaultMarked n m s) (pocFaulted n m retries s) (pocFaultWords n) := by
  have hstatus : pocFaultWords n (CAMIN_POC_STATUS n).addr = true := by simp
  have hshown := (pocFaultShown_logged n m s).2.mono (q := pocFaultWords n) (fun a ha => by simp [ha])
  exact (hshown.trans (pocSwitchedOff_words hstatus (by simp) _)).trans
    ((SameWords.setFld hstatus 5 4 _ _).trans (SameWords.of_regs (pocFaultTimed_regs n retries _)))

/-- Between its bits and the loss of the link, a fault leaves the bits and the link. -/
theorem pocFaulted_bits {n m : Nat} (hn : n < 16) (hm : m < 128) (retries : Nat) (s : State) : let t := pocFaulted n m retries s
    rd t (CAMIN_POC_FAULT n) = rd s (CAMIN_POC_FAULT n) ||| m ∧ bit (rd t CAMIN_POC_ANY_FAULT) n = true ∧ camUp t n = camUp s n := by
  obtain ⟨hfault, hany, hup⟩ := pocFaultMarked_bits hn hm s
  have hwords := pocFaulted_words n m retries s
  have hbits : pocFaultWords n (CAMIN_POC_FAULT n).addr = false := pocFaultWords_of_ne (by rw [pocFault_addr]; omega)
    (pocStatus_ne_pocFault n).symm (ne_of_shared (by decide) (le_pocFault_addr n))
  have hshared : ∀ r : Reg, r.addr < 0x21000 → r.addr ≠ CAMIN_POC_SUM.addr → pocFaultWords n r.addr = false := fun r hr hsum =>
    pocFaultWords_of_ne (by omega) (ne_of_shared hr (le_pocStatus_addr n)).symm hsum
  refine ⟨?_, ?_, ?_⟩
  · rw [hwords.rd hbits, hfault]
  · rw [hwords.rd (hshared _ (by decide) (by decide)), hany]
  · rw [camUp, hwords.rd (hshared _ (by decide) (by decide)), ← camUp, hup]

theorem pocState_pocFaulted (n m retries : Nat) (s : State) : pocState (pocFaulted n m retries s) n = 5 := by
  rw [pocState, pocFaulted, fld_regs (pocFaultTimed_regs n retries _), fld_pocStatus_below (by decide) (by decide) (by decide), ← pocState,
    pocState_pocSwitchedOff]

/-- Beside its words and its report, a fault changes only the port, which keeps the time. -/
theorem pocFaulted_frame (n m retries : Nat) (s : State) : ∃ words recd emitted ports, pocFaulted n m retries s =
    { s with regs := words, recd := recd, emitted := emitted, cam.ports := ports } ∧ (tgetD n {} ports).faultAt = s.ridge.ns := by
  have hshown := (pocFaultShown_logged n m s).1
  rw [pocFaulted]
  generalize pocFaultShown n m s = u at hshown
  rw [hshown]
  refine ⟨_, _, _, _, rfl, ?_⟩
  rw [tgetD, tget_tput_same]
  rfl

theorem rd_pocGivenUp {n : Nat} {r : Reg} (hctrl : r.addr ≠ (CAMIN_POC_CTRL n).addr) (hrec : inRecorder r.addr = false) (retries : Nat)
    (s : State) : rd (pocGivenUp n retries s) r = rd s r := by
  unfold pocGivenUp
  split
  · rw [(Logged.raise 0x2012 n _).2.rd hrec, clearMask, rd_wr_ne hctrl]
  · rfl

theorem pocGivenUp_frame (n retries : Nat) (s : State) : ∃ words recd emitted,
    pocGivenUp n retries s = { s with regs := words, recd := recd, emitted := emitted } := by
  unfold pocGivenUp
  split
  · exact ⟨_, _, _, (Logged.raise 0x2012 n _).1⟩
  · exact ⟨s.regs, s.recd, s.emitted, rfl⟩

/-- The end of a fault leaves the words of the cameras, but LINK_UP and POC_CTRL. -/
theorem rd_pocFaultEnd {n : Nat} {r : Reg} (hcam : r.addr < 0x30000) (hlink : r.addr ≠ CAMIN_LINK_UP.addr)
    (hctrl : r.addr ≠ (CAMIN_POC_CTRL n).addr) (retries : Nat) (s : State) : rd (pocGivenUp n retries (camLink n false s)) r = rd s r := by
  obtain ⟨-, -, hlost⟩ := camLink_down n s
  have hrec : ¬ 0xD0000 ≤ r.addr := by omega
  have hbelow : ¬ 0x30000 ≤ r.addr := by omega
  rw [rd_pocGivenUp hctrl (by simp [inRecorder, hrec]), hlost.rd (by simp [hbelow, hlink])]

theorem completes_pocFaultDetected {n c : Nat} {s : State} (hn : n < 16) (hc : c &&& pocPossible s n ≠ 0) :
    Completes (.pocFaultDetected n c) s (fun t =>
      pocState t n = 5 ∧ rd t (CAMIN_POC_FAULT n) = rd s (CAMIN_POC_FAULT n) ||| (c &&& pocPossible s n) ∧
      bit (rd t CAMIN_POC_ANY_FAULT) n = true ∧ camUp t n = false ∧ (cam t n).faultAt = s.ridge.ns ∧
      (camUp s n = false → t = { s with regs := t.regs, recd := t.recd, emitted := t.emitted, cam.ports := t.cam.ports })) := by
  obtain ⟨retries, hexec⟩ := exec_pocFaultDetected hn hc
  refine ⟨_, hexec, ?_⟩
  have hm : c &&& pocPossible s n < 128 := Nat.lt_of_le_of_lt Nat.and_le_right (pocPossible_lt s n)
  generalize c &&& pocPossible s n = m at hm
  obtain ⟨hfault, hany, hup⟩ := pocFaulted_bits hn hm retries s
  have hstate := pocState_pocFaulted n m retries s
  obtain ⟨words, recd, emitted, ports, hframe, htime⟩ := pocFaulted_frame n m retries s
  generalize pocFaulted n m retries s = u at *
  obtain ⟨hdown, hkept, -⟩ := camLink_down n u
  obtain ⟨words', recd', emitted', hgiven⟩ := pocGivenUp_frame n retries (camLink n false u)
  refine ⟨?_, ?_, ?_, ?_, ?_, fun hlinkDown => ?_⟩
  · rw [pocState, fld, rd_pocFaultEnd (by rw [pocStatus_addr]; omega) (ne_of_shared (by decide) (le_pocStatus_addr n))
      (pocStatus_ne_pocCtrl n), ← fld, ← pocState, hstate]
  · rw [rd_pocFaultEnd (by rw [pocFault_addr]; omega) (ne_of_shared (by decide) (le_pocFault_addr n)) (pocCtrl_ne_pocFault n).symm, hfault]
  · rw [rd_pocFaultEnd (by decide) (by decide) (ne_of_shared (by decide) (le_pocCtrl_addr n)).symm, hany]
  · rw [camUp, rd_pocGivenUp (ne_of_shared (by decide) (le_pocCtrl_addr n)).symm (by decide), ← camUp, hdown]
  · rw [hgiven]
    exact hkept.trans (by rw [hframe]; exact htime)
  · rw [camLink_of_down (hup.trans hlinkDown)] at hgiven ⊢
    rw [hgiven, hframe]

/-! ### The end of a fault (R23, R93, R97) -/

/-- All the fault bits of a port are cleared. -/
def pocFaultCleared (n : Nat) (s : State) : State := clearMask CAMIN_POC_ANY_FAULT (2 ^ n) (clearMask (CAMIN_POC_FAULT n) 0x7F s)

theorem rd_clearMask_pocFault {n : Nat} {s : State} (hbits : rd s (CAMIN_POC_FAULT n) < 128) :
    rd (clearMask (CAMIN_POC_FAULT n) 0x7F s) (CAMIN_POC_FAULT n) = 0 := by
  have hall : rd s (CAMIN_POC_FAULT n) &&& 2 ^ 7 - 1 = rd s (CAMIN_POC_FAULT n) := by
    rw [Nat.and_two_pow_sub_one_eq_mod, Nat.mod_eq_of_lt hbits]
  rw [rd_clearMask_same (Nat.two_pow_pos 32)]
  exact Nat.sub_eq_zero_of_le (Nat.le_of_eq hall.symm)

/-- A port in FAULT whose command is ON begins its ramp when all its bits are cleared. -/
theorem clearPocFault_on {n : Nat} {s : State} (hbits : rd s (CAMIN_POC_FAULT n) < 128) (hstate : pocState s n = 5)
    (hcmd : fld s (CAMIN_POC_CTRL n) 1 0 = 2) : rd (setFld (CAMIN_POC_STATUS n) 2 0 0 (pocFaultCleared n s)) (CAMIN_POC_FAULT n) = 0 ∧
      clearPocFault n 0x7F s = setFld (CAMIN_POC_STATUS n) 2 0 1 (setFld (CAMIN_POC_STATUS n) 2 0 0 (pocFaultCleared n s)) := by
  have hclear := rd_clearMask_pocFault hbits
  have hstate' : pocState (clearMask (CAMIN_POC_FAULT n) 0x7F s) n = 5 := (fld_wr_ne (pocStatus_ne_pocFault n) 2 0 _ s).trans hstate
  have hany : (CAMIN_POC_FAULT n).addr ≠ CAMIN_POC_ANY_FAULT.addr := ne_of_shared (by decide) (le_pocFault_addr n)
  have hanyCtrl : (CAMIN_POC_CTRL n).addr ≠ CAMIN_POC_ANY_FAULT.addr := ne_of_shared (by decide) (le_pocCtrl_addr n)
  have hnone : rd (setFld (CAMIN_POC_STATUS n) 2 0 0 (pocFaultCleared n s)) (CAMIN_POC_FAULT n) = 0 := by
    rw [rd_setFld_ne (pocStatus_ne_pocFault n).symm, pocFaultCleared, clearMask, rd_wr_ne hany, hclear]
  refine ⟨hnone, ?_⟩
  rw [clearPocFault, if_pos ⟨hclear, hstate'⟩, ← pocFaultCleared]
  refine rampTo_on hnone ?_ (pocState_setFld_state (by decide) n _)
  rw [setFld, fld_wr_ne (pocStatus_ne_pocCtrl n).symm, pocFaultCleared, clearMask, fld_wr_ne hanyCtrl, clearMask,
    fld_wr_ne (pocCtrl_ne_pocFault n), hcmd]

/-- The words that the end of a fault can change: those of the port, and the summary of the faults. -/
abbrev pocClearWords (n a : Nat) : Bool := inCam n a || decide (a = CAMIN_POC_ANY_FAULT.addr)

theorem inCam_of {n a : Nat} (h1 : 0x21000 + 0x100 * n ≤ a) (h2 : a < 0x21100 + 0x100 * n) : inCam n a = true := by
  rw [inCam, decide_eq_true h1, decide_eq_true h2, Bool.and_self]

theorem pocClearWords_status (n : Nat) : pocClearWords n (CAMIN_POC_STATUS n).addr = true := by
  rw [pocClearWords, inCam_of (by rw [pocStatus_addr]; omega) (by rw [pocStatus_addr]; omega), Bool.true_or]

theorem pocClearWords_fault (n : Nat) : pocClearWords n (CAMIN_POC_FAULT n).addr = true := by
  rw [pocClearWords, inCam_of (by rw [pocFault_addr]; omega) (by rw [pocFault_addr]; omega), Bool.true_or]

theorem pocFaultCleared_words (n : Nat) (s : State) : SameWords s (pocFaultCleared n s) (pocClearWords n) :=
  (SameWords.wr (pocClearWords_fault n) _ s).trans (SameWords.wr (by simp) _ _)

theorem fld_pocFaultCleared_status (n hi lo : Nat) (s : State) :
    fld (pocFaultCleared n s) (CAMIN_POC_STATUS n) hi lo = fld s (CAMIN_POC_STATUS n) hi lo := by
  rw [pocFaultCleared, clearMask, fld_wr_ne (ne_of_shared (by decide) (le_pocStatus_addr n)), clearMask, fld_wr_ne (pocStatus_ne_pocFault n)]

theorem clearPocFault_spec {n : Nat} {s : State} (hbits : rd s (CAMIN_POC_FAULT n) < 128) (hstate : pocState s n = 5)
    (hcmd : fld s (CAMIN_POC_CTRL n) 1 0 = 2) : let t := clearPocFault n 0x7F s
    rd t (CAMIN_POC_FAULT n) = 0 ∧ pocState t n = 1 ∧ fld t (CAMIN_POC_STATUS n) 5 4 = fld s (CAMIN_POC_STATUS n) 5 4 ∧
      t = { s with regs := t.regs } ∧ SameWords s t (pocClearWords n) := by
  obtain ⟨hnone, hramp⟩ := clearPocFault_on hbits hstate hcmd
  have hstatus := pocClearWords_status n
  dsimp only
  rw [hramp]
  refine ⟨?_, pocState_setFld_state (by decide) n _, ?_, rfl, ?_⟩
  · rw [rd_setFld_ne (pocStatus_ne_pocFault n).symm, hnone]
  · rw [fld_pocStatus_above (by decide) (by decide) (by decide), fld_pocStatus_above (by decide) (by decide) (by decide),
      fld_pocFaultCleared_status]
  · exact (pocFaultCleared_words n s).trans ((SameWords.setFld hstatus 2 0 0 _).trans (SameWords.setFld hstatus 2 0 1 _))

/-- What a write of POC_FAULT does before the bits are cleared: the count of retries ends (R97). -/
def retriesEnded (n : Nat) (s : State) : State := setFld (CAMIN_POC_STATUS n) 5 4 0 (modCam n (fun c => { c with retryAt := none }) s)

theorem exec_pocFaultClear {n v : Nat} (hn : n < 16) (hall : bits v 6 0 = 0x7F) (s : State) :
    exec (.pocFaultClear n v 0) s = .next (clearPocFault n 0x7F (retriesEnded n s)) := by
  change execPocFaultClear n v 0 s = _
  rw [execPocFaultClear, if_neg (Nat.not_le.2 hn), hall]
  rfl

theorem completes_pocFaultClear {n v : Nat} {s : State} (hn : n < 16) (hall : bits v 6 0 = 0x7F) (hbits : rd s (CAMIN_POC_FAULT n) < 128)
    (hstate : pocState s n = 5) (hcmd : fld s (CAMIN_POC_CTRL n) 1 0 = 2) : Completes (.pocFaultClear n v 0) s (fun t =>
      rd t (CAMIN_POC_FAULT n) = 0 ∧ pocState t n = 1 ∧ fld t (CAMIN_POC_STATUS n) 5 4 = 0 ∧
      t = { s with regs := t.regs, cam.ports := t.cam.ports } ∧ SameWords s t (pocClearWords n)) := by
  have hfault : rd (retriesEnded n s) (CAMIN_POC_FAULT n) = rd s (CAMIN_POC_FAULT n) := rd_setFld_ne (pocStatus_ne_pocFault n).symm 5 4 0 _
  have hctrl : fld (retriesEnded n s) (CAMIN_POC_CTRL n) 1 0 = fld s (CAMIN_POC_CTRL n) 1 0 := fld_wr_ne (pocStatus_ne_pocCtrl n).symm 1 0 _ _
  have hstill : pocState (retriesEnded n s) n = pocState s n := fld_pocStatus_below (by decide) (by decide) (by decide) n 0 _
  have hcount : fld (retriesEnded n s) (CAMIN_POC_STATUS n) 5 4 = 0 := fld_pocStatus_same (by decide) (by decide) n 0 _
  obtain ⟨hnone, hramp, hkept, hframe, hwords⟩ := clearPocFault_spec (Nat.lt_of_le_of_lt (Nat.le_of_eq hfault) hbits)
    (hstill.trans hstate) (hctrl.trans hcmd)
  refine ⟨_, exec_pocFaultClear hn hall s, hnone, hramp, hkept.trans hcount, ?_, ?_⟩
  · rw [hframe]
    rfl
  · exact (SameWords.setFld (pocClearWords_status n) 5 4 0 (modCam n _ s)).trans hwords

/-- The time of a retry is kept, so that a fault soon after it counts it as failed (R97). -/
def retryTimed (n : Nat) (s : State) : State := modCam n (fun c => { c with retryAt := some s.ridge.ns }) s

theorem exec_pocAutoRetry {n : Nat} {s : State} (hn : n < 16) (hstate : pocState s n = 5) (hauto : bit (rd s (CAMIN_POC_CTRL n)) 2 = true)
    (hwaited : (cam s n).faultAt + 1000000000 ≤ s.ridge.ns) : exec (.pocAutoRetry n) s = .next (clearPocFault n 0x7F (retryTimed n s)) := by
  change execPocAutoRetry n s = _
  rw [execPocAutoRetry, if_neg, retryTimed]
  simp [hstate, hauto, Nat.not_le.2 hn, Nat.not_lt.2 hwaited]

theorem completes_pocAutoRetry {n : Nat} {s : State} (hn : n < 16) (hstate : pocState s n = 5) (hauto : bit (rd s (CAMIN_POC_CTRL n)) 2 = true)
    (hwaited : (cam s n).faultAt + 1000000000 ≤ s.ridge.ns) (hbits : rd s (CAMIN_POC_FAULT n) < 128)
    (hcmd : fld s (CAMIN_POC_CTRL n) 1 0 = 2) : Completes (.pocAutoRetry n) s (fun t =>
      rd t (CAMIN_POC_FAULT n) = 0 ∧ pocState t n = 1 ∧ (cam t n).retryAt = some s.ridge.ns ∧
      t = { s with regs := t.regs, cam.ports := t.cam.ports } ∧ SameWords s t (pocClearWords n)) := by
  obtain ⟨hnone, hramp, -, hframe, hwords⟩ := clearPocFault_spec (s := retryTimed n s) hbits hstate hcmd
  have hcam : (clearPocFault n 0x7F (retryTimed n s)).cam = (retryTimed n s).cam := by rw [hframe]
  refine ⟨_, exec_pocAutoRetry hn hstate hauto hwaited, hnone, hramp, ?_, ?_, hwords⟩
  · rw [cam, hcam, ← cam, retryTimed, modCam, cam_putCam_same]
  · rw [hframe]
    rfl

/-- Settles O14: the commands of the switch come down to the ramp toward the commanded level, and a fault to its bits, the state FAULT and
the loss of the link, of which the work that the Scribe then does leaves the camera's words. -/
theorem cameraPower : Obligations.CameraPower :=
  ⟨fun s _ _ hn _ hcmd => completes_pocCommand hn hcmd s,
    fun _ _ mv ma vpoc hn hramp => completes_pocRampComplete hn hramp mv ma vpoc,
    fun _ _ _ hn hc => completes_pocFaultDetected hn hc,
    fun _ _ _ hn hall hbits hstate hcmd => completes_pocFaultClear hn hall hbits hstate hcmd,
    fun _ _ hn hstate hauto hwaited hbits hcmd => completes_pocAutoRetry hn hstate hauto hwaited hbits hcmd⟩

end Sys2Proof.Machine
end

section
/-! PROOF. Firmware slots and adapter images (R122, R123, R496, R500, R526, R612–R614): what an answered command leaves and its first
result, what a write of a slot's record leaves, and the cases of each command. -/

namespace Sys2Proof.Machine
open Sys2Proof

/-! ### Answering a command that is ready (R424–R426) -/

theorem immediate_of_ready {f k op : Nat} {s : State} (h : Ready f k op s) (act : State → Ans) :
    immediate f k op act s = answer f k (act s).status (act s).detail (act s).res (act s).st := by
  obtain ⟨hacc, hserves, -, -⟩ := h
  simp [immediate, isAccepted, hacc, hserves]

/-- A ready command that answers `a`, and whose effect leaves the accepted entries, is answered so. -/
theorem immediate_spec {f k op : Nat} {act : State → Ans} {a : Ans} {s : State} (h : Ready f k op s) (ha : act s = a)
    (hacc : a.st.mb.accepted = s.mb.accepted) (hst : a.status < 65536) (hlen : (packRes a.res []).length ≤ 80) :
    Answered f k a.status (immediate f k op act s) ∧ AfterAnswer f k a.st (immediate f k op act s) ∧
      ∀ i, i < 96 → byteAt (immediate f k op act s) (slotAddr f k + 128 + i) =
        ((responseBytes (2 * b2n (reservedNonzero a.st f k op)) a.status (slotNat a.st f k 4 4) a.detail a.res).getD i 0).toNat := by
  rw [immediate_of_ready h, ha]
  obtain ⟨haccepted, -, -, hk⟩ := h
  have hentry : tget (16 * f + k) a.st.mb.accepted = some { opcode := op } := by rw [hacc, haccepted]
  have hspec := answer_spec (detail := a.detail) hk hst hlen hentry rfl
  dsimp only at hspec
  exact hspec

theorem answers_of_act {i : Instr} {f k op : Nat} {act : State → Ans} {a : Ans} {s : State}
    (hexec : exec i s = .next (immediate f k op act s)) (h : Ready f k op s) (ha : act s = a)
    (hacc : a.st.mb.accepted = s.mb.accepted) (hst : a.status < 65536) (hlen : (packRes a.res []).length ≤ 80) :
    Answers i f k a.status s a.st := by
  obtain ⟨hanswered, hafter, -⟩ := immediate_spec h ha hacc hst hlen
  exact ⟨_, hexec, hanswered, hafter⟩

/-- A refusal has no effect (R430). -/
theorem answers_refusal {i : Instr} {f k op st detail : Nat} {act : State → Ans} {s : State}
    (hexec : exec i s = .next (immediate f k op act s)) (h : Ready f k op s) (ha : act s = no st detail s) (hst : st < 65536) :
    Answers i f k st s s := answers_of_act (a := no st detail s) hexec h ha rfl hst (Nat.zero_le _)

theorem byteAt_lt (t : State) (x : Nat) : byteAt t x < 256 :=
  Nat.lt_of_lt_of_eq (bits_lt _ _ _) (congrArg (2 ^ ·) (by omega : 8 * (x % 4) + 7 + 1 - 8 * (x % 4) = 8))

/-- Once the command is answered, its slot reads as the words of the page show it. -/
theorem result_byte {t : State} {f k : Nat} (h : tget (16 * f + k) t.mb.accepted = none) (o : Nat) :
    result t f k o 1 = byteAt t (slotAddr f k + (144 + o)) := by
  have halign : (144 + o) % 4 = (slotAddr f k + (144 + o)) % 4 := by
    unfold slotAddr
    omega
  have hslot : slotByte t f k (144 + o) = byteAt t (slotAddr f k + (144 + o)) := by simp only [slotByte, h, Option.bind_none, byteAt, halign]
  simp [result, slotNat, slotBytes, leNat, hslot, Nat.mod_eq_of_lt (byteAt_lt _ _)]

theorem packRes_r8 (v : Nat) : packRes [r8 v] [] = [BitVec.ofNat 8 v] := rfl

theorem responseBytes_r8 (flags status tag detail v : Nat) :
    ((responseBytes flags status tag detail [r8 v]).getD 16 0).toNat = v % 256 := by
  simp [responseBytes, packRes_r8, leBytes]

/-- A command that answers one byte of results: what holds of every state with that answer holds of the state that it leaves. -/
theorem completes_r8 {i : Instr} {f k op v : Nat} {act : State → Ans} {s u : State} {P : State → Prop}
    (hexec : exec i s = .next (immediate f k op act s)) (h : Ready f k op s) (ha : act s = ok [r8 v] u)
    (hacc : u.mb.accepted = s.mb.accepted) (hv : v < 256)
    (hP : ∀ t, Answered f k 0 t → AfterAnswer f k u t → result t f k 0 1 = v → P t) : Completes i s P := by
  obtain ⟨hanswered, hafter, hbytes⟩ := immediate_spec (a := ok [r8 v] u) h ha hacc (by decide : 0 < 65536) (by decide : 1 ≤ 80)
  refine ⟨_, hexec, hP _ hanswered hafter ?_⟩
  rw [result_byte hanswered.1, ← Nat.add_assoc]
  have hfirst := hbytes 16 (by decide)
  exact hfirst.trans ((responseBytes_r8 ..).trans (Nat.mod_eq_of_lt hv))

/-! ### Containers (R495, R496) -/

theorem boxPart_lt (c : List Byte) (o : Nat) : boxPart c o 1 < 256 := by
  calc boxPart c o 1 < 256 ^ ((c.drop o).take 1).length := leNat_lt _
    _ ≤ 256 ^ 1 := Nat.pow_le_pow_right (by decide) (List.length_take_le _ _)

/-- A check that fails gives its status, and else those that follow decide. -/
theorem status_lt_ite {p : Prop} [Decidable p] {c : Nat} {rest : Option Nat} (hc : c < 65536) (hrest : ∀ st ∈ rest, st < 65536) :
    ∀ st ∈ (if p then some c else rest), st < 65536 := by
  split
  · rintro st ⟨⟩
    exact hc
  · exact hrest

theorem boxStatus_lt {s : State} {kind st : Nat} {c : List Byte} (h : boxStatus s kind c = some st) : st < 65536 := by
  have hnone : ∀ st ∈ (none : Option Nat), st < 65536 := nofun
  unfold boxStatus at h
  revert h
  exact status_lt_ite (by decide) (status_lt_ite (by decide) (status_lt_ite (by decide) (status_lt_ite (by decide) (status_lt_ite (by decide)
    (status_lt_ite (by decide) (status_lt_ite (by decide) (status_lt_ite (by decide) hnone))))))) st

theorem boxAt_refused_lt {s : State} {f kind a n c : Nat} (h : boxAt s f kind a n = .inl c) : c < 65536 := by
  unfold boxAt at h
  split at h
  · cases h
    decide
  · split at h
    · cases h
      exact boxStatus_lt ‹_›
    · cases h

/-! ### Slot records (R610) -/

theorem fwSlot_putFwSlot_same (k : Nat) (x : FwSlot) (s : State) :
    fwSlot (putFwSlot k x s) k = { x with writes := (fwSlot s k).writes + 1 } := by
  rcases Nat.eq_zero_or_pos k with rfl | hk
  · rfl
  · simp [fwSlot, putFwSlot, Nat.ne_of_gt hk]

theorem fwSlot_putFwSlot_other {k : Nat} (hk : k < 2) (x : FwSlot) (s : State) : fwSlot (putFwSlot k x s) (1 - k) = fwSlot s (1 - k) := by
  match k, hk with
  | 0, _ => rfl
  | 1, _ => rfl

theorem putFwSlot_frame (k : Nat) (x : FwSlot) (s : State) : putFwSlot k x s =
    { s with fw := { s.fw with slotA := (putFwSlot k x s).fw.slotA, slotB := (putFwSlot k x s).fw.slotB } } := by
  unfold putFwSlot
  split <;> rfl

theorem fwSlot_fw {s t : State} (h : t.fw = s.fw) (k : Nat) : fwSlot t k = fwSlot s k := by rw [fwSlot, h, fwSlot]

/-! ### FW_STAGE and FW_ACTIVATE (R496, R526, R612, R613) -/

/-- The slot that FW_STAGE writes. -/
def stageSlot (s : State) : Nat := if s.fw.recovery then 0 else 1 - s.fw.running

theorem stageSlot_lt (s : State) : stageSlot s < 2 := by
  unfold stageSlot
  split <;> omega

/-- In recovery a container that has been written makes the package reset due. -/
def resetDue (s : State) : State := if s.fw.recovery then { s with fw.recoverAt := some s.ridge.ns } else s

theorem resetDue_frame (s : State) : resetDue s = { s with fw.recoverAt := (resetDue s).fw.recoverAt } := by
  unfold resetDue
  split <;> rfl

/-- A verified container stands in its slot, which in recovery is on trial. -/
def boxStaged (box : List Byte) (s : State) : State :=
  let x := fwSlot s (stageSlot s)
  resetDue (putFwSlot (stageSlot s) { x with
    valid := true, box := box, state := if s.fw.recovery then 1 else x.state, boots := if s.fw.recovery then 0 else x.boots } s)

theorem boxStaged_accepted (box : List Byte) (s : State) : (boxStaged box s).mb.accepted = s.mb.accepted := by
  rw [boxStaged, resetDue_frame, putFwSlot_frame]

/-- Staging writes one slot; the other slot and the one that runs stay. -/
theorem boxStaged_slots (box : List Byte) (s : State) : let t := boxStaged box s
    (fwSlot t (stageSlot s)).box = box ∧ (fwSlot t (stageSlot s)).valid = true ∧
      (fwSlot t (stageSlot s)).state = (if s.fw.recovery then 1 else (fwSlot s (stageSlot s)).state) ∧
      fwSlot t (1 - stageSlot s) = fwSlot s (1 - stageSlot s) ∧ t.fw.running = s.fw.running := by
  have hslot : ∀ u j, fwSlot (resetDue u) j = fwSlot u j := fun u j => by
    rw [resetDue_frame]
    rfl
  simp only [boxStaged, hslot, fwSlot_putFwSlot_same, fwSlot_putFwSlot_other (stageSlot_lt s), true_and]
  rw [resetDue_frame, putFwSlot_frame]

theorem answers_fwStage_tooLarge {s : State} {f k : Nat} (h : Ready f k 0x0B01 s) (hn : 2 ^ 30 < param s f k 0x0B01 1) :
    Answers (.fwStage f k) f k 0x1006 s s :=
  answers_refusal rfl h (if_pos hn) (by decide)

theorem answers_fwStage_refused {s : State} {f k c : Nat} (h : Ready f k 0x0B01 s) (hn : param s f k 0x0B01 1 ≤ 2 ^ 30)
    (hbox : boxAt s f 1 (param s f k 0x0B01 0) (param s f k 0x0B01 1) = .inl c) : Answers (.fwStage f k) f k c s s := by
  refine answers_refusal (detail := 0) rfl h ?_ (boxAt_refused_lt hbox)
  simp only [if_neg (Nat.not_lt.2 hn), hbox]

theorem completes_fwStage_written {s : State} {f k : Nat} {box : List Byte} (h : Ready f k 0x0B01 s) (hn : param s f k 0x0B01 1 ≤ 2 ^ 30)
    (hroom : metadataRefused s = false) (hbox : boxAt s f 1 (param s f k 0x0B01 0) (param s f k 0x0B01 1) = .inr box) :
    Completes (.fwStage f k) s (fun t => Answered f k 0 t ∧ result t f k 0 1 = stageSlot s ∧ (fwSlot t (stageSlot s)).box = box ∧
      (fwSlot t (stageSlot s)).valid = true ∧ (fwSlot t (stageSlot s)).state = (if s.fw.recovery then 1 else (fwSlot s (stageSlot s)).state) ∧
      fwSlot t (1 - stageSlot s) = fwSlot s (1 - stageSlot s) ∧ t.fw.running = s.fw.running) := by
  refine completes_r8 (v := stageSlot s) (u := boxStaged box s) rfl h ?_ (boxStaged_accepted box s)
    (Nat.lt_trans (stageSlot_lt s) (by decide)) ?_
  · simp only [if_neg (Nat.not_lt.2 hn), hbox, hroom, Bool.false_eq_true, if_false]
    rfl
  · intro t hanswered hafter hresult
    have hfw : t.fw = (boxStaged box s).fw := by rw [hafter.1]
    simp only [fwSlot_fw hfw, hfw]
    exact ⟨hanswered, hresult, boxStaged_slots box s⟩

theorem answers_fwActivate_invalid {s : State} {f k : Nat} (h : Ready f k 0x0B02 s) (hx : (fwSlot s (1 - s.fw.running)).valid = false) :
    Answers (.fwActivate f k) f k 0x1202 s s := by
  refine answers_refusal (detail := 0) rfl h ?_ (by decide)
  simp only [hx, Bool.not_false, if_true]

/-- A switch to a slot whose container is unknown is staged. -/
theorem answers_fwActivate_staged {s : State} {f k : Nat} (h : Ready f k 0x0B02 s) (hx : (fwSlot s (1 - s.fw.running)).valid = true)
    (hbox : (fwSlot s (1 - s.fw.running)).box = []) : Answers (.fwActivate f k) f k 0 s { s with fw.staged := true } := by
  refine answers_of_act (a := ok [] { s with fw.staged := true }) rfl h ?_ rfl (by decide : 0 < 65536) (Nat.zero_le _)
  simp only [hx, hbox, Bool.not_true, Bool.false_eq_true, if_false, if_true]

theorem answers_fwActivate_refused {s : State} {f k c : Nat} (h : Ready f k 0x0B02 s)
    (hc : boxStatus s 1 (fwSlot s (1 - s.fw.running)).box = some c) (hx : (fwSlot s (1 - s.fw.running)).valid = true)
    (hbox : (fwSlot s (1 - s.fw.running)).box ≠ []) : Answers (.fwActivate f k) f k c s s := by
  refine answers_refusal (detail := 0) rfl h ?_ (boxStatus_lt hc)
  simp only [hx, hbox, hc, Bool.not_true, Bool.false_eq_true, if_false]

/-! ### ADAPTER_STORE and ADAPTER_STAGE (R122, R123, R496, R526) -/

theorem answers_adapterStore_native {s : State} {f k : Nat} {image : AdapterImage} (h : Ready f k 0x0B03 s) (ha : param s f k 0x0B03 2 = 0) :
    Answers (.adapterStore f k image) f k 0x1006 s s :=
  answers_refusal rfl h (if_pos ha) (by decide)

theorem answers_adapterStore_refused {s : State} {f k c : Nat} {image : AdapterImage} (h : Ready f k 0x0B03 s)
    (ha : param s f k 0x0B03 2 ≠ 0) (hbox : boxAt s f 2 (param s f k 0x0B03 0) (param s f k 0x0B03 1) = .inl c) :
    Answers (.adapterStore f k image) f k c s s := by
  refine answers_refusal (detail := 0) rfl h ?_ (boxAt_refused_lt hbox)
  simp only [if_neg ha, hbox]

/-- An image is stored with its container and at most 16 templates. -/
def imageStored (a : Nat) (image : AdapterImage) (box : List Byte) (s : State) : State :=
  { s with yard.adapters := tput a { image with templates := image.templates.take 16, box := box } s.yard.adapters }

theorem completes_adapterStore_stored {s : State} {f k : Nat} {image : AdapterImage} {box : List Byte} (h : Ready f k 0x0B03 s)
    (ha : param s f k 0x0B03 2 ≠ 0) (hmount : unmountable s = false) (hroom : metadataRefused s = false)
    (hbox : boxAt s f 2 (param s f k 0x0B03 0) (param s f k 0x0B03 1) = .inr box) :
    Completes (.adapterStore f k image) s (fun t => Answered f k 0 t ∧
      tget (param s f k 0x0B03 2) t.yard.adapters = some { image with templates := image.templates.take 16, box := box } ∧
      t.yard.models = s.yard.models) := by
  obtain ⟨t, hexec, hanswered, hafter⟩ : Answers (.adapterStore f k image) f k 0 s (imageStored (param s f k 0x0B03 2) image box s) := by
    refine answers_of_act (a := ok [] (imageStored (param s f k 0x0B03 2) image box s)) rfl h ?_ rfl (by decide : 0 < 65536) (Nat.zero_le _)
    simp only [if_neg ha, hbox, hmount, hroom, Bool.false_eq_true, if_false]
    rfl
  refine ⟨t, hexec, hanswered, ?_, ?_⟩
  · rw [hafter.1]
    exact tget_tput_same _ _ _
  · rw [hafter.1]
    rfl

theorem answers_adapterStage_badPort {s : State} {f k : Nat} (h : Ready f k 0x0B04 s) (hp : 7 < param s f k 0x0B04 0) :
    Answers (.adapterStage f k) f k 0x1006 s s :=
  answers_refusal rfl h (if_pos hp) (by decide)

theorem answers_adapterStage_unknown {s : State} {f k : Nat} (h : Ready f k 0x0B04 s) (hp : param s f k 0x0B04 0 ≤ 7)
    (ha : param s f k 0x0B04 1 ≠ 0) (hnone : tget (param s f k 0x0B04 1) s.yard.adapters = none) :
    Answers (.adapterStage f k) f k 0x1007 s s := by
  refine answers_refusal (detail := 0) rfl h ?_ (by decide)
  simp only [if_neg (Nat.not_lt.2 hp), if_neg ha, hnone]

theorem answers_adapterStage_native {s : State} {f k : Nat} (h : Ready f k 0x0B04 s) (hp : param s f k 0x0B04 0 ≤ 7)
    (ha : param s f k 0x0B04 1 = 0) : Answers (.adapterStage f k) f k 0 s { s with
      net.staged.adapters := tdel (param s f k 0x0B04 0) s.net.staged.adapters, net.reload := linsert (param s f k 0x0B04 0) s.net.reload } := by
  refine answers_of_act (a := ok [] _) rfl h ?_ rfl (by decide : 0 < 65536) (Nat.zero_le _)
  simp only [if_neg (Nat.not_lt.2 hp), if_pos ha]

/-! ### The switch between the slots (R613) -/

theorem completes_kingpostFwSwitch_waits {s : State} (h : s.fw.switching = none ∨ s.kp.running.isSome = true) :
    Completes .kingpostFwSwitch s (fun t => t = s) := by
  refine ⟨s, ?_, rfl⟩
  change execKingpostFwSwitch s = _
  unfold execKingpostFwSwitch
  split
  · rfl
  · rename_i hk
    rw [hk] at h
    rw [if_pos (h.resolve_left nofun)]

/-- BOOT_STATE shows the slot that runs and the floor of its image. -/
theorem runImage_bootState {k : Nat} (hk : k < 2) (s : State) : fld (runImage k s) KINGPOST_BOOT_STATE 0 0 = k ∧
    fld (runImage k s) KINGPOST_BOOT_STATE 31 24 = boxPart (fwSlot s k).box 8 1 := by
  have hword : rd (runImage k s) KINGPOST_BOOT_STATE = rd (setFld KINGPOST_BOOT_STATE 31 24 (boxPart (fwSlot s k).box 8 1)
    (setFld KINGPOST_BOOT_STATE 23 16 (boxPart (fwSlot s k).box 7 1)
      (setFld KINGPOST_BOOT_STATE 0 0 k (setFld KINGPOST_BOOT_STATE 15 8 s.sec.fuses.secCounter s)))) KINGPOST_BOOT_STATE :=
    rd_regs _ rfl
  constructor
  · rw [fld, hword, ← fld, fld_setFld_below (by decide) (by decide) (by decide) (by decide),
      fld_setFld_below (by decide) (by decide) (by decide) (by decide), fld_setFld_same (by decide) (by decide) (by decide)]
    exact Nat.mod_eq_of_lt hk
  · rw [fld, hword, ← fld, fld_setFld_same (by decide) (by decide) (by decide)]
    exact Nat.mod_eq_of_lt (boxPart_lt _ _)

theorem completes_kingpostFwSwitch_switches {s : State} {k : Nat} (hs : s.fw.switching = some k) (hk : k < 2) (hidle : s.kp.running = none) :
    Completes .kingpostFwSwitch s (fun t => t.fw = { s.fw with switching := none, running := k } ∧ fld t KINGPOST_BOOT_STATE 0 0 = k ∧
      fld t KINGPOST_BOOT_STATE 31 24 = boxPart (fwSlot s k).box 8 1 ∧ t.sec.raised = false ∧ t.sec.fuses = s.sec.fuses ∧ t.mem = s.mem) := by
  refine ⟨raise 0xA032 k (runImage k { s with fw.switching := none }), ?_, ?_⟩
  · change execKingpostFwSwitch s = _
    unfold execKingpostFwSwitch
    simp only [hs, hidle, Option.isSome_none, Bool.false_eq_true, if_false]
  · obtain ⟨hslot, hfloor⟩ := runImage_bootState hk { s with fw.switching := none }
    have hword := (Logged.raise 0xA032 k (runImage k { s with fw.switching := none })).2.rd (r := KINGPOST_BOOT_STATE) rfl
    rw [raise_fw, raise_sec, raise_mem, fld, fld, hword]
    exact ⟨rfl, hslot, hfloor, rfl, rfl, rfl⟩

/-! ### Trials (R500, R613, R614) -/

theorem completes_fwTrialConfirm_noTrial {s : State} (h : s.fw.trial = none) : Completes .fwTrialConfirm s (fun t => t = s) := by
  refine ⟨s, ?_, rfl⟩
  change execFwTrialConfirm s = _
  simp only [execFwTrialConfirm, h]

theorem completes_fwTrialConfirm_early {s : State} {x : Nat} (h : s.fw.trial = some x) (hearly : s.ridge.ns < x + 60000000000) :
    Completes .fwTrialConfirm s (fun t => t = s) := by
  refine ⟨s, ?_, rfl⟩
  change execFwTrialConfirm s = _
  simp only [execFwTrialConfirm, h, hearly, decide_true, Bool.true_or, if_true]

theorem raiseCounter_frame (s : State) : (raiseCounter s).fw = s.fw ∧ (raiseCounter s).sec.raised = true := by
  unfold raiseCounter
  dsimp only
  rw [raise_fw, raise_sec]
  exact ⟨rfl, rfl⟩

/-- The security counter is raised once for an image that runs. -/
def counterRaised (s : State) : State := if s.sec.raised then s else raiseCounter s

theorem counterRaised_frame (s : State) : (counterRaised s).fw = s.fw ∧ (counterRaised s).sec.raised = true := by
  unfold counterRaised
  split
  · exact ⟨rfl, ‹_›⟩
  · exact raiseCounter_frame s

/-- The slot that runs is confirmed above the other's sequence, and its trial ends. -/
def slotConfirmed (s : State) : State :=
  putFwSlot s.fw.running { fwSlot s s.fw.running with state := 2, seq := (fwSlot s (1 - s.fw.running)).seq + 1 } { s with fw.trial := none }

theorem slotConfirmed_spec {s : State} (hk : s.fw.running < 2) : (fwSlot (slotConfirmed s) s.fw.running).state = 2 ∧
    (fwSlot (slotConfirmed s) s.fw.running).seq = (fwSlot s (1 - s.fw.running)).seq + 1 ∧
    fwSlot (slotConfirmed s) (1 - s.fw.running) = fwSlot s (1 - s.fw.running) ∧ (slotConfirmed s).fw.trial = none := by
  rw [slotConfirmed, fwSlot_putFwSlot_same, fwSlot_putFwSlot_other hk, putFwSlot_frame]
  exact ⟨rfl, rfl, rfl, rfl⟩

theorem exec_fwTrialConfirm {s : State} {x : Nat} (h : s.fw.trial = some x) (hran : x + 60000000000 ≤ s.ridge.ns)
    (hup : s.mb.foremanUp = true) (hno : s.fw.switching = none) (htrial : (fwSlot s s.fw.running).state = 1) :
    exec .fwTrialConfirm s = .next (counterRaised (raise 0xA034 s.fw.running (slotConfirmed s))) := by
  change execFwTrialConfirm s = _
  unfold execFwTrialConfirm
  dsimp only
  rw [h]
  dsimp only
  rw [if_neg (by simp [hup, hno, htrial, Nat.not_lt.2 hran])]
  rfl

theorem completes_fwTrialConfirm_confirms {s : State} {x : Nat} (h : s.fw.trial = some x) (hran : x + 60000000000 ≤ s.ridge.ns)
    (hup : s.mb.foremanUp = true) (hno : s.fw.switching = none) (hk : s.fw.running < 2) (htrial : (fwSlot s s.fw.running).state = 1) :
    Completes .fwTrialConfirm s (fun t => (fwSlot t s.fw.running).state = 2 ∧
      (fwSlot t s.fw.running).seq = (fwSlot s (1 - s.fw.running)).seq + 1 ∧ fwSlot t (1 - s.fw.running) = fwSlot s (1 - s.fw.running) ∧
      t.fw.trial = none ∧ t.sec.raised = true) := by
  refine ⟨_, exec_fwTrialConfirm h hran hup hno htrial, ?_⟩
  obtain ⟨hfw, hraised⟩ := counterRaised_frame (raise 0xA034 s.fw.running (slotConfirmed s))
  rw [raise_fw] at hfw
  obtain ⟨hstate, hseq, hother, htrial'⟩ := slotConfirmed_spec hk
  rw [fwSlot_fw hfw, fwSlot_fw hfw, hfw]
  exact ⟨hstate, hseq, hother, htrial', hraised⟩

/-- The slot of a failed trial is rejected, which is an event. -/
def slotRejected (k : Nat) (s : State) : State := raise 0xA033 k (putFwSlot k { fwSlot s k with state := 3 } s)

/-- Foreman is down and the trial of slot `k` is over; if that slot runs, Kingpost has still to switch to the other. -/
def returning (k : Nat) (s : State) : State :=
  setForemanUp false { s with fw := { s.fw with
    trial := none, switchedAt := s.ridge.ns, switching := if s.fw.running = k then some (1 - k) else none } }

theorem returning_spec (k : Nat) (s : State) : (∀ j, fwSlot (returning k s) j = fwSlot s j) ∧ (returning k s).fw.trial = none ∧
    (returning k s).fw.switching = (if s.fw.running = k then some (1 - k) else none) ∧ (returning k s).fw.switchedAt = s.ridge.ns ∧
    (returning k s).mb = { s.mb with foremanUp := false } ∧ (returning k s).mem = s.mem :=
  ⟨fun _ => rfl, rfl, rfl, rfl, rfl, rfl⟩

theorem slotRejected_spec {k : Nat} (hk : k < 2) (s : State) : (fwSlot (slotRejected k s) k).state = 3 ∧
    fwSlot (slotRejected k s) (1 - k) = fwSlot s (1 - k) ∧ (slotRejected k s).fw.running = s.fw.running ∧
    (slotRejected k s).ridge = s.ridge ∧ (slotRejected k s).mb = s.mb ∧ (slotRejected k s).mem = s.mem := by
  have hslot : ∀ j, fwSlot (slotRejected k s) j = fwSlot (putFwSlot k { fwSlot s k with state := 3 } s) j := fwSlot_fw (raise_fw ..)
  rw [hslot, hslot, fwSlot_putFwSlot_same, fwSlot_putFwSlot_other hk, slotRejected, raise_fw, raise_ridge, raise_mb, raise_mem, putFwSlot_frame]
  exact ⟨rfl, rfl, rfl, rfl, rfl, rfl⟩

theorem exec_fwTrialRevert {s : State} {x : Nat} (h : s.fw.trial = some x) (hearly : s.ridge.ns < x + 60000000000)
    (hdown : s.mb.foremanUp = false) (hno : s.fw.switching = none) (htrial : (fwSlot s s.fw.running).state = 1)
    (hvalid : (fwSlot s (1 - s.fw.running)).valid = true) (hold : (fwSlot s (1 - s.fw.running)).state = 2) :
    exec (.fwTrialRevert false) s = .next (returning s.fw.running (slotRejected s.fw.running s)) := by
  have hslot : trialSlot s = s.fw.running := by rw [trialSlot, hno, Option.getD_none]
  have hin : (s.fw.trial.all fun t => decide (s.ridge.ns < t + 60000000000)) = true := by
    rw [h, Option.all_some]
    exact decide_eq_true hearly
  rw [← hslot] at htrial hvalid hold ⊢
  change execFwTrialRevert false s = _
  unfold returning slotRejected
  refine if_neg ?_
  rw [hin]
  simp [h, hdown, htrial, hvalid, hold]

theorem completes_fwTrialRevert_reverts {s : State} {x : Nat} (h : s.fw.trial = some x) (hearly : s.ridge.ns < x + 60000000000)
    (hdown : s.mb.foremanUp = false) (hno : s.fw.switching = none) (hk : s.fw.running < 2) (htrial : (fwSlot s s.fw.running).state = 1)
    (hvalid : (fwSlot s (1 - s.fw.running)).valid = true) (hold : (fwSlot s (1 - s.fw.running)).state = 2) :
    Completes (.fwTrialRevert false) s (fun t => (fwSlot t s.fw.running).state = 3 ∧ fwSlot t (1 - s.fw.running) = fwSlot s (1 - s.fw.running) ∧
      t.fw.trial = none ∧ t.fw.switching = some (1 - s.fw.running) ∧ t.fw.switchedAt = s.ridge.ns ∧ t.mb = s.mb ∧ t.mem = s.mem) := by
  refine ⟨_, exec_fwTrialRevert h hearly hdown hno htrial hvalid hold, ?_⟩
  obtain ⟨hstate, hother, hrunning, hridge, hmb, hmem⟩ := slotRejected_spec hk s
  obtain ⟨hslot, htrial', hswitching, hat, hmb', hmem'⟩ := returning_spec s.fw.running (slotRejected s.fw.running s)
  rw [hslot, hslot, htrial', hswitching, if_pos hrunning, hat, hridge, hmb', hmb, hmem', hmem]
  refine ⟨hstate, hother, rfl, rfl, rfl, ?_, rfl⟩
  rw [← hdown]

end Sys2Proof.Machine
end

section
/-! PROOF. The package reset that Kingpost makes at the end of recovery (R490, R596, R604, R608–R612): what the reset keeps and clears, what
any boot leaves and shows, whatever its dies and slots are like, and the statement about firmware and adapters. -/

namespace Sys2Proof.Machine
open Sys2Proof

/-! ### Events and pages (R587, R595) -/

theorem Logged.raiseX (c a x : Nat) (s : State) : Logged s (raiseX c a x s) := by
  unfold Machine.raiseX
  exact Logged.ite ((Logged.occur _ _ _ _).trans (Logged.occur _ _ _ _)) (Logged.occur _ _ _ _)

/-- What a package reset keeps: the commands still to come, NAND, the cap, and the owner secret's check value (R490). -/
def Kept (s t : State) : Prop :=
  t.pending = s.pending ∧ t.yard.blocks = s.yard.blocks ∧ t.yard.models = s.yard.models ∧ t.power.retained.cap = s.power.retained.cap ∧
    t.sec.check = s.sec.check

theorem Kept.refl (s : State) : Kept s s := ⟨rfl, rfl, rfl, rfl, rfl⟩

theorem Kept.ite {p : Prop} [Decidable p] {s a b : State} (ha : Kept s a) (hb : Kept s b) : Kept s (if p then a else b) := by
  split
  · exact ha
  · exact hb

theorem Kept.trans {s t u : State} (h : Kept s t) (k : Kept t u) : Kept s u := by
  obtain ⟨hpending, hblocks, hmodels, hcap, hcheck⟩ := h
  obtain ⟨kpending, kblocks, kmodels, kcap, kcheck⟩ := k
  exact ⟨kpending.trans hpending, kblocks.trans hblocks, kmodels.trans hmodels, kcap.trans hcap, kcheck.trans hcheck⟩

theorem Kept.reported {s t : State} (h : Reported s t) : Kept s t := by
  rw [h.1]
  exact ⟨rfl, rfl, rfl, rfl, rfl⟩

theorem Kept.commitPage (cause : Nat) (s : State) : Kept s (commitPage cause s) := by
  unfold Machine.commitPage
  refine Kept.ite (Kept.refl s) (Kept.ite (Kept.trans ?_ (Kept.reported (Reported.raise _ _ _))) ?_)
  · exact ⟨rfl, rfl, rfl, rfl, rfl⟩
  · exact ⟨rfl, rfl, rfl, rfl, rfl⟩

theorem Kept.endSession (code : Nat) (s : State) : Kept s (endSession code s) := ⟨rfl, rfl, rfl, rfl, rfl⟩

/-! ### What a boot leaves (R604, R607, R611, R612) -/

/-- Every word but that of the pair and that of the cause. -/
def atBoot (a : Nat) : Bool := decide (a ≠ NETIN_VLINK_STATE.addr ∧ a ≠ KINGPOST_RESET_CAUSE.addr)

theorem atBoot_above {a : Nat} (h : 0xE0204 < a) : atBoot a = true :=
  decide_eq_true ⟨Nat.ne_of_gt (Nat.lt_trans (by decide) h), Nat.ne_of_gt h⟩

theorem atBoot_between {a : Nat} (h : 0x33808 < a) (k : a < 0xE0204) : atBoot a = true := decide_eq_true ⟨Nat.ne_of_gt h, Nat.ne_of_lt k⟩

/-- From `s` to `t` a boot goes on: the dies, the recorder, the slots, Foreman and the Plinth may have changed, and of theirs neither the
owner secret's check value, nor the retained store, nor a reset that is due. -/
structure Booted (s t : State) : Prop where
  frame : t = { s with regs := t.regs, recd := t.recd, emitted := t.emitted, mb := t.mb, sec := t.sec, power := t.power, fw := t.fw }
  check : t.sec.check = s.sec.check
  retained : t.power.retained = s.power.retained
  recoverAt : t.fw.recoverAt = s.fw.recoverAt
  words : SameWords s t atBoot

namespace Booted

theorem refl (s : State) : Booted s s := ⟨rfl, rfl, rfl, rfl, SameWords.refl _ _⟩

theorem trans {s t u : State} (h : Booted s t) (k : Booted t u) : Booted s u where
  frame := by rw [k.frame, h.frame]
  check := k.check.trans h.check
  retained := k.retained.trans h.retained
  recoverAt := k.recoverAt.trans h.recoverAt
  words := h.words.trans k.words

theorem ite {p : Prop} [Decidable p] {s a b : State} (ha : Booted s a) (hb : Booted s b) : Booted s (if p then a else b) := by
  split
  · exact ha
  · exact hb

theorem foldl {β : Type} {g : State → β → State} (h : ∀ s b, Booted s (g s b)) (l : List β) (s : State) : Booted s (l.foldl g s) := by
  induction l generalizing s with
  | nil => exact refl _
  | cons b r ih => exact (h s b).trans (ih _)

theorem wr {r : Reg} (h : atBoot r.addr = true) (v : Nat) (s : State) : Booted s (wr r v s) := ⟨rfl, rfl, rfl, rfl, SameWords.wr h v s⟩

theorem setFld {r : Reg} (h : atBoot r.addr = true) (hi lo v : Nat) (s : State) : Booted s (setFld r hi lo v s) := Booted.wr h _ s

theorem logged {s t : State} (h : Logged s t) : Booted s t := by
  obtain ⟨hframe, hwords⟩ := h
  refine ⟨?_, ?_, ?_, ?_, hwords.mono ?_⟩
  · rw [hframe]
  · rw [hframe]
  · rw [hframe]
  · rw [hframe]
  · intro a ha
    obtain ⟨hlow, hhigh⟩ : 0xD0000 ≤ a ∧ a < 0xE0000 := by simpa [inRecorder] using ha
    exact atBoot_between (Nat.lt_of_lt_of_le (by decide) hlow) (Nat.lt_trans hhigh (by decide))

theorem raise (c a : Nat) (s : State) : Booted s (raise c a s) := logged (Logged.raise c a s)

theorem recd (s : State) (r : RecSt) : Booted s { s with recd := r } := logged (Logged.recd s r)

theorem putPlinth (p : Plinth) (s : State) : Booted s (putPlinth p s) :=
  ⟨rfl, rfl, rfl, rfl, SameWords.setFld rfl 2 0 _ { s with power.state := p }⟩

theorem setForemanUp (up : Bool) (s : State) : Booted s (setForemanUp up s) := ⟨rfl, rfl, rfl, rfl, setForemanUp_words rfl up s⟩

theorem booting (s : State) : Booted s (booting s) := ⟨rfl, rfl, rfl, rfl, booting_words rfl s⟩

theorem putFwSlot (k : Nat) (x : FwSlot) (s : State) : Booted s (putFwSlot k x s) := by
  rw [putFwSlot_frame]
  exact ⟨rfl, rfl, rfl, rfl, SameWords.of_regs rfl⟩

theorem expireTrial (b : BootResult) (s : State) (k : Nat) : Booted s (expireTrial b s k) :=
  ite ((Booted.putFwSlot _ _ s).trans (Booted.raise _ _ _)) (refl s)

theorem chooseSlot (b : BootResult) (n : Nat) (s : State) : Booted s (chooseSlot b n s).2 := by
  induction n generalizing s with
  | zero => exact refl s
  | succ n ih =>
    have hexpired : Booted s (Machine.expireTrial b (Machine.expireTrial b s 0) 1) := (expireTrial b s 0).trans (expireTrial b _ 1)
    rw [Machine.chooseSlot]
    dsimp only
    generalize Machine.expireTrial b (Machine.expireTrial b s 0) 1 = u at hexpired
    split
    · exact hexpired
    · rename_i k _
      have hcounted := hexpired.trans (ite (p := (fwSlot u k).state = 1)
        (Booted.putFwSlot k { fwSlot u k with boots := (fwSlot u k).boots + 1 } u) (refl u))
      generalize (if (fwSlot u k).state = 1 then Machine.putFwSlot k { fwSlot u k with boots := (fwSlot u k).boots + 1 } u else u) = v
        at hcounted
      split
      · exact hcounted
      · exact (hcounted.trans ((Booted.putFwSlot _ _ v).trans (setFld rfl 1 1 1 _))).trans
          (((Booted.raise _ _ _).trans (Booted.raise _ _ _)).trans (ih _))

theorem running (k r : Nat) (s : State) : Booted s { s with fw.running := k, sec.revoke := r, sec.raised := false } :=
  ⟨rfl, rfl, rfl, rfl, SameWords.of_regs rfl⟩

theorem runImage (k : Nat) (s : State) : Booted s (runImage k s) :=
  ((setFld rfl 15 8 _ s).trans (setFld rfl 0 0 k _)).trans (((setFld rfl 23 16 _ _).trans (setFld rfl 31 24 _ _)).trans (running k _ _))

theorem dieResults (b : BootResult) (s : State) : Booted s (dieResults b s) := by
  have hbay : ∀ n, atBoot (BAY_STATUS n).addr = true := fun n => atBoot_above (Nat.lt_of_lt_of_le (by decide) (Nat.le_add_right 0x100000 _))
  unfold Machine.dieResults
  exact ((setFld rfl 7 0 _ s).trans ((setFld rfl 9 8 _ _).trans ((wr rfl _ _).trans ((wr rfl _ _).trans (wr rfl _ _))))).trans
    ((foldl (fun u n => setFld (hbay n) 15 0 _ u) _ _).trans (foldl (fun u d => Booted.raise 0xA030 d u) _ _))

theorem keyKilled (s : State) : Booted s { s with sec.fuses.keyKill := true } := ⟨rfl, rfl, rfl, rfl, SameWords.refl _ _⟩

theorem recovers (s : State) : Booted s { s with fw.recovery := true } := ⟨rfl, rfl, rfl, rfl, SameWords.refl _ _⟩

theorem releases (x : Option Nat) (s : State) :
    Booted s { s with fw := { s.fw with recovery := false, trial := x }, power.released := true } :=
  ⟨rfl, rfl, rfl, rfl, SameWords.refl _ _⟩

/-- What the boot engine and Foreman's release add to what the boot has found. -/
theorem bootDevice (b : BootResult) (cause kind : Nat) (s : State) :
    Booted (recallRetained cause (Machine.booting (Machine.dieResults b (recorderFound kind s)))) (bootDevice b cause kind s) := by
  unfold Machine.bootDevice
  dsimp only
  rw [← Machine.booting]
  generalize recallRetained cause (Machine.booting (Machine.dieResults b (recorderFound kind s))) = u
  have hrun := Booted.putPlinth .run u
  split
  · exact (recd _ _).trans (putPlinth _ _)
  · generalize Machine.putPlinth .run u = v at hrun
    split
    · exact hrun.trans ((recd _ _).trans ((setFld rfl 4 4 1 _).trans (Booted.raise _ _ _)))
    · split
      · exact hrun.trans (Booted.trans (keyKilled v) (recd _ _))
      · have hchosen := hrun.trans (chooseSlot b 3 v)
        split
        · rename_i w hnone
          rw [hnone] at hchosen
          exact Booted.trans (t := w) hchosen ((recovers w).trans (recd _ _))
        · rename_i k w hsome
          rw [hsome] at hchosen
          have himage := Booted.trans (t := w) hchosen ((runImage k w).trans
            (ite (p := (Machine.runImage k w).fw.recovery = true) (Booted.raise 0xA039 0 _) (refl _)))
          exact himage.trans ((releases _ _).trans ((recd _ _).trans (setForemanUp true _)))

end Booted

/-! ### What the retained store brings (R567, R579, R608, R609) -/

/-- The events of the session before: a crash discharge, a rail that failed, a loss of input. -/
def retainedEvents (r : Retained) (code at_ : Nat) (s : State) : State :=
  let s := if code = 6 then (match r.crash with
    | some c => raiseX 0xA035 (c.rail + 16 * c.phase) c.t s
    | none => s) else s
  let s := match r.failedRail with | some k => raiseX 0xA036 k 0 s | none => s
  if code = 1 then raiseX 0xA038 0 at_ s else s

theorem Logged.retainedEvents (r : Retained) (code at_ : Nat) (s : State) : Logged s (retainedEvents r code at_ s) := by
  unfold Machine.retainedEvents
  have hcrash : ∀ u : State, Logged u (match r.crash with
      | some c => Machine.raiseX 0xA035 (c.rail + 16 * c.phase) c.t u
      | none => u) := fun u => by
    split
    · exact Logged.raiseX _ _ _ _
    · exact Logged.refl _
  have hrail : ∀ u : State, Logged u (match r.failedRail with | some k => Machine.raiseX 0xA036 k 0 u | none => u) := fun u => by
    split
    · exact Logged.raiseX _ _ _ _
    · exact Logged.refl _
  exact ((Logged.ite (hcrash s) (Logged.refl s)).trans (hrail _)).trans (Logged.ite (Logged.raiseX _ _ _ _) (Logged.refl _))

/-- The word of the cause, with that of the session's end (R608). -/
def causeWord (cause code : Nat) (p : PowerSt) : Nat := cause + 256 * code + 4096 * p.attempts + 65536 * p.retained.failedRail.getD 0

/-- The registers that the retained store brings: the cap, the age trims, the cause. -/
def storeShown (cause code : Nat) (s : State) : State :=
  wr KINGPOST_RESET_CAUSE (causeWord cause code s.power)
    (agesShown (setFld GOVERNOR_CAP 15 0 (s.power.retained.cap + 256 * s.power.retained.secs) s) s.power.retained)

theorem recallRetained_ended {s : State} {code at_ x : Nat} (h : s.power.retained.ended = some (code, x, at_)) (cause : Nat) :
    let u := retainedEvents s.power.retained code at_ (storeShown cause code s)
    recallRetained cause s =
      { u with power := { u.power with retained := { s.power.retained with ended := none, failedRail := none } } } := by
  simp only [recallRetained, h]
  rfl

theorem storeShown_frame (cause code : Nat) (s : State) : storeShown cause code s = { s with regs := (storeShown cause code s).regs } := rfl

/-- The boot shows the cause with the end code of the session before; the end record is used up, and nothing else of the store changes. -/
theorem recallRetained_spec {s : State} {code at_ x : Nat} (h : s.power.retained.ended = some (code, x, at_)) (cause : Nat) :
    let t := recallRetained cause s
    rd t KINGPOST_RESET_CAUSE = causeWord cause code s.power % 2 ^ 32 ∧ rd t NETIN_VLINK_STATE = rd s NETIN_VLINK_STATE ∧
      t = { s with
        regs := t.regs, recd := t.recd, emitted := t.emitted
        power := { s.power with retained := { s.power.retained with ended := none, failedRail := none } } } := by
  have hlog := Logged.retainedEvents s.power.retained code at_ (storeShown cause code s)
  have hcause : rd (storeShown cause code s) KINGPOST_RESET_CAUSE = causeWord cause code s.power % 2 ^ 32 := rd_wr_same _ _ _
  have hpair : rd (storeShown cause code s) NETIN_VLINK_STATE = rd s NETIN_VLINK_STATE := by
    rw [storeShown, rd_wr_ne (by decide), (agesShown_words _ _).rd rfl, rd_setFld_ne (by decide)]
  dsimp only
  rw [recallRetained_ended h]
  generalize retainedEvents s.power.retained code at_ (storeShown cause code s) = u at hlog
  refine ⟨(hlog.2.rd rfl).trans hcause, (hlog.2.rd rfl).trans hpair, ?_⟩
  rw [hlog.1, storeShown_frame]

/-! ### What a package reset clears (R490) -/

theorem tget_filter_of_not {α : Type} {k : Nat} {p : Nat × α → Bool} (h : ∀ v, p (k, v) = false) (t : Tab α) :
    tget k (t.filter p) = none := by
  induction t with
  | nil => rfl
  | cons q r ih =>
    obtain ⟨j, w⟩ := q
    rw [List.filter_cons]
    split
    · rename_i hkeep
      have hj : j ≠ k := by
        rintro rfl
        rw [h] at hkeep
        cases hkeep
      rw [tget, if_neg hj, ih]
    · exact ih

/-- A register that no store keeps reads its reset value. -/
theorem rd_cleared {r : Reg} (h : keptReg r.addr = false) (k : RecSt) (s : State) : rd (cleared k s) r = r.reset := by
  have hnone : tget r.addr (cleared k s).regs = none := tget_filter_of_not (fun _ => h) s.regs
  rw [rd, hnone]

theorem cleared_frame (k : RecSt) (s : State) : (cleared k s).mem = [] ∧ (cleared k s).poison = [] ∧ (cleared k s).scribe = {} ∧
    (cleared k s).live = [] ∧ (cleared k s).ridge = {} ∧ (cleared k s).memory = {} ∧ (cleared k s).fw.recoverAt = none ∧
    (cleared k s).power = s.power := ⟨rfl, rfl, rfl, rfl, rfl, rfl, rfl, rfl⟩

theorem Kept.cleared (k : RecSt) (s : State) : Kept s (cleared k s) := ⟨rfl, rfl, rfl, rfl, rfl⟩

/-! ### The restart (R490, R604, R608) -/

/-- What a boot shows and leaves after a session that ended with a code. -/
theorem bootDevice_spec {s : State} {code at_ x : Nat} (h : s.power.retained.ended = some (code, x, at_)) (b : BootResult) (cause kind : Nat) :
    let t := bootDevice b cause kind s
    rd t KINGPOST_RESET_CAUSE % 4096 = (cause + 256 * code) % 4096 ∧ rd t NETIN_VLINK_STATE = rd s NETIN_VLINK_STATE ∧
      t.power.retained = { s.power.retained with ended := none, failedRail := none } ∧ t.sec.check = s.sec.check ∧
      t.fw.recoverAt = s.fw.recoverAt ∧ t = { s with
        regs := t.regs, recd := t.recd, emitted := t.emitted, mb := t.mb, sec := t.sec, power := t.power, fw := t.fw } := by
  have hfound := ((Booted.logged (Logged.recorderFound kind s)).trans (Booted.dieResults b _)).trans (Booted.booting _)
  have hbooted := Booted.bootDevice b cause kind s
  generalize booting (dieResults b (recorderFound kind s)) = u at hfound hbooted
  obtain ⟨hcause, hpair, hrecalled⟩ := recallRetained_spec (s := u) (by rw [hfound.retained]; exact h) cause
  generalize recallRetained cause u = v at hcause hpair hrecalled hbooted
  generalize bootDevice b cause kind s = t at hbooted
  have hretained : v.power.retained = { s.power.retained with ended := none, failedRail := none } := by rw [hrecalled, ← hfound.retained]
  have hcheck : v.sec.check = s.sec.check := by rw [hrecalled, ← hfound.check]
  have hrecover : v.fw.recoverAt = s.fw.recoverAt := by rw [hrecalled, ← hfound.recoverAt]
  refine ⟨?_, ?_, hbooted.retained.trans hretained, hbooted.check.trans hcheck, hbooted.recoverAt.trans hrecover, ?_⟩
  · rw [hbooted.words.rd rfl, hcause, causeWord]
    omega
  · rw [hbooted.words.rd rfl, hpair, hfound.words.rd rfl]
  · rw [hbooted.frame, hrecalled, hfound.frame]

theorem restarted_packageReset (b : BootResult) {cause code : Nat} (hc : cause + 256 * code < 4096) (s : State) :
    Restarted cause code s (packageReset b cause code s) ∧ (packageReset b cause code s).fw.recoverAt = none := by
  have hkept := (Kept.reported (Reported.drivePair false 4 s)).trans (Kept.endSession code _)
  have hended : (endSession code (drivePair false 4 s)).power.retained.ended =
    some (code, (drivePair false 4 s).recd.life.s, (drivePair false 4 s).ridge.ns) := rfl
  unfold packageReset
  dsimp only
  generalize endSession code (drivePair false 4 s) = u at hkept hended
  obtain ⟨hmem, hpoison, hscribe, hlive, hridge, hmemory, hdue, hpower⟩ := cleared_frame (keepRecorder u) u
  have hpair : rd (cleared (keepRecorder u) u) NETIN_VLINK_STATE = 0 := rd_cleared rfl _ u
  replace hkept := hkept.trans (Kept.cleared (keepRecorder u) u)
  rw [← hpower] at hended
  generalize cleared (keepRecorder u) u = v at hmem hpoison hscribe hlive hridge hmemory hdue hpair hkept hended
  obtain ⟨hpending, hblocks, hmodels, hcap, hcheck⟩ := hkept
  obtain ⟨hcause, hpair', hretained, hcheck', hdue', hframe⟩ := bootDevice_spec hended b cause 1
  generalize bootDevice b cause 1 v = t at hcause hpair' hretained hcheck' hdue' hframe
  refine ⟨⟨hcause.trans (Nat.mod_eq_of_lt hc), ?_, ?_, ?_, ?_, ?_, ?_, ?_, ?_, ?_, ?_, ?_, hcheck'.trans hcheck, ?_⟩, hdue'.trans hdue⟩
  · rw [hpair', hpair]
    rfl
  · rw [hframe, hmem]
  · rw [hframe, hpoison]
  · rw [hframe, hscribe]
  · rw [hframe, hlive]
  · rw [hframe, hridge]
  · rw [hframe, hmemory]
  · rw [hframe, hpending]
  · rw [hframe, hblocks]
  · rw [hframe, hmodels]
  · rw [hretained, ← hcap]
  · rw [hretained]

/-- A restart is told by what the reset keeps of the state before it. -/
theorem Restarted.of_kept {cause code : Nat} {s u t : State} (h : Kept s u) (k : Restarted cause code u t) : Restarted cause code s t := by
  obtain ⟨hpending, hblocks, hmodels, hcap, hcheck⟩ := h
  unfold Restarted
  rw [← hpending, ← hblocks, ← hmodels, ← hcap, ← hcheck]
  exact k

theorem restarted_kingpostReset {cause code : Nat} (hc : cause + 256 * code < 4096) (s : State) :
    Restarted cause code s (kingpostReset cause code s) ∧ (kingpostReset cause code s).fw.recoverAt = none := by
  obtain ⟨hrestarted, hdue⟩ := restarted_packageReset (lastBoot s) hc (commitPage 2 s)
  exact ⟨Restarted.of_kept (Kept.commitPage 2 s) hrestarted, hdue⟩

/-! ### The end of recovery (R608, R612) -/

theorem completes_recoveryPackageReset_notDue {s : State} (h : s.fw.recoverAt = none) : Completes .recoveryPackageReset s (fun t => t = s) := by
  refine ⟨s, ?_, rfl⟩
  change execRecoveryPackageReset s = _
  simp only [execRecoveryPackageReset, h]

theorem completes_recoveryPackageReset_early {s : State} {x : Nat} (h : s.fw.recoverAt = some x) (hearly : s.ridge.ns < x + 100000000) :
    Completes .recoveryPackageReset s (fun t => t = s) := by
  refine ⟨s, ?_, rfl⟩
  change execRecoveryPackageReset s = _
  simp only [execRecoveryPackageReset, h, if_pos hearly]

/-- The word that no rule states for the reset out of recovery: one for the cause, one for the end code. -/
def recoveryWord (i : Int) (s : State) : Nat := (Config.unstated 612 [i, (s.ridge.ns : Int)]).toNat

theorem exec_recoveryPackageReset {s : State} {x : Nat} (h : s.fw.recoverAt = some x) (hdue : x + 100000000 ≤ s.ridge.ns) :
    exec .recoveryPackageReset s =
      .next (kingpostReset (1 + recoveryWord 0 s % 3) (3 + recoveryWord 1 s % 3) { s with fw.recoverAt := none }) := by
  change execRecoveryPackageReset s = _
  unfold execRecoveryPackageReset
  rw [h]
  exact if_neg (Nat.not_lt.2 hdue)

theorem completes_recoveryPackageReset_resets {s : State} {x : Nat} (h : s.fw.recoverAt = some x) (hdue : x + 100000000 ≤ s.ridge.ns) :
    Completes .recoveryPackageReset s (fun t =>
      let v := rd t KINGPOST_RESET_CAUSE % 4096
      1 ≤ v % 256 ∧ v % 256 ≤ 3 ∧ 3 ≤ v / 256 ∧ v / 256 ≤ 5 ∧ Restarted (v % 256) (v / 256) s t ∧ t.fw.recoverAt = none) := by
  refine ⟨_, exec_recoveryPackageReset h hdue, ?_⟩
  have hcause : recoveryWord 0 s % 3 < 3 := Nat.mod_lt _ (by decide)
  have hcode : recoveryWord 1 s % 3 < 3 := Nat.mod_lt _ (by decide)
  generalize recoveryWord 0 s % 3 = i at hcause
  generalize recoveryWord 1 s % 3 = j at hcode
  obtain ⟨hrestarted, hnone⟩ := restarted_kingpostReset (cause := 1 + i) (code := 3 + j) (by omega) { s with fw.recoverAt := none }
  have hshown := hrestarted.1
  generalize kingpostReset (1 + i) (3 + j) { s with fw.recoverAt := none } = t at hrestarted hnone hshown
  have hlow : rd t KINGPOST_RESET_CAUSE % 4096 % 256 = 1 + i := by omega
  have hhigh : rd t KINGPOST_RESET_CAUSE % 4096 / 256 = 3 + j := by omega
  dsimp only
  rw [hlow, hhigh]
  exact ⟨by omega, by omega, by omega, by omega, Restarted.of_kept (Kept.refl s) hrestarted, hnone⟩

/-- Settles O49: each command comes down to the lemma of its case, where a container's check decides between two; the reset out of recovery
is told by what a package reset keeps and clears and by what any boot leaves. -/
theorem firmwareAndAdapters : Obligations.FirmwareAndAdapters := by
  refine ⟨fun s f k h => ⟨answers_fwStage_tooLarge h, fun hn hroom => ?_⟩,
    fun s f k h => ⟨answers_fwActivate_invalid h, answers_fwActivate_staged h, fun c hc => answers_fwActivate_refused h hc⟩,
    fun s f k image h => ⟨answers_adapterStore_native h, fun ha hmount hroom => ?_⟩,
    fun s f k h => ⟨answers_adapterStage_badPort h, answers_adapterStage_unknown h, answers_adapterStage_native h⟩,
    fun s => ⟨completes_kingpostFwSwitch_waits, fun k hs hk hidle => completes_kingpostFwSwitch_switches hs hk hidle⟩,
    fun s => ⟨completes_fwTrialConfirm_noTrial, fun x hx => ⟨completes_fwTrialConfirm_early hx, completes_fwTrialConfirm_confirms hx,
      completes_fwTrialRevert_reverts hx⟩⟩,
    fun s => ⟨completes_recoveryPackageReset_notDue, fun x hx => ⟨completes_recoveryPackageReset_early hx,
      fun hdue _ _ => completes_recoveryPackageReset_resets hx hdue⟩⟩⟩
  · cases hbox : boxAt s f 1 (param s f k 0x0B01 0) (param s f k 0x0B01 1) with
    | inl c => exact answers_fwStage_refused h hn hbox
    | inr box => exact completes_fwStage_written h hn hroom hbox
  · cases hbox : boxAt s f 2 (param s f k 0x0B03 0) (param s f k 0x0B03 1) with
    | inl c => exact answers_adapterStore_refused h ha hbox
    | inr box => exact completes_adapterStore_stored h ha hmount hroom hbox

end Sys2Proof.Machine
end

section
/-! PROOF. A point that comes when no grid epoch is open or to come (R146): the statement about the Planer's points overlooks that the
point's grid epoch may be one that is over, of which it is late. -/

namespace Sys2Proof.Machine
open Sys2Proof

/-- A return of port 0 from 0.25 mm, taken at 5 ns. -/
def earlyReturn : IngestRec := { point := leBytes 16 1, t := 5, port := 0 }

/-- The Planer is disabled, and its one grid epoch of 100 ms is over; `earlyReturn`, of a port and a return in use, has yet to arrive. -/
def planerRunOver : State :=
  { State.reset with ingest := [earlyReturn], plan := { live := leBytes 4 0x01010001, spans := [(0, 100000000)] } }

/-- The point is counted as late, and not as out of epoch. -/
theorem planerIngest_late : rd (nextOf .planerIngest planerRunOver) PLANER_LATE_POINTS = 1 ∧
    rd (nextOf .planerIngest planerRunOver) PLANER_OUT_OF_EPOCH = 0 := by decide +kernel

/-- Refutes O36: a point of a grid epoch that is over is late (R146) also when no run of grid epochs follows, and is not out of epoch. -/
theorem not_planerPoints : ¬ Obligations.PlanerPoints := by
  rintro ⟨-, hpoint, -⟩
  obtain ⟨-, hnoRun, -⟩ := hpoint planerRunOver earlyReturn [] rfl
  obtain ⟨-, hcounted, -⟩ := (hnoRun (by decide) rfl rfl).nextOf
  have hout : rd (nextOf .planerIngest planerRunOver) PLANER_OUT_OF_EPOCH = 1 := hcounted.trans (by decide +kernel)
  rw [planerIngest_late.2] at hout
  exact Nat.zero_ne_one hout

end Sys2Proof.Machine
end

section
/-! PROOF. An instance that is the only work of the Scribe (R251–R286): what its start in a unit, its end, and a refusal at its start leave. -/

namespace Sys2Proof.Machine
open Sys2Proof

/-! ### Entries of tables, and parts of the state put back as they are -/

theorem tget_tmod_same {α : Type} (k : Nat) (f : α → α) (t : Tab α) : tget k (tmod k f t) = (tget k t).map f := by
  induction t with
  | nil => rfl
  | cons p r ih =>
    obtain ⟨j, w⟩ := p
    by_cases h : j = k <;> simp [tmod, tget, h, ih]

theorem tget_eq_some_of_single {α : Type} (k : Nat) (v : α) : tget k [(k, v)] = some v := if_pos rfl

theorem tput_single {α : Type} (k : Nat) (v w : α) : tput k v [(k, w)] = [(k, v)] := if_pos rfl

theorem tdel_single {α : Type} (k : Nat) (v : α) : tdel k [(k, v)] = [] := if_pos rfl

theorem with_work_eq {s : State} {w : List Work} (h : s.scribe.work = w) : { s with scribe.work := w } = s := by subst h; rfl

/-! ### The work of the Scribe, one item at a time (R248) -/

/-- What one item of work does. -/
def perform (w : Work) (s : State) : State :=
  match w with
  | .add p a v => applyAdd p a v s
  | .check i => checkInst i s
  | .spawn g n k => spawnInst g n k s
  | .finish i => finishInst i s

theorem drain_idle {s : State} (h : s.scribe.work = []) (fuel : Nat) : drain fuel s = s := by
  cases fuel with
  | zero => rfl
  | succ n => rw [drain, h]

theorem settle_idle {s : State} (h : s.scribe.work = []) : settle s = s := drain_idle h _

theorem drain_cons {s : State} {w : Work} {rest : List Work} (h : s.scribe.work = w :: rest) (fuel : Nat) :
    drain (fuel + 1) s = drain fuel (perform w { s with scribe.work := rest }) := by
  rw [drain, h]
  cases w <;> rfl

theorem drain_enqueue {s : State} (h : s.scribe.work = []) {w : Work} (hdone : (perform w s).scribe.work = []) (fuel : Nat) :
    drain (fuel + 1) (enqueue w s) = perform w s := by
  have hone : (enqueue w s).scribe.work = [w] := congrArg (· ++ [w]) h
  have hrest : { enqueue w s with scribe.work := [] } = s := with_work_eq h
  rw [drain_cons hone, hrest, drain_idle hdone]

theorem settle_enqueue {s : State} (h : s.scribe.work = []) {w : Work} (hdone : (perform w s).scribe.work = []) :
    settle (enqueue w s) = perform w s := drain_enqueue h hdone 4095

/-- An item that changes nothing passes, and the one behind it is done. -/
theorem settle_enqueue_enqueue {s : State} (h : s.scribe.work = []) {w v : Work} (hpass : perform w (enqueue v s) = enqueue v s)
    (hdone : (perform v s).scribe.work = []) : settle (enqueue v (enqueue w s)) = perform v s := by
  have htwo : (enqueue v (enqueue w s)).scribe.work = [w, v] := by simp only [enqueue, h]; rfl
  have hrest : { enqueue v (enqueue w s) with scribe.work := [v] } = enqueue v s := by simp only [enqueue, h]; rfl
  rw [settle, drainFuel, drain_cons htwo, hrest, hpass, drain_enqueue h hdone]

/-! ### What the Scribe's schedule can change -/

/-- From `s` to `t` nothing changes but instances and graphs, what their runs occupy, and words of the Scribe; no peg changes. -/
def Scheduled (s t : State) : Prop :=
  t = { s with regs := t.regs, scribe := t.scribe, fab := t.fab } ∧ t.scribe.pegs = s.scribe.pegs ∧ SameWords s t (inWindow 0x80000)

theorem Scheduled.trans {s t u : State} (h : Scheduled s t) (k : Scheduled t u) : Scheduled s u := by
  refine ⟨?_, k.2.1.trans h.2.1, h.2.2.trans k.2.2⟩
  rw [k.1, h.1]

theorem Scheduled.scribe (s : State) {x : ScribeSt} (h : x.pegs = s.scribe.pegs) : Scheduled s { s with scribe := x } :=
  ⟨rfl, h, SameWords.of_regs rfl⟩

theorem Scheduled.setInst (i : Nat) (x : Inst) (s : State) : Scheduled s (setInst i x s) := Scheduled.scribe s rfl

theorem Scheduled.enqueue (w : Work) (s : State) : Scheduled s (enqueue w s) := Scheduled.scribe s rfl

theorem Scheduled.inc {r : Reg} (h : inWindow 0x80000 r.addr = true) (s : State) : Scheduled s (inc r s) := ⟨rfl, rfl, SameWords.wr h _ s⟩

theorem Scheduled.freeRuns (mine : Nat × Nat → Bool) (s : State) : Scheduled s (freeRuns mine s) := ⟨rfl, rfl, SameWords.of_regs rfl⟩

/-! ### The instance of the one node of a graph -/

theorem Lone.nodeOf {s : State} {i : Nat} {x : Inst} {g : Graph} {nd : Node} (h : Lone s i x g nd) : nodeOf s x.graph x.node = some nd := by
  obtain ⟨-, -, -, hgraph, hnode, -, hnodes, -⟩ := h
  simp only [Machine.nodeOf, hgraph, hnode, hnodes, List.getElem?_cons_zero]

theorem Lone.congr {s t : State} {i : Nat} {x : Inst} {g : Graph} {nd : Node} (h : Lone s i x g nd) (hscribe : t.scribe = s.scribe)
    (hmb : t.mb = s.mb) : Lone t i x g nd := by
  rw [Lone, hscribe, hmb]
  exact h

/-- Instance `x` stands alone, of a node without signals, in a graph without records: what its end needs to know. -/
structure Alone (s : State) (i : Nat) (x : Inst) (g : Graph) : Prop where
  insts : s.scribe.insts = [(i, x)]
  graph : tget x.graph s.scribe.graphs = some g
  node : ∃ nd, nodeOf s x.graph x.node = some nd ∧ nd.flags = 0 ∧ nd.sigs = []
  compRing : g.compRing = none
  firstSignal : x.firstSignal = none
  prov : x.prov = false

theorem Lone.alone {s : State} {i : Nat} {x : Inst} {g : Graph} {nd : Node} (h : Lone s i x g nd) (hflags : nd.flags = 0) (hprov : x.prov = false) :
    Alone s i x g := by
  have hnode := h.nodeOf
  obtain ⟨-, hinsts, -, hgraph, -, -, -, -, hsigs, hring, -, hfirst⟩ := h
  exact ⟨hinsts, hgraph, ⟨nd, hnode, hflags, hsigs⟩, hring, hfirst, hprov⟩

/-- The last instance of its graph ends: it is gone, and the graph has counted it (R281, R283). -/
theorem finishInst_alone {s : State} {i : Nat} {x : Inst} {g : Graph} (h : Alone s i x g) : finishInst i s = inc (SCRIBE_INSTANCE_COUNTS 9)
    { s with scribe.insts := [], scribe.starts := lremove i s.scribe.starts,
             scribe.graphs := tmod x.graph (fun g => { g with done := satAdd 0xFFFFFFFF g.done 1 }) s.scribe.graphs } := by
  obtain ⟨nd, hnode, -, hsigs⟩ := h.node
  have hopen : predecessorOpen s x = false := by simp [predecessorOpen, h.insts]
  have hsignals : sendSignals g.domain nd x s = s := by rw [sendSignals, hsigs]; rfl
  have hrecord : pushRecord g nd x s = s := by rw [pushRecord, h.compRing]
  rw [finishInst, h.insts, tget_eq_some_of_single]
  simp only [hopen, h.graph, hnode, h.firstSignal, h.prov, h.insts, hsignals, hrecord, tdel_single, Bool.false_eq_true, if_false]
  rfl

theorem finishInst_ends {s : State} {i : Nat} {x : Inst} {g : Graph} (h : Alone s i x g) :
    Scheduled s (finishInst i s) ∧ Ended s (finishInst i s) x g ∧ (finishInst i s).scribe.work = s.scribe.work := by
  rw [finishInst_alone h]
  refine ⟨(Scheduled.scribe s rfl).trans (Scheduled.inc rfl _), ⟨rfl, ?_, rfl⟩, rfl⟩
  exact (tget_tmod_same _ _ _).trans (congrArg (Option.map _) h.graph)

/-- After the last instance that a graph may have, no other comes into being (R251). -/
theorem spawnInst_beyond {s : State} {g n : Nat} {gr : Graph} {node : Nat} (hgraph : tget g s.scribe.graphs = some gr)
    (hlast : gr.iterations ≠ 0 ∧ gr.iterations ≤ n) : spawnInst g node n s = s := by
  rw [spawnInst, hgraph]
  split
  · rename_i heq _
    cases heq
    exact if_pos hlast
  · rfl

/-! ### Its run begins and ends -/

/-- An instance whose first run has started. -/
def begun (s : State) (x : Inst) : Inst :=
  { x with runs := x.runs.modify 0 (fun r => { r with named := true, started := true, tStart := s.ridge.ns }), st := .running,
           epoch := unitEpoch s 6, stallLimit := liveFld s SCRIBE_STALL_LIMIT 23 0 }

/-- An instance whose first run has ended. -/
def runEnded (s : State) (completion : Nat) (x : Inst) : Inst :=
  { x with runs := x.runs.modify 0 (fun r =>
      { r with ended := true, tEnd := s.ridge.ns, completion := completion, io := [], stalled := none }) }

/-- The state in which the first run of an instance has started, and no other instance follows yet. -/
def started (i : Nat) (x : Inst) (s : State) : State :=
  { inc SCRIBE_TASKS_STARTED (setInst i (begun s x) s) with scribe.starts := s.scribe.starts ++ [i] }

/-- The state in which the first run of an instance has ended, and the instance has yet to end. -/
def stopped (i completion : Nat) (x : Inst) (s : State) : State :=
  freeRuns (fun r => decide (r = (i, 0))) (setInst i (runEnded s completion x) s)

theorem Scheduled.started (i : Nat) (x : Inst) (s : State) : Scheduled s (started i x s) :=
  ((Scheduled.setInst i _ s).trans (Scheduled.inc rfl _)).trans (Scheduled.scribe _ rfl)

theorem Scheduled.stopped (i completion : Nat) (x : Inst) (s : State) : Scheduled s (stopped i completion x s) :=
  (Scheduled.setInst i _ s).trans (Scheduled.freeRuns _ _)

theorem Alone.started {s : State} {i : Nat} {x : Inst} {g : Graph} (h : Alone s i x g) : Alone (started i x s) i (begun s x) g :=
  ⟨(congrArg (tput i (begun s x)) h.insts).trans (tput_single ..), h.graph, h.node, h.compRing, h.firstSignal, h.prov⟩

theorem Alone.stopped {s : State} {i : Nat} {x : Inst} {g : Graph} (h : Alone s i x g) (completion : Nat) :
    Alone (stopped i completion x s) i (runEnded s completion x) g :=
  ⟨(congrArg (tput i (runEnded s completion x)) h.insts).trans (tput_single ..), h.graph, h.node, h.compRing, h.firstSignal, h.prov⟩

theorem beginRun_alone {s : State} {i : Nat} {x : Inst} {g : Graph} (h : Alone s i x g) (hrun : x.runs.any (·.started) = false) :
    beginRun i 0 s = enqueue (.spawn x.graph x.node (x.n + 1)) (started i x s) := by
  rw [beginRun, h.insts, tget_eq_some_of_single]
  simp only [started, begun, hrun, h.prov, Bool.not_false, Bool.not_true, Bool.false_eq_true, if_false]
  rfl

theorem endRun_alone {s : State} {i : Nat} {x : Inst} {g : Graph} (h : Alone s i x g) (hst : x.st = .running) (completion : Nat) :
    endRun i 0 completion s = enqueue (.finish i) (stopped i completion x s) := by
  obtain ⟨nd, hnode, hflags, -⟩ := h.node
  rw [endRun, h.insts, tget_eq_some_of_single]
  dsimp only
  split
  · rename_i hnone
    cases hnone.symm.trans hnode
  · rename_i _ hsome
    cases Option.some.inj (hsome.symm.trans hnode)
    simp only [stopped, runEnded, hflags, hst]
    rfl

/-! ### Its start in a unit, its end, and its refusal (R261, R283, R296) -/

section
variable {s : State} {i : Nat} {x : Inst} {g : Graph} {nd : Node} (h : Lone s i x g nd) (hflags : nd.flags = 0) (hprov : x.prov = false)
include h hflags hprov

/-- The graph of a lone instance has no other instance to come. -/
theorem Lone.perform_spawn {u : State} (hgraphs : u.scribe.graphs = s.scribe.graphs) : perform (.spawn x.graph x.node (x.n + 1)) u = u := by
  have hgraph := (h.alone hflags hprov).graph
  obtain ⟨-, -, -, -, -, hn, -, -, -, -, hlast, -⟩ := h
  exact spawnInst_beyond (hgraphs ▸ hgraph) (by omega)

/-- The run of a lone instance begins, and no other instance follows. -/
theorem settle_beginRun_lone (hrun : x.runs.any (·.started) = false) : settle (beginRun i 0 s) = started i x s := by
  have hspawned := h.perform_spawn hflags hprov (u := started i x s) rfl
  have hwork : (started i x s).scribe.work = [] := h.1
  rw [beginRun_alone (h.alone hflags hprov) hrun, settle_enqueue hwork ((congrArg (·.scribe.work) hspawned).trans hwork), hspawned]

/-- The run of a lone instance ends, and the instance with it. -/
theorem settle_endRun_lone (hst : x.st = .running) (completion : Nat) : Scheduled s (settle (endRun i 0 completion s)) ∧
    Ended s (settle (endRun i 0 completion s)) x g := by
  have hstopped := Scheduled.stopped i completion x s
  obtain ⟨hfinish, ⟨hinsts, hgraphs, hpegs⟩, hwork⟩ := finishInst_ends ((h.alone hflags hprov).stopped completion)
  have hidle : (stopped i completion x s).scribe.work = [] := h.1
  rw [endRun_alone (h.alone hflags hprov) hst, settle_enqueue (w := .finish i) hidle (hwork.trans hidle)]
  exact ⟨hstopped.trans hfinish, hinsts, hgraphs, hpegs.trans hstopped.2.1⟩

/-- A lone instance that a unit refuses ends. -/
theorem refuseUnit_lone (hrun : x.runs.any (·.started) = false) (status : Nat) : Scheduled s (refuseUnit i status s) ∧
    Ended s (refuseUnit i status s) x g := by
  have hbegun := (h.alone hflags hprov).started
  have hsched := (Scheduled.started i x s).trans (Scheduled.stopped i status (begun s x) _)
  obtain ⟨hfinish, ⟨hinsts, hgraphs, hpegs⟩, hwork⟩ := finishInst_ends (hbegun.stopped status)
  have hidle : (stopped i status (begun s x) (started i x s)).scribe.work = [] := h.1
  have hspawned : Alone (enqueue (.spawn x.graph x.node (x.n + 1)) (started i x s)) i (begun s x) g :=
    ⟨hbegun.insts, hbegun.graph, hbegun.node, hbegun.compRing, hbegun.firstSignal, hbegun.prov⟩
  have hended : endRun i 0 status (beginRun i 0 s) = enqueue (.finish i)
      (enqueue (.spawn x.graph x.node (x.n + 1)) (stopped i status (begun s x) (started i x s))) := by
    rw [beginRun_alone (h.alone hflags hprov) hrun, endRun_alone hspawned rfl]
    rfl
  rw [refuseUnit, hended, settle_enqueue_enqueue (v := .finish i) hidle (h.perform_spawn hflags hprov rfl) (hwork.trans hidle)]
  exact ⟨hsched.trans hfinish, hinsts, hgraphs, hpegs.trans hsched.2.1⟩

end

end Sys2Proof.Machine
end

section
/-! PROOF. What units read and write through the Fence (R460–R465, R483), words of registers that a chain of writes leaves, and bytes of
memory after a write. -/

namespace Sys2Proof.Machine
open Sys2Proof

/-! ### Reads and writes that the Fence judges -/

/-- An address of the words that refused lines, lost links and poisoned words change: those of safety and of the Bays. -/
def inChecks (a : Nat) : Bool := inSafety a || decide (0x100000 ≤ a)

/-- From `s` to `t` nothing changes but memory, and what refused lines, lost links and poisoned words leave. -/
def Fenced (s t : State) : Prop :=
  t = { s with regs := t.regs, mem := t.mem, poison := t.poison, kp := t.kp, recd := t.recd, emitted := t.emitted,
               out.slot15 := t.out.slot15 } ∧ SameWords s t inChecks

theorem Fenced.refl (s : State) : Fenced s s := ⟨rfl, SameWords.refl s _⟩

theorem Fenced.trans {s t u : State} (h : Fenced s t) (k : Fenced t u) : Fenced s u := by
  refine ⟨?_, h.2.trans k.2⟩
  rw [k.1, h.1]

theorem Fenced.ite {p : Prop} [Decidable p] {s a b : State} (ha : Fenced s a) (hb : Fenced s b) : Fenced s (if p then a else b) := by
  split
  · exact ha
  · exact hb

theorem Fenced.foldl {β : Type} {g : State → β → State} (h : ∀ s b, Fenced s (g s b)) (l : List β) (s : State) : Fenced s (l.foldl g s) := by
  induction l generalizing s with
  | nil => exact Fenced.refl s
  | cons b r ih => exact (h s b).trans (ih _)

theorem Reported.fenced {s t : State} (h : Reported s t) : Fenced s t := by
  refine ⟨?_, h.2.mono (fun a ha => by rw [inChecks, ha, Bool.true_or])⟩
  rw [h.1]

theorem Fenced.bay {r : Reg} (h : 0x100000 ≤ r.addr) (v : Nat) (s : State) : Fenced s (wr r v s) :=
  ⟨rfl, SameWords.wr (by rw [inChecks, decide_eq_true h, Bool.or_true]) v s⟩

theorem Fenced.writeMem (w : MemWrite) (s : State) : Fenced s (writeMem w s) := ⟨rfl, SameWords.of_regs rfl⟩

theorem Fenced.fencedWrite (tag agent : Nat) (w : MemWrite) (s : State) : Fenced s (fencedWrite tag agent w s) := by
  have hdrop : 0x100000 ≤ (BAY_LINK_DROP (bayOf w.addr)).addr := Nat.le_add_right_of_le (by decide)
  unfold Machine.fencedWrite
  exact Fenced.ite ((Fenced.bay hdrop _ s).trans (Reported.refuseLines _ _ _ _ _ _).fenced)
    (Fenced.ite (Fenced.writeMem w s) (Fenced.foldl (fun u _ => Fenced.ite (Fenced.writeMem _ u) (Reported.refuseLine _ _ _ _ u).fenced) _ s))

theorem Fenced.poisonRead (w : Nat) (s : State) : Fenced s (poisonRead w s) := by
  have hread : ∀ (b c a : Nat) (r : Reg), 0x100000 ≤ r.addr → Fenced s (raise c a (setMask (BAY_MEM_STATUS b) 4 (inc r s))) := fun b c a r hr =>
    ((Fenced.bay hr _ s).trans (Fenced.bay (Nat.le_add_right_of_le (by decide)) _ _)).trans (Reported.raise c a _).fenced
  unfold Machine.poisonRead
  exact Fenced.ite (hread _ _ _ _ (Nat.le_add_right_of_le (by decide))) (hread _ _ _ _ (Nat.le_add_right_of_le (by decide)))

theorem Fenced.noteRead (tag a n agent : Nat) (s : State) : Fenced s (noteRead tag a n agent s) :=
  (Reported.refuseLines tag a n agent false s).fenced.trans (Fenced.foldl (fun u w => Fenced.ite (Fenced.poisonRead w u) (Fenced.refl u)) _ _)

theorem foldl_keeps {α β γ : Type} {f : α → γ} {g : α → β → α} (h : ∀ s b, f (g s b) = f s) (l : List β) (s : α) : f (l.foldl g s) = f s := by
  induction l generalizing s with
  | nil => rfl
  | cons b r ih => exact (ih _).trans (h s b)

/-- A read, though it may be refused or meet poison, changes no byte. -/
theorem noteRead_mem (tag a n agent : Nat) (s : State) : (noteRead tag a n agent s).mem = s.mem := by
  have hpoison : ∀ (u : State) (w : Nat), (poisonRead w u).mem = u.mem := by
    intro u w
    unfold poisonRead
    dsimp only
    split <;> simp
  have hrefused : (refuseLines tag a n agent false s).mem = s.mem := by rw [(Reported.refuseLines tag a n agent false s).1]
  refine (foldl_keeps (f := State.mem) (fun u w => ?_) (wordsOf a n) _).trans hrefused
  split
  · exact hpoison u w
  · rfl

/-- A write of which every line is admitted, with every link up, takes effect whole. -/
theorem fencedWrite_admitted {s : State} {tag agent : Nat} {w : MemWrite} (hlink : cutOff s (agentBay agent) w.addr = false)
    (hadmit : admitAll s tag w.addr w.data.length true = true) : fencedWrite tag agent w s = writeMem w s := by
  rw [fencedWrite, hlink, hadmit]
  rfl

/-! ### Bytes of memory -/

theorem readBytes_mem {s t : State} (h : t.mem = s.mem) (a n : Nat) : readBytes t a n = readBytes s a n := by
  induction n generalizing a with
  | zero => rfl
  | succ n ih => simp only [readBytes, memGet, h, ih]

/-- Bytes within a range that was written read as they were written. -/
theorem readBytes_writeMem (w : MemWrite) (s : State) {n : Nat} : ∀ {o : Nat}, o + n ≤ w.data.length →
    readBytes (writeMem w s) (w.addr + o) n = (w.data.drop o).take n := by
  induction n with
  | zero => intro o _; simp [readBytes]
  | succ n ih =>
    intro o ho
    have hbyte : w.data.getD o 0 = w.data[o] := by simp [List.getD, show o < w.data.length by omega]
    rw [readBytes, memGet_writeMem, if_pos (by omega), Nat.add_sub_cancel_left, hbyte, Nat.add_assoc, ih (by omega),
      List.drop_eq_getElem_cons (show o < w.data.length by omega), List.take_succ_cons]

/-! ### Words of registers after a chain of writes -/

theorem rd_incFld_ne {r q : Reg} (h : q.addr ≠ r.addr) (hi lo n : Nat) (s : State) : rd (incFld r hi lo n s) q = rd s q := rd_wr_ne h _ s

theorem rd_inc_ne {r q : Reg} (h : q.addr ≠ r.addr) (s : State) : rd (inc r s) q = rd s q := rd_wr_ne h _ s

theorem rd_setMask_ne {r q : Reg} (h : q.addr ≠ r.addr) (m : Nat) (s : State) : rd (setMask r m s) q = rd s q := rd_wr_ne h _ s

theorem rd_raise {r : Reg} (h : inRecorder r.addr = false) (c a : Nat) (s : State) : rd (raise c a s) r = rd s r := (Logged.raise c a s).2.rd h

/-- A 32-bit counter to which nothing is added stays. -/
theorem rd_incFld_zero {r : Reg} (hr : r.reset < 2 ^ 32) (s : State) : rd (incFld r 31 0 0 s) r = rd s r := by
  have h := rd_lt s r hr
  rw [incFld, setFld, rd_wr_same, fld, bits_word h, putBits_word _ _ h, satAdd]
  omega

end Sys2Proof.Machine
end

section
/-! PROOF. The start of a Raft cycle (R296–R298) and its refusal. -/

namespace Sys2Proof.Machine
open Sys2Proof

/-! ### The offset that a refusal shows -/

theorem firstReason_mem {l : List (Bool × Nat × Nat)} {q : Nat × Nat} (h : firstReason l = some q) : ∃ p ∈ l, p.2 = q := by
  induction l with
  | nil => cases h
  | cons p l ih =>
    obtain ⟨bad, r, o⟩ := p
    rw [firstReason] at h
    split at h
    · exact ⟨_, List.mem_cons_self, Option.some.inj h⟩
    · obtain ⟨p, hp, hq⟩ := ih h
      exact ⟨p, List.mem_cons_of_mem _ hp, hq⟩

/-- Every check of a list shows an offset that the 16 bits of an error register hold. -/
def OffsetsFit (l : List (Bool × Nat × Nat)) : Prop := ∀ p ∈ l, p.2.2 < 65536

theorem OffsetsFit.append {l m : List (Bool × Nat × Nat)} (h : OffsetsFit l) (k : OffsetsFit m) : OffsetsFit (l ++ m) := fun p hp =>
  (List.mem_append.1 hp).elim (h p) (k p)

/-- The checks that a cycle makes of each of its at most 32 entries. -/
theorem OffsetsFit.entries {α : Type} {es : List α} (h : es.length ≤ 32) {f : α × Nat → Bool × Nat × Nat}
    (hf : ∀ p, (f p).2.2 ≤ 256 + 64 * p.2 + 8) : OffsetsFit (es.zipIdx.map f) := by
  intro p hp
  obtain ⟨q, hq, rfl⟩ := List.mem_map.1 hp
  have hlt : q.2 < es.length := by simpa using List.snd_lt_add_of_mem_zipIdx hq
  have := hf q
  omega

theorem OffsetsFit.literal {l : List (Bool × Nat × Nat)} (h : l.all (fun p => decide (p.2.2 < 65536)) = true) : OffsetsFit l := by
  simpa [OffsetsFit] using h

/-- The byte offset that a refused cycle shows lies in a descriptor of at most 32 entries (R296). -/
theorem cycleRefusal_offset {s : State} {g : Graph} {nd : Node} {q : Nat × Nat} (h : cycleRefusal s g nd = some q) : q.2 < 65536 := by
  unfold cycleRefusal at h
  dsimp only at h
  iterate 5
    split at h
    · cases h
      decide
  rename_i hcount _
  have hentries : ((List.range (cyInputs (readBytes s nd.plan 256))).map
      (cyEntry (readBytes s nd.plan (256 + 64 * cyInputs (readBytes s nd.plan 256))))).length ≤ 32 := by
    simp only [Bool.or_eq_true, decide_eq_true_eq, not_or, Nat.not_lt] at hcount
    simpa using hcount.2
  obtain ⟨p, hp, rfl⟩ := firstReason_mem h
  have hfit := fun f => OffsetsFit.entries hentries (f := f)
  exact (((((hfit _ fun _ => Nat.le_add_right _ _).append (OffsetsFit.literal rfl)).append (hfit _ fun _ => Nat.le_refl _)).append
    (hfit _ fun _ => Nat.le_add_right _ _)).append (hfit _ fun _ => Nat.add_le_add_left (by decide) _)).append (OffsetsFit.literal rfl) p hp

/-! ### A cycle that is refused (R296) -/

theorem exec_raftCycleStart (i : Nat) (s : State) : exec (.raftCycleStart i) s = execRaftCycleStart i s := rfl

theorem exec_raftCycleStart_refused {s : State} {i : Nat} {x : Inst} {g : Graph} {nd : Node} {q : Nat × Nat} (hz : instOf s i = some (x, g, nd))
    (hready : unitReady s 2 i = true) (hrun : s.raft.run = none) (hq : cycleRefusal s g nd = some q) :
    exec (.raftCycleStart i) s = .next (refuseRaft i q.1 q.2 (noteRead g.domain nd.plan 256 2 s)) := by
  have hstarts : ¬ (!unitReady s 2 i || s.raft.run.isSome) = true := by simp [hready, hrun]
  rw [exec_raftCycleStart, execRaftCycleStart, hz]
  dsimp -zeta only
  rw [if_neg hstarts, hq]

/-- What a refusal shows of the Raft, before its instance ends. -/
def refusalShown (q : Nat × Nat) (s : State) : State :=
  raise 0x5021 q.1 (setMask RAFT_STATUS 0x20 (wr RAFT_DESC_ERR (q.1 % 256 + 256 + 65536 * q.2) s))

theorem refusalShown_words {q : Nat × Nat} (hq : q.2 < 65536) (s : State) :
    rd (refusalShown q s) RAFT_DESC_ERR = q.1 % 256 + 256 + 65536 * q.2 ∧ bit (rd (refusalShown q s) RAFT_STATUS) 5 = true := by
  constructor
  · rw [refusalShown, rd_raise rfl, rd_setMask_ne (by decide), rd_wr_same, Nat.mod_eq_of_lt]
    omega
  · rw [refusalShown, rd_raise rfl, rd_setMask_same (by decide) (by decide), bit_eq_testBit, Nat.testBit_or,
      show Nat.testBit 0x20 5 = true by decide, Bool.or_true]

/-! ### A cycle that starts (R297, R298) -/

/-- From `s` to `t` nothing happens but words of registers and events. -/
def Shown (s t : State) : Prop := t = { s with regs := t.regs, recd := t.recd, emitted := t.emitted }

theorem Shown.refl (s : State) : Shown s s := rfl

theorem Shown.trans {s t u : State} (h : Shown s t) (k : Shown t u) : Shown s u := by
  rw [Shown, k, h]

theorem Shown.ite {p : Prop} [Decidable p] {s a b : State} (ha : Shown s a) (hb : Shown s b) : Shown s (if p then a else b) := by
  split
  · exact ha
  · exact hb

theorem Shown.foldl {β : Type} {g : State → β → State} (h : ∀ s b, Shown s (g s b)) (l : List β) (s : State) : Shown s (l.foldl g s) := by
  induction l generalizing s with
  | nil => exact Shown.refl s
  | cons b r ih => exact (h s b).trans (ih _)

theorem Shown.raise (c a : Nat) (s : State) : Shown s (raise c a s) := (Logged.raise c a s).1

/-- The cycle descriptor of a node: its header, and as many entries as the header names (R294, R295). -/
def cycleDesc (s : State) (nd : Node) : List Byte := readBytes s nd.plan (256 + 64 * cyInputs (readBytes s nd.plan 256))

/-- The stamps of a cycle's inputs are read (R298). -/
def stampsRead (nd : Node) (c : List Byte) (s : State) : State :=
  ((List.range (cyInputs c)).map (cyEntry c)).foldl (fun s e => match argRead s nd (fieldU e 11 1) with
    | some d => noteRead 0 (tensorBase s 0 d) 64 2 s
    | none => s) s

theorem Fenced.stampsRead (nd : Node) (c : List Byte) (s : State) : Fenced s (stampsRead nd c s) := by
  refine Fenced.foldl (fun u e => ?_) _ s
  split
  · exact Fenced.noteRead _ _ _ _ u
  · exact Fenced.refl u

theorem stampsRead_mem (nd : Node) (c : List Byte) (s : State) : (stampsRead nd c s).mem = s.mem := by
  refine foldl_keeps (f := State.mem) (fun u e => ?_) _ s
  split
  · exact noteRead_mem _ _ _ _ u
  · rfl

/-- T of a cycle whose time mode is 0: the time of the stamp of the input that the descriptor names, and the offset (R297). -/
def stampedTime (s : State) (nd : Node) (c : List Byte) : Nat :=
  let e := cyEntry c (fieldU c 2 1)
  ofSigned 64 ((stampTime e ((stampOf s nd e).getD []) : Int) + fieldS c 8 8)

/-- A cycle that passes its checks starts: its stamps are read, its run begins, its skips are reported, and the Raft holds it with T, the
grid descriptor in force, and each input of its descriptor. -/
theorem exec_raftCycleStart_passes {s : State} {i : Nat} {x : Inst} {g : Graph} {nd : Node} (hz : instOf s i = some (x, g, nd))
    (hready : unitReady s 2 i = true) (hrun : s.raft.run = none) (hpass : cycleRefusal s g nd = none)
    (hmode : cyTimeMode (cycleDesc s nd) = 0) : ∃ u run, Shown (settle (beginRun i 0 (stampsRead nd (cycleDesc s nd) s))) u ∧
      run.inst = i ∧ run.start = u.ridge.ns ∧ run.t = stampedTime s nd (cycleDesc s nd) ∧ run.grid = s.raft.live ∧
      run.inputs.length = cyInputs (cycleDesc s nd) ∧
      exec (.raftCycleStart i) s = .next (setFld RAFT_STATE 1 1 1 { u with raft.run := some run }) := by
  have hstarts : ¬ (!unitReady s 2 i || s.raft.run.isSome) = true := by simp [hready, hrun]
  rw [exec_raftCycleStart, execRaftCycleStart, hz]
  dsimp -zeta only
  rw [if_neg hstarts, hpass]
  dsimp -zeta only
  extract_lets grid c entries named base t poses judged ref read begun num skipped missing reported how epochs own flags run
  have hcounted : ∀ u, Shown u (setMask RAFT_STATUS 2 (inc RAFT_INPUTS_SKIPPED u)) := fun _ => rfl
  have hskips : Shown begun skipped := Shown.foldl (fun u p => Shown.ite (Shown.refl u) (Shown.ite ((hcounted u).trans (Shown.raise _ _ _))
    (Shown.ite ((hcounted u).trans (Shown.raise _ _ _)) (hcounted u)))) _ _
  have hreported : Shown begun reported := Shown.ite (hskips.trans (Shown.raise _ _ _)) hskips
  have htime : t = stampedTime s nd c := congrArg (fun b : Nat => ofSigned 64 ((b : Int) + fieldS c 8 8)) (if_pos hmode)
  have hinputs : (judged.map (·.input)).length = cyInputs c := by
    rw [List.length_map, List.length_map, List.length_map, List.length_range]
  clear_value reported judged t
  exact ⟨reported, run, hreported, rfl, rfl, htime, rfl, hinputs, rfl⟩

section
variable {s : State} {i : Nat} {z : Inst × Graph × Node} (hz : instOf s i = some z) (hhead : AtHead s 2 i z.1 z.2.1 z.2.2)
  (hrun : s.raft.run = none)
include hz hhead hrun

/-- A cycle that fails a check of its descriptor ends with that status and offset shown. -/
theorem completes_raftCycleStart_refused {q : Nat × Nat} (hq : cycleRefusal s z.2.1 z.2.2 = some q) :
    Completes (.raftCycleStart i) s (fun t => Ended s t z.1 z.2.1 ∧ rd t RAFT_DESC_ERR = q.1 % 256 + 256 + 65536 * q.2 ∧
      bit (rd t RAFT_STATUS) 5 = true ∧ t.raft = s.raft ∧ t.mem = s.mem) := by
  obtain ⟨hlone, hready, -, hflags, hprov, hruns⟩ := hhead
  refine ⟨_, exec_raftCycleStart_refused hz hready hrun hq, ?_⟩
  have hread := Fenced.noteRead z.2.1.domain z.2.2.plan 256 2 s
  have hmem := noteRead_mem z.2.1.domain z.2.2.plan 256 2 s
  generalize noteRead z.2.1.domain z.2.2.plan 256 2 s = u at hread hmem ⊢
  have hscribe : (refusalShown q u).scribe = s.scribe := by rw [refusalShown, raise_scribe, hread.1]; rfl
  have hmb : (refusalShown q u).mb = s.mb := by rw [refusalShown, raise_mb, hread.1]; rfl
  obtain ⟨hsched, hended, hcounted, hpegs⟩ := refuseUnit_lone (hlone.congr hscribe hmb) hflags hprov (by rw [hruns]; rfl) q.1
  obtain ⟨herr, hstatus⟩ := refusalShown_words (cycleRefusal_offset hq) u
  have hraft : (refusalShown q u).raft = s.raft := by rw [refusalShown, raise_raft, hread.1]; rfl
  have hmemory : (refusalShown q u).mem = s.mem := by rw [refusalShown, raise_mem]; exact hmem
  refine ⟨⟨hended, hcounted, hpegs.trans (congrArg _ hscribe)⟩, (hsched.2.2.rd rfl).trans herr, ?_, ?_, ?_⟩
  · rw [refuseRaft, ← refusalShown, hsched.2.2.rd rfl, hstatus]
  · rw [refuseRaft, ← refusalShown, hsched.1]; exact hraft
  · rw [refuseRaft, ← refusalShown, hsched.1]; exact hmemory

/-- A cycle that passes its checks starts, at T of its time mode. -/
theorem completes_raftCycleStart_passes (hpass : cycleRefusal s z.2.1 z.2.2 = none) (hmode : cyTimeMode (cycleDesc s z.2.2) = 0) :
    Completes (.raftCycleStart i) s (fun t =>
      t.raft.run.map (fun r => (r.inst, r.start, (r.t : Int), r.grid, r.inputs.length)) =
        some (i, s.ridge.ns, (stampedTime s z.2.2 (cycleDesc s z.2.2) : Int), s.raft.live, cyInputs (cycleDesc s z.2.2)) ∧
      fld t RAFT_STATE 1 1 = 1 ∧ (tget i t.scribe.insts).map (·.st) = some .running ∧ t.raft.cycle = s.raft.cycle ∧ t.mem = s.mem ∧
      t.scribe.pegs = s.scribe.pegs) := by
  obtain ⟨hlone, hready, -, hflags, hprov, hruns⟩ := hhead
  obtain ⟨u, run, hu, hinst, hstart, ht, hgrid, hinputs, hexec⟩ := exec_raftCycleStart_passes hz hready hrun hpass hmode
  refine ⟨_, hexec, ?_⟩
  have hread := Fenced.stampsRead z.2.2 (cycleDesc s z.2.2) s
  have hmem := stampsRead_mem z.2.2 (cycleDesc s z.2.2) s
  generalize stampsRead z.2.2 (cycleDesc s z.2.2) s = v at hu hread hmem
  have hlonely : Lone v i z.1 z.2.1 z.2.2 := hlone.congr (by rw [hread.1]) (by rw [hread.1])
  rw [settle_beginRun_lone hlonely hflags hprov (by rw [hruns]; rfl)] at hu
  have hstarted := Scheduled.started i z.1 v
  have hrunning := ((hlonely.alone hflags hprov).started).insts
  generalize started i z.1 v = w at hu hstarted hrunning
  have hns : u.ridge.ns = s.ridge.ns := by rw [hu, hstarted.1, hread.1]
  have hcycle : u.raft.cycle = s.raft.cycle := by rw [hu, hstarted.1, hread.1]
  have hmemory : u.mem = v.mem := by rw [hu, hstarted.1]
  have hpegs : v.scribe.pegs = s.scribe.pegs := by rw [hread.1]
  have hscribe : u.scribe = w.scribe := by rw [hu]
  refine ⟨?_, fld_setFld_same (by decide) (by decide) (by decide) _ _, ?_, hcycle, hmemory.trans hmem, ?_⟩
  · change (some run).map _ = _
    rw [Option.map_some, hinst, hstart, ht, hgrid, hinputs, hns]
  · change (tget i u.scribe.insts).map (·.st) = _
    rw [hscribe, hrunning, tget_eq_some_of_single]
    rfl
  · exact (congrArg _ hscribe).trans (hstarted.2.1.trans hpegs)

end

end Sys2Proof.Machine
end

section
/-! PROOF. The end of a Raft cycle of which no input was used (R303–R310): its grid frame is empty. -/

namespace Sys2Proof.Machine
open Sys2Proof

/-! ### Inputs that are not used contribute nothing -/

theorem foldl_unused {α : Type} {inputs : List RaftInput} (h : inputs.all (fun x => !x.used) = true) (f : α → RaftInput × Nat → α) (a : α) :
    inputs.zipIdx.foldl (fun a p => if p.1.used then f a p else a) a = a := by
  have hunused : ∀ p ∈ inputs.zipIdx, p.1.used = false := fun p hp => by
    simpa using List.all_eq_true.1 h p.1 (List.fst_mem_of_mem_zipIdx hp)
  revert hunused
  generalize inputs.zipIdx = l
  intro hunused
  induction l with
  | nil => rfl
  | cons p l ih =>
    rw [List.foldl_cons, hunused p List.mem_cons_self]
    exact ih fun q hq => hunused q (List.mem_cons_of_mem p hq)

theorem foldInputs_unused {s : State} {nd : Node} {run : RaftRun} (h : run.inputs.all (fun x => !x.used) = true) : foldInputs s nd run = {} :=
  foldl_unused h _ _

/-! ### The frame is written -/

/-- An instance that is not provisional writes through the Fence. -/
theorem unitWrite_direct {s : State} {i : Nat} {x : Inst} (hinst : tget i s.scribe.insts = some x) (hprov : x.prov = false) (dom a : Nat)
    (bs : List Byte) (poison : Bool) : unitWrite i dom a bs poison s = fencedWrite dom 2 ⟨a, bs, poison⟩ s := by
  rw [unitWrite, hinst]
  simp only [hprov, Bool.false_eq_true, if_false]

theorem Fenced.unitWrites {s : State} {i : Nat} {x : Inst} (hinst : tget i s.scribe.insts = some x) (hprov : x.prov = false) (dom a b : Nat)
    (bs cs : List Byte) : Fenced s (unitWrite i dom b cs false (unitWrite i dom a bs false s)) := by
  have hfirst := Fenced.fencedWrite dom 2 ⟨a, bs, false⟩ s
  have hscribe : (Machine.fencedWrite dom 2 ⟨a, bs, false⟩ s).scribe = s.scribe := by rw [hfirst.1]
  have hstill : tget i (Machine.fencedWrite dom 2 ⟨a, bs, false⟩ s).scribe.insts = some x := by rw [hscribe]; exact hinst
  rw [unitWrite_direct hinst hprov, unitWrite_direct hstill hprov]
  exact hfirst.trans (Fenced.fencedWrite _ _ _ _)

/-- An empty frame is written in two parts: its header with the feature plane, and its info plane. -/
theorem Fenced.writeGrid_empty {s : State} {i : Nat} {x : Inst} (hinst : tget i s.scribe.insts = some x) (hprov : x.prov = false) (addr : Nat)
    (run : RaftRun) (header : List Byte) : Fenced s (writeGrid i addr run header {} s) :=
  Fenced.unitWrites hinst hprov 0 addr _ _ _

/-! ### What the frame counts and shows (R307, R310) -/

/-- The counts of a frame. -/
def frameCounted (a : RaftAcc) (s : State) : State :=
  let kept := a.cells.map (·.2)
  let s := inc RAFT_CYCLES (incFld RAFT_CONTRIBS_IN 31 0 a.contribsIn (incFld RAFT_PRUNED 31 0 a.pruned s))
  let s := incFld RAFT_AGED_OUT 31 0 a.aged (incFld RAFT_OUT_OF_HEIGHT 31 0 a.height (incFld RAFT_OUT_OF_GRID 31 0 a.outside s))
  let s := incFld RAFT_FOLDED 31 0 ((kept.map (·.contribs)).sum) (incFld RAFT_DROP_CONTRIBS 31 0 a.dropped s)
  incFld RAFT_DROP_CELLS 31 0 a.marked.length (incFld RAFT_CELLS_OUT 31 0 kept.length (incFld RAFT_NAN_CONTRIBS 31 0 a.nan s))

/-- The maxima of a cycle with `cells` cells, and the last frame with its status. -/
def frameShown (steps cells frame status : Nat) (s : State) : State :=
  let s := wr RAFT_CYCLE_STEPS_MAX (max (rd s RAFT_CYCLE_STEPS_MAX) (sat32 steps)) s
  let s := setFld RAFT_OCC_PEAK 18 0 (max (fld s RAFT_OCC_PEAK 18 0) cells) s
  setMask RAFT_STATUS status (wr RAFT_LAST_FRAME frame s)

theorem frameCounted_words (s : State) : let t := frameCounted {} s
    rd t RAFT_CYCLES = min 0xFFFFFFFF (rd s RAFT_CYCLES + 1) ∧ rd t RAFT_FOLDED = rd s RAFT_FOLDED ∧ rd t RAFT_CELLS_OUT = rd s RAFT_CELLS_OUT ∧
      rd t RAFT_CYCLE_STEPS_MAX = rd s RAFT_CYCLE_STEPS_MAX := by
  refine ⟨?_, ?_, ?_, ?_⟩ <;> simp (disch := decide) only [frameCounted, rd_inc, rd_inc_ne, rd_incFld_ne, rd_incFld_zero, List.map_nil,
    List.sum_nil, List.length_nil]

theorem frameShown_words {frame : Nat} (hframe : frame < 2 ^ 32) (steps cells status : Nat) (s : State) : let t := frameShown steps cells frame status s
    rd t RAFT_LAST_FRAME = frame ∧ rd t RAFT_CYCLE_STEPS_MAX = max (rd s RAFT_CYCLE_STEPS_MAX) (sat32 steps) ∧
      rd t RAFT_CYCLES = rd s RAFT_CYCLES ∧ rd t RAFT_FOLDED = rd s RAFT_FOLDED ∧ rd t RAFT_CELLS_OUT = rd s RAFT_CELLS_OUT := by
  have hmax : max (rd s RAFT_CYCLE_STEPS_MAX) (sat32 steps) < 2 ^ 32 := by
    have := rd_lt s RAFT_CYCLE_STEPS_MAX (by decide)
    rw [sat32]
    omega
  refine ⟨?_, ?_, ?_, ?_, ?_⟩ <;> simp (disch := decide) only [frameShown, rd_setMask_ne, rd_setFld_ne, rd_wr_ne, rd_wr_same,
    Nat.mod_eq_of_lt hframe, Nat.mod_eq_of_lt hmax]

/-! ### The end of the cycle -/

/-- The verdict of a grid frame with these flags (R308). -/
def gridVerdict (flags : Nat) : Nat := if flags &&& 0x120 ≠ 0 then 2 else if flags &&& 0xE9F ≠ 0 then 1 else 0

/-- Poses that were held, or that were absent, are reported (R313). -/
def posesReported (num flags : Nat) (s : State) : State :=
  let s := if bit flags 7 then raise 0x5004 num s else s
  if bit flags 8 then raise 0x5005 num s else s

/-- The Raft is free again, and its next cycle has the next number. -/
def cycleClosed (num : Nat) (s : State) : State := setFld RAFT_STATE 1 1 0 { s with raft.run := none, raft.cycle := (num + 1) % 2 ^ 32 }

theorem exec_raftCycleEnd (i steps : Nat) (s : State) : exec (.raftCycleEnd i steps) s = execRaftCycleEnd i steps s := rfl

theorem lor_eq_add {f : Nat} (h : f < 0x1000) : f ||| 0x1000 = f + 0x1000 := by
  have := Nat.two_pow_add_eq_or_of_lt (i := 12) h 1
  rw [Nat.or_comm, ← this, Nat.add_comm]

/-- A cycle of which no input was used writes an empty frame, counts and shows it, and ends. -/
theorem exec_raftCycleEnd_unused {s : State} {i : Nat} {x : Inst} {g : Graph} {nd : Node} {run : RaftRun} (hz : instOf s i = some (x, g, nd))
    (hrun : s.raft.run = some run) (hinst : run.inst = i) (hunused : run.inputs.all (fun x => !x.used) = true) (hflags : run.flags < 0x1000)
    (hpeg : cyPeg run.desc = 0xFFFF) (steps : Nat) : ∃ addr header status flags, flags = run.flags + 0x1000 ∧
      exec (.raftCycleEnd i steps) s = .next (settle (endRun i 0 0 (cycleClosed s.raft.cycle (posesReported s.raft.cycle flags
        (frameShown steps 0 (flags + 65536 * gridVerdict flags) status (frameCounted {} (writeGrid i addr run header {} s))))))) := by
  rw [exec_raftCycleEnd, execRaftCycleEnd, hrun, hz]
  dsimp -zeta only
  rw [if_neg (not_not_intro hinst)]
  extract_lets a kept tOld dropped flags verdict num addr read written counted₁ counted₂ counted₃ counted₄ stepped peaked last status
    dropsReported held reported raft closed signalled
  have ha : a = {} := foldInputs_unused hunused
  have hread : read = s := foldl_unused hunused _ _
  have hsignalled : signalled = closed := if_pos hpeg
  clear_value signalled a read
  subst hsignalled ha hread
  have hempty : flags = run.flags + 0x1000 := by simp [flags, kept, dropped, b2n, lor_eq_add hflags]
  exact ⟨addr, gridHeader run num flags verdict {} tOld, _, flags, hempty, rfl⟩

/-- The flag of an empty frame has no part in the verdict. -/
theorem gridVerdict_empty {f : Nat} (h : f < 0x1000) : gridVerdict (f + 0x1000) = gridVerdict f := by
  have hinvalid : (f ||| 0x1000) &&& 0x120 = f &&& 0x120 := by rw [Nat.and_or_distrib_right]; exact Nat.or_zero _
  have hdegraded : (f ||| 0x1000) &&& 0xE9F = f &&& 0xE9F := by rw [Nat.and_or_distrib_right]; exact Nat.or_zero _
  rw [← lor_eq_add h, gridVerdict, hinvalid, hdegraded, gridVerdict]

theorem gridVerdict_le (f : Nat) : gridVerdict f ≤ 2 := by
  unfold gridVerdict
  split
  · decide
  · split <;> decide

theorem Logged.keeps {s t : State} (h : Logged s t) : t.scribe = s.scribe ∧ t.mb = s.mb ∧ t.raft = s.raft := by
  rw [h.1]
  exact ⟨rfl, rfl, rfl⟩

theorem Logged.posesReported (num flags : Nat) (s : State) : Logged s (posesReported num flags s) :=
  (Logged.ite (Logged.raise 0x5004 num s) (Logged.refl s)).trans (Logged.ite (Logged.raise 0x5005 num _) (Logged.refl _))

theorem rd_cycleClosed {r : Reg} (h : r.addr ≠ RAFT_STATE.addr) (num : Nat) (s : State) : rd (cycleClosed num s) r = rd s r :=
  rd_setFld_ne h 1 1 0 _

/-- The state in which the cycle of an empty frame is over, and its instance has yet to end. -/
def emptyCycle (num steps flags status : Nat) (u : State) : State :=
  cycleClosed num (posesReported num flags (frameShown steps 0 (flags + 65536 * gridVerdict flags) status (frameCounted {} u)))

theorem emptyCycle_words {flags : Nat} (h : flags < 0x2000) (num steps status : Nat) (u : State) : let t := emptyCycle num steps flags status u
    rd t RAFT_LAST_FRAME = flags + 65536 * gridVerdict flags ∧ rd t RAFT_CYCLES = min 0xFFFFFFFF (rd u RAFT_CYCLES + 1) ∧
      rd t RAFT_CYCLE_STEPS_MAX = max (rd u RAFT_CYCLE_STEPS_MAX) (sat32 steps) ∧ rd t RAFT_FOLDED = rd u RAFT_FOLDED ∧
      rd t RAFT_CELLS_OUT = rd u RAFT_CELLS_OUT ∧ fld t RAFT_STATE 1 1 = 0 := by
  have hkeeps : ∀ r : Reg, r.addr ≠ RAFT_STATE.addr → inRecorder r.addr = false → rd (emptyCycle num steps flags status u) r =
      rd (frameShown steps 0 (flags + 65536 * gridVerdict flags) status (frameCounted {} u)) r := fun r hstate hrec =>
    (rd_cycleClosed hstate num _).trans ((Logged.posesReported num flags _).2.rd hrec)
  have hfits : flags + 65536 * gridVerdict flags < 2 ^ 32 := by
    have := gridVerdict_le flags
    omega
  obtain ⟨hlast, hsteps, hcycles, hfolded, hcells⟩ := frameShown_words hfits steps 0 status (frameCounted {} u)
  obtain ⟨hcounted, hfolds, hcellsOut, hmax⟩ := frameCounted_words u
  refine ⟨(hkeeps _ (by decide) rfl).trans hlast, ?_, ?_, ?_, ?_, fld_setFld_same (by decide) (by decide) (by decide) 0 _⟩
  · rw [hkeeps _ (by decide) rfl, hcycles, hcounted]
  · rw [hkeeps _ (by decide) rfl, hsteps, hmax]
  · rw [hkeeps _ (by decide) rfl, hfolded, hfolds]
  · rw [hkeeps _ (by decide) rfl, hcells, hcellsOut]

theorem frameCounted_keeps (a : RaftAcc) (s : State) : let t := frameCounted a s
    t.scribe = s.scribe ∧ t.mb = s.mb ∧ t.raft = s.raft := by simp [frameCounted]

theorem frameShown_keeps (steps cells frame status : Nat) (s : State) : let t := frameShown steps cells frame status s
    t.scribe = s.scribe ∧ t.mb = s.mb ∧ t.raft = s.raft := by simp [frameShown]

theorem emptyCycle_keeps (num steps flags status : Nat) (u : State) : let t := emptyCycle num steps flags status u
    t.scribe = u.scribe ∧ t.mb = u.mb ∧ t.raft = { u.raft with run := none, cycle := (num + 1) % 2 ^ 32 } := by
  obtain ⟨hscribe, hmb, hraft⟩ := frameCounted_keeps {} u
  rw [emptyCycle, ← hscribe, ← hmb, ← hraft]
  generalize frameCounted {} u = v
  obtain ⟨hscribe, hmb, hraft⟩ := frameShown_keeps steps 0 (flags + 65536 * gridVerdict flags) status v
  rw [← hscribe, ← hmb, ← hraft]
  generalize frameShown steps 0 (flags + 65536 * gridVerdict flags) status v = v
  obtain ⟨hscribe, hmb, hraft⟩ := (Logged.posesReported num flags v).keeps
  rw [← hscribe, ← hmb, ← hraft]
  exact ⟨rfl, rfl, rfl⟩

/-- At the end of a cycle of which no input was used the empty frame is counted, numbered and shown, and the instance ends. -/
theorem completes_raftCycleEnd_unused {s : State} {i : Nat} {z : Inst × Graph × Node} (hz : instOf s i = some z)
    (hunit : InUnit s 2 i z.1 z.2.1 z.2.2) {run : RaftRun} (hrun : s.raft.run = some run) (hinst : run.inst = i)
    (hunused : run.inputs.all (fun x => !x.used) = true) (hflags : run.flags < 0x1000) (hpeg : cyPeg run.desc = 0xFFFF) (steps : Nat) :
    Completes (.raftCycleEnd i steps) s (fun t => Ended s t z.1 z.2.1 ∧ rd t RAFT_LAST_FRAME = run.flags + 0x1000 + 65536 * gridVerdict run.flags ∧
      rd t RAFT_CYCLES = min 0xFFFFFFFF (rd s RAFT_CYCLES + 1) ∧
      rd t RAFT_CYCLE_STEPS_MAX = max (rd s RAFT_CYCLE_STEPS_MAX) (min 0xFFFFFFFF steps) ∧ rd t RAFT_FOLDED = rd s RAFT_FOLDED ∧
      rd t RAFT_CELLS_OUT = rd s RAFT_CELLS_OUT ∧ fld t RAFT_STATE 1 1 = 0 ∧
      t.raft = { s.raft with run := none, cycle := (s.raft.cycle + 1) % 2 ^ 32 }) := by
  obtain ⟨hlone, -, hnode, hprov, hst, -⟩ := hunit
  have hstands : tget i s.scribe.insts = some z.1 := by rw [(hlone.alone hnode hprov).insts, tget_eq_some_of_single]
  obtain ⟨addr, header, status, flags, hempty, hexec⟩ := exec_raftCycleEnd_unused hz hrun hinst hunused hflags hpeg steps
  refine ⟨_, hexec, ?_⟩
  have hwritten := Fenced.writeGrid_empty hstands hprov addr run header
  generalize writeGrid i addr run header {} s = u at hwritten ⊢
  rw [← emptyCycle]
  obtain ⟨hscribe, hmb, hraft⟩ := emptyCycle_keeps s.raft.cycle steps flags status u
  obtain ⟨hlast, hcycles, hsteps, hfolded, hcells, hstate⟩ := emptyCycle_words (flags := flags) (by omega) s.raft.cycle steps status u
  generalize emptyCycle s.raft.cycle steps flags status u = v at *
  have hkept : u.scribe = s.scribe ∧ u.mb = s.mb ∧ u.raft = s.raft := by rw [hwritten.1]; exact ⟨rfl, rfl, rfl⟩
  obtain ⟨hsched, hended, hcounted, hpegs⟩ := settle_endRun_lone (hlone.congr (hscribe.trans hkept.1) (hmb.trans hkept.2.1)) hnode hprov hst 0
  have hword : ∀ r : Reg, inWindow 0x80000 r.addr = false → rd (settle (endRun i 0 0 v)) r = rd v r := fun r hr => hsched.2.2.rd hr
  refine ⟨⟨hended, hcounted, hpegs.trans (congrArg _ (hscribe.trans hkept.1))⟩, ?_, ?_, ?_, ?_, ?_, ?_, ?_⟩
  · rw [hword _ rfl, hlast, hempty, gridVerdict_empty hflags]
  · rw [hword _ rfl, hcycles, hwritten.2.rd rfl]
  · rw [hword _ rfl, hsteps, hwritten.2.rd rfl, sat32]
  · rw [hword _ rfl, hfolded, hwritten.2.rd rfl]
  · rw [hword _ rfl, hcells, hwritten.2.rd rfl]
  · rw [fld, hword _ rfl]
    exact hstate
  · rw [hsched.1]
    exact hraft.trans (by rw [hkept.2.2])

end Sys2Proof.Machine
end

section
/-! PROOF. The voxel frame of a grid epoch (R165–R170), and the statement about the frames of the Planer and of the Raft. -/

namespace Sys2Proof.Machine
open Sys2Proof

/-! ### A record that finds no ring, and a peg that is free (R168, R248, R267) -/

theorem with_streams_eq {s : State} {l : Tab Stream} (h : s.out.streams = l) : { s with out.streams := l } = s := by subst h; rfl

theorem unitPushS_noRing {s : State} {k : Nat} (hwork : s.scribe.work = []) (hring : tget k s.scribe.rings = none) (e : List Byte) :
    unitPushS k e s = (s, false) := by
  have hpush : unitPush k 0 e s = (s, false) := by simp only [unitPush, checkRing, hring]
  rw [unitPushS, hpush]
  exact Prod.ext (settle_idle hwork) rfl

/-- A unit's signal on a peg that is free is counted, and reaches nothing. -/
theorem unitSignal_freePeg {s : State} {p : Nat} (hwork : s.scribe.work = []) (hstreams : s.out.streams = [])
    (hpeg : tget p s.scribe.pegs = none) (verdict : Nat) (record : List Byte) : unitSignal p verdict record s = inc SCRIBE_FREE_PEG_ADDS s := by
  have hadd : perform (.add p 1 verdict) s = inc SCRIBE_FREE_PEG_ADDS s := by simp only [perform, applyAdd, hpeg]
  rw [unitSignal, hstreams, List.map_nil, with_streams_eq hstreams, unitPegAdd, pegAdd, settle_enqueue hwork (by rw [hadd]; exact hwork), hadd]

/-! ### The stages of a frame -/

/-- The 64 bytes of a voxel frame's header (R167). -/
def voxelHeader (d : List Byte) (n num fl tOld merged epoch : Nat) (e : GridEpoch) : List Byte :=
  leBytes 1 1 ++ leBytes 1 (pdRule d) ++ leBytes 2 fl ++ leBytes 4 num ++ leBytes 8 (gridRef d n) ++ leBytes 8 tOld ++
    leBytes 8 (gridStart d n) ++ leBytes 4 e.table.length ++ leBytes 4 e.pointsIn ++ leBytes 4 e.filtered ++ leBytes 4 e.late ++
    leBytes 4 merged ++ leBytes 4 e.dropped ++ leBytes 4 e.cells ++ leBytes 2 epoch ++ leBytes 2 0

/-- The frame's record is pushed, and dropped and counted where it finds no room; then frame_peg is signalled (R168). -/
def recordSent (d : List Byte) (num verdict : Nat) (record : List Byte) (s : State) : State :=
  let (s, sent) := unitPushS (pdRing d) record s
  unitSignal (pdPeg d) verdict record (if sent then s else raise 0x4006 num (inc PLANER_REC_DROP s))

/-- The frame is counted and shown (R170). -/
def voxelsCounted (num fl verdict merged endsAt : Nat) (e : GridEpoch) (s : State) : State :=
  let s := incFld PLANER_MERGED 31 0 merged (incFld PLANER_DROP_POINTS 31 0 e.dropped (incFld PLANER_DROP_CELLS 31 0 e.cells s))
  let s := inc PLANER_FRAMES (incFld PLANER_VOXELS_OUT 31 0 e.table.length s)
  let s := wr PLANER_FRAME_NUMBER num (wr PLANER_LAST_FRAME (fl + 65536 * verdict) s)
  let s := wr PLANER_EMIT_LAT_MAX (min 0xFFFFFFFF (max (rd s PLANER_EMIT_LAT_MAX) ((s.ridge.ns - endsAt) / 1000))) s
  setMask PLANER_STATUS ((fl &&& 0x3F) + (if bit fl 7 then 0x80 else 0)) s

/-- The flags of the frame are reported (R170). -/
def voxelsReported (num fl : Nat) (s : State) : State :=
  let s := if bit fl 0 then raise 0x4001 num s else s
  let s := if bit fl 1 then raise 0x4002 num s else s
  let s := if bit fl 3 then raise 0x4003 num s else s
  if bit fl 4 then raise 0x4004 num s else s

theorem exec_voxelFrameEmit (s : State) : exec .voxelFrameEmit s = execVoxelFrameEmit s := rfl

/-- The bytes of a voxel frame: its header, and one entry for each voxel of the table (R167, R169). -/
def voxelFrame (d : List Byte) (n num fl tOld merged epoch : Nat) (e : GridEpoch) : List Byte :=
  voxelHeader d n num fl tOld merged epoch e ++ e.table.flatMap (fun x => voxelEntry (gridRef d n) x.1 x.2.1 x.2.2)

/-- The address of the output slot that a frame takes (R167). -/
def frameSlot (d : List Byte) (num : Nat) : Nat := pdOutBase d + num % max 1 (pdOutSlots d) * pdOutStride d

/-- A grid epoch whose every slice has been processed gives its frame: it is written, its record is sent, and it is counted, shown and
reported before the next epoch follows. -/
theorem exec_voxelFrameEmit_done {s : State} {g : PlanSeg} {rest : List PlanSeg} (hsegs : s.plan.segs = g :: rest) (hlast : g.last = none)
    (hslices : gridSlices g.desc ≤ (gridAt s g.desc g.first).next) :
    let d := g.desc
    let num := s.plan.frame
    let e := gridAt s d g.first
    ∃ fl tOld merged epoch verdict record, exec .voxelFrameEmit s = .next (gridDone (voxelsReported num fl
      (voxelsCounted num fl verdict merged (gridStart d g.first + pdPeriod d) e (recordSent d num verdict record
        (fencedWrite 0 2 ⟨frameSlot d num, voxelFrame d g.first num fl tOld merged epoch e, false⟩ (writeBitmap d g.first e.marked s)))))) := by
  intro d num e
  have hdue : ¬ (decide (e.next < gridSlices d) || !inSeg g g.first) = true := by simp [inSeg, hlast, Nat.not_lt.2 hslices, e, d]
  rw [exec_voxelFrameEmit, execVoxelFrameEmit, hsegs]
  dsimp -zeta only
  rw [if_neg hdue]
  extract_lets tRef begins close kept contributing inWindow mask synth unguarded merged fl verdict tOld slot epoch header body record
    written queued sent counted numbered framed timed status r₁ r₂ r₃ reported
  have hsent : sent = recordSent d num verdict record written := rfl
  have hcounted : status = voxelsCounted num fl verdict merged (begins + pdPeriod d) e sent := rfl
  have hreported : reported = voxelsReported num fl status := rfl
  refine ⟨fl, tOld, merged, epoch, verdict, record, ?_⟩
  rw [hreported, hcounted, hsent]
  rfl

/-! ### What each stage leaves -/

theorem voxelFrame_fields (d : List Byte) (n num fl tOld merged epoch : Nat) (e : GridEpoch) :
    let f := voxelFrame d n num fl tOld merged epoch e
    (f.drop 0).take 2 = [1, BitVec.ofNat 8 (pdRule d)] ∧ (f.drop 4).take 12 = leBytes 4 num ++ leBytes 8 (gridRef d n) ∧
      (f.drop 24).take 8 = leBytes 8 (gridStart d n) ∧ (f.drop 32).take 4 = leBytes 4 e.table.length := by
  simp [voxelFrame, voxelHeader, leBytes]

theorem voxelFrame_length {e : GridEpoch} (h : e.table = []) (d : List Byte) (n num fl tOld merged epoch : Nat) :
    (voxelFrame d n num fl tOld merged epoch e).length = 64 := by
  simp [voxelFrame, voxelHeader, leBytes_length, h]

theorem recordSent_nowhere {s : State} {d : List Byte} (hwork : s.scribe.work = []) (hrings : s.scribe.rings = []) (hstreams : s.out.streams = [])
    (hpeg : tget (pdPeg d) s.scribe.pegs = none) (num verdict : Nat) (record : List Byte) :
    recordSent d num verdict record s = inc SCRIBE_FREE_PEG_ADDS (raise 0x4006 num (inc PLANER_REC_DROP s)) := by
  have hring : tget (pdRing d) s.scribe.rings = none := by rw [hrings, tget_nil]
  rw [recordSent, unitPushS_noRing hwork hring]
  exact unitSignal_freePeg (by simpa using hwork) (by simpa using hstreams) (by simpa using hpeg) _ _

theorem voxelsCounted_words (num fl verdict merged endsAt : Nat) {e : GridEpoch} (h : e.table = []) (s : State) :
    let t := voxelsCounted num fl verdict merged endsAt e s
    rd t PLANER_FRAMES = min 0xFFFFFFFF (rd s PLANER_FRAMES + 1) ∧ rd t PLANER_VOXELS_OUT = rd s PLANER_VOXELS_OUT ∧
      rd t PLANER_REC_DROP = rd s PLANER_REC_DROP := by
  refine ⟨?_, ?_, ?_⟩ <;> simp (disch := decide) only [voxelsCounted, rd_setMask_ne, rd_wr_ne, rd_inc, rd_inc_ne, rd_incFld_ne, h, List.length_nil,
    rd_incFld_zero]

theorem voxelsCounted_keeps (num fl verdict merged endsAt : Nat) (e : GridEpoch) (s : State) :
    let t := voxelsCounted num fl verdict merged endsAt e s
    t.mem = s.mem ∧ t.plan = s.plan := by simp [voxelsCounted]

theorem Logged.voxelsReported (num fl : Nat) (s : State) : Logged s (voxelsReported num fl s) :=
  ((Logged.ite (Logged.raise 0x4001 num s) (Logged.refl s)).trans (Logged.ite (Logged.raise 0x4002 num _) (Logged.refl _))).trans
    ((Logged.ite (Logged.raise 0x4003 num _) (Logged.refl _)).trans (Logged.ite (Logged.raise 0x4004 num _) (Logged.refl _)))

/-- The next grid epoch of the oldest run follows, where the run has no end (R176). -/
theorem gridDone_next {s : State} {g : PlanSeg} {rest : List PlanSeg} (hsegs : s.plan.segs = g :: rest) (hlast : g.last = none) :
    let t := gridDone s
    t.plan.frame = (s.plan.frame + 1) % 2 ^ 32 ∧ t.plan.segs = { g with first := g.first + 1, gap := false } :: rest ∧
      t.regs = s.regs ∧ t.mem = s.mem := by
  rw [gridDone, hsegs]
  simp [hlast]

/-- The stages of a frame without voxels, whose record finds no ring and whose peg is free. -/
theorem voxelStages_words {num fl verdict merged endsAt : Nat} {e : GridEpoch} (h : e.table = []) (s : State) :
    let t := voxelsReported num fl (voxelsCounted num fl verdict merged endsAt e (inc SCRIBE_FREE_PEG_ADDS (raise 0x4006 num (inc PLANER_REC_DROP s))))
    rd t PLANER_FRAMES = min 0xFFFFFFFF (rd s PLANER_FRAMES + 1) ∧ rd t PLANER_REC_DROP = min 0xFFFFFFFF (rd s PLANER_REC_DROP + 1) ∧
      rd t PLANER_VOXELS_OUT = rd s PLANER_VOXELS_OUT ∧ t.mem = s.mem ∧ t.plan = s.plan := by
  intro t
  have hreported : Logged _ t := Logged.voxelsReported num fl _
  obtain ⟨hframes, hvoxels, hdrop⟩ := voxelsCounted_words num fl verdict merged endsAt h
    (inc SCRIBE_FREE_PEG_ADDS (raise 0x4006 num (inc PLANER_REC_DROP s)))
  obtain ⟨hmem, hplan⟩ := voxelsCounted_keeps num fl verdict merged endsAt e
    (inc SCRIBE_FREE_PEG_ADDS (raise 0x4006 num (inc PLANER_REC_DROP s)))
  refine ⟨(hreported.2.rd rfl).trans (hframes.trans ?_), (hreported.2.rd rfl).trans (hdrop.trans ?_),
    (hreported.2.rd rfl).trans (hvoxels.trans ?_), ?_, ?_⟩
  · rw [rd_inc_ne (by decide), rd_raise rfl, rd_inc_ne (by decide)]
  · rw [rd_inc_ne (by decide), rd_raise rfl, rd_inc (by decide)]
  · rw [rd_inc_ne (by decide), rd_raise rfl, rd_inc_ne (by decide)]
  · rw [hreported.1]
    exact hmem.trans (by simp)
  · rw [hreported.1]
    exact hplan.trans (by simp)

/-- The frame is written whole into a slot whose lines are admitted. -/
theorem frameWritten {s : State} {d : List Byte} {n fl tOld merged epoch : Nat} {e : GridEpoch} (htable : e.table = [])
    (hlink : cutOff s none (frameSlot d s.plan.frame) = false) (hadmit : admitAll s 0 (frameSlot d s.plan.frame) 64 true = true) :
    let w : MemWrite := ⟨frameSlot d s.plan.frame, voxelFrame d n s.plan.frame fl tOld merged epoch e, false⟩
    fencedWrite 0 2 w (writeBitmap d n [] s) = writeMem w (writeBitmap d n [] s) := by
  refine fencedWrite_admitted hlink ?_
  rw [voxelFrame_length htable]
  exact hadmit

/-- The empty frame of the oldest grid epoch is written, numbered and counted; its record is dropped, and the next epoch follows. -/
theorem completes_voxelFrameEmit_empty {s : State} {g : PlanSeg} {rest : List PlanSeg} (hsegs : s.plan.segs = g :: rest) (hlast : g.last = none)
    (hwork : s.scribe.work = []) (hpeg : tget (pdPeg g.desc) s.scribe.pegs = none) (hstreams : s.out.streams = []) (hrings : s.scribe.rings = [])
    (hslices : gridSlices g.desc ≤ (gridAt s g.desc g.first).next) (htable : (gridAt s g.desc g.first).table = [])
    (hmarked : (gridAt s g.desc g.first).marked = []) (hlink : cutOff s none (frameSlot g.desc s.plan.frame) = false)
    (hadmit : admitAll s 0 (frameSlot g.desc s.plan.frame) 64 true = true) :
    let a := frameSlot g.desc s.plan.frame
    Completes .voxelFrameEmit s (fun t =>
      readBytes t a 2 = [1, BitVec.ofNat 8 (pdRule g.desc)] ∧
      readBytes t (a + 4) 12 = leBytes 4 s.plan.frame ++ leBytes 8 (gridRef g.desc g.first) ∧
      readBytes t (a + 24) 8 = leBytes 8 (gridStart g.desc g.first) ∧ readBytes t (a + 32) 4 = leBytes 4 0 ∧
      t.plan.frame = (s.plan.frame + 1) % 2 ^ 32 ∧ t.plan.segs = { g with first := g.first + 1, gap := false } :: rest ∧
      rd t PLANER_FRAMES = min 0xFFFFFFFF (rd s PLANER_FRAMES + 1) ∧ rd t PLANER_REC_DROP = min 0xFFFFFFFF (rd s PLANER_REC_DROP + 1) ∧
      rd t PLANER_VOXELS_OUT = rd s PLANER_VOXELS_OUT) := by
  obtain ⟨fl, tOld, merged, epoch, verdict, record, hexec⟩ := exec_voxelFrameEmit_done hsegs hlast hslices
  refine ⟨_, hexec, ?_⟩
  rw [hmarked, frameWritten htable hlink hadmit, recordSent_nowhere (by exact hwork) (by exact hrings) (by exact hstreams) (by exact hpeg)]
  have hlength := voxelFrame_length htable g.desc g.first s.plan.frame fl tOld merged epoch
  obtain ⟨hversion, hnumber, hstart, hcount⟩ := voxelFrame_fields g.desc g.first s.plan.frame fl tOld merged epoch (gridAt s g.desc g.first)
  generalize voxelFrame g.desc g.first s.plan.frame fl tOld merged epoch (gridAt s g.desc g.first) = frame at *
  obtain ⟨hframes, hdrop, hvoxels, hmem, hplan⟩ := voxelStages_words (num := s.plan.frame) (fl := fl) (verdict := verdict) (merged := merged)
    (endsAt := gridStart g.desc g.first + pdPeriod g.desc) htable
    (writeMem ⟨frameSlot g.desc s.plan.frame, frame, false⟩ (writeBitmap g.desc g.first [] s))
  obtain ⟨hnext, hsegments, hregs, hmemory⟩ := gridDone_next ((congrArg PlanSt.segs hplan).trans hsegs) hlast
  have hbytes := fun {o n : Nat} (ho : o + n ≤ 64) => (readBytes_mem (hmemory.trans hmem) _ n).trans
    (readBytes_writeMem ⟨frameSlot g.desc s.plan.frame, frame, false⟩ (writeBitmap g.desc g.first [] s) (o := o) (hlength ▸ ho))
  refine ⟨(hbytes (by decide)).trans hversion, (hbytes (by decide)).trans hnumber, (hbytes (by decide)).trans hstart,
    (hbytes (by decide)).trans (hcount.trans (by rw [htable, List.length_nil])), hnext.trans ?_, hsegments, (rd_regs _ hregs).trans hframes,
    (rd_regs _ hregs).trans hdrop, (rd_regs _ hregs).trans hvoxels⟩
  rw [hplan]
  rfl

/-- Settles O37: the Planer's frame, and the refusal, the start and the end of a Raft cycle, each by the lemma of its case. -/
theorem voxelAndGridFrames : Obligations.VoxelAndGridFrames := by
  refine ⟨fun s g rest hsegs hlast hquiet hpeg hstreams hrings hslices htable hmarked hlink hadmit => ?_,
    fun s i z hz hhead hrun => ⟨fun q hq _ => completes_raftCycleStart_refused hz hhead hrun hq,
      fun hpass hmode => completes_raftCycleStart_passes hz hhead hrun hpass hmode⟩,
    fun s i steps z hz hunit run hrun hinst hunused hflags hpeg =>
      completes_raftCycleEnd_unused hz hunit hrun hinst hunused hflags hpeg steps⟩
  exact completes_voxelFrameEmit_empty hsegs hlast hquiet.1 hpeg hstreams hrings hslices htable hmarked hlink hadmit

end Sys2Proof.Machine
end

section
/-! PROOF. Number formats (R201, R202, R207, R213, R217): the value of a code, class by class, and the encoding of such a value, for the
floating-point formats, the integer formats and Q32. -/

namespace Sys2Proof.Machine
open Sys2Proof

/-! ### Signed numbers of a width -/

theorem ofSigned_toSigned {w v : Nat} (h : v < 2 ^ w) : ofSigned w (toSigned w v) = v := by
  have hmod : (v : Int) % (2 ^ w : Nat) = v := Int.emod_eq_of_lt (Int.natCast_nonneg v) (by exact_mod_cast h)
  unfold toSigned ofSigned
  split
  · rw [hmod, Int.toNat_natCast]
  · rw [Int.sub_emod_right, hmod, Int.toNat_natCast]

theorem toSigned_range {w v : Nat} (hw : 0 < w) (h : v < 2 ^ w) :
    -(2 ^ (w - 1) : Nat) ≤ toSigned w v ∧ toSigned w v ≤ (2 ^ (w - 1) : Nat) - 1 := by
  obtain ⟨n, rfl⟩ : ∃ n, w = n + 1 := ⟨w - 1, by omega⟩
  rw [Nat.pow_succ] at h
  simp only [toSigned, Nat.add_sub_cancel, Nat.pow_succ]
  split <;> omega

/-! ### Rounding of a value that needs none (R207) -/

theorem roundEven_same (m : Nat) (e : Int) : roundEven m e e = m := by simp [roundEven]

theorem log2_lt_of_lt_two_pow {m k : Nat} (hk : 0 < k) (h : m < 2 ^ k) : Nat.log2 (max 1 m) < k := by
  have hone : 1 < 2 ^ k := Nat.one_lt_two_pow (Nat.ne_of_gt hk)
  exact (Nat.log2_lt (by omega)).2 (by omega)

theorem log2_significand {mb r : Nat} (hr : r < 2 ^ mb) : Nat.log2 (max 1 (2 ^ mb + r)) = mb := by
  have hpos := Nat.two_pow_pos mb
  rw [Nat.max_eq_right (by omega)]
  exact (Nat.log2_eq_iff (by omega)).2 ⟨by omega, by rw [Nat.pow_succ]; omega⟩

/-! ### Codes of a floating-point format (R201, R202) -/

/-- The finite value with this sign and magnitude code: exponent field 0 is subnormal (R202). -/
def finiteOf (mb bias : Nat) (neg : Bool) (x : Nat) : Num :=
  if x / 2 ^ mb = 0 then .fin neg x (1 - (bias : Int) - mb) else .fin neg (2 ^ mb + x % 2 ^ mb) ((x / 2 ^ mb : Nat) - (bias : Int) - mb)

theorem sign_add_magnitude {v n : Nat} (hv : v < 2 ^ (n + 1)) : b2n (bit v n) * 2 ^ n + v % 2 ^ n = v := by
  have hbit : b2n (bit v n) = v / 2 ^ n := by
    have hlt : v / 2 ^ n < 2 := (Nat.div_lt_iff_lt_mul (Nat.two_pow_pos n)).2 (by rwa [Nat.mul_comm, ← Nat.pow_succ])
    rw [← bits_single, bits, Nat.add_sub_cancel_left, Nat.pow_one, Nat.mod_eq_of_lt hlt]
  rw [hbit, Nat.div_add_mod']

section
variable {c eb mb bias mx : Nat} (h : fpParams c = some (eb, mb, bias, mx))
include h

theorem fpParams_mantissa_pos : 0 < mb := by
  unfold fpParams at h
  split at h <;> cases h <;> decide

/-- Where a format has infinities, their code is the next after that of the largest finite value (R202). -/
theorem fpParams_inf_code (hinf : hasInf c = true) : mx + 1 = (2 ^ eb - 1) * 2 ^ mb := by
  revert hinf
  unfold fpParams at h
  split at h <;> cases h <;> decide

/-- Where it has none, every magnitude code is that of a finite value, but for the NaN of E4M3 (R202). -/
theorem fpParams_no_inf (hinf : hasInf c = false) : mx + 1 = 2 ^ (eb + mb) ∨ (c = 0x05 ∧ eb + mb = 7 ∧ mx = 0x7E) := by
  revert hinf
  unfold fpParams at h
  split at h <;> cases h <;> decide

/-- A value whose significand a format holds in units of its exponent is not rounded. -/
theorem roundCode_exact {m : Nat} {e : Int} (hm : m < 2 ^ (mb + 1)) (he : max (1 - (bias : Int) - mb) (e + Nat.log2 (max 1 m) - mb) = e) :
    roundCode c m e = if m < 2 ^ mb then m else (e - (1 - (bias : Int) - mb) + 1).toNat * 2 ^ mb + (m - 2 ^ mb) := by
  simp only [roundCode, h, he, roundEven_same, if_neg (Nat.not_le.2 hm)]

theorem roundCode_subnormal {x : Nat} (hx : x < 2 ^ mb) : roundCode c x (1 - (bias : Int) - mb) = x := by
  have hlog := log2_lt_of_lt_two_pow (fpParams_mantissa_pos h) hx
  rw [roundCode_exact h (by rw [Nat.pow_succ]; omega) (by omega), if_pos hx]

theorem roundCode_normal {f r : Nat} (hf : 0 < f) (hr : r < 2 ^ mb) :
    roundCode c (2 ^ mb + r) ((f : Int) - bias - mb) = f * 2 ^ mb + r := by
  have hlog := log2_significand hr
  have hfield : ((f : Int) - bias - mb - (1 - (bias : Int) - mb) + 1).toNat = f := by omega
  rw [roundCode_exact h (by rw [Nat.pow_succ]; omega) (by omega), if_neg (by omega), hfield, Nat.add_sub_cancel_left]

/-! ### The value of a code, and its encoding (R201, R202, R207) -/

theorem decode_eq (v : Nat) : let x := v % 2 ^ (eb + mb)
    decode c v = if (c = 0x05 && x = 0x7F) = true then .nan
      else if (hasInf c && decide (mx < x)) = true then (if x % 2 ^ mb = 0 then .inf (bit v (eb + mb)) else .nan)
      else finiteOf mb bias (bit v (eb + mb)) x := by
  simp only [decode, h, finiteOf]

/-- A magnitude code with no mantissa above the largest finite value's is that of infinity. -/
theorem magnitude_eq_inf {x : Nat} (hinf : hasInf c = true) (hmx : mx < x) (hx : x < 2 ^ (eb + mb)) (hmant : x % 2 ^ mb = 0) :
    x = (2 ^ eb - 1) * 2 ^ mb := by
  have hcode := fpParams_inf_code h hinf
  have hfield : x / 2 ^ mb = 2 ^ eb - 1 := by
    have hge : 2 ^ eb - 1 ≤ x / 2 ^ mb := (Nat.le_div_iff_mul_le (Nat.two_pow_pos mb)).2 (by omega)
    have hlt : x / 2 ^ mb < 2 ^ eb := (Nat.div_lt_iff_lt_mul (Nat.two_pow_pos mb)).2 (by rwa [← Nat.pow_add])
    omega
  rw [← hfield, Nat.div_mul_cancel (Nat.dvd_of_mod_eq_zero hmant)]

/-- The value of a code is no number, an infinity, or the finite value of its magnitude code. -/
theorem decode_cases (v : Nat) : let x := v % 2 ^ (eb + mb)
    decode c v = .nan ∨ (hasInf c = true ∧ x = (2 ^ eb - 1) * 2 ^ mb ∧ decode c v = .inf (bit v (eb + mb))) ∨
      (x ≤ mx ∧ decode c v = finiteOf mb bias (bit v (eb + mb)) x) := by
  intro x
  have hx : x < 2 ^ (eb + mb) := Nat.mod_lt _ (Nat.two_pow_pos _)
  rw [show decode c v = _ from decode_eq h v]
  split
  · exact .inl rfl
  · rename_i hnan
    split
    · rename_i hpast
      obtain ⟨hinf, hmx⟩ := Bool.and_eq_true_iff.1 hpast
      split
      · exact .inr (.inl ⟨hinf, magnitude_eq_inf h hinf (of_decide_eq_true hmx) hx ‹_›, rfl⟩)
      · exact .inl rfl
    · rename_i hpast
      refine .inr (.inr ⟨?_, rfl⟩)
      cases hinf : hasInf c with
      | true =>
        simp only [hinf, Bool.true_and, decide_eq_true_eq] at hpast
        exact Nat.le_of_not_lt hpast
      | false =>
        simp only [Bool.and_eq_true, decide_eq_true_eq, not_and] at hnan
        rcases fpParams_no_inf h hinf with hmx | ⟨hc, hwidth, hmx⟩
        · omega
        · have hcode := hnan hc
          rw [hwidth] at hx
          change x ≠ 0x7F at hcode
          omega

theorem encodeFp_nan (sat : Bool) : (encodeFp c sat .nan).code = canonNaN c := by simp only [encodeFp, h]

theorem encodeFp_inf (hinf : hasInf c = true) (sat b : Bool) :
    encodeFp c sat (.inf b) = ⟨b2n b * 2 ^ (eb + mb) + (2 ^ eb - 1) * 2 ^ mb, 0, 0, 0⟩ := by simp only [encodeFp, h, if_pos hinf]

theorem encodeFp_fin {m q : Nat} {e : Int} (hround : roundCode c m e = q) (hq : q ≤ mx) (sat b : Bool) :
    encodeFp c sat (.fin b m e) = ⟨b2n b * 2 ^ (eb + mb) + q, 0, 0, 0⟩ := by
  simp only [encodeFp, h, hround, if_neg (Nat.not_lt.2 hq)]

theorem encodeFp_finiteOf {x : Nat} (hx : x ≤ mx) (sat b : Bool) :
    encodeFp c sat (finiteOf mb bias b x) = ⟨b2n b * 2 ^ (eb + mb) + x, 0, 0, 0⟩ := by
  unfold finiteOf
  split
  · have hsub : x < 2 ^ mb := Nat.lt_of_div_eq_zero (Nat.two_pow_pos mb) ‹_›
    exact encodeFp_fin h (roundCode_subnormal h hsub) hx sat b
  · have hround := roundCode_normal h (Nat.pos_of_ne_zero ‹_›) (Nat.mod_lt x (Nat.two_pow_pos mb))
    rw [Nat.div_add_mod'] at hround
    exact encodeFp_fin h hround hx sat b

theorem encodeFp_decode {v : Nat} (hv : v < 2 ^ (eb + mb + 1)) (hnum : decode c v ≠ .nan) (sat : Bool) :
    encodeFp c sat (decode c v) = ⟨v, 0, 0, 0⟩ := by
  have hsplit := sign_add_magnitude hv
  rcases decode_cases h v with hnan | ⟨hinf, hx, hval⟩ | ⟨hx, hval⟩
  · exact absurd hnan hnum
  · rw [hval, encodeFp_inf h hinf, ← hx, hsplit]
  · rw [hval, encodeFp_finiteOf h hx, hsplit]

end

/-! ### Integer formats (R201, R217) -/

theorem intParams_not_fp {c w : Nat} {signed : Bool} (h : intParams c = some (signed, w)) : fpParams c = none ∧ c ≠ 0x0A ∧ 0 < w := by
  unfold intParams at h
  split at h <;> cases h <;> decide

/-- The least and the greatest integer of a format. -/
def intMin (signed : Bool) (w : Nat) : Int := if signed then -(2 ^ (w - 1) : Nat) else 0
def intMax (signed : Bool) (w : Nat) : Int := if signed then (2 ^ (w - 1) : Nat) - 1 else (2 ^ w : Nat) - 1

/-- The integer that a code stands for. -/
def intValue (signed : Bool) (w v : Nat) : Int := if signed then toSigned w v else (v % 2 ^ w : Nat)

theorem ofInt_natCast (n : Nat) : ofInt n = .fin false n 0 := by simp [ofInt]

theorem decode_int {c w : Nat} {signed : Bool} (h : intParams c = some (signed, w)) (v : Nat) : decode c v = ofInt (intValue signed w v) := by
  obtain ⟨hfp, hscaled, -⟩ := intParams_not_fp h
  cases signed with
  | true => simp only [decode, hfp, if_neg hscaled, h, intValue, if_true]
  | false => simp only [decode, hfp, if_neg hscaled, h, intValue, Bool.false_eq_true, if_false, ofInt_natCast]

theorem intValue_range {w v : Nat} (hw : 0 < w) (hv : v < 2 ^ w) (signed : Bool) :
    intMin signed w ≤ intValue signed w v ∧ intValue signed w v ≤ intMax signed w := by
  cases signed with
  | true => exact toSigned_range hw hv
  | false =>
    simp only [intMin, intMax, intValue, Bool.false_eq_true, if_false, Nat.mod_eq_of_lt hv]
    omega

theorem ofSigned_intValue {w v : Nat} (hv : v < 2 ^ w) (signed : Bool) : ofSigned w (intValue signed w v) = v := by
  cases signed with
  | true => exact ofSigned_toSigned hv
  | false =>
    rw [intValue, if_neg Bool.false_ne_true, ofSigned, Nat.mod_eq_of_lt hv, ← Int.natCast_emod, Int.toNat_natCast, Nat.mod_eq_of_lt hv]

/-- An integer that the format holds is neither rounded nor saturated. -/
theorem encodeInt_ofInt {c w : Nat} {signed : Bool} (h : intParams c = some (signed, w)) {i : Int} (hlo : intMin signed w ≤ i)
    (hhi : i ≤ intMax signed w) : encodeInt c (ofInt i) = ⟨ofSigned w i, 0, 0, 0⟩ := by
  have hsign : (if decide (i < 0) = true then -1 else 1) * (i.natAbs : Int) = i := by
    simp only [decide_eq_true_eq]
    split <;> omega
  have hsat : max (intMin signed w) (min (intMax signed w) i) = i := by omega
  unfold intMin intMax at hsat
  simp only [encodeInt, h, ofInt, roundEven_same, hsign, hsat, ne_eq, not_true, decide_false]
  rfl

theorem encodeInt_decode {c w : Nat} {signed : Bool} (h : intParams c = some (signed, w)) {v : Nat} (hv : v < 2 ^ w) :
    encodeInt c (decode c v) = ⟨v, 0, 0, 0⟩ := by
  obtain ⟨-, -, hw⟩ := intParams_not_fp h
  obtain ⟨hlo, hhi⟩ := intValue_range hw hv signed
  rw [decode_int h, encodeInt_ofInt h hlo hhi, ofSigned_intValue hv]

theorem encodeInt_nan {c w : Nat} {signed : Bool} (h : intParams c = some (signed, w)) : encodeInt c .nan = ⟨0, 0, 0, 1⟩ := by
  simp only [encodeInt, h]

/-! ### Q32 (R213, R215) -/

theorem writeQ_within {i : Int} (hlo : -(2 ^ 31) < i) (hhi : i < 2 ^ 31) (sat : Bool) : writeQ sat (some i) = ⟨ofSigned 32 i, 0, 0, 0⟩ :=
  if_pos ⟨hlo, hhi⟩

theorem qVal_nar : qVal NaR = none := rfl

theorem qVal_word {v : Nat} (hv : v < 2 ^ 32) (hnum : v ≠ NaR) : qVal v = some (toSigned 32 v) := by
  rw [qVal, Nat.mod_eq_of_lt hv, if_neg hnum]

/-- A word other than NaR stands for an integer within ±(2^31 − 1). -/
theorem toSigned_word_gt {v : Nat} (hv : v < 2 ^ 32) (hnum : v ≠ NaR) : -(2 ^ 31) < toSigned 32 v := by
  unfold NaR at hnum
  unfold toSigned
  split <;> omega

theorem writeQ_qVal {v : Nat} (hv : v < 2 ^ 32) (sat : Bool) : (writeQ sat (qVal v)).code = v := by
  by_cases hnum : v = NaR
  · rw [hnum, qVal_nar]
    rfl
  · have hhi := (toSigned_range (by decide) hv).2
    rw [qVal_word hv hnum, writeQ_within (toSigned_word_gt hv hnum) (by omega), ofSigned_toSigned hv]

theorem qVal_eq_none_iff {v : Nat} (hv : v < 2 ^ 32) : qVal v = none ↔ v = NaR := by
  rw [qVal, Nat.mod_eq_of_lt hv, ite_eq_left_iff]
  simp

/-- Settles O55: each class of values of a floating-point format, then the integers of an integer format, then the words of Q32. -/
theorem numberFormats : Obligations.NumberFormats := by
  refine ⟨fun c eb mb bias mx h v hv sat => ⟨fun hnum => ?_, fun hnan => ?_⟩, fun c w signed h => ⟨fun v hv => ?_, ?_⟩,
    fun v hv sat => ⟨writeQ_qVal hv sat, qVal_eq_none_iff hv⟩⟩
  · rw [encodeFp_decode h hv hnum]
    exact ⟨rfl, rfl⟩
  · rw [hnan, encodeFp_nan h]
  · rw [encodeInt_decode h hv]
    exact ⟨rfl, rfl⟩
  · rw [encodeInt_nan h]
    exact ⟨rfl, rfl⟩

end Sys2Proof.Machine
end

section
/-! PROOF. Fixed point and NaR (R213–R217): the rounding of a shift and of a quotient, one step of an accumulation, and what leaves into a
word. -/

namespace Sys2Proof.Machine
open Sys2Proof

/-! ### Rounding to nearest, halves up (R214) -/

theorem divHalfUp_nearest (n : Int) {d : Int} (hd : 0 < d) : (2 * divHalfUp n d - 1) * d ≤ 2 * n ∧ 2 * n < (2 * divHalfUp n d + 1) * d := by
  have hle : divHalfUp n d * (2 * d) ≤ 2 * n + d := Int.ediv_mul_le _ (by omega)
  have hlt : 2 * n + d < (divHalfUp n d + 1) * (2 * d) := Int.lt_ediv_add_one_mul_self _ (by omega)
  have hbelow : (2 * divHalfUp n d - 1) * d = divHalfUp n d * (2 * d) - d := by
    rw [Int.sub_mul, Int.one_mul, Int.mul_comm 2, Int.mul_assoc]
  have habove : (2 * divHalfUp n d + 1) * d = divHalfUp n d * (2 * d) + d := by
    rw [Int.add_mul, Int.one_mul, Int.mul_comm 2, Int.mul_assoc]
  rw [Int.add_mul, Int.one_mul] at hlt
  rw [hbelow, habove]
  exact ⟨by omega, by omega⟩

/-- A right shift is a quotient by a power of two. -/
theorem shiftTo_right (a : Int) {k : Nat} (hk : 0 < k) : shiftTo a k = divHalfUp a (2 ^ k) := by
  obtain ⟨n, rfl⟩ : ∃ n, k = n + 1 := ⟨k - 1, by omega⟩
  have hdouble : 2 * a + 2 ^ (n + 1) = 2 * (a + 2 ^ n) := by rw [Int.pow_succ, Int.mul_comm (2 ^ n), Int.mul_add]
  rw [shiftTo, if_neg (by omega), Int.toNat_natCast, shiftRound, divHalfUp, Nat.add_sub_cancel, hdouble,
    Int.mul_ediv_mul_of_pos _ _ (by decide)]

theorem shiftTo_left (a : Int) (k : Nat) : shiftTo a (-(k : Int)) = a * 2 ^ k := by
  rw [shiftTo, if_pos (by omega), Int.neg_neg, Int.toNat_natCast]

/-! ### Multiply-accumulate (R214, R215) -/

theorem qMac_cons (g fa fb a b : Nat) (r : List Nat) (acc : Option Int) :
    qMac g fa fb (a :: b :: r) acc = qMac g fa fb r (qMac g fa fb [a, b] acc) := rfl

theorem qMac_of_none {a b : Nat} {acc : Option Int} (h : qVal a = none ∨ qVal b = none ∨ acc = none) (g fa fb : Nat) :
    qMac g fa fb [a, b] acc = none := by
  unfold qMac
  rcases h with h | h | h
  · rw [h]
    cases acc <;> rfl
  · rw [h]
    cases acc <;> cases qVal a <;> rfl
  · rw [h]
    rfl

theorem fits72_iff (i : Int) : fits72 i = true ↔ -(2 ^ 71) ≤ i ∧ i < 2 ^ 71 := by
  rw [fits72, Bool.and_eq_true, decide_eq_true_eq, decide_eq_true_eq]

theorem qMac_of_some {a b : Nat} {x y : Int} (ha : qVal a = some x) (hb : qVal b = some y) (g fa fb : Nat) (t : Int) :
    let p := shiftTo (x * y) ((fa : Int) + fb - g)
    qMac g fa fb [a, b] (some t) = if -(2 ^ 71) ≤ p ∧ p < 2 ^ 71 ∧ -(2 ^ 71) ≤ t + p ∧ t + p < 2 ^ 71 then some (t + p) else none := by
  simp only [qMac, ha, hb, Bool.and_eq_true, fits72_iff, and_assoc]

/-! ### Quotients and roots (R214) -/

theorem qDiv_of_none {a b : Nat} (h : qVal a = none ∨ qVal b = none ∨ qVal b = some 0) (fa fb f : Nat) : qDiv fa fb f a b = none := by
  unfold qDiv
  rcases h with h | h | h
  · rw [h]
  · rw [h]
    cases qVal a <;> rfl
  · rw [h]
    cases qVal a with
    | none => rfl
    | some x => exact if_pos rfl

theorem qDiv_of_some {a b : Nat} {x y : Int} (ha : qVal a = some x) (hb : qVal b = some y) (hy : y ≠ 0) (fa fb f : Nat) :
    qDiv fa fb f a b = some (divHalfUp (x * 2 ^ (f + fb) * (if y < 0 then -1 else 1)) (y.natAbs * 2 ^ fa)) := by
  simp only [qDiv, ha, hb, if_neg hy]

theorem qDiv_pos {a b : Nat} {x y q : Int} (ha : qVal a = some x) (hb : qVal b = some y) {fa fb f : Nat} (hq : qDiv fa fb f a b = some q)
    (hy : 0 < y) : (2 * q - 1) * (y * 2 ^ fa) ≤ 2 * (x * 2 ^ (f + fb)) ∧ 2 * (x * 2 ^ (f + fb)) < (2 * q + 1) * (y * 2 ^ fa) := by
  have habs : (y.natAbs : Int) = y := Int.natAbs_of_nonneg (Int.le_of_lt hy)
  rw [qDiv_of_some ha hb (Int.ne_of_gt hy), habs, if_neg (Int.not_lt.2 (Int.le_of_lt hy)), Int.mul_one, Option.some.injEq] at hq
  rw [← hq]
  exact divHalfUp_nearest _ (Int.mul_pos hy (Int.pow_pos (by decide)))

theorem qDiv_neg {a b : Nat} {x y q : Int} (ha : qVal a = some x) (hb : qVal b = some y) {fa fb f : Nat} (hq : qDiv fa fb f a b = some q)
    (hy : y < 0) : (2 * q - 1) * (-y * 2 ^ fa) ≤ 2 * (-x * 2 ^ (f + fb)) ∧ 2 * (-x * 2 ^ (f + fb)) < (2 * q + 1) * (-y * 2 ^ fa) := by
  have habs : (y.natAbs : Int) = -y := Int.ofNat_natAbs_of_nonpos (Int.le_of_lt hy)
  have hsign : x * 2 ^ (f + fb) * -1 = -x * 2 ^ (f + fb) := by rw [Int.mul_neg, Int.mul_one, Int.neg_mul]
  rw [qDiv_of_some ha hb (Int.ne_of_lt hy), habs, if_pos hy, hsign, Option.some.injEq] at hq
  rw [← hq]
  exact divHalfUp_nearest _ (Int.mul_pos (by omega) (Int.pow_pos (by decide)))

theorem qSqrt_of_none {a : Nat} (h : qVal a = none) (fa f : Nat) : qSqrt fa f a = none := by rw [qSqrt, h]

theorem qSqrt_of_neg {a : Nat} {x : Int} (ha : qVal a = some x) (hx : x < 0) (fa f : Nat) : qSqrt fa f a = none := by
  simp only [qSqrt, ha, if_pos hx]

/-! ### Write-out (R213, R215, R217) -/

theorem toSigned_ofSigned_32 {i : Int} (hlo : -(2 ^ 31) ≤ i) (hhi : i < 2 ^ 31) : toSigned 32 (ofSigned 32 i) = i := by
  unfold toSigned ofSigned
  split <;> omega

theorem qVal_ofSigned {i : Int} (hlo : -(2 ^ 31) < i) (hhi : i < 2 ^ 31) : qVal (ofSigned 32 i) = some i := by
  have hnum : ofSigned 32 i ≠ NaR := by
    unfold ofSigned NaR
    omega
  rw [qVal_word (ofSigned_lt 32 i) hnum, toSigned_ofSigned_32 (Int.le_of_lt hlo) hhi]

theorem writeQ_beyond {i : Int} (h : 2 ^ 31 ≤ i ∨ i ≤ -(2 ^ 31)) (sat : Bool) : writeQ sat (some i) =
    if sat then ⟨ofSigned 32 (if i < 0 then -(2 ^ 31 - 1) else 2 ^ 31 - 1), 0, 1, 0⟩ else ⟨NaR, 1, 0, 0⟩ :=
  if_neg (by omega)

theorem writeQ_above {i : Int} (h : 2 ^ 31 ≤ i) : writeQ true (some i) = ⟨ofSigned 32 (2 ^ 31 - 1), 0, 1, 0⟩ := by
  rw [writeQ_beyond (.inl h), if_pos rfl, if_neg (by omega)]

theorem writeQ_below {i : Int} (h : i ≤ -(2 ^ 31)) : writeQ true (some i) = ⟨ofSigned 32 (-(2 ^ 31 - 1)), 0, 1, 0⟩ := by
  rw [writeQ_beyond (.inr h), if_pos rfl, if_pos (by omega)]

theorem writeQ_beyond_nar {i : Int} (h : 2 ^ 31 ≤ i ∨ i ≤ -(2 ^ 31)) : writeQ false (some i) = ⟨NaR, 1, 0, 0⟩ := by
  rw [writeQ_beyond h, if_neg Bool.false_ne_true]

/-- Settles O56: shifts, accumulation, quotients and roots, then the write-out within the range, above it, below it and of NaR. -/
theorem fixedPointArithmetic : Obligations.FixedPointArithmetic := by
  refine ⟨fun a k => ⟨fun hk => ?_, shiftTo_left a k⟩,
    fun g fa fb a b => ⟨fun acc h => qMac_of_none h g fa fb, fun x ha y hb t => qMac_of_some ha hb g fa fb t, qMac_cons g fa fb a b⟩,
    fun fa fb f a b => ⟨fun h => qDiv_of_none h fa fb f, fun x ha y hb _ q hq => ⟨qDiv_pos ha hb hq, qDiv_neg ha hb hq⟩,
      fun x ha y hb hy => ?_, fun h => qSqrt_of_none h fa f, fun x ha hx => qSqrt_of_neg ha hx fa f⟩,
    fun sat i => ⟨fun hlo hhi => ?_, fun h => ?_, fun h => ?_, rfl, rfl⟩⟩
  · rw [shiftTo_right a hk]
    exact divHalfUp_nearest a (Int.pow_pos (by decide))
  · rw [qDiv_of_some ha hb hy]
    rfl
  · rw [writeQ_within hlo hhi]
    exact ⟨qVal_ofSigned hlo hhi, rfl, rfl⟩
  · rw [writeQ_above h, writeQ_beyond_nar (.inl h)]
    exact ⟨⟨qVal_ofSigned (i := 2 ^ 31 - 1) (by decide) (by decide), rfl⟩, rfl, rfl⟩
  · rw [writeQ_below h, writeQ_beyond_nar (.inr h)]
    exact ⟨⟨qVal_ofSigned (i := -(2 ^ 31 - 1)) (by decide) (by decide), rfl⟩, rfl, rfl⟩

end Sys2Proof.Machine
end

section
/-! PROOF. What answering a command gives beyond its status (R27, R424–R426): each result as it was packed, the registers outside the page, a
command whose answer comes later, and a write that a window ignores. -/

namespace Sys2Proof.Machine
open Sys2Proof

/-! ### Results of an answered command (R424, R425) -/

theorem responseBytes_result (flags status tag detail : Nat) (res : Res) (j : Nat) :
    (responseBytes flags status tag detail res).getD (16 + j) 0 = (packRes res []).getD j 0 := by
  have hbody : responseBytes flags status tag detail res = (leBytes 1 1 ++ leBytes 1 flags ++ leBytes 2 status ++ leBytes 4 tag ++
      leBytes 4 detail ++ leBytes 4 0) ++ (packRes res [] ++ List.replicate (80 - (packRes res []).length) 0) := by
    simp only [responseBytes, List.append_assoc]
  have hhead : (leBytes 1 1 ++ leBytes 1 flags ++ leBytes 2 status ++ leBytes 4 tag ++ leBytes 4 detail ++ leBytes 4 0).length = 16 := by
    simp only [List.length_append, leBytes_length]
  rw [hbody, List.getD_eq_getElem?_getD, List.getD_eq_getElem?_getD, List.getElem?_append_right (by omega), hhead, Nat.add_sub_cancel_left]
  rcases Nat.lt_or_ge j (packRes res []).length with hj | hj
  · rw [List.getElem?_append_left hj]
  · rw [List.getElem?_append_right hj, List.getElem?_eq_none hj, List.getElem?_replicate]
    split <;> rfl

theorem map_range_getD (l : List Byte) {o n : Nat} (h : o + n ≤ l.length) :
    (List.range n).map (fun i => l.getD (o + i) 0) = (l.drop o).take n := by
  refine List.ext_getElem (by simp; omega) fun i hi _ => ?_
  have hi : o + i < l.length := by
    rw [List.length_map, List.length_range] at hi
    omega
  simp [hi]

/-- A slot whose command is answered reads as the words of the page show it. -/
theorem slotByte_of_answered {t : State} {f k : Nat} (h : tget (16 * f + k) t.mb.accepted = none) (o : Nat) :
    slotByte t f k o = byteAt t (slotAddr f k + o) := by
  have halign : o % 4 = (slotAddr f k + o) % 4 := by
    unfold slotAddr
    omega
  simp only [slotByte, h, Option.bind_none, byteAt, halign]

/-- A command that is answered with results, where what it leaves keeps the accepted entries: each result reads as it was packed. -/
theorem answersWith_of_answer {i : Instr} {f k op st detail : Nat} {res : Res} {s u : State} {P : State → Prop}
    (hexec : exec i s = .next (answer f k st detail res u)) (h : Ready f k op s) (hacc : u.mb.accepted = s.mb.accepted) (hst : st < 65536)
    (hlen : (packRes res []).length ≤ 80)
    (hP : ∀ t, AfterAnswer f k u t → (∀ o n, o + n ≤ (packRes res []).length → result t f k o n = fieldU (packRes res []) o n) → P t) :
    AnswersWith i f k st s u P := by
  obtain ⟨haccepted, -, -, hk⟩ := h
  obtain ⟨hanswered, hafter, hbytes⟩ := answer_spec (detail := detail) hk hst hlen (hacc ▸ haccepted) rfl
  refine ⟨_, hexec, hanswered, hafter, hP _ hafter fun o n hon => ?_⟩
  rw [fieldU, ← map_range_getD _ hon, result, slotNat, slotBytes]
  refine congrArg leNat (List.map_congr_left fun i hi => ?_)
  have hi := List.mem_range.1 hi
  have hbyte := hbytes (16 + (o + i)) (by omega)
  rw [responseBytes_result] at hbyte
  rw [slotByte_of_answered hanswered.1, show slotAddr f k + (144 + o + i) = slotAddr f k + 128 + (16 + (o + i)) by omega, hbyte,
    BitVec.ofNat_toNat, BitVec.setWidth_eq]

/-- The same for a command that its own step answers. -/
theorem answersWith_of_act {i : Instr} {f k op : Nat} {act : State → Ans} {res : Res} {s u : State} {P : State → Prop}
    (hexec : exec i s = .next (immediate f k op act s)) (h : Ready f k op s) (ha : act s = ok res u) (hacc : u.mb.accepted = s.mb.accepted)
    (hlen : (packRes res []).length ≤ 80)
    (hP : ∀ t, AfterAnswer f k u t → (∀ o n, o + n ≤ (packRes res []).length → result t f k o n = fieldU (packRes res []) o n) → P t) :
    AnswersWith i f k 0 s u P := by
  rw [immediate_of_ready h, ha] at hexec
  exact answersWith_of_answer hexec h hacc (by decide) hlen hP

/-! ### Registers outside the page (R424) -/

theorem inPage_of_lt {f a : Nat} (h : a < 0x200000) : inPage f a = false := by
  rw [inPage, Bool.and_eq_false_iff, decide_eq_false_iff_not]
  exact .inl (by omega)

theorem AfterAnswer.fld {f k : Nat} {u t : State} (h : AfterAnswer f k u t) {r : Reg} (hr : r.addr < 0x200000) (hi lo : Nat) :
    fld t r hi lo = fld u r hi lo := by rw [Machine.fld, h.2.rd (inPage_of_lt hr), Machine.fld]

/-! ### Where results are packed (R425) -/

/-- A number that begins at a multiple of its size is packed without a gap. -/
theorem packRes_aligned {al : Nat} {acc : List Byte} (hal : 0 < al) (h : acc.length % al = 0) (bs : List Byte) (res : Res) :
    packRes ((al, bs) :: res) acc = packRes res (acc ++ bs) := by
  obtain ⟨q, hq⟩ := Nat.dvd_of_mod_eq_zero h
  have hpad : ceilDiv acc.length al * al - acc.length = 0 := by
    rw [ceilDiv, hq, Nat.add_sub_assoc hal, Nat.mul_add_div hal, Nat.div_eq_of_lt (by omega), Nat.add_zero, Nat.mul_comm, Nat.sub_self]
  rw [packRes, hpad, List.replicate_zero, List.append_nil]

theorem packRes_r64s (l : List Nat) : ∀ {acc : List Byte}, acc.length % 8 = 0 → packRes (l.map r64) acc = acc ++ l.flatMap (leBytes 8) := by
  induction l with
  | nil => exact fun _ => by simp [packRes]
  | cons v l ih =>
    intro acc h
    rw [List.map_cons, r64, packRes_aligned (by decide) h, ih (by rw [List.length_append, leBytes_length]; omega), List.flatMap_cons,
      List.append_assoc]

theorem fieldU_append {pre : List Byte} {o : Nat} (h : pre.length = o) (n v : Nat) (post : List Byte) :
    fieldU (pre ++ (leBytes n v ++ post)) o n = v % 256 ^ n := by
  rw [fieldU, List.drop_left' h, List.take_left' (leBytes_length n v), leNat_leBytes]

theorem fieldU_r64s (l : List Nat) : ∀ {acc : List Byte} {i : Nat} (hi : i < l.length),
    fieldU (acc ++ l.flatMap (leBytes 8)) (acc.length + 8 * i) 8 = l[i] % 2 ^ 64 := by
  induction l with
  | nil => exact fun hi => absurd hi (Nat.not_lt_zero _)
  | cons v l ih =>
    intro acc i hi
    rw [List.flatMap_cons]
    match i with
    | 0 => exact fieldU_append rfl 8 v _
    | i + 1 =>
      have hrest := @ih (acc ++ leBytes 8 v) i (Nat.lt_of_succ_lt_succ hi)
      rw [List.append_assoc, List.length_append, leBytes_length, Nat.add_assoc, Nat.add_comm 8, ← Nat.mul_succ] at hrest
      exact hrest

/-! ### Deferred commands (R426) -/

theorem deferred_refused {f k op : Nat} {act : State → Ans ⊕ State} {a : Ans} {s : State} (h : Ready f k op s) (ha : act s = .inl a) :
    deferred f k op act s = answer f k a.status a.detail a.res a.st := by
  obtain ⟨hacc, hserves, -, -⟩ := h
  simp [deferred, isAccepted, hacc, hserves, ha]

theorem deferred_started {f k op : Nat} {act : State → Ans ⊕ State} {s t : State} (h : Ready f k op s) (ha : act s = .inr t) :
    deferred f k op act s = t := by
  obtain ⟨hacc, hserves, -, -⟩ := h
  simp [deferred, isAccepted, hacc, hserves, ha]

/-! ### Ignored writes (R27) -/

/-- A write that a block window ignores is recorded at its register's address, with no flag where only software writes its fields. -/
theorem ignored_windowWrite {w a : Nat} (hwin : windowOf a = some w) (hle : w ≤ a) (hbar : a < 0x200000) (hne : a ≠ w + 0xFFFC)
    (hword : (a - w) % 4 = 0) (hflag : addressesHw a allBits = false) (s : State) : Ignored w a s (ignoredWrite 0 a false allBits s) := by
  have haddr : w + ((a - w) / 4 * 4 + 2 * b2n false + b2n (addressesHw a allBits)) = a := by
    rw [hflag, show b2n false = 0 from rfl]
    omega
  have hignored := ignored_ignoredWrite hbar hwin hne 0 false allBits s
  rwa [haddr] at hignored

end Sys2Proof.Machine
end

section
/-! PROOF. The commands of power (R187, R565, R571, R575, R579, R580): what the Governor shows, set-points, requests for external ceilings,
and a cap on its way to the latch and from it. -/

namespace Sys2Proof.Machine
open Sys2Proof

/-! ### POWER_READ and THROTTLE_READ (R565, R571) -/

theorem packRes_powerRead (input window charged : Nat) : packRes [r32 input, r32 window, r64 charged] [] =
    leBytes 4 input ++ (leBytes 4 window ++ (leBytes 8 charged ++ [])) := by
  rw [r32, r32, r64, packRes_aligned (by decide) rfl, packRes_aligned (by decide) (by simp [leBytes_length]),
    packRes_aligned (by decide) (by simp [leBytes_length]), packRes]
  simp

theorem answers_powerRead {s : State} {f k : Nat} (h : Ready f k 0x0701 s) : AnswersWith (.powerRead f k) f k 0 s s (fun t =>
    result t f k 0 4 = rd s GOVERNOR_INPUT_MW ∧ result t f k 4 4 = rd s GOVERNOR_WINDOW_MW ∧
      result t f k 8 8 = tgetD f 0 s.gov.charged / 1000 % 2 ^ 64) := by
  have hpack := packRes_powerRead (rd s GOVERNOR_INPUT_MW) (rd s GOVERNOR_WINDOW_MW) (tgetD f 0 s.gov.charged / 1000)
  have hlen := congrArg List.length hpack
  simp only [List.length_append, leBytes_length, List.length_nil] at hlen
  refine answersWith_of_act rfl h rfl rfl (by omega) fun t _ hres => ⟨?_, ?_, ?_⟩
  · rw [hres 0 4 (by omega), hpack]
    exact (fieldU_append (pre := []) rfl 4 _ _).trans (Nat.mod_eq_of_lt (rd_lt s _ (by decide)))
  · rw [hres 4 4 (by omega), hpack]
    exact (fieldU_append (leBytes_length 4 _) 4 _ _).trans (Nat.mod_eq_of_lt (rd_lt s _ (by decide)))
  · rw [hres 8 8 (by omega), hpack, ← List.append_assoc]
    exact fieldU_append (by rw [List.length_append, leBytes_length, leBytes_length]) 8 _ _

/-- The reasons in a byte, and the durations from the next multiple of eight. -/
theorem packRes_throttleRead (v x : Nat) (l : List Nat) :
    packRes (r8 v :: (x :: l).map r64) [] = (leBytes 1 v ++ List.replicate 7 0) ++ (x :: l).flatMap (leBytes 8) := by
  rw [← packRes_r64s _ (by rw [List.length_append, leBytes_length, List.length_replicate])]
  simp [packRes, r8, r64, ceilDiv, leBytes_length]

/-- The five durations that THROTTLE_READ gives, in µs (R571). -/
def throttleDurations (s : State) : List Nat := (List.range 5).map (fun i => tgetD i 0 s.gov.durations / 100)

theorem throttleDurations_getElem (s : State) {i : Nat} (hi : i < (throttleDurations s).length) :
    (throttleDurations s)[i] = tgetD i 0 s.gov.durations / 100 := by
  simp only [throttleDurations, List.getElem_map, List.getElem_range]

theorem answers_throttleRead {s : State} {f k : Nat} (h : Ready f k 0x0704 s) : AnswersWith (.throttleRead f k) f k 0 s s (fun t =>
    result t f k 0 1 = fld s GOVERNOR_STATUS 4 0 ∧ ∀ i, i < 5 → result t f k (8 + 8 * i) 8 = tgetD i 0 s.gov.durations / 100 % 2 ^ 64) := by
  have hpack : packRes (r8 (fld s GOVERNOR_STATUS 4 0) :: (throttleDurations s).map r64) [] =
      (leBytes 1 (fld s GOVERNOR_STATUS 4 0) ++ List.replicate 7 0) ++ (throttleDurations s).flatMap (leBytes 8) := packRes_throttleRead _ _ _
  have hlen : (packRes (r8 (fld s GOVERNOR_STATUS 4 0) :: (throttleDurations s).map r64) []).length = 48 := by
    rw [hpack]
    rfl
  refine answersWith_of_act (res := r8 (fld s GOVERNOR_STATUS 4 0) :: (throttleDurations s).map r64) rfl h rfl rfl (by omega)
    fun t _ hres => ⟨?_, fun i hi => ?_⟩
  · have hreasons : fld s GOVERNOR_STATUS 4 0 < 32 := bits_lt _ _ _
    rw [hres 0 1 (by omega), hpack, List.append_assoc]
    exact (fieldU_append (pre := []) rfl 1 _ _).trans (Nat.mod_eq_of_lt (by omega))
  · rw [hres (8 + 8 * i) 8 (by omega), hpack, ← throttleDurations_getElem s (by exact hi)]
    exact fieldU_r64s (throttleDurations s) (acc := leBytes 1 _ ++ List.replicate 7 0) _

/-! ### SET_POINT_STAGE (R187) -/

theorem setPointOk_le {v : Nat} (h : setPointOk v = true) : v ≤ 800 := by
  simp only [setPointOk, Bool.and_eq_true, decide_eq_true_eq] at h
  exact h.2

theorem answers_setPointStage_badBay {s : State} {f k : Nat} (h : Ready f k 0x0702 s)
    (hbay : 3 < param s f k 0x0702 0 ∨ bayPresent s (param s f k 0x0702 0) = false) : Answers (.setPointStage f k) f k 0x1006 s s := by
  refine answers_refusal (detail := paramOff 0x0702 0) rfl h (if_pos ?_) (by decide)
  rwa [Bool.or_eq_true, decide_eq_true_eq, Bool.not_eq_true']

theorem answers_setPointStage_badValue {s : State} {f k : Nat} (h : Ready f k 0x0702 s) (hb : param s f k 0x0702 0 ≤ 3)
    (hbay : bayPresent s (param s f k 0x0702 0) = true)
    (hv : setPointOk (param s f k 0x0702 1) = false ∨ neighbourOk s (param s f k 0x0702 0) (param s f k 0x0702 1) = false) :
    Answers (.setPointStage f k) f k 0x1006 s s := by
  refine answers_refusal (detail := paramOff 0x0702 1) rfl h ((if_neg ?_).trans (if_pos ?_)) (by decide)
  · simp [hb, hbay]
  · rwa [Bool.or_eq_true, Bool.not_eq_true', Bool.not_eq_true']

theorem answers_setPointStage_staged {s : State} {f k : Nat} (h : Ready f k 0x0702 s) (hb : param s f k 0x0702 0 ≤ 3)
    (hbay : bayPresent s (param s f k 0x0702 0) = true) (hv : setPointOk (param s f k 0x0702 1) = true)
    (hnear : neighbourOk s (param s f k 0x0702 0) (param s f k 0x0702 1) = true) :
    AnswersWith (.setPointStage f k) f k 0 s (setFld (BAY_SET_POINT (param s f k 0x0702 0)) 9 0 (param s f k 0x0702 1) s) (fun t =>
      fld t (BAY_SET_POINT (param s f k 0x0702 0)) 9 0 = param s f k 0x0702 1 ∧ t.live = s.live) := by
  have hact : ¬ (decide (3 < param s f k 0x0702 0) || !bayPresent s (param s f k 0x0702 0)) = true := by simp [hb, hbay]
  have hval : ¬ (!setPointOk (param s f k 0x0702 1) || !neighbourOk s (param s f k 0x0702 0) (param s f k 0x0702 1)) = true := by
    simp [hv, hnear]
  have haddr : (BAY_SET_POINT (param s f k 0x0702 0)).addr < 0x200000 := by
    change 0x100004 + 0x40000 * param s f k 0x0702 0 < 0x200000
    omega
  refine answersWith_of_act (res := []) rfl h ((if_neg hact).trans (if_neg hval)) rfl (Nat.zero_le _) fun t hafter _ => ⟨?_, ?_⟩
  · have hle := setPointOk_le hv
    rw [hafter.fld haddr, fld_setFld_same (by decide) (by decide) (by decide : 0x2D002D0 < 2 ^ 32)]
    exact Nat.mod_eq_of_lt (by omega)
  · rw [hafter.1, setFld_live]

/-! ### Requests for a cap (R579) -/

/-- Only the words of the request's acknowledgement change, and the queue of requests gains one. -/
theorem capRequest_spec (cap secs : Nat) (by_ : Option Nat) (s : State) : let t := capRequest cap secs by_ s
    t.gov.requests = s.gov.requests ++ [⟨cap, secs, by_⟩] ∧ fld t GOVERNOR_STATUS 6 6 = 0 ∧
      t = { s with regs := t.regs, gov.requests := t.gov.requests } ∧ SameWords s t (fun a => decide (a = GOVERNOR_STATUS.addr)) :=
  ⟨rfl, fld_setFld_same (by decide) (by decide) (by decide) 0 _, rfl,
    SameWords.setFld (r := GOVERNOR_STATUS) rfl 6 6 0 { s with gov.requests := s.gov.requests ++ [⟨cap, secs, by_⟩] }⟩

theorem capOk_iff (cap : Nat) : capOk cap = true ↔ 30 ≤ cap ∧ cap ≤ 125 := by
  rw [capOk, Bool.and_eq_true, decide_eq_true_eq, decide_eq_true_eq]

theorem secsOk_iff (secs : Nat) : secsOk secs = true ↔ 1 ≤ secs ∧ secs ≤ 60 := by
  rw [secsOk, Bool.and_eq_true, decide_eq_true_eq, decide_eq_true_eq]

theorem capOk_and_secsOk_eq_false {cap secs : Nat} (h : cap < 30 ∨ 125 < cap ∨ secs < 1 ∨ 60 < secs) : (capOk cap && secsOk secs) = false := by
  rw [← Bool.not_eq_true, Bool.and_eq_true, capOk_iff, secsOk_iff]
  omega

/-- What CAP_SET does with its two parameters. -/
def capSetAct (f k : Nat) (s : State) : Ans ⊕ State :=
  if !capOk (param s f k 0x0703 0) then .inl (no 0x1301 (paramOff 0x0703 0) s)
  else if !secsOk (param s f k 0x0703 1) then .inl (no 0x1301 (paramOff 0x0703 1) s)
  else .inr (capRequest (param s f k 0x0703 0) (param s f k 0x0703 1) (some (16 * f + k)) s)

theorem exec_capSet {s : State} (hnone : s.gov.requests = []) (f k : Nat) :
    exec (.capSet f k) s = .next (deferred f k 0x0703 (capSetAct f k) s) := by
  change execCapSet f k s = _
  rw [execCapSet, hnone]
  rfl

theorem capSetAct_refused {f k : Nat} {s : State} (h : (capOk (param s f k 0x0703 0) && secsOk (param s f k 0x0703 1)) = false) :
    ∃ detail, capSetAct f k s = .inl (no 0x1301 detail s) := by
  cases hcap : capOk (param s f k 0x0703 0) with
  | false => exact ⟨paramOff 0x0703 0, by simp [capSetAct, hcap]⟩
  | true =>
    rw [hcap, Bool.true_and] at h
    exact ⟨paramOff 0x0703 1, by simp [capSetAct, hcap, h]⟩

theorem capSetAct_accepted {f k : Nat} {s : State} (hcap : capOk (param s f k 0x0703 0) = true) (hsecs : secsOk (param s f k 0x0703 1) = true) :
    capSetAct f k s = .inr (capRequest (param s f k 0x0703 0) (param s f k 0x0703 1) (some (16 * f + k)) s) := by
  simp only [capSetAct, hcap, hsecs, Bool.not_true, Bool.false_eq_true, if_false]

theorem answers_capSet_refused {s : State} {f k : Nat} (h : Ready f k 0x0703 s) (hnone : s.gov.requests = [])
    (hbad : param s f k 0x0703 0 < 30 ∨ 125 < param s f k 0x0703 0 ∨ param s f k 0x0703 1 < 1 ∨ 60 < param s f k 0x0703 1) :
    Answers (.capSet f k) f k 0x1301 s s := by
  obtain ⟨detail, hact⟩ := capSetAct_refused (capOk_and_secsOk_eq_false hbad)
  have hexec := exec_capSet hnone f k
  rw [deferred_refused h hact] at hexec
  obtain ⟨t, hnext, hanswered, hafter, -⟩ := answersWith_of_answer (P := fun _ => True) hexec h rfl (by decide : 0x1301 < 65536)
    (Nat.zero_le _) fun _ _ _ => trivial
  exact ⟨t, hnext, hanswered, hafter⟩

theorem completes_capSet_requests {s : State} {f k : Nat} (h : Ready f k 0x0703 s) (hnone : s.gov.requests = [])
    (hcap : capOk (param s f k 0x0703 0) = true) (hsecs : secsOk (param s f k 0x0703 1) = true) : Completes (.capSet f k) s (fun t =>
      t.gov.requests = [⟨param s f k 0x0703 0, param s f k 0x0703 1, some (16 * f + k)⟩] ∧ fld t GOVERNOR_STATUS 6 6 = 0 ∧
        t = { s with regs := t.regs, gov.requests := t.gov.requests } ∧ SameWords s t (fun a => decide (a = GOVERNOR_STATUS.addr))) := by
  obtain ⟨hrequests, hrest⟩ := capRequest_spec (param s f k 0x0703 0) (param s f k 0x0703 1) (some (16 * f + k)) s
  rw [hnone, List.nil_append] at hrequests
  have hexec := exec_capSet hnone f k
  rw [deferred_started h (capSetAct_accepted hcap hsecs)] at hexec
  exact ⟨_, hexec, hrequests, hrest⟩

theorem completes_governorCapReqWrite_ignored {s : State} {v : Nat}
    (hbad : bits v 7 0 < 30 ∨ 125 < bits v 7 0 ∨ bits v 15 8 < 1 ∨ 60 < bits v 15 8) :
    Completes (.governorCapReqWrite v) s (Ignored 0xC0000 0xC0008 s) :=
  ⟨_, if_neg (by rw [capOk_and_secsOk_eq_false hbad]; decide),
    ignored_windowWrite rfl (by decide) (by decide) (by decide) (by decide) (by decide) s⟩

theorem completes_governorCapReqWrite_requests {s : State} {v : Nat} (hcap : capOk (bits v 7 0) = true) (hsecs : secsOk (bits v 15 8) = true) :
    Completes (.governorCapReqWrite v) s (fun t => t.gov.requests = s.gov.requests ++ [⟨bits v 7 0, bits v 15 8, none⟩] ∧
      fld t GOVERNOR_STATUS 6 6 = 0 ∧ t = { s with regs := t.regs, gov.requests := t.gov.requests } ∧
      SameWords s t (fun a => decide (a = GOVERNOR_STATUS.addr))) :=
  ⟨_, if_pos (by rw [hcap, hsecs]; rfl), capRequest_spec (bits v 7 0) (bits v 15 8) none s⟩

/-! ### Requests for external ceilings (R575) -/

theorem externalRequest_none {s : State} {m : Nat} (h : ∀ n, n < 4 → bit m n = false ∨ bayPresent s n = false) (tokens : Nat) :
    externalRequest m tokens s = none := by
  refine if_pos ?_
  rw [presentBays, List.filter_filter, List.filter_eq_nil_iff]
  intro n hn
  rw [Bool.not_eq_true, Bool.and_eq_false_iff]
  exact h n (List.mem_range.1 hn)

theorem bit_two_pow (n j : Nat) : bit (2 ^ n) j = decide (j = n) := by
  rw [bit_eq_testBit, Nat.testBit_two_pow]
  exact decide_eq_decide.2 eq_comm

theorem filter_range_eq : ∀ n < 4, (List.range 4).filter (fun j => decide (j = n)) = [n] := by decide

theorem externalRequest_one {s : State} {n : Nat} (hn : n < 4) (hbay : bayPresent s n = true) (tokens : Nat) :
    externalRequest (2 ^ n) tokens s = some (raise 0xC00A 0 { s with gov.ext := tput n tokens s.gov.ext }) := by
  have hbays : (presentBays s).filter (fun j => bit (2 ^ n) j) = [n] := by
    rw [presentBays, List.filter_filter, ← filter_range_eq n hn]
    refine List.filter_congr fun j _ => ?_
    rw [bit_two_pow]
    by_cases hj : j = n
    · rw [hj, hbay, Bool.and_true]
    · rw [decide_eq_false hj, Bool.false_and]
  unfold externalRequest
  rw [hbays]
  rfl

theorem completes_governorExtReqWrite_ignored {s : State} {v : Nat} (h : ∀ n, n < 4 → bit v n = false ∨ bayPresent s n = false) :
    Completes (.governorExtReqWrite v) s (Ignored 0xC0000 GOVERNOR_EXT_REQ.addr s) := by
  have hmask : ∀ n, n < 4 → bit (bits v 3 0) n = false ∨ bayPresent s n = false := fun n hn => by
    rw [bits, Nat.pow_zero, Nat.div_one, bit_mod_two_pow v hn]
    exact h n hn
  refine ⟨_, ?_, ignored_windowWrite (a := GOVERNOR_EXT_REQ.addr) rfl (by decide) (by decide) (by decide) (by decide) (by decide) s⟩
  change execGovernorExtReqWrite v s = _
  rw [execGovernorExtReqWrite, externalRequest_none hmask]

theorem completes_governorExtReqWrite_taken {s : State} {v n : Nat} (hn : n < 4) (hv : bits v 3 0 = 2 ^ n) (hbay : bayPresent s n = true) :
    Completes (.governorExtReqWrite v) s (fun t => t.gov.ext = tput n (bits v 15 8) s.gov.ext ∧
      t = raise 0xC00A 0 { s with gov.ext := t.gov.ext }) := by
  refine ⟨raise 0xC00A 0 { s with gov.ext := tput n (bits v 15 8) s.gov.ext }, ?_, by rw [raise_gov], by rw [raise_gov]⟩
  change execGovernorExtReqWrite v s = _
  rw [execGovernorExtReqWrite, hv, externalRequest_one hn hbay]

theorem answers_throttleRequest_refused {s : State} {f k : Nat} (h : Ready f k 0x0705 s)
    (hnone : ∀ n, n < 4 → bit (param s f k 0x0705 0) n = false ∨ bayPresent s n = false) : Answers (.throttleRequest f k) f k 0x1302 s s :=
  answers_refusal (detail := 0) rfl h (by simp only [externalRequest_none hnone]) (by decide)

theorem answers_throttleRequest_taken {s : State} {f k n : Nat} (h : Ready f k 0x0705 s) (hn : n < 4) (hm : param s f k 0x0705 0 = 2 ^ n)
    (hbay : bayPresent s n = true) : Answers (.throttleRequest f k) f k 0 s
      (raise 0xC00A 0 { s with gov.ext := tput n (param s f k 0x0705 1) s.gov.ext }) := by
  have hact : externalRequest (param s f k 0x0705 0) (param s f k 0x0705 1) s =
      some (raise 0xC00A 0 { s with gov.ext := tput n (param s f k 0x0705 1) s.gov.ext }) := by rw [hm, externalRequest_one hn hbay]
  exact answers_of_act (a := ok [] (raise 0xC00A 0 { s with gov.ext := tput n (param s f k 0x0705 1) s.gov.ext })) rfl h
    (by simp only [hact]) (by rw [ok, raise_mb]) (by decide : 0 < 65536) (Nat.zero_le _)

/-! ### The latch of a cap (R579, R580) -/

theorem completes_capLatch_idle {s : State} (h : s.gov.requests = []) : Completes .capLatch s (fun t => t = s) := by
  refine ⟨s, ?_, rfl⟩
  change execCapLatch s = _
  simp only [execCapLatch, h]

/-- The oldest request stands in the retained store, pending and acknowledged. -/
def capLatched (q : CapReq) (rest : List CapReq) (s : State) : State :=
  setMask GOVERNOR_STATUS 0x60 (setFld GOVERNOR_CAP 31 16 (q.cap + 256 * q.secs) { s with
    gov := { s.gov with requests := rest, pending := some (q.cap, q.secs) },
    power.retained := { s.power.retained with cap := q.cap, secs := q.secs, seq := (s.power.retained.seq + 1) % 2 ^ 32 } })

theorem exec_capLatch_write {s : State} {q : CapReq} {rest : List CapReq} (h : s.gov.requests = q :: rest) (hby : q.by_ = none) :
    exec .capLatch s = .next (capLatched q rest s) := by
  change execCapLatch s = _
  simp only [execCapLatch, h, hby]
  rfl

theorem exec_capLatch_command {s : State} {q : CapReq} {rest : List CapReq} {n : Nat} (h : s.gov.requests = q :: rest) (hby : q.by_ = some n) :
    exec .capLatch s = .next (finish (n / 16) (n % 16) 0 0 [r8 1] (capLatched q rest s)) := by
  change execCapLatch s = _
  simp only [execCapLatch, h, hby]
  rfl

theorem bits_or (x m hi lo : Nat) : bits (x ||| m) hi lo = bits x hi lo ||| bits m hi lo := by
  simp only [bits, ← Nat.shiftRight_eq_div_pow, Nat.shiftRight_or_distrib, Nat.or_mod_two_pow]

theorem bits_or_status (x : Nat) : bits (x ||| 0x60) 6 5 = 3 := by
  have hlt : bits x 6 5 < 4 := bits_lt x 6 5
  rw [bits_or]
  generalize bits x 6 5 = b at hlt
  exact (by decide : ∀ b < 4, b ||| 3 = 3) b hlt

/-- What the latch keeps of a request: its settings in the store under the next sequence number, and its acknowledgement (R580). -/
def CapKept (q : CapReq) (rest : List CapReq) (s t : State) : Prop :=
  t.gov = { s.gov with requests := rest, pending := some (q.cap, q.secs) } ∧ fld t GOVERNOR_CAP 31 16 = q.cap + 256 * q.secs ∧
    fld t GOVERNOR_STATUS 6 5 = 3 ∧
    t.power.retained = { s.power.retained with cap := q.cap, secs := q.secs, seq := (s.power.retained.seq + 1) % 2 ^ 32 }

theorem capLatched_kept {q : CapReq} (hcap : q.cap < 256) (hsecs : q.secs < 256) (rest : List CapReq) (s : State) :
    CapKept q rest s (capLatched q rest s) := by
  refine ⟨rfl, ?_, ?_, rfl⟩
  · rw [capLatched, fld, rd_setMask_ne (by decide)]
    exact (fld_setFld_same (by decide) (by decide) (by decide) _ _).trans (Nat.mod_eq_of_lt (by omega))
  · rw [capLatched, fld, rd_setMask_same (by decide) (by decide)]
    exact bits_or_status _

theorem capLatched_words (q : CapReq) (rest : List CapReq) (s : State) :
    SameWords s (capLatched q rest s) (fun a => decide (a = GOVERNOR_CAP.addr) || decide (a = GOVERNOR_STATUS.addr)) :=
  (SameWords.of_regs rfl).trans ((SameWords.setFld (r := GOVERNOR_CAP) rfl 31 16 _ _).trans (SameWords.wr (r := GOVERNOR_STATUS) rfl _ _))

theorem completes_capLatch_write {s : State} {q : CapReq} {rest : List CapReq} (h : s.gov.requests = q :: rest) (hcap : q.cap < 256)
    (hsecs : q.secs < 256) (hby : q.by_ = none) : Completes .capLatch s (fun t => CapKept q rest s t ∧
      t = { s with regs := t.regs, gov := t.gov, power.retained := t.power.retained } ∧
      SameWords s t (fun a => decide (a = GOVERNOR_CAP.addr) || decide (a = GOVERNOR_STATUS.addr))) :=
  ⟨_, exec_capLatch_write h hby, capLatched_kept hcap hsecs rest s, rfl, capLatched_words q rest s⟩

theorem completes_capLatch_command {s : State} {q : CapReq} {rest : List CapReq} {n : Nat} (h : s.gov.requests = q :: rest) (hcap : q.cap < 256)
    (hsecs : q.secs < 256) (hby : q.by_ = some n) (hready : Ready (n / 16) (n % 16) 0x0703 s) : Completes .capLatch s (fun t =>
      CapKept q rest s t ∧ Answered (n / 16) (n % 16) 0 t ∧ result t (n / 16) (n % 16) 0 1 = 1) := by
  have hserves : mailboxServes (capLatched q rest s) = true := hready.2.1
  have hexec : exec .capLatch s = .next (answer (n / 16) (n % 16) 0 0 [r8 1] (capLatched q rest s)) := by
    rw [exec_capLatch_command h hby, finish, if_pos hserves]
  obtain ⟨hgov, hcapWord, hstatus, hretained⟩ := capLatched_kept hcap hsecs rest s
  obtain ⟨t, hnext, hanswered, hafter, hresult⟩ := answersWith_of_answer
    (P := fun t => result t (n / 16) (n % 16) 0 1 = 1) hexec hready rfl (by decide) (by decide) fun t _ hres => hres 0 1 (by decide)
  refine ⟨t, hnext, ⟨?_, ?_, ?_, ?_⟩, hanswered, hresult⟩
  · rw [hafter.1, hgov]
  · rw [hafter.fld (by decide), hcapWord]
  · rw [hafter.fld (by decide), hstatus]
  · rw [hafter.1, hretained]

/-- Settles O40: each command of the mailbox, each write of BAR0, and the latch, by the lemma of its case. -/
theorem powerCommands : Obligations.PowerCommands := by
  refine ⟨fun s f k h => answers_powerRead h, fun s f k h => answers_throttleRead h,
    fun s f k h => ⟨answers_setPointStage_badBay h, answers_setPointStage_badValue h, answers_setPointStage_staged h⟩,
    fun s f k h hnone => ⟨answers_capSet_refused h hnone, fun h1 h2 h3 h4 =>
      completes_capSet_requests h hnone ((capOk_iff _).2 ⟨h1, h2⟩) ((secsOk_iff _).2 ⟨h3, h4⟩)⟩,
    fun s v _ => ⟨completes_governorCapReqWrite_ignored, fun h1 h2 h3 h4 =>
      completes_governorCapReqWrite_requests ((capOk_iff _).2 ⟨h1, h2⟩) ((secsOk_iff _).2 ⟨h3, h4⟩),
      completes_governorExtReqWrite_ignored, fun n hn hv hbay => completes_governorExtReqWrite_taken hn hv hbay⟩,
    fun s f k h => ⟨answers_throttleRequest_refused h, fun n hn hm hbay => answers_throttleRequest_taken h hn hm hbay⟩,
    fun s h => completes_capLatch_idle h,
    fun s q rest h hcap hsecs => ⟨completes_capLatch_write h hcap hsecs, fun n hby _ hready =>
      completes_capLatch_command h hcap hsecs hby hready⟩⟩

end Sys2Proof.Machine
end

section
/-! PROOF. Tensor handles, caches and queries of the Ledger (R228–R234, R318–R322): the status of each check of a descriptor, results packed
field by field, and the cases of each command. -/

namespace Sys2Proof.Machine
open Sys2Proof

/-! ### Results as a list of fields (R425) -/

/-- The bytes of a record, given as the size and the value of each field. -/
def fieldBytes (l : List (Nat × Nat)) : List Byte := l.flatMap (fun p => leBytes p.1 p.2)

/-- The offset of field `i`. -/
def fieldOffset (l : List (Nat × Nat)) (i : Nat) : Nat := ((l.take i).map Prod.fst).sum

theorem fieldBytes_length (l : List (Nat × Nat)) : (fieldBytes l).length = (l.map Prod.fst).sum := by
  simp only [fieldBytes, List.length_flatMap, leBytes_length]

theorem fieldBytes_split {l : List (Nat × Nat)} {i n v : Nat} (h : l[i]? = some (n, v)) :
    fieldBytes l = fieldBytes (l.take i) ++ (leBytes n v ++ fieldBytes (l.drop (i + 1))) := by
  obtain ⟨hi, hget⟩ := List.getElem?_eq_some_iff.1 h
  have hsplit : l = l.take i ++ (n, v) :: l.drop (i + 1) := by
    rw [← hget, List.getElem_cons_drop, List.take_append_drop]
  have hbytes := congrArg fieldBytes hsplit
  simp only [fieldBytes, List.flatMap_append, List.flatMap_cons] at hbytes ⊢
  exact hbytes

/-- A command that is answered with a record: each field of the results reads as its value, cut to its size. -/
theorem answersWith_of_fields {i : Instr} {f k op : Nat} {act : State → Ans} {res : Res} {s u : State} {P : State → Prop}
    (l : List (Nat × Nat)) (hexec : exec i s = .next (immediate f k op act s)) (h : Ready f k op s) (ha : act s = ok res u)
    (hacc : u.mb.accepted = s.mb.accepted) (hpack : packRes res [] = fieldBytes l) (hlen : (l.map Prod.fst).sum ≤ 80)
    (hP : ∀ t, (∀ j n v, l[j]? = some (n, v) → result t f k (fieldOffset l j) n = v % 256 ^ n) → P t) : AnswersWith i f k 0 s u P := by
  refine answersWith_of_act hexec h ha hacc (by rwa [hpack, fieldBytes_length]) fun t _ hres => hP t fun j n v hjv => ?_
  have hfield := fieldBytes_split hjv
  rw [hres _ _ (by rw [hpack, hfield, List.length_append, List.length_append, fieldBytes_length, leBytes_length, fieldOffset]; omega),
    hpack, hfield]
  exact fieldU_append (fieldBytes_length _) _ _ _

/-- A block alone is packed as it is. -/
theorem packRes_rblk (b : List Byte) : packRes [rblk b] [] = b := packRes_aligned (by decide) rfl b []

/-- A byte and a block, which begins at the next multiple of eight. -/
theorem packRes_r8_rblk (v : Nat) (b : List Byte) : packRes [r8 v, rblk b] [] = leBytes 1 v ++ (leBytes 7 0 ++ b) := by
  simp [packRes, r8, rblk, ceilDiv, leBytes, List.replicate]

/-! ### Free numbers and refused descriptors -/

/-- The number that a search gives has no entry (R633). -/
theorem tget_tfree {α : Type} {t : Tab α} {n : Nat} : ∀ {fuel start : Nat}, tfree t fuel start = some n → tget n t = none
  | 0, _, h => nomatch h
  | fuel + 1, start, h => by
    unfold tfree at h
    split at h
    case h_1 hfree =>
      cases h
      exact hfree
    case h_2 => exact tget_tfree h

/-- One more test of a chain of checks: the status stays one of 16 bits. -/
theorem status_lt_of_test {c : Prop} [Decidable c] {a st : Nat} {r : Option Nat} (ha : a < 65536) (hr : r = some st → st < 65536)
    (h : (if c then some a else r) = some st) : st < 65536 := by
  split at h
  · cases h
    exact ha
  · exact hr h

theorem tensorReject_lt {s : State} {f a st : Nat} (h : tensorReject s f a = some st) : st < 65536 := by
  unfold tensorReject at h
  revert h
  iterate 4 refine status_lt_of_test (by decide) ?_
  split
  · split
    · exact fun h => nomatch h
    · exact fun h => Option.some.inj h ▸ by decide
  · iterate 6 refine status_lt_of_test (by decide) ?_
    exact fun h => nomatch h

theorem tensorReject_unaligned {s : State} {f a : Nat} (ha : a % 64 ≠ 0) : tensorReject s f a = some 0x170E := by
  unfold tensorReject
  exact if_pos (by simp [ha])

theorem cacheReject_lt {s : State} {f a st : Nat} (h : cacheReject s f a = some st) : st < 65536 := by
  unfold cacheReject at h
  revert h
  iterate 4 refine status_lt_of_test (by decide) ?_
  exact fun h => nomatch h

/-- A descriptor that passes its checks has at most 2^20 slots (R317). -/
theorem cdSlots_le_of_accepted {s : State} {f a : Nat} (h : cacheReject s f a = none) : cdSlots (readBytes s a 256) ≤ 2 ^ 20 := by
  refine Nat.le_of_not_lt fun hmany => ?_
  simp only [cacheReject] at h
  split at h
  · cases h
  · have htest : decide (2 ^ 20 < cdSlots (readBytes s a 256)) = true := decide_eq_true hmany
    simp only [htest, Bool.or_true, Bool.true_or, if_true] at h
    cases h

/-! ### TENSOR_CREATE (R228–R230, R633) -/

/-- The generation that slot `n` of the table gives next (R230). -/
def nextGen (s : State) (n : Nat) : Nat := match tget n s.tensors.gens with | none => 0 | some g => (g + 1) % 256

/-- The descriptor at `a` stands in slot `n` of the table, with its next generation. -/
def tensorPlaced (f a n : Nat) (s : State) : State :=
  { s with tensors.gens := tput n (nextGen s n) s.tensors.gens,
           tensors.table := tput n { owner := f, gen := nextGen s n, bytes := readBytes s a 256 } s.tensors.table }

theorem answers_tensorCreate_refused {s : State} {f k st : Nat} (h : Ready f k 0x0206 s)
    (hst : tensorReject s f (param s f k 0x0206 0) = some st) : Answers (.tensorCreate f k) f k st s s := by
  refine answers_refusal (detail := 0) rfl h ?_ (tensorReject_lt hst)
  simp only [hst]

theorem answers_tensorCreate_quota {s : State} {f k : Nat} (h : Ready f k 0x0206 s)
    (hpass : tensorReject s f (param s f k 0x0206 0) = none) (hquota : quotaOf s f 1 ≤ useOf s f 1) :
    Answers (.tensorCreate f k) f k 0x170B s s := by
  refine answers_refusal (detail := 0) rfl h ?_ (by decide)
  simp only [hpass, if_pos hquota]

theorem answers_tensorCreate_placed {s : State} {f k n : Nat} (h : Ready f k 0x0206 s)
    (hpass : tensorReject s f (param s f k 0x0206 0) = none) (hquota : useOf s f 1 < quotaOf s f 1)
    (hfree : tfree s.tensors.table (2 ^ 20 - 1) 1 = some n) :
    AnswersWith (.tensorCreate f k) f k 0 s (tensorPlaced f (param s f k 0x0206 0) n s)
      (fun t => result t f k 0 4 = (n + nextGen s n * 2 ^ 20) % 2 ^ 32) := by
  refine answersWith_of_fields [(4, n + nextGen s n * 2 ^ 20)] (res := [r32 (n + nextGen s n * 2 ^ 20)]) rfl h ?_ rfl rfl
    (by simp) fun t hres => hres 0 _ _ rfl
  simp only [hpass, if_neg (Nat.not_le.2 hquota), hfree]
  rfl

/-! ### TENSOR_DESTROY (R230, R231) -/

theorem answers_tensorDestroy_unknown {s : State} {f k : Nat} (h : Ready f k 0x0207 s)
    (hnone : heldTensor s f (param s f k 0x0207 0) = none) : Answers (.tensorDestroy f k) f k 0x170C s s := by
  refine answers_refusal (detail := 0) rfl h (if_pos ?_) (by decide)
  rw [hnone, Option.isNone_none]

theorem answers_tensorDestroy_inUse {s : State} {f k : Nat} {x : Tensor} (h : Ready f k 0x0207 s)
    (hx : heldTensor s f (param s f k 0x0207 0) = some x) (huse : tensorInUse s f (param s f k 0x0207 0) = true) :
    Answers (.tensorDestroy f k) f k 0x170D s s := by
  refine answers_refusal (detail := 0) rfl h ((if_neg ?_).trans (if_pos huse)) (by decide)
  simp [hx]

theorem answers_tensorDestroy_freed {s : State} {f k : Nat} {x : Tensor} (h : Ready f k 0x0207 s)
    (hx : heldTensor s f (param s f k 0x0207 0) = some x) (huse : tensorInUse s f (param s f k 0x0207 0) = false) :
    Answers (.tensorDestroy f k) f k 0 s { s with tensors.table := tdel (param s f k 0x0207 0 % 2 ^ 20) s.tensors.table } := by
  refine answers_of_act (a := ok [] _) rfl h ((if_neg ?_).trans (if_neg ?_)) rfl (by decide : 0 < 65536) (Nat.zero_le _)
  · simp [hx]
  · simp [huse]

/-! ### TENSOR_QUERY (R234) -/

/-- The first and the last byte of the storage of an unsharded tensor (R223). -/
def wholeExtent (d : List Byte) : Int × Int := extentOf d (tdBase d 0) ((tdDims d).map (tdShape d))

/-- The Bays that reach an unsharded tensor over purlin links, as a mask (R234). -/
def remoteBays (s : State) (d : List Byte) : Nat :=
  ((List.range 4).map (fun b => if bayPresent s b && decide (bayOf (tdBase d 0) ≠ b) then 2 ^ b else 0)).sum

/-- The fields that TENSOR_QUERY answers for an unsharded tensor: the Bays, a gap, one extent, and none for the other three Bays. -/
def queryFields (s : State) (d : List Byte) : List (Nat × Nat) :=
  [(1, remoteBays s d), (7, 0), (8, (wholeExtent d).1.toNat), (8, (wholeExtent d).2.toNat), (8, 0), (8, 0), (16, 0), (16, 0)]

theorem packRes_tensorQuery (s : State) (d : List Byte) : packRes [r8 (remoteBays s d),
    rblk (leBytes 8 (wholeExtent d).1.toNat ++ leBytes 8 (wholeExtent d).2.toNat ++ leBytes 48 0)] [] = fieldBytes (queryFields s d) := by
  rw [packRes_r8_rblk, List.append_assoc]
  rfl

theorem answers_tensorQuery_unknown {s : State} {f k : Nat} (h : Ready f k 0x0208 s)
    (hnone : tensorOf s f (param s f k 0x0208 0) = none) : Answers (.tensorQuery f k) f k 0x170C s s := by
  refine answers_refusal (detail := 0) rfl h ?_ (by decide)
  simp only [hnone]

theorem answers_tensorQuery_unsharded {s : State} {f k : Nat} {x : Tensor} (h : Ready f k 0x0208 s)
    (hx : tensorOf s f (param s f k 0x0208 0) = some x) (hix : tdIndexed x.bytes = false) (hsh : tdSharded x.bytes = false) :
    AnswersWith (.tensorQuery f k) f k 0 s s (fun t => result t f k 8 8 = (wholeExtent x.bytes).1.toNat % 2 ^ 64 ∧
      result t f k 16 8 = (wholeExtent x.bytes).2.toNat % 2 ^ 64 ∧ result t f k 24 8 = 0) := by
  refine answersWith_of_fields (queryFields s x.bytes) rfl h ?_ rfl (packRes_tensorQuery s x.bytes) (by simp [queryFields])
    fun t hres => ⟨hres 2 _ _ rfl, hres 3 _ _ rfl, hres 4 _ _ rfl⟩
  have hstorage : storageOf s f x.bytes = x.bytes := by simp [storageOf, hix]
  simp only [hx, hstorage, hsh, tdBays, localShape, Bool.not_false, if_true, Bool.false_eq_true, if_false]
  rfl

/-! ### CACHE_CREATE and CACHE_DESTROY (R318) -/

theorem answers_cacheCreate_refused {s : State} {f k st : Nat} (h : Ready f k 0x020E s)
    (hst : cacheReject s f (param s f k 0x020E 0) = some st) : Answers (.cacheCreate f k) f k st s s := by
  refine answers_refusal (detail := 0) rfl h ?_ (cacheReject_lt hst)
  simp only [hst]

/-- The first cache takes number 0, and its slots always fit the pool. -/
theorem answers_cacheCreate_first {s : State} {f k : Nat} (h : Ready f k 0x020E s)
    (hpass : cacheReject s f (param s f k 0x020E 0) = none) (hquota : useOf s f 6 < quotaOf s f 6)
    (hnames : cacheNames s f (readBytes s (param s f k 0x020E 0) 256) = true) (hempty : s.ledger.caches = []) :
    AnswersWith (.cacheCreate f k) f k 0 s
      { s with ledger.caches := tput 0 { owner := f, bytes := readBytes s (param s f k 0x020E 0) 256 } s.ledger.caches }
      (fun t => result t f k 0 1 = 0) := by
  have hslots := cdSlots_le_of_accepted hpass
  refine answersWith_of_fields [(1, 0)] (res := [r8 0]) rfl h ?_ rfl rfl (by decide) fun t hres => hres 0 _ _ rfl
  have hfree : tfree s.ledger.caches 64 0 = some 0 := by rw [hempty]; rfl
  have hfit : ¬ 2 ^ 22 < (s.ledger.caches.map (fun p => 2 * cdSlots p.2.bytes)).sum + 2 * cdSlots (readBytes s (param s f k 0x020E 0) 256) := by
    rw [hempty, List.map_nil, List.sum_nil]
    omega
  simp only [hpass, if_neg (Nat.not_le.2 hquota), hfree, if_neg hfit, hnames, Bool.not_true, Bool.false_eq_true, if_false]

theorem answers_cacheDestroy_unknown {s : State} {f k : Nat} (h : Ready f k 0x020F s)
    (hnone : cacheOf s f (param s f k 0x020F 0) = none) : Answers (.cacheDestroy f k) f k 0x1007 s s := by
  refine answers_refusal (detail := 0) rfl h (if_pos ?_) (by decide)
  rw [hnone, Option.isNone_none]

theorem answers_cacheDestroy_live {s : State} {f k : Nat} {x : List Byte} (h : Ready f k 0x020F s)
    (hx : cacheOf s f (param s f k 0x020F 0) = some x)
    (hlive : s.ledger.seqs.any (fun p => decide (p.2.cache = param s f k 0x020F 0)) = true) :
    Answers (.cacheDestroy f k) f k 0x100A s s := by
  refine answers_refusal (detail := 0) rfl h ((if_neg ?_).trans (if_pos ?_)) (by decide)
  · simp [hx]
  · rw [hlive, Bool.true_or]

theorem completes_cacheDestroy_taken {s : State} {f k : Nat} {x : List Byte} (h : Ready f k 0x020F s)
    (hx : cacheOf s f (param s f k 0x020F 0) = some x)
    (hlive : s.ledger.seqs.any (fun p => decide (p.2.cache = param s f k 0x020F 0)) = false)
    (hnode : nodeNamesCache s f (param s f k 0x020F 0) = false) :
    Completes (.cacheDestroy f k) s (fun t => Answered f k 0 t ∧ tget (param s f k 0x020F 0) t.ledger.caches = none ∧ t.mem = s.mem ∧
      t.ledger.seqs = s.ledger.seqs.filter (fun p => decide (p.2.cache ≠ param s f k 0x020F 0))) := by
  obtain ⟨t, hexec, hanswered, hafter⟩ : Answers (.cacheDestroy f k) f k 0 s (dropCache (param s f k 0x020F 0) s) := by
    refine answers_of_act (a := ok [] _) rfl h ((if_neg ?_).trans (if_neg ?_)) rfl (by decide : 0 < 65536) (Nat.zero_le _)
    · simp [hx]
    · simp [hlive, hnode]
  refine ⟨t, hexec, hanswered, ?_, ?_, ?_⟩
  · rw [hafter.1]
    exact tget_tdel_same _ _
  all_goals
    rw [hafter.1]
    rfl

/-! ### LEDGER_QUERY (R320, R322) -/

/-- The fields of a page record (R320). -/
def pageFields (p : Page) : List (Nat × Nat) :=
  let st : Int := match p.state with | .free => 0 | .resident => 1 | .prov => 2 | .dropped => 3 | .recomputing => 4 | .retiring => 5
  [(1, (Config.unstated 323 [st]).toNat), (1, b2n p.droppable + 2 * b2n p.pinsSat), (2, p.refcount), (2, p.pins), (1, p.fill), (1, p.gen),
   (4, p.slot.getD 0xFFFFFFFF), (4, p.lpage), (2, p.seq), (1, p.cache), (1, 0), (4, p.lastRead), (8, p.tagFirst), (8, p.tagLast),
   (8, p.tOld), (16, 0)]

theorem pageBytes_eq (p : Page) : pageBytes p = fieldBytes (pageFields p) := by
  simp only [pageBytes, fieldBytes, pageFields, List.flatMap_cons, List.flatMap_nil, List.append_nil, List.append_assoc] <;> rfl

theorem pageFields_size (p : Page) : ((pageFields p).map Prod.fst).sum = 64 := by simp [pageFields]

/-- Where the fields of a page record stand in the results (R320, R425). -/
theorem page_results {t : State} {f k : Nat} {p : Page}
    (h : ∀ j n v, (pageFields p)[j]? = some (n, v) → result t f k (fieldOffset (pageFields p) j) n = v % 256 ^ n) :
    result t f k 2 2 = p.refcount % 2 ^ 16 ∧ result t f k 4 2 = p.pins % 2 ^ 16 ∧ result t f k 6 1 = p.fill % 256 ∧
      result t f k 12 4 = p.lpage % 2 ^ 32 ∧ result t f k 16 2 = p.seq % 2 ^ 16 ∧ result t f k 18 1 = p.cache % 256 :=
  ⟨h 2 _ _ rfl, h 3 _ _ rfl, h 4 _ _ rfl, h 7 _ _ rfl, h 8 _ _ rfl, h 9 _ _ rfl⟩

theorem answers_ledgerQuery_unknown {s : State} {f k : Nat} (h : Ready f k 0x0210 s)
    (hnone : cacheOf s f (param s f k 0x0210 0) = none) : Answers (.ledgerQuery f k) f k 0x1007 s s := by
  refine answers_refusal (detail := 0) rfl h (if_pos ?_) (by decide)
  rw [hnone, Option.isNone_none]

section
variable {s : State} {f k : Nat} {x : List Byte}

theorem answers_ledgerQuery_badKind (h : Ready f k 0x0210 s) (hx : cacheOf s f (param s f k 0x0210 0) = some x)
    (hwhat : 1 < param s f k 0x0210 1) : Answers (.ledgerQuery f k) f k 0x1006 s s := by
  refine answers_refusal (detail := paramOff 0x0210 1) rfl h ((if_neg ?_).trans (if_pos hwhat)) (by decide)
  simp [hx]

theorem answers_ledgerQuery_noPage (h : Ready f k 0x0210 s) (hx : cacheOf s f (param s f k 0x0210 0) = some x)
    (hwhat : param s f k 0x0210 1 = 1)
    (hpage : (pageOf s (param s f k 0x0210 2)).state = .free ∨ (pageOf s (param s f k 0x0210 2)).cache ≠ param s f k 0x0210 0) :
    Answers (.ledgerQuery f k) f k 0x1007 s s := by
  refine answers_refusal (detail := 0) rfl h ?_ (by decide)
  simp only [hx, hwhat, Option.isNone_some, Bool.false_eq_true, if_false, Nat.lt_irrefl, Nat.one_ne_zero, if_pos hpage]

theorem answers_ledgerQuery_page (h : Ready f k 0x0210 s) (hx : cacheOf s f (param s f k 0x0210 0) = some x)
    (hwhat : param s f k 0x0210 1 = 1) (hstate : (pageOf s (param s f k 0x0210 2)).state ≠ .free)
    (hcache : (pageOf s (param s f k 0x0210 2)).cache = param s f k 0x0210 0) :
    AnswersWith (.ledgerQuery f k) f k 0 s s (fun t => let pg := pageOf s (param s f k 0x0210 2)
      result t f k 2 2 = pg.refcount % 2 ^ 16 ∧ result t f k 4 2 = pg.pins % 2 ^ 16 ∧ result t f k 6 1 = pg.fill % 256 ∧
        result t f k 12 4 = pg.lpage % 2 ^ 32 ∧ result t f k 16 2 = pg.seq % 2 ^ 16 ∧ result t f k 18 1 = param s f k 0x0210 0 % 256) := by
  rw [← hcache]
  have hpack := (packRes_rblk (pageBytes (pageOf s (param s f k 0x0210 2)))).trans (pageBytes_eq _)
  refine answersWith_of_fields (pageFields (pageOf s (param s f k 0x0210 2))) rfl h ?_ rfl hpack (pageFields_size _ ▸ by decide)
    fun t hres => page_results hres
  have hpage : ¬ ((pageOf s (param s f k 0x0210 2)).state = .free ∨ (pageOf s (param s f k 0x0210 2)).cache ≠ param s f k 0x0210 0) :=
    fun hbad => hbad.elim hstate (· hcache)
  simp only [hx, hwhat, Option.isNone_some, Bool.false_eq_true, if_false, Nat.lt_irrefl, Nat.one_ne_zero, if_neg hpage]

end

/-- Settles O24: each command, by the lemma of its case. -/
theorem tensorsAndCaches : Obligations.TensorsAndCaches := by
  refine ⟨fun s f k h => ⟨fun ha => answers_tensorCreate_refused h (tensorReject_unaligned ha), fun st => answers_tensorCreate_refused h,
      answers_tensorCreate_quota h, fun hpass hquota n hfree => ⟨tget_tfree hfree, answers_tensorCreate_placed h hpass hquota hfree⟩⟩,
    fun s f k h => ⟨answers_tensorDestroy_unknown h, fun x hx => ⟨answers_tensorDestroy_inUse h hx, answers_tensorDestroy_freed h hx⟩⟩,
    fun s f k h => ⟨answers_tensorQuery_unknown h, fun x => answers_tensorQuery_unsharded h⟩,
    fun s f k h => ⟨fun st => answers_cacheCreate_refused h, answers_cacheCreate_first h⟩,
    fun s f k h => ⟨answers_cacheDestroy_unknown h, fun x hx => ⟨answers_cacheDestroy_live h hx, completes_cacheDestroy_taken h hx⟩⟩,
    fun s f k h => ⟨answers_ledgerQuery_unknown h, fun x hx => ⟨answers_ledgerQuery_badKind h hx, answers_ledgerQuery_noPage h hx,
      answers_ledgerQuery_page h hx⟩⟩⟩

end Sys2Proof.Machine
end

section
/-! PROOF. A ring entry that lies across two stacks (R266, R460): the statement about rings takes an entry as readable where its first byte
is reached, and overlooks that the link to the other stack, of another Bay, may be down. The alignment that RING_CREATE asks for rules such
an entry out, but the statement does not ask for it. -/

namespace Sys2Proof.Machine
open Sys2Proof

/-- A ring of domain 0 with one entry, whose base is off its alignment: half of the entry lies in the stack of Bay 0, half in that of Bay 1. -/
def straddlingRing : Ring :=
  { owner := 0, packet := false, log2 := 4, base := stackBytes - 32, prod := 1, prodN := 0xFFFFFFFE, resv := 1 }

/-- The ring is the one that SCRIBE.RING_SEL selects, in memory that domain 0 holds with no system region in it. The link from the Sill to
Bay 1 is down, and the first byte of that Bay's stack is 9. -/
def bay1CutOff : State :=
  { wr SILL_SYS_RESERVE 0 State.reset with
    mem := [(stackBytes, 9)]
    memory := { allocs := [(stackBytes - 0x100000, { len := 0x200000, owner := 0 })], downLinks := [3] }
    scribe := { rings := [(0, straddlingRing)] } }

theorem straddlingEntry_readable : readable bay1CutOff 0 (stackBytes - 32) 64 = true := by decide +kernel

/-- The pop answers the byte of Bay 1, which arrives poisoned, as zero. -/
theorem ringPopRegisterRead_straddling : rd (nextOf (.ringPopRegisterRead 0 []) bay1CutOff) (SCRIBE_POP_DATA 8) = 0 ∧
    readNat bay1CutOff stackBytes 4 = 9 := by decide +kernel

/-- Refutes O25: the half of an entry behind a link that is down is popped as zero (R220, R460), not as memory holds it. -/
theorem not_rings : ¬ Obligations.Rings := by
  rintro ⟨-, -, -, -, -, hpop⟩
  obtain ⟨-, hring⟩ := hpop bay1CutOff
  obtain ⟨-, hentry⟩ := hring straddlingRing (by decide +kernel) (by decide)
  obtain ⟨-, hdata, -⟩ := (hentry (by decide) straddlingEntry_readable).nextOf
  have hword : rd (nextOf (.ringPopRegisterRead 0 []) bay1CutOff) (SCRIBE_POP_DATA 8) = readNat bay1CutOff stackBytes 4 :=
    hdata 8 (by decide)
  rw [ringPopRegisterRead_straddling.1, ringPopRegisterRead_straddling.2] at hword
  exact absurd hword (by decide)

end Sys2Proof.Machine
end

section
/-! PROOF. The frame of a Ledger operation (R324, R325, R331, R339): what it reads, what writing its output leaves, and how an instance with one
entry begins, works and ends. -/

namespace Sys2Proof.Machine
open Sys2Proof

/-! ### What an operation reads (R220, R238, R324) -/

section
variable {s t : State}

theorem tensorOf_congr (h : t.tensors = s.tensors) (dom k : Nat) : tensorOf t dom k = tensorOf s dom k := by
  rw [tensorOf, heldTensor, h, tensorOf, heldTensor]

theorem boundTensor_congr (h : t.tensors = s.tensors) (dom : Nat) (binds : List Bind) (arg : Nat) (kinds : List Nat) :
    boundTensor t dom binds arg kinds = boundTensor s dom binds arg kinds := by
  simp only [boundTensor, tensorOf_congr h]

theorem loGet_congr (h : t.tensors = s.tensors) (dom : Nat) (nd : Node) (d : List Byte) (k : Nat) : loGet t dom nd d k = loGet s dom nd d k := by
  simp only [loGet, loTensor, boundTensor_congr h]

theorem loEntries_congr (h : t.tensors = s.tensors) (dom : Nat) (nd : Node) (d : List Byte) : loEntries t dom nd d = loEntries s dom nd d := by
  simp only [loEntries, loGet_congr h]

theorem collTensors_congr (h : t.tensors = s.tensors) (dom : Nat) (nd : Node) (d : List Byte) :
    collTensors t dom nd d = collTensors s dom nd d := by
  simp only [collTensors, boundTensor_congr h]

/-- Whatever an element read from a tensor depends on is the same in both states: memory with its poison, links, and descriptors. -/
structure SameInput (s t : State) : Prop where
  mem : t.mem = s.mem
  poison : t.poison = s.poison
  memory : t.memory = s.memory
  tensors : t.tensors = s.tensors

theorem SameInput.readCode (h : SameInput s t) (base : Nat) (o : Int) (w : Nat) : readCode t base o w = readCode s base o w := by
  simp only [Machine.readCode, readNat, readBytes_mem h.mem]

theorem SameInput.codePoisoned (h : SameInput s t) (base : Nat) (o : Int) (w : Nat) :
    codePoisoned t none base o w = codePoisoned s none base o w := by
  simp only [Machine.codePoisoned, poisoned, cutOff, h.poison, h.memory]

theorem SameInput.readElem (h : SameInput s t) (dom : Nat) (d : List Byte) (ix : List Nat) : readElem t dom d ix = readElem s dom d ix := by
  simp only [Machine.readElem, unitBay, baseOn, storageOf, viewAt, indexAt, tensorOf_congr h.tensors, h.readCode, h.codePoisoned] <;> rfl

theorem SameInput.loWord (h : SameInput s t) (dom : Nat) (d : List Byte) (ix : List Nat) : loWord t dom d ix = loWord s dom d ix := by
  simp only [Machine.loWord, h.readElem]

/-- A word of the first input tensor, read later. -/
theorem SameInput.ledgerWord (h : SameInput s t) (g : Graph) (nd : Node) (ix : List Nat) :
    Machine.loWord t g.domain (loGet t g.domain nd (readBytes s nd.plan 128) 0) ix = Machine.ledgerWord s g nd ix := by
  rw [h.loWord, loGet_congr h.tensors]
  rfl

end

/-- A read, though it may be refused or meet poison, poisons no word. -/
theorem noteRead_poison (tag a n agent : Nat) (s : State) : (noteRead tag a n agent s).poison = s.poison := by
  have hpoison : ∀ (u : State) (w : Nat), (poisonRead w u).poison = u.poison := by
    intro u w
    unfold poisonRead
    dsimp only
    split <;> simp
  have hrefused : (refuseLines tag a n agent false s).poison = s.poison := by rw [(Reported.refuseLines tag a n agent false s).1]
  refine (foldl_keeps (f := State.poison) (fun u w => ?_) (wordsOf a n) _).trans hrefused
  split
  · exact hpoison u w
  · rfl

/-- What each of the reads that an operation notes keeps, the noting of its input keeps. -/
theorem noteLedger_keeps {γ : Type} {f : State → γ} (h : ∀ tag a n agent s, f (noteRead tag a n agent s) = f s) (dom : Nat) (nd : Node)
    (d : List Byte) (s : State) : f (noteLedger dom nd d s) = f s := by
  unfold noteLedger
  split
  · rfl
  · dsimp only
    split
    · rfl
    · exact foldl_keeps (fun u _ => h _ _ _ _ u) _ s

theorem Fenced.noteLedger (dom : Nat) (nd : Node) (d : List Byte) (s : State) : Fenced s (noteLedger dom nd d s) := by
  unfold Machine.noteLedger
  split
  · exact Fenced.refl s
  · exact Fenced.ite (Fenced.refl s) (Fenced.foldl (fun u _ => Fenced.noteRead _ _ _ _ u) _ s)

/-! ### What an operation writes (R324) -/

/-- The words that the output of an operation can change: those of the checks on a write, and the count of absent pages. -/
def inOutput (a : Nat) : Bool := inChecks a || decide (a = LEDGER_ABSENT.addr)

/-- From `s` to `t` an operation writes its output: the tables of the Ledger, the Scribe and the mailbox stay as they are. -/
structure Output (s t : State) : Prop where
  ledger : t.ledger = s.ledger
  scribe : t.scribe = s.scribe
  mb : t.mb = s.mb
  tensors : t.tensors = s.tensors
  words : SameWords s t inOutput

theorem Output.refl (s : State) : Output s s := ⟨rfl, rfl, rfl, rfl, SameWords.refl s _⟩

theorem Output.trans {s t u : State} (h : Output s t) (k : Output t u) : Output s u :=
  ⟨k.ledger.trans h.ledger, k.scribe.trans h.scribe, k.mb.trans h.mb, k.tensors.trans h.tensors, h.words.trans k.words⟩

theorem Output.ite {p : Prop} [Decidable p] {s a b : State} (ha : Output s a) (hb : Output s b) : Output s (if p then a else b) := by
  split
  · exact ha
  · exact hb

theorem Fenced.output {s t : State} (h : Fenced s t) : Output s t := by
  refine ⟨?_, ?_, ?_, ?_, h.2.mono fun a ha => by rw [inOutput, ha, Bool.true_or]⟩ <;> rw [h.1]

/-- Instance `i`, if it stands, is not provisional: what it writes takes effect at once (R276). -/
def Direct (i : Nat) (s : State) : Prop := ∀ x, tget i s.scribe.insts = some x → x.prov = false

theorem Direct.congr {i : Nat} {s t : State} (h : Direct i s) (hscribe : t.scribe = s.scribe) : Direct i t := by
  intro x hx
  exact h x (by rwa [hscribe] at hx)

theorem Lone.direct {s : State} {i : Nat} {x : Inst} {g : Graph} {nd : Node} (h : Lone s i x g nd) (hprov : x.prov = false) : Direct i s := by
  obtain ⟨-, hinsts, -⟩ := h
  intro y hy
  rw [hinsts, tget_eq_some_of_single] at hy
  exact Option.some.inj hy ▸ hprov

theorem Output.unitWrite {s : State} {i : Nat} (h : Direct i s) (dom a : Nat) (bs : List Byte) (poison : Bool) :
    Output s (unitWrite i dom a bs poison s) := by
  cases hx : tget i s.scribe.insts with
  | some x =>
    rw [unitWrite_direct hx (h x hx)]
    exact (Fenced.fencedWrite _ _ _ s).output
  | none =>
    rw [Machine.unitWrite, hx]
    exact (Fenced.fencedWrite _ _ _ s).output

theorem Output.foldl {β : Type} {i : Nat} {f : State → β → State} (hf : ∀ s b, Direct i s → Output s (f s b)) (l : List β) {s : State}
    (h : Direct i s) : Output s (l.foldl f s) := by
  induction l generalizing s with
  | nil => exact Output.refl s
  | cons b r ih => exact (hf s b h).trans (ih (h.congr (hf s b h).scribe))

theorem Output.loPut {s : State} {i : Nat} (h : Direct i s) (dom : Nat) (d : List Byte) (ix : List Nat) (v : Nat) :
    Output s (loPut i dom d ix v s) := Output.foldl (fun _ _ hu => Output.unitWrite hu _ _ _ _) _ h

theorem Output.inc_absent (s : State) : Output s (inc LEDGER_ABSENT s) := ⟨rfl, rfl, rfl, rfl, SameWords.wr rfl _ s⟩

/-- One write after another. -/
theorem Output.andThen {s t u : State} {i : Nat} (h : Direct i s) (a : Output s t) (b : Direct i t → Output t u) : Output s u :=
  a.trans (b (h.congr a.scribe))

theorem Output.writeLists {s : State} {i : Nat} (h : Direct i s) (dom : Nat) (nd : Node) (r : LedRun) :
    Output s (writeLists i dom nd r s) := by
  refine Output.foldl (fun u l hu => Output.andThen hu (Output.foldl (fun v j hv => ?_) _ hu) (Output.loPut · _ _ _ _)) _ h
  dsimp only
  split
  · exact Output.andThen hv (Output.loPut hv _ _ _ _) (Output.foldl (fun _ _ hw => Output.loPut hw _ _ _ _) _)
  · rename_i p lo hi pos _
    have hmissed : Output v (if r.absent.contains p then inc LEDGER_ABSENT v else v) := Output.ite (Output.inc_absent v) (Output.refl v)
    exact Output.andThen hv (Output.andThen hv hmissed (Output.loPut · _ _ _ _)) (Output.foldl (fun _ _ hw => Output.loPut hw _ _ _ _) _)

/-! ### An operation begins (R325, R331, R339) -/

/-- The operation of a node, as it stands at its start. -/
def opRun (s : State) (nd : Node) : LedRun :=
  { desc := readBytes s nd.plan 128, serial := (s.ledger.serial + 1) % 2 ^ 32, dropEn := bit (live s LEDGER_CTRL) 0 }

/-- The words that the start of an operation can change. -/
def inStart (a : Nat) : Bool := inChecks a || inWindow 0x80000 a || decide (a = LEDGER_OPS.addr)

/-- In `u`, instance `i`, lone in `s`, has begun its operation, and no entry has been processed. -/
structure Begun (s u : State) (i : Nat) (x : Inst) (g : Graph) (nd : Node) : Prop where
  lone : Lone u i (begun s x) g nd
  input : SameInput s u
  pegs : u.scribe.pegs = s.scribe.pegs
  ledger : u.ledger =
    { s.ledger with serial := (s.ledger.serial + 1) % 2 ^ 32, runs := [(i, opRun s nd)], pins := u.ledger.pins }
  counted : rd u LEDGER_OPS = min 0xFFFFFFFF (rd s LEDGER_OPS + 1)
  words : SameWords s u inStart

section
variable {s : State} {i : Nat} {x : Inst} {g : Graph} {nd : Node}

/-- The state in which a lone instance has begun its operation. -/
def opStarted (i : Nat) (x : Inst) (nd : Node) (pins : List LedPin) (s : State) : State :=
  { inc LEDGER_OPS (started i x s) with ledger :=
      { s.ledger with serial := (s.ledger.serial + 1) % 2 ^ 32, runs := [(i, opRun s nd)], pins := pins } }

theorem releasePins_none (h : s.ledger.pins = []) (keep : LedPin → Bool) : releasePins keep s = s := by
  rw [releasePins, h]
  change { s with ledger.pins := [] } = s
  rw [← h]

theorem startLedger_lone (hlone : Lone s i x g nd) (hflags : nd.flags = 0) (hprov : x.prov = false) (hrun : x.runs.any (·.started) = false)
    (hruns : s.ledger.runs = []) (hpins : loOp (readBytes s nd.plan 128) = 4 → s.ledger.pins = []) :
    startLedger i x nd s = opStarted i x nd s.ledger.pins s := by
  have hbytes : readBytes (inc LEDGER_OPS (started i x s)) nd.plan 128 = readBytes s nd.plan 128 := readBytes_mem rfl _ _
  have hentered : tput i (opRun s nd) s.ledger.runs = [(i, opRun s nd)] := by rw [hruns]; rfl
  have hstarted : { inc LEDGER_OPS (started i x s) with ledger := { s.ledger with
      serial := (s.ledger.serial + 1) % 2 ^ 32, runs := tput i (opRun s nd) s.ledger.runs } } = opStarted i x nd s.ledger.pins s := by
    rw [hentered, opStarted]
  rw [startLedger, settle_beginRun_lone hlone hflags hprov hrun]
  dsimp only
  rw [hbytes, ← hstarted]
  split
  · rename_i hread
    exact releasePins_none (by exact hpins hread) _
  · rfl

theorem Lone.opStarted (h : Lone s i x g nd) (pins : List LedPin) : Lone (opStarted i x nd pins s) i (begun s x) g nd := by
  obtain ⟨hwork, hinsts, hwaits, hrest⟩ := h
  refine ⟨hwork, ?_, hwaits, hrest⟩
  exact (congrArg (tput i (begun s x)) hinsts).trans (tput_single ..)

theorem Begun.opStarted (h : Lone s i x g nd) (pins : List LedPin) : Begun s (opStarted i x nd pins s) i x g nd := by
  have hops : rd (Machine.opStarted i x nd pins s) LEDGER_OPS = min 0xFFFFFFFF (rd s LEDGER_OPS + 1) := by
    refine (rd_inc (by decide) (started i x s)).trans ?_
    rw [(Scheduled.started i x s).2.2.rd rfl]
  have hwords : SameWords s (inc LEDGER_OPS (started i x s)) inStart :=
    ((Scheduled.started i x s).2.2.mono fun a ha => by rw [inStart, ha, Bool.or_true, Bool.true_or]).trans (SameWords.wr rfl _ _)
  exact ⟨h.opStarted pins, ⟨rfl, rfl, rfl, rfl⟩, rfl, rfl, hops, hwords⟩

/-- Reading the input of an operation that has begun changes nothing that the operation reads. -/
theorem Begun.noteLedger {u : State} (h : Begun s u i x g nd) (dom : Nat) (d : List Byte) : Begun s (noteLedger dom nd d u) i x g nd := by
  have hmem := noteLedger_keeps noteRead_mem dom nd d u
  have hpoison := noteLedger_keeps noteRead_poison dom nd d u
  have hnoted := Fenced.noteLedger dom nd d u
  generalize Machine.noteLedger dom nd d u = v at *
  obtain ⟨hledger, hscribe, hmb, htensors, -⟩ := hnoted.output
  have hmemory : v.memory = u.memory := by rw [hnoted.1]
  refine ⟨h.lone.congr hscribe hmb, ⟨hmem.trans h.input.mem, hpoison.trans h.input.poison, hmemory.trans h.input.memory,
    htensors.trans h.input.tensors⟩, (congrArg _ hscribe).trans h.pegs, ?_, (hnoted.2.rd rfl).trans h.counted,
    h.words.trans (hnoted.2.mono fun a ha => by rw [inStart, ha, Bool.true_or, Bool.true_or])⟩
  rw [hledger]
  exact h.ledger

/-- What a row does with an operation that has begun: a collective runs, any other operation processes its entries. -/
def opWorks (op i : Nat) (g : Graph) (nd : Node) (prov : Bool) (r : LedRun) (s : State) : State :=
  if op = 7 then
    match collTensors s g.domain nd r.desc with
    | some (a, b) => endLedger i (runCollective i g.domain (fieldU r.desc 15 1 % 16) (fieldU r.desc 15 1 / 16) a b s)
    | none => endLedger i s
  else settle (ledgerWork i g.domain nd prov (loEntries s g.domain nd r.desc + 1) s)

theorem ledgerFaults_none (s : State) : ledgerFaults [] [] s = s := by
  have hhit : s.ledger.seqs.filter (fun q => ([] : List Nat).contains q.1 || q.2.list.any (fun e => ([] : List Nat).contains e.2)) = [] := by simp
  rw [ledgerFaults, hhit]
  rfl

/-- The pins when an operation begins: a READ has an entry of its own, with no page yet (R331). -/
def opPins (op i : Nat) (x : Inst) (s : State) : List LedPin :=
  if op = 4 then s.ledger.pins ++ [⟨i, x.graph, x.node, []⟩] else s.ledger.pins

theorem opStarted_pinned (op : Nat) :
    (if op = 4 then { opStarted i x nd s.ledger.pins s with ledger.pins := s.ledger.pins ++ [⟨i, x.graph, x.node, []⟩] }
      else opStarted i x nd s.ledger.pins s) = opStarted i x nd (opPins op i x s) s := by
  rw [opPins]
  split <;> rfl

/-- The row of the instance at the head of the queue, whose operation passes its checks, begins that operation. -/
theorem ledgerRow_begins {op : Nat} (hz : instOf s i = some (x, g, nd)) (h : LedgerBegins s op i x g nd) (hpins : op = 4 → s.ledger.pins = []) :
    ∃ u, Begun s u i x g nd ∧ (op = 4 → u.ledger.pins = [⟨i, x.graph, x.node, []⟩]) ∧
      ledgerRow op i [] [] s = opWorks op i g nd false (opRun s nd) u := by
  obtain ⟨⟨hlone, hready, -, hflags, hprov, hruns⟩, -, hnone, -, hpass, hop, -⟩ := h
  have hidle : runLed s i = none := by rw [runLed, hnone, tget_nil]
  have hstart := startLedger_lone hlone hflags hprov (by rw [hruns]; rfl) hnone (fun h4 => hpins (hop.symm.trans h4))
  have hbytes : readBytes (Machine.opStarted i x nd (opPins op i x s) s) nd.plan 128 = readBytes s nd.plan 128 := readBytes_mem rfl _ _
  have hbegun := (Begun.opStarted hlone (opPins op i x s)).noteLedger g.domain (readBytes s nd.plan 128)
  have hread := (Fenced.noteLedger g.domain nd (readBytes s nd.plan 128) (Machine.opStarted i x nd (opPins op i x s) s)).output.ledger
  refine ⟨_, hbegun, fun h4 => ?_, ?_⟩
  · rw [hread]
    simp only [Machine.opStarted, opPins, if_pos h4, hpins h4, List.nil_append]
  · have hfound : runLed (Machine.noteLedger g.domain nd (readBytes s nd.plan 128) (Machine.opStarted i x nd (opPins op i x s) s)) i =
        some (opRun s nd) := by
      rw [runLed, hbegun.ledger]
      exact tget_eq_some_of_single _ _
    rw [ledgerRow, hz]
    dsimp only
    rw [hidle, hpass, hready, hop, hstart, hprov]
    simp only [Bool.not_true, Bool.false_eq_true, if_false, decide_true, if_true]
    rw [show (Machine.opStarted i x nd s.ledger.pins s).ledger.pins = s.ledger.pins from rfl, opStarted_pinned, hbytes, ledgerFaults_none, hfound]
    rfl

end

/-! ### Its one entry is processed, and it ends (R283, R324, R325) -/

/-- The words that an entry of an operation can change: those of its output, and the Ledger's, but for the count of operations. -/
def inEntry (a : Nat) : Bool := inOutput a || (inWindow 0x90000 a && decide (a ≠ LEDGER_OPS.addr))

/-- From `s` to `t` an entry is processed: the Ledger's tables and words may change, but no instance, mailbox or tensor. -/
structure Processed (s t : State) : Prop where
  scribe : t.scribe = s.scribe
  mb : t.mb = s.mb
  tensors : t.tensors = s.tensors
  serial : t.ledger.serial = s.ledger.serial
  words : SameWords s t inEntry

theorem Processed.refl (s : State) : Processed s s := ⟨rfl, rfl, rfl, rfl, SameWords.refl s _⟩

theorem Processed.trans {s t u : State} (h : Processed s t) (k : Processed t u) : Processed s u :=
  ⟨k.scribe.trans h.scribe, k.mb.trans h.mb, k.tensors.trans h.tensors, k.serial.trans h.serial, h.words.trans k.words⟩

theorem Output.processed {s t : State} (h : Output s t) : Processed s t :=
  ⟨h.scribe, h.mb, h.tensors, congrArg _ h.ledger, h.words.mono fun a ha => by rw [inEntry, ha, Bool.true_or]⟩

theorem Processed.ledger {s : State} {l : LedSt} (h : l.serial = s.ledger.serial) : Processed s { s with ledger := l } :=
  ⟨rfl, rfl, rfl, h, SameWords.of_regs rfl⟩

theorem Processed.modLed (i : Nat) (f : LedRun → LedRun) (s : State) : Processed s (modLed i f s) := Processed.ledger rfl

theorem Processed.wr {r : Reg} (h : inEntry r.addr = true) (v : Nat) (s : State) : Processed s (wr r v s) :=
  ⟨rfl, rfl, rfl, rfl, SameWords.wr h v s⟩

theorem Processed.raise (c a : Nat) (s : State) : Processed s (raise c a s) := (Logged.raise c a s).reported.fenced.output.processed

theorem pageOf_congr {s t : State} (h : t.ledger.pages = s.ledger.pages) (p : Nat) : pageOf t p = pageOf s p := by rw [pageOf, h, pageOf]

theorem recomputing_congr {s t : State} (h : t.ledger.pages = s.ledger.pages) (r : LedRun) : recomputing t r = recomputing s r := by
  simp only [recomputing, pageOf_congr h]

/-- One more entry of an operation has been processed. -/
def nextEntry (r : LedRun) : LedRun := { r with next := r.next + 1 }

/-- The entry of operation `r` of instance `i` has been processed from `u` to `v`, and no page of its list has to be waited for. -/
structure Entered (i : Nat) (r : LedRun) (u v : State) : Prop where
  keeps : Processed u v
  run : ∃ r', v.ledger.runs = [(i, r')] ∧ r'.desc = r.desc ∧ r'.next = r.next ∧ (loOp r.desc = 4 → recomputing v r' = false)

/-- From `v` to `t` an operation ends: its run is gone from the table, and the Ledger's words stay but for the count of absent pages. -/
structure OpEnds (v t : State) : Prop where
  ledger : t.ledger = { v.ledger with runs := [] }
  words : SameWords v t (fun a => inOutput a || inWindow 0x80000 a)

/-- An operation of one entry: the entry is processed, its status is written, and the operation ends. -/
theorem ledgerWork_one {i dom : Nat} {nd : Node} {r : LedRun} {prov : Bool} {u v : State} {st : Nat} (hrun : runLed u i = some r)
    (hnext : r.next = 0) (hone : loEntries u dom nd r.desc = 1) (hdirect : Direct i u)
    (hentry : ledgerEntry i dom nd r prov 0 u = .done st v) (h : Entered i r u v) :
    ∃ r' w, w.ledger = { v.ledger with runs := [(i, r')] } ∧ Processed v w ∧ SameWords v w inOutput ∧
      ledgerWork i dom nd prov 2 u = endLedger i w := by
  obtain ⟨hkeeps, r', hruns, hdesc, hnext', hclear⟩ := h
  have hstatus : Output v (if loOp r.desc = 4 then v else loPut i dom (loGet v dom nd r.desc 3) [0] st v) :=
    Output.ite (Output.refl v) (Output.loPut (hdirect.congr hkeeps.scribe) _ _ _ _)
  have hwork : ledgerWork i dom nd prov 2 u =
      ledgerWork i dom nd prov 1 (modLed i nextEntry (if loOp r.desc = 4 then v else loPut i dom (loGet v dom nd r.desc 3) [0] st v)) := by
    rw [ledgerWork, hrun]
    dsimp only
    rw [hone, hnext, if_neg (by decide), hentry]
    rfl
  rw [hwork]
  generalize (if loOp r.desc = 4 then v else loPut i dom (loGet v dom nd r.desc 3) [0] st v) = y at hstatus
  have hbumped : Processed v (modLed i nextEntry y) := hstatus.processed.trans (Processed.modLed i nextEntry y)
  have hledger : (modLed i nextEntry y).ledger = { v.ledger with runs := [(i, nextEntry r')] } := by
    have htwo : tmod i nextEntry [(i, r')] = [(i, nextEntry r')] := if_pos rfl
    rw [modLed, hstatus.ledger, hruns, htwo]
  have hfound : runLed (modLed i nextEntry y) i = some (nextEntry r') := by
    rw [runLed, hledger]
    exact tget_eq_some_of_single _ _
  have hlast : loEntries (modLed i nextEntry y) dom nd (nextEntry r').desc ≤ (nextEntry r').next := by
    rw [loEntries_congr (t := modLed i nextEntry y) (hstatus.tensors.trans hkeeps.tensors)]
    exact Nat.le_of_eq (by rw [nextEntry, hdesc, hone, hnext', hnext])
  rw [ledgerWork, hfound]
  dsimp only
  rw [if_pos hlast]
  split
  · rename_i hread
    have hno : recomputing (modLed i nextEntry y) (nextEntry r') = false := by
      rw [recomputing_congr (s := v) (by rw [hledger])]
      exact hclear (by rw [← hdesc]; exact hread)
    have hdirect' : Direct i (modLed i nextEntry y) := hdirect.congr (hstatus.scribe.trans hkeeps.scribe)
    have hlists := Output.writeLists hdirect' dom nd (nextEntry r')
    rw [hno]
    exact ⟨_, _, hlists.ledger.trans hledger, hbumped.trans hlists.processed, hstatus.words.trans hlists.words, rfl⟩
  · exact ⟨_, _, hledger, hbumped, hstatus.words, rfl⟩

/-- The end of the work of a lone instance. -/
theorem endLedger_lone {s : State} {i : Nat} {x : Inst} {g : Graph} {nd : Node} (h : Lone s i x g nd) (hflags : nd.flags = 0)
    (hprov : x.prov = false) (hst : x.st = .running) :
    Ended s (endLedger i s) x g ∧ (endLedger i s).ledger = { s.ledger with runs := tdel i s.ledger.runs } ∧
      SameWords s (endLedger i s) (inWindow 0x80000) ∧ (endLedger i s).scribe.work = [] := by
  have hlone : Lone { s with ledger.runs := tdel i s.ledger.runs } i x g nd := h.congr rfl rfl
  have halone := hlone.alone hflags hprov
  obtain ⟨hsched, hended⟩ := settle_endRun_lone hlone hflags hprov hst 0
  obtain ⟨-, -, hwork⟩ := finishInst_ends (halone.stopped 0)
  have hdone := hwork.trans hlone.1
  have hsettled : endLedger i s = finishInst i (stopped i 0 x { s with ledger.runs := tdel i s.ledger.runs }) := by
    rw [endLedger, endRun_alone halone hst]
    exact settle_enqueue (s := stopped i 0 x _) (w := .finish i) hlone.1 hdone
  refine ⟨hended, ?_, hsched.2.2, by rw [hsettled]; exact hdone⟩
  exact congrArg State.ledger hsched.1

/-- An operation that has begun ends: its instance is gone, and it is counted under the next serial (R324, R339). -/
theorem Begun.ends {s u w : State} {i : Nat} {x : Inst} {g : Graph} {nd : Node} {r : LedRun} (hu : Begun s u i x g nd) (hflags : nd.flags = 0)
    (hprov : x.prov = false) (hw : Processed u w) (hruns : w.ledger.runs = [(i, r)]) :
    LedgerEnds s (endLedger i w) x g ∧ (endLedger i w).ledger = { w.ledger with runs := [] } ∧
      SameWords w (endLedger i w) (inWindow 0x80000) ∧ (endLedger i w).scribe.work = [] := by
  obtain ⟨⟨hinsts, hgraphs, hpegs⟩, hledger, hwords, hidle⟩ := endLedger_lone (hu.lone.congr hw.scribe hw.mb) hflags hprov rfl
  rw [hruns, tdel_single] at hledger
  refine ⟨⟨⟨hinsts, hgraphs, ?_⟩, ?_, ?_, ?_⟩, hledger, hwords, hidle⟩
  · rw [hpegs, hw.scribe, hu.pegs]
  · rw [hledger]
  · rw [hledger]
    exact hw.serial.trans (by rw [hu.ledger])
  · rw [hwords.rd rfl, hw.words.rd rfl, hu.counted]

theorem Entered.output {i : Nat} {r : LedRun} {u v w : State} (h : Entered i r u w) (k : Output w v) : Entered i r u v := by
  obtain ⟨hkeeps, r', hruns, hdesc, hnext, hclear⟩ := h
  have hpages : v.ledger.pages = w.ledger.pages := congrArg _ k.ledger
  exact ⟨hkeeps.trans k.processed, r', (congrArg _ k.ledger).trans hruns, hdesc, hnext, fun h4 =>
    (recomputing_congr hpages r').trans (hclear h4)⟩

theorem OpEnds.of_output {w v t : State} (h : OpEnds v t) (k : Output w v) : OpEnds w t :=
  ⟨h.ledger.trans (by rw [k.ledger]), (k.words.mono fun a ha => by rw [ha, Bool.true_or]).trans h.words⟩

/-- An operation with one entry ends once the entry has been processed, and it is counted under the next serial. -/
theorem completes_of_entry {instr : Instr} {op i : Nat} {s : State} {x : Inst} {g : Graph} {nd : Node} {P : State → Prop}
    (hexec : exec instr s = .next (ledgerRow op i [] [] s)) (hop : op ≠ 7) (hz : instOf s i = some (x, g, nd))
    (h : LedgerBegins s op i x g nd) (hpins : op = 4 → s.ledger.pins = [])
    (hentry : ∀ u, Begun s u i x g nd → (op = 4 → u.ledger.pins = [⟨i, x.graph, x.node, []⟩]) →
      ∃ st w v, ledgerEntry i g.domain nd (opRun s nd) false 0 u = .done st v ∧ Output w v ∧ Entered i (opRun s nd) u w ∧ ∀ t, OpEnds w t → P t) :
    Completes instr s (fun t => LedgerEnds s t x g ∧ P t) := by
  obtain ⟨u, hu, hpinned, hrow⟩ := ledgerRow_begins hz h hpins
  obtain ⟨⟨-, -, -, hflags, hprov, -⟩, -, -, -, -, -, hone⟩ := h
  obtain ⟨st, v', v, hdone, hput, hentered', hP⟩ := hentry u hu hpinned
  have hentered := hentered'.output hput
  have hdirect : Direct i u := hu.lone.direct hprov
  have hfound : runLed u i = some (opRun s nd) := by
    rw [runLed, hu.ledger]
    exact tget_eq_some_of_single _ _
  have hentries : loEntries u g.domain nd (opRun s nd).desc = 1 := (loEntries_congr hu.input.tensors _ _ _).trans (hone.resolve_left hop)
  obtain ⟨r', w, hledger, hw, hwords, hwork⟩ := ledgerWork_one hfound rfl hentries hdirect hdone hentered
  obtain ⟨hdone, hended, hkept, hidle⟩ := hu.ends hflags hprov (hentered.keeps.trans hw) (congrArg LedSt.runs hledger)
  have hends : OpEnds v (endLedger i w) := ⟨hended.trans (by rw [hledger]),
    (hwords.mono fun a ha => by rw [ha, Bool.true_or]).trans (hkept.mono fun a ha => by rw [ha, Bool.or_true])⟩
  refine ⟨endLedger i w, ?_, hdone, hP _ (hends.of_output hput)⟩
  rw [hexec, hrow, opWorks, if_neg hop, hentries, hwork, settle_idle hidle]

end Sys2Proof.Machine
end

section
/-! PROOF. OPEN, FORK and CLOSE of the Ledger (R322, R323, R326): what an operation that has begun sees, and its changes of pages and sequences. -/

namespace Sys2Proof.Machine
open Sys2Proof

/-! ### What an operation that has begun sees (R326, R336) -/

/-- In `t` the tables of the Ledger that instance `i` sees are those of `s`: it has logged nothing, and no sequence is held. -/
structure Sees (i : Nat) (s t : State) : Prop where
  log : ∀ y, tget i t.scribe.insts = some y → y.ledgerLog = []
  held : t.ledger.held = []
  seqs : t.ledger.seqs = s.ledger.seqs
  pages : t.ledger.pages = s.ledger.pages
  caches : t.ledger.caches = s.ledger.caches

section
variable {i : Nat} {s t : State} (h : Sees i s t)
include h

theorem Sees.seqSeen (q : Nat) : seqSeen t i q = tget q s.ledger.seqs := by
  rw [Machine.seqSeen, h.seqs]
  split
  · rfl
  · rename_i y hy
    rw [h.log y hy, List.foldl_nil]

theorem Sees.refSeen (p : Nat) : refSeen t i p = (pageOf s p).refcount := by
  rw [Machine.refSeen, pageOf_congr h.pages]
  split
  · rfl
  · rename_i y hy
    rw [h.log y hy, List.foldl_nil]

theorem Sees.heldByOther (q : Nat) : heldByOther t i q = false := by rw [Machine.heldByOther, h.held, tget_nil]

theorem Sees.cacheDesc (c : Nat) : cacheDesc t c = cacheDesc s c := by rw [Machine.cacheDesc, h.caches, Machine.cacheDesc]

theorem Sees.liveSeq {c q : Nat} {e : Seq} (he : tget q s.ledger.seqs = some e) (hcache : e.cache = c) (hfault : e.faulted = false)
    (hq : q < 16384) : liveSeq t i c q = .inl e := by
  rw [Machine.liveSeq, h.seqSeen, he]
  simp [hcache, hfault, Nat.not_le.2 hq]

theorem Sees.freeSeq : (List.range 16384).find? (fun q => (Machine.seqSeen t i q).isNone && (tget q t.ledger.seqs).isNone &&
    !Machine.heldByOther t i q) = (List.range 16384).find? (fun q => (tget q s.ledger.seqs).isNone) := by
  simp only [h.seqSeen, h.seqs, h.heldByOther, Bool.and_self, Bool.not_false, Bool.and_true]

end

section
variable {op i : Nat} {s u : State} {x : Inst} {g : Graph} {nd : Node}

theorem Begun.direct (hu : Begun s u i x g nd) (h : LedgerBegins s op i x g nd) : Direct i u := by
  obtain ⟨⟨-, -, -, -, hprov, -⟩, -⟩ := h
  exact hu.lone.direct hprov

theorem Begun.sees (hu : Begun s u i x g nd) (h : LedgerBegins s op i x g nd) : Sees i s u := by
  obtain ⟨-, hlog, -, hheld, -⟩ := h
  obtain ⟨-, hinsts, -⟩ := hu.lone
  refine ⟨fun y hy => ?_, ?_, ?_, ?_, ?_⟩
  · rw [hinsts, tget_eq_some_of_single] at hy
    exact Option.some.inj hy ▸ hlog
  · rw [hu.ledger]; exact hheld
  all_goals rw [hu.ledger]

theorem Begun.word (hu : Begun s u i x g nd) (ix : List Nat) :
    loWord u g.domain (loGet u g.domain nd (opRun s nd).desc 0) ix = ledgerWord s g nd ix := hu.input.ledgerWord g nd ix

theorem Begun.runs (hu : Begun s u i x g nd) : u.ledger.runs = [(i, opRun s nd)] := by rw [hu.ledger]

end

/-- An entry of an operation other than READ has been processed. -/
theorem Entered.of_run {i : Nat} {r r' : LedRun} {u v : State} (h : Processed u v) (hruns : v.ledger.runs = [(i, r')]) (hdesc : r'.desc = r.desc)
    (hnext : r'.next = r.next) {op : Nat} (hop : loOp r.desc = op) (hread : op ≠ 4) : Entered i r u v :=
  ⟨h, r', hruns, hdesc, hnext, fun h4 => absurd (hop.symm.trans h4) hread⟩

/-! ### Pages and sequences (R322, R323, R326) -/

/-- From `s` to `t` nothing changes but page records and look-aside buffers. -/
def Paged (s t : State) : Prop := t = { s with ledger.pages := t.ledger.pages, ledger.lab := t.ledger.lab }

theorem Paged.refl (s : State) : Paged s s := rfl

theorem Paged.trans {s t u : State} (h : Paged s t) (k : Paged t u) : Paged s u := by rw [Paged, k, h]

theorem Paged.foldl {β : Type} {f : State → β → State} (h : ∀ s b, Paged s (f s b)) (l : List β) (s : State) : Paged s (l.foldl f s) := by
  induction l generalizing s with
  | nil => exact Paged.refl s
  | cons b r ih => exact (h s b).trans (ih _)

theorem Paged.ite {p : Prop} [Decidable p] {s a b : State} (ha : Paged s a) (hb : Paged s b) : Paged s (if p then a else b) := by
  split
  · exact ha
  · exact hb

theorem Paged.putPage (p : Nat) (x : Page) (s : State) : Paged s (putPage p x s) := rfl

theorem Paged.modPage (p : Nat) (f : Page → Page) (s : State) : Paged s (modPage p f s) := rfl

theorem Paged.labDropPage (p : Nat) (s : State) : Paged s (labDropPage p s) := rfl

theorem Paged.dropRefNow (p : Nat) (s : State) : Paged s (dropRefNow p s) := by
  unfold Machine.dropRefNow
  refine Paged.ite (Paged.putPage _ _ s) ?_
  split
  · exact Paged.ite ((Paged.putPage _ _ s).trans (Paged.modPage _ _ _))
      (((Paged.putPage _ _ s).trans (Paged.putPage _ _ _)).trans (Paged.labDropPage _ _))
  · exact (Paged.putPage _ _ s).trans (Paged.modPage _ _ _)
  · exact (Paged.putPage _ _ s).trans (Paged.putPage _ _ _)
  · exact Paged.putPage _ _ s

theorem Paged.processed {s t : State} (h : Paged s t) : Processed s t := by
  rw [h]
  exact Processed.ledger rfl

theorem pageOf_putPage_same (p : Nat) (x : Page) (s : State) : pageOf (putPage p x s) p = x := by simp [pageOf, putPage, tgetD]

theorem pageOf_modPage_same (p : Nat) (f : Page → Page) (s : State) : pageOf (modPage p f s) p = f (pageOf s p) := pageOf_putPage_same _ _ _

/-- The last reference to a page that no READ has pinned frees the page (R323). -/
theorem pageOf_dropRefNow_last {s : State} {p : Nat} (href : (pageOf s p).refcount = 1) (hpins : (pageOf s p).pins = 0)
    (hstate : (pageOf s p).state = .resident) : pageOf (dropRefNow p s) p = { gen := (pageOf s p).gen } := by
  simp [dropRefNow, href, hpins, hstate, freePage, pageOf_modPage_same, pageOf_putPage_same]

section
variable (i q : Nat) (e : Option Seq) (s : State)

theorem setSeq_pages : (setSeq i q false e s).ledger.pages = s.ledger.pages := by cases e <;> rfl

theorem setSeq_runs : (setSeq i q false e s).ledger.runs = s.ledger.runs := by cases e <;> rfl

theorem setSeq_some_seqs (e : Seq) : (setSeq i q false (some e) s).ledger.seqs = tput q e s.ledger.seqs := rfl

theorem setSeq_none_seqs : (setSeq i q false none s).ledger.seqs = tdel q s.ledger.seqs := rfl

theorem Processed.setSeq : Processed s (setSeq i q false e s) := by cases e <;> exact ⟨rfl, rfl, rfl, rfl, SameWords.of_regs rfl⟩

end

/-! ### OPEN, FORK and CLOSE (R326) -/

section
variable {i dom k : Nat} {nd : Node} {r : LedRun} {prov : Bool} {s : State}

theorem ledgerEntry_open (h : loOp r.desc = 1) : ledgerEntry i dom nd r prov k s = entryOpen i dom nd r prov k s := by
  simp only [ledgerEntry, h]

theorem ledgerEntry_fork (h : loOp r.desc = 2) : ledgerEntry i dom nd r prov k s = entryFork i dom nd r prov k s := by
  simp only [ledgerEntry, h]

theorem ledgerEntry_append (h : loOp r.desc = 3) : ledgerEntry i dom nd r prov k s = entryAppend i dom nd r prov k s := by
  simp only [ledgerEntry, h]

theorem ledgerEntry_read (h : loOp r.desc = 4) : ledgerEntry i dom nd r prov k s = entryRead i dom nd r prov k s := by
  simp only [ledgerEntry, h]

theorem ledgerEntry_close (h : loOp r.desc = 5) : ledgerEntry i dom nd r prov k s = entryClose i dom nd r prov k s := by
  simp only [ledgerEntry, h]

theorem ledgerEntry_refill (h : loOp r.desc = 6) : ledgerEntry i dom nd r prov k s = entryRefill i dom nd r prov k s := by
  simp only [ledgerEntry, h]

end

section
variable {i : Nat} {s u : State}

/-- The entry of a new sequence. -/
def seqOpened (r : LedRun) : Seq := { cache := loCache r.desc, droppable := bit (fieldU r.desc 3 1) 1 }

theorem entryOpen_free (h : Sees i s u) {q : Nat} (hfree : (List.range 16384).find? (fun q => (tget q s.ledger.seqs).isNone) = some q)
    (dom : Nat) (nd : Node) (r : LedRun) (k : Nat) : entryOpen i dom nd r false k u = .done 0 (loPut i dom
      (loGet (setSeq i q false (some (seqOpened r)) u) dom nd r.desc 1) [k] q (setSeq i q false (some (seqOpened r)) u)) := by
  unfold entryOpen seqOpened
  rw [h.freeSeq, hfree]

/-- A page of the parent gains a reference, and is droppable only if the parent is (R326). -/
def forkPage (i : Nat) (droppable : Bool) (s : State) (p : Nat × Nat) : State :=
  if droppable then addRef i p.2 false s else modPage p.2 (fun x => { x with droppable := false }) (addRef i p.2 false s)

theorem Paged.forkPage (i : Nat) (droppable : Bool) (s : State) (p : Nat × Nat) : Paged s (forkPage i droppable s p) :=
  have hadded : Paged s (addRef i p.2 false s) := Paged.modPage p.2 (fun x => { x with refcount := x.refcount + 1 }) s
  Paged.ite hadded (hadded.trans (Paged.modPage _ _ _))

theorem pageOf_forkPage (i : Nat) (droppable : Bool) (s : State) (p : Nat × Nat) : pageOf (forkPage i droppable s p) p.2 =
    { pageOf s p.2 with refcount := (pageOf s p.2).refcount + 1, droppable := (pageOf s p.2).droppable && droppable } := by
  have hadded : pageOf (addRef i p.2 false s) p.2 = { pageOf s p.2 with refcount := (pageOf s p.2).refcount + 1 } :=
    pageOf_modPage_same p.2 (fun x => { x with refcount := x.refcount + 1 }) s
  cases droppable with
  | true => rw [forkPage, if_pos rfl, hadded, Bool.and_true]
  | false => rw [forkPage, if_neg (by decide), pageOf_modPage_same, hadded, Bool.and_false]

/-- The child of a FORK has the parent's entry, and every page of it has gained a reference. -/
def seqForked (i child : Nat) (e : Seq) (s : State) : State := setSeq i child false (some e) (e.list.foldl (forkPage i e.droppable) s)

theorem entryFork_free (h : Sees i s u) {dom : Nat} {nd : Node} {r : LedRun} {k q child : Nat} {e : Seq}
    (hword : loWord u dom (loGet u dom nd r.desc 0) [k] = q) (he : tget q s.ledger.seqs = some e) (hcache : e.cache = loCache r.desc)
    (hfault : e.faulted = false) (hq : q < 16384)
    (hfree : (List.range 16384).find? (fun q => (tget q s.ledger.seqs).isNone) = some child) :
    entryFork i dom nd r false k u = .done 0 (loPut i dom (loGet (seqForked i child e u) dom nd r.desc 1) [k] child (seqForked i child e u)) := by
  rw [entryFork]
  dsimp only
  rw [hword, h.heldByOther, if_neg (by decide), h.liveSeq he hcache hfault hq]
  dsimp only
  rw [h.freeSeq, hfree]
  rfl

/-- A page loses a reference at a CLOSE, unless its record has faulted (R326, R338). -/
def closePage (s : State) (p : Nat × Nat) : State := if s.ledger.badPages.contains p.2 then s else dropRefNow p.2 s

theorem Paged.closePage (s : State) (p : Nat × Nat) : Paged s (closePage s p) := Paged.ite (Paged.refl s) (Paged.dropRefNow _ s)

/-- The number of a closed sequence is free, and each of its pages has lost a reference. -/
def seqClosed (i q : Nat) (e : Seq) (s : State) : State := setSeq i q false none (e.list.foldl closePage s)

theorem entryClose_live (h : Sees i s u) {dom : Nat} {nd : Node} {r : LedRun} {k q : Nat} {e : Seq}
    (hword : loWord u dom (loGet u dom nd r.desc 0) [k] = q) (he : tget q s.ledger.seqs = some e) (hcache : e.cache = loCache r.desc)
    (hq : q < 16384) : entryClose i dom nd r false k u = .done 0 (seqClosed i q e u) := by
  have hmine : ¬ (e.cache ≠ loCache r.desc ∨ 16384 ≤ q) := by simp [hcache, hq]
  rw [entryClose]
  dsimp only
  rw [hword, h.heldByOther, if_neg (by decide), h.seqSeen, he]
  dsimp only
  rw [if_neg hmine]
  rfl

end

section
variable {i : Nat} {s : State} {x : Inst} {g : Graph} {nd : Node} {q : Nat} {e : Seq}

/-- OPEN of one sequence gives it the lowest free number. -/
theorem completes_ledgerOpen (hz : instOf s i = some (x, g, nd)) (h : LedgerBegins s 1 i x g nd)
    (hfree : (List.range 16384).find? (fun q => (tget q s.ledger.seqs).isNone) = some q) :
    Completes (.ledgerOpen i [] []) s (fun t => LedgerEnds s t x g ∧
      t.ledger.seqs = tput q (seqOpened (opRun s nd)) s.ledger.seqs ∧ t.ledger.pages = s.ledger.pages) := by
  refine completes_of_entry rfl (by decide) hz h (fun h4 => absurd h4 (by decide)) fun u hu _ => ?_
  have hsees := hu.sees h
  have hdirect := hu.direct h
  obtain ⟨-, -, -, -, -, hop, -⟩ := h
  have hset := Processed.setSeq i q (some (seqOpened (opRun s nd))) u
  refine ⟨_, _, _, (ledgerEntry_open hop).trans (entryOpen_free hsees hfree ..), Output.loPut (hdirect.congr hset.scribe) _ _ _ _,
    Entered.of_run hset ((setSeq_runs ..).trans hu.runs) rfl rfl hop (by decide), fun t ht => ⟨?_, ?_⟩⟩
  · rw [ht.ledger, setSeq_some_seqs, hsees.seqs]
  · rw [ht.ledger]
    exact (setSeq_pages ..).trans hsees.pages

/-- FORK of one sequence gives the lowest free number to a copy of the parent. -/
theorem completes_ledgerFork (hz : instOf s i = some (x, g, nd)) (h : LedgerBegins s 2 i x g nd)
    (he : tget (ledgerWord s g nd [0]) s.ledger.seqs = some e) (hcache : e.cache = loCache (readBytes s nd.plan 128)) (hfault : e.faulted = false)
    (hword : ledgerWord s g nd [0] < 16384)
    (hfree : (List.range 16384).find? (fun q => (tget q s.ledger.seqs).isNone) = some q) :
    Completes (.ledgerFork i [] []) s (fun t => LedgerEnds s t x g ∧ t.ledger.seqs = tput q e s.ledger.seqs ∧
      ∀ p, e.list = [p] → (pageOf t p.2).refcount = (pageOf s p.2).refcount + 1 ∧
        (pageOf t p.2).droppable = ((pageOf s p.2).droppable && e.droppable)) := by
  refine completes_of_entry rfl (by decide) hz h (fun h4 => absurd h4 (by decide)) fun u hu _ => ?_
  have hsees := hu.sees h
  have hdirect := hu.direct h
  obtain ⟨-, -, -, -, -, hop, -⟩ := h
  have hpaged : Paged u (e.list.foldl (forkPage i e.droppable) u) := Paged.foldl (Paged.forkPage i e.droppable) _ _
  have hforked : Processed u (seqForked i q e u) := hpaged.processed.trans (Processed.setSeq _ _ _ _)
  refine ⟨_, _, _, (ledgerEntry_fork hop).trans (entryFork_free hsees (hu.word _) he hcache hfault hword hfree),
    Output.loPut (hdirect.congr hforked.scribe) _ _ _ _, Entered.of_run hforked ?_ rfl rfl hop (by decide),
    fun t ht => ⟨?_, fun p hp => ?_⟩⟩
  · rw [seqForked, setSeq_runs, hpaged]
    exact hu.runs
  · rw [ht.ledger, seqForked, setSeq_some_seqs, hpaged]
    exact congrArg _ hsees.seqs
  · have hpages : t.ledger.pages = (e.list.foldl (forkPage i e.droppable) u).ledger.pages := by
      rw [ht.ledger]
      exact setSeq_pages ..
    rw [pageOf_congr hpages, hp, List.foldl_cons, List.foldl_nil, pageOf_forkPage, pageOf_congr hsees.pages]
    exact ⟨rfl, rfl⟩

/-- CLOSE of one sequence frees its number. -/
theorem completes_ledgerClose (hz : instOf s i = some (x, g, nd)) (h : LedgerBegins s 5 i x g nd)
    (he : tget (ledgerWord s g nd [0]) s.ledger.seqs = some e) (hcache : e.cache = loCache (readBytes s nd.plan 128))
    (hword : ledgerWord s g nd [0] < 16384) (hbad : s.ledger.badPages = []) :
    Completes (.ledgerClose i [] []) s (fun t => LedgerEnds s t x g ∧ t.ledger.seqs = tdel (ledgerWord s g nd [0]) s.ledger.seqs ∧
      ∀ p, e.list = [p] → (pageOf s p.2).refcount = 1 → (pageOf s p.2).pins = 0 → (pageOf s p.2).state = .resident →
        pageOf t p.2 = { gen := (pageOf s p.2).gen }) := by
  refine completes_of_entry rfl (by decide) hz h (fun h4 => absurd h4 (by decide)) fun u hu _ => ?_
  have hsees := hu.sees h
  obtain ⟨-, -, -, -, -, hop, -⟩ := h
  have hpaged : Paged u (e.list.foldl closePage u) := Paged.foldl Paged.closePage _ _
  have hclosed : Processed u (seqClosed i (ledgerWord s g nd [0]) e u) := hpaged.processed.trans (Processed.setSeq _ _ _ _)
  refine ⟨_, _, _, (ledgerEntry_close hop).trans (entryClose_live hsees (hu.word _) he hcache hword),
    Output.refl _, Entered.of_run hclosed ?_ rfl rfl hop (by decide), fun t ht => ⟨?_, fun p hp href hpins hstate => ?_⟩⟩
  · rw [seqClosed, setSeq_runs, hpaged]
    exact hu.runs
  · rw [ht.ledger, seqClosed, setSeq_none_seqs, hpaged]
    exact congrArg _ hsees.seqs
  · have hpages : t.ledger.pages = (e.list.foldl closePage u).ledger.pages := by
      rw [ht.ledger]
      exact setSeq_pages ..
    have hgood : u.ledger.badPages = [] := by rw [hu.ledger]; exact hbad
    have hpage := pageOf_congr hsees.pages p.2
    rw [pageOf_congr hpages, hp, List.foldl_cons, List.foldl_nil, closePage, hgood, List.contains_nil, if_neg (by decide), ← hpage]
    rw [← hpage] at href hpins hstate
    exact pageOf_dropRefNow_last href hpins hstate

end

end Sys2Proof.Machine
end

section
/-! PROOF. APPEND and REFILL of the Ledger (R327, R335). -/

namespace Sys2Proof.Machine
open Sys2Proof

/-! ### APPEND (R327) -/

/-- A sequence after one more token, on page `p` (R321, R327). -/
def tokenAdded (e : Seq) (p : Nat) : Seq := { e with len := e.len + 1, list := tput (e.len / 64) p e.list }

/-- The page that takes the token: its fill, its tag and the oldest time of its tokens (R327). -/
def pageFilled (p tOld : Nat) (r : LedRun) (e : Seq) (s : State) : State :=
  modPage p (fun x => { x with fill := e.len % 64 + 1, tagLast := loTag r.desc, tOld := min x.tOld tOld }) s

section
variable {i dom q p tOld : Nat} {s u : State} {nd : Node} {r : LedRun} {e : Seq}

/-- A token within a page that no other sequence shares goes into that page. -/
theorem appendToken_within (h : Sees i s u) (hwithin : e.len % 64 ≠ 0) (hwindow : cdWindow (cacheDesc s (loCache r.desc)) = false)
    (hroom : e.len / 64 < cdMaxPages (cacheDesc s (loCache r.desc))) (hpage : tget (e.len / 64) e.list = some p)
    (href : (pageOf s p).refcount = 1) :
    ∃ w, appendToken i dom r false q tOld e u = .inl (w, tokenAdded e p, pageFilled p tOld r e u) := by
  have hpos : listPos (cacheDesc s (loCache r.desc)) (e.len / 64) = e.len / 64 := by simp [listPos, hwindow]
  have hroomy : ¬ (!cdWindow (cacheDesc s (loCache r.desc)) && decide (cdMaxPages (cacheDesc s (loCache r.desc)) ≤ e.len / 64)) = true := by
    simp [Nat.not_le.2 hroom]
  unfold appendToken
  dsimp only
  rw [h.cacheDesc, if_neg hroomy, if_neg hwithin, hpos, hpage]
  dsimp only
  rw [h.refSeen, href, if_pos (Nat.le_refl 1)]
  exact ⟨_, rfl⟩

/-- What the entry of an APPEND of one such token leaves, before its output is written: `n` is the count of output entries. -/
def seqAppended (i q n p tOld : Nat) (r : LedRun) (e : Seq) (s : State) : State :=
  setSeq i q false (some (tokenAdded e p)) (pageFilled p tOld r e (modLed i (fun r => { r with out := r.out + n }) s))

theorem Processed.seqAppended (i q n p tOld : Nat) (r : LedRun) (e : Seq) (s : State) : Processed s (seqAppended i q n p tOld r e s) :=
  ((Processed.modLed i _ s).trans (Paged.modPage p _ _).processed).trans (Processed.setSeq i q _ _)

theorem seqAppended_seqs (i q n p tOld : Nat) (r : LedRun) (e : Seq) (s : State) :
    (seqAppended i q n p tOld r e s).ledger.seqs = tput q (tokenAdded e p) s.ledger.seqs := rfl

theorem seqAppended_runs (i q n p tOld : Nat) (r : LedRun) (e : Seq) (s : State) :
    (seqAppended i q n p tOld r e s).ledger.runs = tmod i (fun r => { r with out := r.out + n }) s.ledger.runs := rfl

theorem pageOf_seqAppended (i q n p tOld : Nat) (r : LedRun) (e : Seq) (s : State) : pageOf (seqAppended i q n p tOld r e s) p =
    { pageOf s p with fill := e.len % 64 + 1, tagLast := loTag r.desc, tOld := min (pageOf s p).tOld tOld } :=
  pageOf_modPage_same p (fun x => { x with fill := e.len % 64 + 1, tagLast := loTag r.desc, tOld := min x.tOld tOld }) _

theorem Sees.modLed (h : Sees i s u) (f : LedRun → LedRun) : Sees i s (modLed i f u) := ⟨h.log, h.held, h.seqs, h.pages, h.caches⟩

/-- The last token of an entry extends its sequence, and its output is written. -/
theorem appendTokens_one {e' : Seq} {s s' : State} {w : Nat}
    (htoken : appendToken i dom r false q tOld e s = .inl (w, e', s')) (hdirect : Direct i s') (k out : Nat) :
    ∃ v, appendTokens i dom nd r false k q tOld 1 out e s = (0, e', v) ∧ Output (setSeq i q false (some e') s') v := by
  have hset : Direct i (setSeq i q false (some e') s') := hdirect
  rw [appendTokens, htoken]
  dsimp only
  rw [appendTokens]
  exact ⟨_, rfl, Output.andThen hset (Output.andThen hset (Output.loPut hset _ _ _ _) (Output.loPut · _ _ _ _)) (Output.loPut · _ _ _ _)⟩

theorem entryAppend_within (h : Sees i s u) (hdirect : Direct i u) (hcount : loCount u dom nd r.desc 0 = 1)
    (hword : loWord u dom (loGet u dom nd r.desc 0) [0, 0] = q) (he : tget q s.ledger.seqs = some e) (hcache : e.cache = loCache r.desc)
    (hfault : e.faulted = false) (hq : q < 16384) (hwithin : e.len % 64 ≠ 0) (hwindow : cdWindow (cacheDesc s (loCache r.desc)) = false)
    (hroom : e.len / 64 < cdMaxPages (cacheDesc s (loCache r.desc))) (hpage : tget (e.len / 64) e.list = some p)
    (href : (pageOf s p).refcount = 1) :
    ∃ tOld v, entryAppend i dom nd r false 0 u = .done 0 v ∧ Output (seqAppended i q 1 p tOld r e u) v := by
  let tOld := loWord u dom (loGet u dom nd r.desc 0) [0, 2] + 2 ^ 32 * loWord u dom (loGet u dom nd r.desc 0) [0, 3]
  obtain ⟨w, htoken⟩ := appendToken_within (dom := dom) (q := q) (tOld := tOld) (h.modLed (fun r => { r with out := r.out + 1 })) hwithin hwindow
    hroom hpage href
  obtain ⟨v, htokens, hput⟩ := appendTokens_one (nd := nd) htoken hdirect 0 r.out
  refine ⟨tOld, v, ?_, hput⟩
  rw [entryAppend]
  dsimp only
  rw [hword, h.heldByOther, if_neg (by decide), hcount, (h.modLed _).liveSeq he hcache hfault hq]
  dsimp only
  rw [htokens]
  rfl

end

section
variable {i : Nat} {s : State} {x : Inst} {g : Graph} {nd : Node} {e : Seq} {p : Nat}

/-- APPEND of one token into a page of its own extends the sequence and the page. -/
theorem completes_ledgerAppend (hz : instOf s i = some (x, g, nd)) (h : LedgerBegins s 3 i x g nd) (hone : ledgerWord s g nd [0, 1] = 1)
    (he : tget (ledgerWord s g nd [0, 0]) s.ledger.seqs = some e) (hcache : e.cache = loCache (readBytes s nd.plan 128)) (hfault : e.faulted = false)
    (hword : ledgerWord s g nd [0, 0] < 16384) (hwithin : e.len % 64 ≠ 0) (hwindow : cdWindow (cacheDesc s e.cache) = false)
    (hroom : e.len / 64 < cdMaxPages (cacheDesc s e.cache)) (hpage : tget (e.len / 64) e.list = some p) (href : (pageOf s p).refcount = 1) :
    Completes (.ledgerAppend i [] []) s (fun t => LedgerEnds s t x g ∧
      t.ledger.seqs = tput (ledgerWord s g nd [0, 0]) (tokenAdded e p) s.ledger.seqs ∧ (pageOf t p).fill = e.len % 64 + 1 ∧
      (pageOf t p).tagLast = loTag (readBytes s nd.plan 128) ∧ (pageOf t p).slot = (pageOf s p).slot ∧ (pageOf t p).refcount = 1) := by
  refine completes_of_entry rfl (by decide) hz h (fun h4 => absurd h4 (by decide)) fun u hu _ => ?_
  have hsees := hu.sees h
  have hdirect := hu.direct h
  obtain ⟨-, -, -, -, -, hop, -⟩ := h
  have hcount : loCount u g.domain nd (opRun s nd).desc 0 = 1 := by
    rw [loCount, hu.word, hone]
    decide
  rw [hcache] at hwindow hroom
  obtain ⟨tOld, v, hentry, hput⟩ := entryAppend_within hsees hdirect hcount (hu.word _) he hcache hfault hword hwithin hwindow hroom hpage href
  refine ⟨_, _, _, (ledgerEntry_append hop).trans hentry, hput, Entered.of_run (Processed.seqAppended ..)
    ((seqAppended_runs ..).trans ((congrArg _ hu.runs).trans (if_pos rfl))) rfl rfl hop (by decide), fun t ht => ⟨?_, ?_⟩⟩
  · rw [ht.ledger, seqAppended_seqs, hsees.seqs]
  · have hfilled : pageOf t p = _ := (pageOf_congr (by rw [ht.ledger]) p).trans (pageOf_seqAppended _ _ _ p tOld _ e u)
    rw [hfilled, pageOf_congr hsees.pages]
    exact ⟨rfl, rfl, rfl, href⟩

end

/-! ### REFILL (R335) -/

section
variable {i dom p gen : Nat} {s u : State} {nd : Node} {r : LedRun}

/-- A page that was being recomputed is RESIDENT again, and counted (R335). -/
def pageRefilled (p : Nat) (s : State) : State := labDropPage p (putPage p { pageOf s p with state := .resident } (inc LEDGER_REFILLS s))

theorem entryRefill_current (h : Sees i s u) (hpage : loWord u dom (loGet u dom nd r.desc 0) [0, 0] = p)
    (hgen : loWord u dom (loGet u dom nd r.desc 0) [0, 1] = (pageOf s p).gen) (hstate : (pageOf s p).state = .recomputing)
    (hcache : (pageOf s p).cache = loCache r.desc) (hpeg : cdPeg (cacheDesc s (loCache r.desc)) = 0xFFFF) :
    entryRefill i dom nd r false 0 u = .done 0 (pageRefilled p u) := by
  have hcurrent : ¬ ((pageOf s p).state ≠ .recomputing ∨ (pageOf s p).gen ≠ (pageOf s p).gen ∨ (pageOf s p).cache ≠ loCache r.desc) := by
    simp [hstate, hcache]
  have hunit : cdPeg (cacheDesc (pageRefilled p u) (pageOf u p).cache) = 0xFFFF := by
    rw [pageOf_congr h.pages, hcache, ← hpeg, ← h.cacheDesc]
    rfl
  rw [entryRefill]
  dsimp only
  rw [hpage, hgen, pageOf_congr h.pages, if_neg hcurrent, if_neg (by decide), ← pageOf_congr h.pages]
  change EntryOut.done 0 (if cdPeg (cacheDesc (pageRefilled p u) (pageOf u p).cache) = 0xFFFF then pageRefilled p u else _) = _
  rw [if_pos hunit]

theorem entryRefill_stale (h : Sees i s u) (hpage : loWord u dom (loGet u dom nd r.desc 0) [0, 0] = p)
    (hgen : loWord u dom (loGet u dom nd r.desc 0) [0, 1] ≠ (pageOf s p).gen) : entryRefill i dom nd r false 0 u = .done 0x1A18 u := by
  rw [entryRefill]
  dsimp only
  rw [hpage, pageOf_congr h.pages, if_pos (Or.inr (Or.inl hgen.symm))]

theorem Processed.pageRefilled (p : Nat) (s : State) : Processed s (pageRefilled p s) :=
  (Processed.wr (r := LEDGER_REFILLS) rfl _ s).trans ((Paged.putPage p _ _).trans (Paged.labDropPage p _)).processed

end

/-- REFILL of one page makes it RESIDENT at the right generation only. -/
theorem completes_ledgerRefill {i : Nat} {s : State} {x : Inst} {g : Graph} {nd : Node} {p : Nat} (hz : instOf s i = some (x, g, nd))
    (h : LedgerBegins s 6 i x g nd) (hp : ledgerWord s g nd [0, 0] = p) (hstate : (pageOf s p).state = .recomputing)
    (hcache : (pageOf s p).cache = loCache (readBytes s nd.plan 128)) (hpeg : cdPeg (cacheDesc s (loCache (readBytes s nd.plan 128))) = 0xFFFF) :
    Completes (.ledgerRefill i [] []) s (fun t => LedgerEnds s t x g ∧
      ((pageOf s p).gen = ledgerWord s g nd [0, 1] → t.ledger.pages = tput p { pageOf s p with state := .resident } s.ledger.pages ∧
        rd t LEDGER_REFILLS = min 0xFFFFFFFF (rd s LEDGER_REFILLS + 1)) ∧
      ((pageOf s p).gen ≠ ledgerWord s g nd [0, 1] → t.ledger.pages = s.ledger.pages ∧ rd t LEDGER_REFILLS = rd s LEDGER_REFILLS)) := by
  refine completes_of_entry rfl (by decide) hz h (fun h4 => absurd h4 (by decide)) fun u hu _ => ?_
  have hsees := hu.sees h
  obtain ⟨-, -, -, -, -, hop, -⟩ := h
  have hcount : rd u LEDGER_REFILLS = rd s LEDGER_REFILLS := hu.words.rd rfl
  by_cases hgen : (pageOf s p).gen = ledgerWord s g nd [0, 1]
  · have hentry := entryRefill_current (i := i) hsees ((hu.word _).trans hp) ((hu.word _).trans hgen.symm) hstate hcache hpeg
    refine ⟨_, _, _, (ledgerEntry_refill hop).trans hentry, Output.refl _,
      Entered.of_run (Processed.pageRefilled p u) hu.runs rfl rfl hop (by decide), fun t ht => ⟨fun _ => ⟨?_, ?_⟩, fun hne => absurd hgen hne⟩⟩
    · rw [ht.ledger, ← hsees.pages, ← pageOf_congr hsees.pages]
      rfl
    · rw [ht.words.rd rfl, ← hcount]
      exact rd_inc (by decide) u
  · have hentry := entryRefill_stale (i := i) hsees ((hu.word _).trans hp) (fun hsame => hgen (hsame.symm.trans (hu.word _)))
    refine ⟨_, _, _, (ledgerEntry_refill hop).trans hentry, Output.refl _,
      Entered.of_run (Processed.refl u) hu.runs rfl rfl hop (by decide), fun t ht => ⟨fun heq => absurd heq hgen, fun _ => ⟨?_, ?_⟩⟩⟩
    · rw [ht.ledger]
      exact hsees.pages
    · rw [ht.words.rd rfl, hcount]

end Sys2Proof.Machine
end

section
/-! PROOF. READ of the Ledger (R329, R331, R332, R334): the walk of its list, and the page that it pins. -/

namespace Sys2Proof.Machine
open Sys2Proof

/-! ### READ (R329, R331, R332, R334) -/

/-- From `s` to `t` a walk of a list changes counts of hits and misses, and look-aside buffers. -/
structure Walked (s t : State) : Prop where
  keeps : Processed s t
  ledger : t.ledger = { s.ledger with lab := t.ledger.lab }

theorem Walked.refl (s : State) : Walked s s := ⟨Processed.refl s, rfl⟩

theorem Walked.trans {s t u : State} (h : Walked s t) (k : Walked t u) : Walked s u := by
  refine ⟨h.keeps.trans k.keeps, ?_⟩
  rw [k.ledger, h.ledger]

theorem Walked.foldl {β : Type} {f : State → β → State} {l : List β} (h : ∀ s, ∀ b ∈ l, Walked s (f s b)) (s : State) : Walked s (l.foldl f s) := by
  induction l generalizing s with
  | nil => exact Walked.refl s
  | cons b r ih => exact (h s b List.mem_cons_self).trans (ih (fun u c hc => h u c (List.mem_cons_of_mem b hc)) _)

/-- A Bay visits one leaf: a hit or a miss is counted, and the leaf is the most recent of its buffer (R332). -/
def walkLeaf (c q b : Nat) (s : State) (l : Nat) : State :=
  let buf := tgetD b [] s.ledger.lab
  let s := inc (if buf.contains (c, q, l) then LEDGER_LAB_HIT b else LEDGER_LAB_MISS b) s
  { s with ledger.lab := tput b (((c, q, l) :: buf.filter (· ≠ (c, q, l))).take 128) s.ledger.lab }

theorem inEntry_of_lab {a : Nat} (h : 0x90080 ≤ a) (hlast : a < 0x900A0) : inEntry a = true := by
  have hwindow : inWindow 0x90000 a = true := by
    simp only [inWindow, Bool.and_eq_true, decide_eq_true_eq]
    omega
  have hother : a ≠ 0x90030 := by omega
  rw [inEntry, hwindow, decide_eq_true (show a ≠ LEDGER_OPS.addr from hother), Bool.and_self, Bool.or_true]

theorem Walked.walkLeaf {b : Nat} (h : b < 4) (c q : Nat) (s : State) (l : Nat) : Walked s (walkLeaf c q b s l) := by
  refine ⟨(Processed.wr ?_ _ s).trans (Processed.ledger rfl), rfl⟩
  split
  · exact inEntry_of_lab (Nat.le_add_right _ _) (show 0x90080 + 0x8 * b < 0x900A0 by omega)
  · exact inEntry_of_lab (show 0x90080 ≤ 0x90084 + 0x8 * b by omega) (show 0x90084 + 0x8 * b < 0x900A0 by omega)

theorem Walked.walkLeaves (cd : List Byte) (c q : Nat) (leaves : List Nat) (s : State) : Walked s (walkLeaves cd c q leaves s) := by
  have hstep : ∀ (u : State), ∀ b ∈ (List.range 4).filter (bit (cdMask cd)), Walked u (leaves.foldl (Machine.walkLeaf c q b) u) := fun u b hb =>
    Walked.foldl (fun v l _ => Walked.walkLeaf (List.mem_range.1 ((List.mem_filter.1 hb).1)) c q v l) u
  exact Walked.foldl hstep s

/-- The other tables stay as they are. -/
theorem Walked.tables {s t : State} (h : Walked s t) : t.ledger.seqs = s.ledger.seqs ∧ t.ledger.runs = s.ledger.runs ∧
    t.ledger.pins = s.ledger.pins ∧ t.ledger.pages = s.ledger.pages := by
  refine ⟨?_, ?_, ?_, ?_⟩ <;> rw [h.ledger]

theorem Sees.walked {i : Nat} {s t u : State} (h : Sees i s t) (k : Walked t u) : Sees i s u := by
  refine ⟨fun y hy => h.log y (by rwa [k.keeps.scribe] at hy), ?_, ?_, ?_, ?_⟩
  · rw [k.ledger]; exact h.held
  · rw [k.ledger]; exact h.seqs
  · rw [k.ledger]; exact h.pages
  · rw [k.ledger]; exact h.caches

/-- A page with a slot that a READ lists: it has been read under the READ's serial and is pinned for it (R331, R334). -/
def pagePinned (i : Nat) (r : LedRun) (p : Nat) (s : State) : State :=
  let s := pinPage p (modPage p (fun x => { x with lastRead := r.serial }) s)
  { s with ledger.pins := s.ledger.pins.map (fun l => if l.inst = i then { l with pages := l.pages ++ [p] } else l) }

theorem listPage_held {i p : Nat} {r : LedRun} {s : State} (h : (pageOf s p).state ≠ .dropped) (prov : Bool) :
    listPage i r prov p s = pagePinned i r p s := by
  rw [listPage]
  dsimp only
  rw [if_pos h]
  rfl

theorem Processed.pagePinned (i : Nat) (r : LedRun) (p : Nat) (s : State) : Processed s (pagePinned i r p s) := Processed.ledger (s := s) rfl

theorem pageOf_pagePinned {i p : Nat} {r : LedRun} {s : State} (h : (pageOf s p).pins < 65535) :
    pageOf (pagePinned i r p s) p = { pageOf s p with pins := (pageOf s p).pins + 1, lastRead := r.serial } := by
  have hread : pageOf (modPage p (fun x => { x with lastRead := r.serial }) s) p = { pageOf s p with lastRead := r.serial } :=
    pageOf_modPage_same p (fun x => { x with lastRead := r.serial }) s
  have hpinned : pageOf (pagePinned i r p s) p = _ := pageOf_modPage_same p
    (fun x => if x.pins < 65535 then { x with pins := x.pins + 1 } else { x with pinsSat := true })
    (modPage p (fun x => { x with lastRead := r.serial }) s)
  rw [hpinned, hread, if_pos h]

/-- What a list that leaves anything out shows (R329). -/
def cutShown (cut : Bool) (c q : Nat) (s : State) : State :=
  if cut then raise 0x9005 (ledArg c q) (inc LEDGER_TRUNCATED (setMask LEDGER_STATUS 0x20 s)) else s

theorem Walked.cutShown (cut : Bool) (c q : Nat) (s : State) : Walked s (cutShown cut c q s) := by
  cases cut with
  | false => exact Walked.refl s
  | true =>
    have hcounted : Walked s (inc LEDGER_TRUNCATED (setMask LEDGER_STATUS 0x20 s)) :=
      ⟨(Processed.wr (r := LEDGER_STATUS) rfl _ s).trans (Processed.wr (r := LEDGER_TRUNCATED) rfl _ _), rfl⟩
    refine hcounted.trans ⟨Processed.raise _ _ _, ?_⟩
    rw [Machine.cutShown, if_pos rfl, raise_ledger]

/-- A list of one page that has its slot: the page is pinned, and none is asked for. -/
theorem listPages_held {i : Nat} {r : LedRun} {y : Nat × Nat × Nat × Nat} {s : State} (h : (pageOf s y.1).state = .resident) :
    ([y].filter (fun x => decide ((pageOf s x.1).state ≠ .dropped)) ++ [y].filter (fun x => decide ((pageOf s x.1).state = .dropped))).foldl
      (fun s x => listPage i r false x.1 s) s = pagePinned i r y.1 s := by
  have hheld : (pageOf s y.1).state ≠ .dropped := by rw [h]; decide
  simp [hheld, listPage_held hheld]

/-- What the entry of a READ with one page leaves: the list has been walked, its page pinned, and the list kept for the output. -/
def readKept (i p : Nat) (r : LedRun) (leaves : List Nat) (sq : Nat) (cut : Bool) (l : ReadList) (s : State) : State :=
  modLed i (fun r => { r with lists := r.lists ++ [l] }) (cutShown cut (loCache r.desc) sq
    (pagePinned i r p (walkLeaves (cacheDesc s (loCache r.desc)) (loCache r.desc) sq leaves s)))

/-- From `s` to `t`, READ `r` of instance `i` has made the list `l`, of page `p` alone, and has pinned that page under its serial. -/
structure Listed (i p : Nat) (r : LedRun) (l : ReadList) (s t : State) : Prop where
  keeps : Processed s t
  seqs : t.ledger.seqs = s.ledger.seqs
  runs : t.ledger.runs = tmod i (fun r => { r with lists := r.lists ++ [l] }) s.ledger.runs
  pins : t.ledger.pins = s.ledger.pins.map (fun l => if l.inst = i then { l with pages := l.pages ++ [p] } else l)
  page : pageOf t p = { pageOf s p with pins := (pageOf s p).pins + 1, lastRead := r.serial }

theorem Listed.readKept {i p : Nat} {r : LedRun} {s : State} (h : (pageOf s p).pins < 65535) (leaves : List Nat) (sq : Nat) (cut : Bool)
    (l : ReadList) : Listed i p r l s (readKept i p r leaves sq cut l s) := by
  have hwalk := Walked.walkLeaves (cacheDesc s (loCache r.desc)) (loCache r.desc) sq leaves s
  obtain ⟨hseqs, hruns, hpins, hpages⟩ := hwalk.tables
  have hpage := pageOf_congr hpages p
  unfold Machine.readKept
  generalize walkLeaves (cacheDesc s (loCache r.desc)) (loCache r.desc) sq leaves s = w at *
  have hcut := Walked.cutShown cut (loCache r.desc) sq (pagePinned i r p w)
  obtain ⟨hseqs', hruns', hpins', hpages'⟩ := hcut.tables
  refine ⟨(hwalk.keeps.trans (Processed.pagePinned i r p w)).trans (hcut.keeps.trans (Processed.modLed i _ _)), hseqs'.trans hseqs,
    congrArg (tmod i _) (hruns'.trans hruns), hpins'.trans (congrArg (List.map _) hpins), ?_⟩
  rw [← hpage] at h ⊢
  exact (pageOf_congr hpages' p).trans (pageOf_pagePinned h)

/-- A list of one page that is RESIDENT waits for no recompute. -/
theorem recomputing_resident {r : LedRun} {q st : Nat} {y : Nat × Nat × Nat × Nat} {s : State} (h : r.lists = [⟨q, [y], st⟩])
    (hstate : (pageOf s y.1).state = .resident) : recomputing s r = false := by
  simp [recomputing, h, hstate]

theorem entryRead_resident {i dom q back : Nat} {s u : State} {nd : Node} {r : LedRun} {e : Seq} {y : Nat × Nat × Nat × Nat} (h : Sees i s u)
    (hword : loWord u dom (loGet u dom nd r.desc 0) [0, 0] = q) (hback : loWord u dom (loGet u dom nd r.desc 0) [0, 1] = back)
    (he : tget q s.ledger.seqs = some e) (hcache : e.cache = loCache r.desc) (hfault : e.faulted = false) (hq : q < 16384) (hlen : back < e.len)
    (hlist : (readList (cacheDesc s (loCache r.desc)) r.desc e (e.len - 1 - back)).1 = [y]) (hstate : (pageOf s y.1).state = .resident)
    (hfew : (pageOf s y.1).pins < 65535) :
    ∃ st v, entryRead i dom nd r false 0 u = .done st v ∧ Listed i y.1 r ⟨e.len - 1 - back, [y], st⟩ u v := by
  unfold entryRead
  dsimp only
  rw [hword, hback, h.heldByOther, if_neg (by decide), h.liveSeq he hcache hfault hq]
  dsimp only
  rw [if_neg (Nat.not_le.2 hlen), h.cacheDesc]
  generalize hread : readList (cacheDesc s (loCache r.desc)) r.desc e (e.len - 1 - back) = found at hlist ⊢
  obtain ⟨es, cut⟩ := found
  cases hlist
  dsimp only
  generalize ([y].map (fun x => listPos (cacheDesc s (loCache r.desc)) (x.2.2.2 / 64) / 64)).eraseDups = leaves
  have hwalked := h.walked (Walked.walkLeaves (cacheDesc s (loCache r.desc)) (loCache r.desc) q leaves u)
  refine ⟨if cut then 0x1A16 else 0, _, ?_, Listed.readKept (by rwa [pageOf_congr h.pages]) leaves q cut _⟩
  rw [listPages_held ((congrArg Page.state (pageOf_congr hwalked.pages y.1)).trans hstate), readKept, h.cacheDesc]
  rfl

/-- A READ of one page that is RESIDENT pins that page, and waits for nothing. -/
theorem completes_ledgerRead {i : Nat} {s : State} {x : Inst} {g : Graph} {nd : Node} {e : Seq} {y : Nat × Nat × Nat × Nat}
    (hz : instOf s i = some (x, g, nd)) (h : LedgerBegins s 4 i x g nd) (he : tget (ledgerWord s g nd [0, 0]) s.ledger.seqs = some e)
    (hcache : e.cache = loCache (readBytes s nd.plan 128)) (hfault : e.faulted = false) (hword : ledgerWord s g nd [0, 0] < 16384)
    (hpins : s.ledger.pins = []) (hlen : ledgerWord s g nd [0, 1] < e.len)
    (hlist : (readList (cacheDesc s e.cache) (readBytes s nd.plan 128) e (e.len - 1 - ledgerWord s g nd [0, 1])).1 = [y])
    (hstate : (pageOf s y.1).state = .resident) (hfew : (pageOf s y.1).pins < 65535) :
    Completes (.ledgerRead i [] []) s (fun t => LedgerEnds s t x g ∧ t.ledger.seqs = s.ledger.seqs ∧
      pageOf t y.1 = { pageOf s y.1 with pins := (pageOf s y.1).pins + 1, lastRead := (s.ledger.serial + 1) % 2 ^ 32 } ∧
      t.ledger.pins = [⟨i, x.graph, x.node, [y.1]⟩]) := by
  refine completes_of_entry rfl (by decide) hz h (fun _ => hpins) fun u hu hmine => ?_
  have hsees := hu.sees h
  obtain ⟨-, -, -, -, -, hop, -⟩ := h
  rw [hcache] at hlist
  obtain ⟨st, v, hentry, hlisted⟩ := entryRead_resident hsees (hu.word _) (hu.word _) he hcache hfault hword hlen hlist hstate hfew
  obtain ⟨hkeeps, hseqs, hruns, hpinned, hkept⟩ := hlisted
  rw [pageOf_congr hsees.pages] at hkept
  rw [hu.runs] at hruns
  rw [hmine rfl] at hpinned
  have hclear := recomputing_resident (r := { opRun s nd with lists := [⟨e.len - 1 - ledgerWord s g nd [0, 1], [y], st⟩] }) rfl
    ((congrArg Page.state hkept).trans hstate)
  refine ⟨_, _, _, (ledgerEntry_read hop).trans hentry, Output.refl _, ⟨hkeeps, _, hruns.trans (if_pos rfl), rfl, rfl, fun _ => hclear⟩,
    fun t ht => ⟨?_, ?_, ?_⟩⟩
  · rw [ht.ledger]
    exact hseqs.trans hsees.seqs
  · exact (pageOf_congr (s := v) (by rw [ht.ledger]) _).trans hkept
  · rw [ht.ledger]
    exact hpinned.trans (by simp)

end Sys2Proof.Machine
end

section
/-! PROOF. COLLECTIVE, what waits for a recompute, and the statement about the operations of the Ledger (R334, R337). -/

namespace Sys2Proof.Machine
open Sys2Proof

/-! ### COLLECTIVE (R337) -/

/-- A 32-bit counter goes up by `n` and saturates (R24). -/
theorem rd_incFld_word {r : Reg} (hr : r.reset < 2 ^ 32) (n : Nat) (s : State) : rd (incFld r 31 0 n s) r = min 0xFFFFFFFF (rd s r + n) := by
  have h := rd_lt s r hr
  rw [incFld, setFld, rd_wr_same, fld, bits_word h, putBits_word _ _ h, satAdd]
  omega

/-- The bytes of a collective's result, in KiB (R337). -/
def collKiB (b : List Byte) : Nat := ceilDiv (ceilDiv (((tdDims b).map (tdShape b)).foldl (· * ·) 1 * tdWidth b) 8) 1024

/-- A collective writes its result, and counts the bytes of it. -/
theorem runCollective_counts {i : Nat} {s : State} (h : Direct i s) (dom kind src : Nat) (a b : List Byte) :
    ∃ w, Output s w ∧ runCollective i dom kind src a b s = incFld LEDGER_COLL_BYTES 31 0 (collKiB b) w := by
  unfold runCollective
  refine ⟨_, ?_, rfl⟩
  dsimp only
  split
  · refine Output.andThen h (Output.foldl (fun u ix hu => ?_) _ h) (Output.foldl (fun u p hu => ?_) _)
    · exact Output.foldl (fun _ _ hv => Output.unitWrite hv _ _ _ _) _ hu
    · exact Output.foldl (fun _ _ hv => Output.unitWrite hv _ _ _ _) _ hu
  · exact Output.foldl (fun u ix hu => Output.foldl (fun _ _ hv => Output.unitWrite hv _ _ _ _) _ hu) _ h

theorem exec_ledgerCollective (i : Nat) (s : State) : exec (.ledgerCollective i) s = .next (ledgerRow 7 i [] [] s) := rfl

/-- A COLLECTIVE whose tensors agree writes its result, and counts its bytes. -/
theorem completes_ledgerCollective {i : Nat} {s : State} {x : Inst} {g : Graph} {nd : Node} {a b : List Byte} (hz : instOf s i = some (x, g, nd))
    (h : LedgerBegins s 7 i x g nd) (htensors : collTensors s g.domain nd (readBytes s nd.plan 128) = some (a, b)) :
    Completes (.ledgerCollective i) s (fun t => LedgerEnds s t x g ∧ t.ledger.seqs = s.ledger.seqs ∧ t.ledger.pages = s.ledger.pages ∧
      rd t LEDGER_COLL_BYTES = min 0xFFFFFFFF (rd s LEDGER_COLL_BYTES + collKiB b)) := by
  obtain ⟨u, hu, -, hrow⟩ := ledgerRow_begins hz h (fun h4 => absurd h4 (by decide))
  have hsees := hu.sees h
  have hdirect := hu.direct h
  obtain ⟨⟨-, -, -, hflags, hprov, -⟩, -⟩ := h
  have hboth : collTensors u g.domain nd (opRun s nd).desc = some (a, b) := (collTensors_congr hu.input.tensors _ _ _).trans htensors
  obtain ⟨w, hw, hcounts⟩ := runCollective_counts hdirect g.domain (fieldU (opRun s nd).desc 15 1 % 16) (fieldU (opRun s nd).desc 15 1 / 16) a b
  have hkeeps : Processed u (incFld LEDGER_COLL_BYTES 31 0 (collKiB b) w) := hw.processed.trans (Processed.wr rfl _ w)
  have hledger : (incFld LEDGER_COLL_BYTES 31 0 (collKiB b) w).ledger = u.ledger := hw.ledger
  obtain ⟨hdone, hended, hwords, -⟩ := hu.ends hflags hprov hkeeps ((congrArg LedSt.runs hledger).trans hu.runs)
  rw [hledger] at hended
  refine ⟨_, ?_, hdone, ?_, ?_, ?_⟩
  · rw [exec_ledgerCollective, hrow, opWorks, if_pos rfl, hboth]
    dsimp only
    rw [hcounts]
  · rw [hended]
    exact hsees.seqs
  · rw [hended]
    exact hsees.pages
  · rw [hwords.rd rfl, rd_incFld_word (by decide), hw.words.rd rfl, hu.words.rd rfl]

/-! ### What waits for a recompute (R334) -/

/-- A READ in progress that has no page left to wait for writes its lists, and ends. -/
theorem completes_readResume {i : Nat} {s : State} {x : Inst} {g : Graph} {nd : Node} {r : LedRun} (hz : instOf s i = some (x, g, nd))
    (h : InUnit s 5 i x g nd) (hrun : runLed s i = some r) (hread : loOp r.desc = 4) (hall : loEntries s g.domain nd r.desc ≤ r.next)
    (hclear : recomputing s r = false) :
    Completes (.readResume i) s (fun t => Ended s t x g ∧ t.ledger = { s.ledger with runs := tdel i s.ledger.runs }) := by
  obtain ⟨hlone, -, hflags, hprov, hst, -⟩ := h
  have hlists := Output.writeLists (hlone.direct hprov) g.domain nd r
  have hexec : exec (.readResume i) s = .next (endLedger i (writeLists i g.domain nd r s)) := by
    change execReadResume i s = _
    rw [execReadResume, hz, hrun]
    simp [hread, hall, hclear]
  obtain ⟨⟨hinsts, hgraphs, hpegs⟩, hledger, -, -⟩ := endLedger_lone (hlone.congr hlists.scribe hlists.mb) hflags hprov hst
  refine ⟨_, hexec, ⟨hinsts, hgraphs, ?_⟩, ?_⟩
  · rw [hpegs, hlists.scribe]
  · rw [hledger, hlists.ledger]

/-- A page whose deadline passes while nobody waits for it (R334). -/
def pageGivenUp (p : Nat) (s : State) : State :=
  raise 0x9004 (ledArg (pageOf s p).cache (pageOf s p).seq) (inc LEDGER_RECOMPUTE_TIMEOUT (setMask LEDGER_STATUS 8
    (modPage p (fun x => { x with state := .dropped, slot := none }) (labDropPage p s))))

theorem exec_recomputeDeadline_noReads {s : State} {p : Nat} (hruns : s.ledger.runs = []) (hstate : (pageOf s p).state = .recomputing)
    (hdue : (pageOf s p).deadline ≤ s.ridge.ns) : exec (.recomputeDeadline p) s = .next (pageGivenUp p s) := by
  have hlate : ¬ ((pageOf s p).state ≠ .recomputing ∨ s.ridge.ns < (pageOf s p).deadline) := by simp [hstate, hdue]
  have hpinned : ∀ (l : List LedPin) (u : State), l.foldl (fun u _ => u) u = u := fun l u => foldl_keeps (f := id) (fun _ _ => rfl) l u
  change execRecomputeDeadline p s = _
  rw [execRecomputeDeadline]
  dsimp only
  rw [if_neg hlate, hruns, List.filter_nil]
  simp only [List.foldl_nil, List.any_nil, Bool.false_eq_true, if_false, hpinned, List.map_id']
  rfl

/-- A page still RECOMPUTING at its deadline is DROPPED and loses its slot, counted. -/
theorem completes_recomputeDeadline {s : State} {p : Nat} (hruns : s.ledger.runs = []) (hstate : (pageOf s p).state = .recomputing)
    (hdue : (pageOf s p).deadline ≤ s.ridge.ns) : Completes (.recomputeDeadline p) s (fun t =>
      pageOf t p = { pageOf s p with state := .dropped, slot := none } ∧
      rd t LEDGER_RECOMPUTE_TIMEOUT = min 0xFFFFFFFF (rd s LEDGER_RECOMPUTE_TIMEOUT + 1) ∧ t.mem = s.mem ∧ t.ledger.seqs = s.ledger.seqs) := by
  refine ⟨_, exec_recomputeDeadline_noReads hruns hstate hdue, ?_, ?_, ?_, ?_⟩
  · have hgone : pageOf (pageGivenUp p s) p = _ := (pageOf_congr (congrArg LedSt.pages (raise_ledger _ _ _)) p).trans
      (pageOf_modPage_same p (fun x => { x with state := .dropped, slot := none }) (labDropPage p s))
    exact hgone
  · rw [pageGivenUp, rd_raise rfl, rd_inc (by decide), rd_setMask_ne (by decide)]
    rfl
  · rw [pageGivenUp, raise_mem]
    rfl
  · rw [pageGivenUp, raise_ledger]
    rfl

/-- Settles O38: each operation of the Ledger on one entry, the end of a READ, and the deadline of a recompute, by the lemma of its case. -/
theorem ledgerOperations : Obligations.LedgerOperations := by
  refine ⟨fun s i z hz => ⟨fun h q => completes_ledgerOpen hz h, fun h e he hcache hfault hword q => completes_ledgerFork hz h he hcache hfault hword,
    fun h hone e he hcache hfault hword hwithin hwindow hroom p => completes_ledgerAppend hz h hone he hcache hfault hword hwithin hwindow hroom,
    fun h e he hcache hfault hword hpins hlen y => completes_ledgerRead hz h he hcache hfault hword hpins hlen,
    fun h e he hcache hword => completes_ledgerClose hz h he hcache hword, fun h => completes_ledgerRefill hz h rfl,
    fun h ab => completes_ledgerCollective hz h, fun h r => completes_readResume hz h⟩,
    fun s p => completes_recomputeDeadline⟩

end Sys2Proof.Machine
end

section
/-! PROOF. Registrations of Plumb and Tally (R344, R374, R440): what their parameters give, and the cases of each command. -/

namespace Sys2Proof.Machine
open Sys2Proof

/-! ### What the parameters of a registration give (R344, R374) -/

section
variable {s : State} {f k op top unread : Nat}

theorem registration_badSlot (h : top ≤ param s f k op 0) : registration s f k op top unread = .inl (badParam op 0 s) := if_pos h

theorem registration_badPriority (h : param s f k op 0 < top) (hprio : 7 < param s f k op 1) :
    registration s f k op top unread = .inl (badParam op 1 s) :=
  (if_neg (Nat.not_le.2 h)).trans (if_pos hprio)

theorem registration_foreignPeg (h : param s f k op 0 < top) (hprio : param s f k op 1 ≤ 7) (hpeg : mayAdd s f (param s f k op 2) = false) :
    registration s f k op top unread = .inl (no 0x1007 0 s) := by
  simp only [registration, if_neg (Nat.not_le.2 h), if_neg (Nat.not_lt.2 hprio), hpeg, Bool.not_false, if_true]

/-- The registration that the parameters of a command without bindings give. -/
def unbound (s : State) (f k op : Nat) : CycleSlot :=
  { owner := f, desc := param s f k op 4, binds := [], priority := param s f k op 1, peg := param s f k op 2, amount := param s f k op 3 }

theorem registration_unbound (h : param s f k op 0 < top) (hprio : param s f k op 1 ≤ 7) (hpeg : mayAdd s f (param s f k op 2) = true)
    (hbinds : param s f k op 6 = 0) : registration s f k op top unread = .inr (param s f k op 0, unbound s f k op) := by
  have hnone : ∀ a, bindsAt s a 0 = [] := fun _ => rfl
  simp only [registration, if_neg (Nat.not_le.2 h), if_neg (Nat.not_lt.2 hprio), hpeg, hbinds, hnone, Bool.not_true, Bool.false_eq_true,
    if_false, Nat.not_lt_zero, Nat.lt_irrefl, decide_false, Bool.false_and, unbound]

end

theorem slotNext_unstaged (slots : Tab CycleSlot) (k : Nat) : slotNext [] slots k = tget k slots := rfl

/-! ### PLUMB_REGISTER and PLUMB_RELEASE (R344, R438) -/

section
variable {s : State} {f k : Nat}

theorem answers_plumbRegister_refused {a : Ans} {detail st : Nat} (h : Ready f k 0x030F s) (ha : a = no st detail s) (hst : st < 65536)
    (hreg : registration s f k 0x030F 64 0x1B02 = .inl a) : Answers (.plumbRegister f k) f k st s s := by
  refine answers_refusal (detail := detail) rfl h ?_ hst
  simp only [hreg, ha]

section
variable {n : Nat} {c : CycleSlot} (h : Ready f k 0x030F s) (hreg : registration s f k 0x030F 64 0x1B02 = .inr (n, c))
  (hstaged : s.plumb.staged = [])
include h hreg hstaged

/-- A free slot is registered within the quota. -/
theorem answers_plumbRegister_free (hfree : tget n s.plumb.slots = none) (hquota : useOf s f 7 < quotaOf s f 7) :
    Answers (.plumbRegister f k) f k 0 s { s with plumb.staged := [(n, some c)] } := by
  refine answers_of_act (a := ok [] { s with plumb.staged := [(n, some c)] }) rfl h ?_ rfl (by decide : 0 < 65536) (Nat.zero_le _)
  simp only [hreg, hstaged, slotNext_unstaged, hfree, if_neg (Nat.not_le.2 hquota)]
  rfl

theorem answers_plumbRegister_quota (hfree : tget n s.plumb.slots = none) (hquota : quotaOf s f 7 ≤ useOf s f 7) :
    Answers (.plumbRegister f k) f k 0x1008 s s := by
  refine answers_refusal (detail := 7) rfl h ?_ (by decide)
  simp only [hreg, hstaged, slotNext_unstaged, hfree, if_pos hquota]

/-- A domain may register its own slot again. -/
theorem answers_plumbRegister_own {old : CycleSlot} (hold : tget n s.plumb.slots = some old) (howner : old.owner = f) :
    Answers (.plumbRegister f k) f k 0 s { s with plumb.staged := [(n, some c)] } := by
  refine answers_of_act (a := ok [] { s with plumb.staged := [(n, some c)] }) rfl h ?_ rfl (by decide : 0 < 65536) (Nat.zero_le _)
  simp only [hreg, hstaged, slotNext_unstaged, hold, if_neg (not_not_intro howner)]
  rfl

theorem answers_plumbRegister_taken {old : CycleSlot} (hold : tget n s.plumb.slots = some old) (howner : old.owner ≠ f) :
    Answers (.plumbRegister f k) f k 0x100A s s := by
  refine answers_refusal (detail := 0) rfl h ?_ (by decide)
  simp only [hreg, hstaged, slotNext_unstaged, hold, if_pos howner]

end

theorem answers_plumbRelease_badSlot (h : Ready f k 0x0310 s) (hslot : 64 ≤ param s f k 0x0310 0) :
    Answers (.plumbRelease f k) f k 0x1006 s s :=
  answers_refusal (detail := paramOff 0x0310 0) rfl h (if_pos hslot) (by decide)

/-- A slot that is free, or registered by another domain, is not the domain's to release. -/
theorem answers_plumbRelease_notOwn (h : Ready f k 0x0310 s) (hstaged : s.plumb.staged = []) (hslot : param s f k 0x0310 0 < 64)
    (hnot : ∀ old, tget (param s f k 0x0310 0) s.plumb.slots = some old → old.owner ≠ f) : Answers (.plumbRelease f k) f k 0x1007 s s := by
  refine answers_refusal (detail := 0) rfl h ((if_neg (Nat.not_lt.2 (Nat.le_of_lt_succ hslot))).trans (if_neg ?_)) (by decide)
  cases hold : tget (param s f k 0x0310 0) s.plumb.slots with
  | none => simp [hstaged, slotNext_unstaged, hold]
  | some old => simp [hstaged, slotNext_unstaged, hold, hnot old hold]

theorem answers_plumbRelease_own {old : CycleSlot} (h : Ready f k 0x0310 s) (hstaged : s.plumb.staged = [])
    (hslot : param s f k 0x0310 0 < 64) (hold : tget (param s f k 0x0310 0) s.plumb.slots = some old) (howner : old.owner = f) :
    Answers (.plumbRelease f k) f k 0 s { s with plumb.staged := [(param s f k 0x0310 0, none)] } := by
  refine answers_of_act (a := ok [] { s with plumb.staged := [(param s f k 0x0310 0, none)] }) rfl h
    ((if_neg (Nat.not_lt.2 (Nat.le_of_lt_succ hslot))).trans ?_) rfl (by decide : 0 < 65536) (Nat.zero_le _)
  simp only [hstaged, slotNext_unstaged, hold, howner, Option.any_some, decide_true, if_true]
  rfl

/-! ### TALLY_REGISTER and TALLY_RELEASE (R374) -/

theorem answers_tallyRegister_refused {a : Ans} {detail st : Nat} (h : Ready f k 0x0311 s) (ha : a = no st detail s) (hst : st < 65536)
    (hreg : registration s f k 0x0311 16 0x1C03 = .inl a) : Answers (.tallyRegister f k) f k st s s := by
  refine answers_refusal (detail := detail) rfl h ?_ hst
  simp only [hreg, ha]

theorem answers_tallyRegister_staged {n : Nat} {c : CycleSlot} (h : Ready f k 0x0311 s)
    (hreg : registration s f k 0x0311 16 0x1C03 = .inr (n, c)) :
    Answers (.tallyRegister f k) f k 0 s { s with tally.staged := tput n (some c) s.tally.staged } := by
  refine answers_of_act (a := ok [] _) rfl h ?_ rfl (by decide : 0 < 65536) (Nat.zero_le _)
  simp only [hreg]

theorem answers_tallyRelease_badSlot (h : Ready f k 0x0312 s) (hslot : 16 ≤ param s f k 0x0312 0) :
    Answers (.tallyRelease f k) f k 0x1006 s s :=
  answers_refusal (detail := paramOff 0x0312 0) rfl h (if_pos hslot) (by decide)

theorem answers_tallyRelease_free (h : Ready f k 0x0312 s) (hstaged : s.tally.staged = []) (hslot : param s f k 0x0312 0 < 16)
    (hfree : tget (param s f k 0x0312 0) s.tally.slots = none) : Answers (.tallyRelease f k) f k 0x1007 s s := by
  refine answers_refusal (detail := 0) rfl h ((if_neg (Nat.not_lt.2 (Nat.le_of_lt_succ hslot))).trans (if_neg ?_)) (by decide)
  simp [hstaged, slotNext_unstaged, hfree]

theorem answers_tallyRelease_staged (h : Ready f k 0x0312 s) (hstaged : s.tally.staged = []) (hslot : param s f k 0x0312 0 < 16)
    (hheld : tget (param s f k 0x0312 0) s.tally.slots ≠ none) :
    Answers (.tallyRelease f k) f k 0 s { s with tally.staged := [(param s f k 0x0312 0, none)] } := by
  refine answers_of_act (a := ok [] { s with tally.staged := [(param s f k 0x0312 0, none)] }) rfl h
    ((if_neg (Nat.not_lt.2 (Nat.le_of_lt_succ hslot))).trans ?_) rfl (by decide : 0 < 65536) (Nat.zero_le _)
  simp only [hstaged, slotNext_unstaged, Option.isSome_iff_ne_none.2 hheld, if_true]
  rfl

end

/-- Settles O28: each command, by what its parameters give. -/
theorem registrations : Obligations.Registrations := by
  refine ⟨fun s f k h => ⟨fun hslot => ?_, fun hslot hprio => ?_, fun hslot hprio hpeg => ?_, fun hslot hprio hpeg hbinds hstaged => ?_⟩,
    fun s f k h hstaged => ⟨answers_plumbRelease_badSlot h, fun hslot hfree => ?_, fun hslot old hold => ⟨fun howner => ?_, fun howner => ?_⟩⟩,
    fun s f k h => ⟨fun hslot => ?_, fun hslot hprio => ?_, fun hslot hprio hpeg => ?_, fun hslot hprio hpeg hbinds => ?_⟩,
    fun s f k h hstaged => ⟨answers_tallyRelease_badSlot h, answers_tallyRelease_free h hstaged, answers_tallyRelease_staged h hstaged⟩⟩
  · exact answers_plumbRegister_refused h rfl (by decide) (registration_badSlot hslot)
  · exact answers_plumbRegister_refused h rfl (by decide) (registration_badPriority hslot hprio)
  · exact answers_plumbRegister_refused h rfl (by decide) (registration_foreignPeg hslot hprio hpeg)
  · have hreg := registration_unbound (unread := 0x1B02) hslot hprio hpeg hbinds
    exact ⟨answers_plumbRegister_free h hreg hstaged, answers_plumbRegister_quota h hreg hstaged, fun old hold =>
      ⟨answers_plumbRegister_own h hreg hstaged hold, answers_plumbRegister_taken h hreg hstaged hold⟩⟩
  · exact answers_plumbRelease_notOwn h hstaged hslot fun old hold => by cases hold.symm.trans hfree
  · exact answers_plumbRelease_notOwn h hstaged hslot fun _ hold' => by cases hold.symm.trans hold'; exact howner
  · exact answers_plumbRelease_own h hstaged hslot hold howner
  · exact answers_tallyRegister_refused h rfl (by decide) (registration_badSlot hslot)
  · exact answers_tallyRegister_refused h rfl (by decide) (registration_badPriority hslot hprio)
  · exact answers_tallyRegister_refused h rfl (by decide) (registration_foreignPeg hslot hprio hpeg)
  · exact answers_tallyRegister_staged h (registration_unbound hslot hprio hpeg hbinds)

end Sys2Proof.Machine
end

section
/-! PROOF. The start of a Plumb cycle (R343–R345, R353), of an instance or of a mark, and its refusal. -/

namespace Sys2Proof.Machine
open Sys2Proof

/-! ### The head of a unit's queue (R261, R344) -/

theorem cycleHead_inst {s : State} {kind i : Nat} (h : unitReady s kind i = true) : cycleHead s kind [] = some (.inl i) := by
  have hhead : queueHead s kind none = some (i, 0) := of_decide_eq_true h
  simp only [cycleHead, hhead, firstMark, List.foldl_nil]

theorem cycleHead_mark {s : State} (h : s.scribe.insts = []) (kind : Nat) (m : MarkCycle) : cycleHead s kind [m] = some (.inr m) := by
  have hhead : queueHead s kind none = none := by simp only [queueHead, waitingRuns, h, List.flatMap_nil, List.foldl_nil]
  simp only [cycleHead, hhead, firstMark, List.foldl_cons, List.foldl_nil]

/-! ### The checks (R353) -/

/-- Every check of a list shows a status and an offset of 16 bits. -/
def ReasonsFit (l : List (Bool × Nat × Nat)) : Prop := ∀ p ∈ l, p.2.1 < 65536 ∧ p.2.2 < 65536

theorem ReasonsFit.append {l m : List (Bool × Nat × Nat)} (h : ReasonsFit l) (k : ReasonsFit m) : ReasonsFit (l ++ m) := fun p hp =>
  (List.mem_append.1 hp).elim (h p) (k p)

theorem ReasonsFit.firstReason {l : List (Bool × Nat × Nat)} (h : ReasonsFit l) {q : Nat × Nat} (hq : firstReason l = some q) :
    q.1 < 65536 ∧ q.2 < 65536 := by
  obtain ⟨p, hp, rfl⟩ := firstReason_mem hq
  exact h p hp

theorem ReasonsFit.literal {l : List (Bool × Nat × Nat)} (h : l.all (fun p => decide (p.2.1 < 65536) && decide (p.2.2 < 65536)) = true) :
    ReasonsFit l := by
  simpa [ReasonsFit] using h

theorem plumbRanges_fit (d : List Byte) : ReasonsFit (plumbRanges d) := by
  unfold plumbRanges
  exact ((ReasonsFit.literal rfl).append (ReasonsFit.literal rfl)).append (ReasonsFit.literal rfl)

theorem plumbRefusal_fits {s : State} {dom addr : Nat} {binds : List Bind} {fallback : Bool} {q : Nat × Nat}
    (h : plumbRefusal s dom addr binds fallback = some q) : q.1 < 65536 ∧ q.2 < 65536 := by
  have hfits : ∀ {a b : Nat}, a < 65536 → b < 65536 → some (a, b) = some q → q.1 < 65536 ∧ q.2 < 65536 := by
    rintro a b ha hb ⟨⟩
    exact ⟨ha, hb⟩
  unfold plumbRefusal at h
  dsimp only at h
  split at h
  · exact hfits (by decide) (by decide) h
  split at h
  · exact hfits (by decide) (by decide) h
  split at h
  · rename_i hranges
    exact (plumbRanges_fit _).firstReason (hranges.trans h)
  split at h
  · rename_i hargs
    exact ReasonsFit.firstReason (ReasonsFit.literal rfl) (hargs.trans h)
  iterate 2
    split at h
    · exact hfits (by decide) (by decide) h
  split at h
  · exact hfits (by decide) (by decide) h
  iterate 2
    split at h
    · exact hfits (by decide) (by decide) h
  cases h

/-- The checks do not look at what Plumb holds: its queue and its cycle. -/
theorem plumbRefusal_plumb (s : State) (p : PlumbSt) (dom addr : Nat) (binds : List Bind) (fallback : Bool) :
    plumbRefusal { s with plumb := p } dom addr binds fallback = plumbRefusal s dom addr binds fallback := by
  have hread : ∀ a n, readBytes { s with plumb := p } a n = readBytes s a n := readBytes_mem rfl
  have hbase : ∀ arg kinds, argBase { s with plumb := p } dom binds arg kinds = argBase s dom binds arg kinds := fun _ _ => rfl
  simp only [plumbRefusal, cycleBlocks, cycleFactors, hread, hbase]
  rfl

/-! ### A cycle that is refused (R353) -/

theorem exec_plumbCycleStart (s : State) : exec .plumbCycleStart s = execPlumbCycleStart s := rfl

/-- The source of inertial factors has failed (R350). -/
def imuFault (s : State) : Bool := bit (rd s NETIN_REF_IMU_STATUS) 0

theorem exec_plumbCycleStart_refused {s : State} {i : Nat} {x : Inst} {g : Graph} {nd : Node} {q : Nat × Nat} (hz : instOf s i = some (x, g, nd))
    (hready : unitReady s 4 i = true) (hrun : s.plumb.run = none) (hqueue : s.plumb.queue = [])
    (hq : plumbRefusal s g.domain nd.plan nd.binds (imuFault s) = some q) :
    exec .plumbCycleStart s = .next (refusePlumb (.inl i) q.1 q.2 (noteRead g.domain nd.plan 256 2 s)) := by
  have hidle : ¬ s.plumb.run.isSome = true := by simp [hrun]
  rw [exec_plumbCycleStart, execPlumbCycleStart, if_neg hidle, hqueue, cycleHead_inst hready]
  dsimp only
  rw [hz]
  dsimp only [Option.map_some]
  rw [← imuFault, hq]

/-- What a refusal shows of Plumb, before its instance ends. -/
def plumbRefusalShown (q : Nat × Nat) (s : State) : State :=
  raise 0x6020 q.1 (setMask PLUMB_STATUS 0x10 (wr PLUMB_DESC_ERR (q.1 + 65536 * q.2) s))

theorem plumbRefusalShown_words {q : Nat × Nat} (hstatus : q.1 < 65536) (hoffset : q.2 < 65536) (s : State) :
    rd (plumbRefusalShown q s) PLUMB_DESC_ERR = q.1 + 65536 * q.2 ∧ bit (rd (plumbRefusalShown q s) PLUMB_STATUS) 4 = true := by
  constructor
  · rw [plumbRefusalShown, rd_raise rfl, rd_setMask_ne (by decide), rd_wr_same, Nat.mod_eq_of_lt]
    omega
  · rw [plumbRefusalShown, rd_raise rfl, rd_setMask_same (by decide) (by decide), bit_eq_testBit, Nat.testBit_or,
      show Nat.testBit 0x10 4 = true by decide, Bool.or_true]

theorem plumbRefusalShown_keeps (q : Nat × Nat) (s : State) : let t := plumbRefusalShown q s
    t.scribe = s.scribe ∧ t.mb = s.mb ∧ t.plumb = s.plumb ∧ t.mem = s.mem := by simp [plumbRefusalShown]

/-! ### A cycle that starts (R343–R345) -/

/-- Plumb holds a cycle, and its state register shows it. -/
def plumbRuns (run : PlumbRun) (shown : Nat) (s : State) : State := setFld PLUMB_STATE 7 0 shown { s with plumb.run := some run }

/-- What Plumb holds of a cycle that has started (R345, R350). -/
def cycleRun (s : State) (inst : Option Nat) (mark : Option MarkCycle) (arg dom addr : Nat) (binds : List Bind) (ts : Nat) : PlumbRun :=
  let d := readBytes s addr 256
  { inst := inst, mark := mark, arg := arg, desc := d, binds := binds, owner := dom, ts := ts, epoch := unitEpoch s 4,
    fallback := imuFault s && decide (pdInertial d = 0), disagree := bit (rd s NETIN_XCHK_STATUS) 1, mountQ := mountQuat s, mountT := mountPos s }

/-- Plumb holds the cycle of an instance, which starts now. -/
def instTaken (i : Nat) (x : Inst) (g : Graph) (nd : Node) (s : State) : State :=
  plumbRuns (cycleRun s (some i) none (x.graph * 2 ^ 24 + x.node % 65536) g.domain nd.plan nd.binds s.ridge.ns) 1 s

theorem exec_plumbCycleStart_passes {s : State} {i : Nat} {x : Inst} {g : Graph} {nd : Node} (hz : instOf s i = some (x, g, nd))
    (hready : unitReady s 4 i = true) (hrun : s.plumb.run = none) (hqueue : s.plumb.queue = []) (hflags : nd.flags = 0)
    (hpass : plumbRefusal s g.domain nd.plan nd.binds (imuFault s) = none) :
    exec .plumbCycleStart s = .next (settle (beginRun i 0 (instTaken i x g nd s))) := by
  have hidle : ¬ s.plumb.run.isSome = true := by simp [hrun]
  have hnow : ¬ bit nd.flags 2 = true := by rw [hflags]; decide
  rw [exec_plumbCycleStart, execPlumbCycleStart, if_neg hidle, hqueue, cycleHead_inst hready]
  dsimp only
  rw [hz]
  dsimp only [Option.map_some]
  rw [← imuFault, hpass, if_neg hnow]
  rfl

/-- A mark's cycle has left the queue. -/
def markLeft (m : MarkCycle) (s : State) : State := { s with plumb.queue := s.plumb.queue.filter (fun q => decide (q ≠ m)) }

/-- Plumb holds the cycle of a mark, which starts at its fire instant. -/
def markTaken (m : MarkCycle) (s : State) : State :=
  plumbRuns (cycleRun s none (some m) (m.slot * 2 ^ 24) m.cfg.owner m.cfg.desc m.cfg.binds m.at_) (1 + (2 + 4 * m.slot)) s

theorem exec_plumbCycleStart_mark {s : State} {m : MarkCycle} (hinsts : s.scribe.insts = []) (hrun : s.plumb.run = none)
    (hqueue : s.plumb.queue = [m]) (hpass : plumbRefusal s m.cfg.owner m.cfg.desc m.cfg.binds (imuFault s) = none) :
    exec .plumbCycleStart s = .next (markTaken m (markLeft m s)) := by
  have hidle : ¬ s.plumb.run.isSome = true := by simp [hrun]
  have hhead : cycleHead s 4 s.plumb.queue = some (.inr m) := by rw [hqueue, cycleHead_mark hinsts]
  have hpass : plumbRefusal (markLeft m s) m.cfg.owner m.cfg.desc m.cfg.binds (imuFault s) = none :=
    (plumbRefusal_plumb s _ _ _ _ _).trans hpass
  rw [exec_plumbCycleStart, execPlumbCycleStart, if_neg hidle, hhead]
  dsimp only [markLeft] at hpass ⊢
  rw [← imuFault, hpass]
  rfl

section
variable {s : State} {i : Nat} {z : Inst × Graph × Node} (hz : instOf s i = some z) (hhead : AtHead s 4 i z.1 z.2.1 z.2.2)
  (hrun : s.plumb.run = none) (hqueue : s.plumb.queue = [])
include hz hhead hrun hqueue

/-- The cycle of an instance that passes its checks starts now. -/
theorem completes_plumbCycleStart_passes (hpass : plumbRefusal s z.2.1.domain z.2.2.plan z.2.2.binds (imuFault s) = none) :
    Completes .plumbCycleStart s (fun t =>
      t.plumb.run.map (fun r => (r.inst, r.ts, r.owner, r.desc)) = some (some i, s.ridge.ns, z.2.1.domain, readBytes s z.2.2.plan 256) ∧
      fld t PLUMB_STATE 7 0 = 1 ∧ (tget i t.scribe.insts).map (·.st) = some .running ∧ t.mem = s.mem) := by
  obtain ⟨hlone, hready, -, hflags, hprov, hruns⟩ := hhead
  have hlonely : Lone (instTaken i z.1 z.2.1 z.2.2 s) i z.1 z.2.1 z.2.2 := hlone.congr rfl rfl
  have hexec := exec_plumbCycleStart_passes hz hready hrun hqueue hflags hpass
  rw [settle_beginRun_lone hlonely hflags hprov (by rw [hruns]; rfl)] at hexec
  obtain ⟨hframe, -, hwords⟩ := Scheduled.started i z.1 (instTaken i z.1 z.2.1 z.2.2 s)
  refine ⟨_, hexec, ?_, ?_, ?_, ?_⟩
  · rw [hframe]
    rfl
  · rw [fld, hwords.rd rfl]
    exact fld_setFld_same (by decide) (by decide) (by decide) 1 _
  · rw [(hlonely.alone hflags hprov).started.insts, tget_eq_some_of_single]
    rfl
  · rw [hframe]
    rfl

/-- The cycle of an instance that fails a check ends with that status and offset shown. -/
theorem completes_plumbCycleStart_refused {q : Nat × Nat} (hq : plumbRefusal s z.2.1.domain z.2.2.plan z.2.2.binds (imuFault s) = some q) :
    Completes .plumbCycleStart s (fun t => Ended s t z.1 z.2.1 ∧ rd t PLUMB_DESC_ERR = q.1 + 65536 * q.2 ∧
      bit (rd t PLUMB_STATUS) 4 = true ∧ t.plumb = s.plumb ∧ t.mem = s.mem) := by
  obtain ⟨hlone, hready, -, hflags, hprov, hruns⟩ := hhead
  obtain ⟨hstatus, hoffset⟩ := plumbRefusal_fits hq
  refine ⟨_, exec_plumbCycleStart_refused hz hready hrun hqueue hq, ?_⟩
  have hread := Fenced.noteRead z.2.1.domain z.2.2.plan 256 2 s
  have hmem := noteRead_mem z.2.1.domain z.2.2.plan 256 2 s
  generalize noteRead z.2.1.domain z.2.2.plan 256 2 s = u at hread hmem ⊢
  have hkept : u.scribe = s.scribe ∧ u.mb = s.mb ∧ u.plumb = s.plumb := by rw [hread.1]; exact ⟨rfl, rfl, rfl⟩
  obtain ⟨hscribe, hmb, hplumb, hmemory⟩ := plumbRefusalShown_keeps q u
  obtain ⟨herr, hshown⟩ := plumbRefusalShown_words hstatus hoffset u
  rw [refusePlumb, ← plumbRefusalShown]
  generalize plumbRefusalShown q u = v at *
  obtain ⟨⟨hframe, -, hwords⟩, hended, hcounted, hpegs⟩ := refuseUnit_lone (hlone.congr (hscribe.trans hkept.1) (hmb.trans hkept.2.1)) hflags
    hprov (by rw [hruns]; rfl) q.1
  refine ⟨⟨hended, hcounted, hpegs.trans (congrArg _ (hscribe.trans hkept.1))⟩, (hwords.rd rfl).trans herr, ?_, ?_, ?_⟩
  · rw [hwords.rd rfl, hshown]
  · rw [hframe]
    exact hplumb.trans hkept.2.2
  · rw [hframe]
    exact hmemory.trans hmem

end

/-- The cycle of a mark that passes its checks leaves the queue and starts at its fire instant. -/
theorem completes_plumbCycleStart_mark {s : State} {m : MarkCycle} (hrun : s.plumb.run = none) (hqueue : s.plumb.queue = [m])
    (hinsts : s.scribe.insts = []) (hslot : m.slot < 64)
    (hpass : plumbRefusal s m.cfg.owner m.cfg.desc m.cfg.binds (imuFault s) = none) : Completes .plumbCycleStart s (fun t =>
      t.plumb.run.map (fun r => (r.inst, r.mark, r.ts)) = some (none, some m, m.at_) ∧ t.plumb.queue = [] ∧
      fld t PLUMB_STATE 7 0 = 3 + 4 * m.slot ∧ t.mem = s.mem ∧ t.scribe = s.scribe) := by
  have hleft : (markLeft m s).plumb.queue = [] := by simp [markLeft, hqueue]
  refine ⟨_, exec_plumbCycleStart_mark hinsts hrun hqueue hpass, rfl, hleft, ?_, rfl, rfl⟩
  refine (fld_setFld_same (by decide) (by decide) (by decide) _ _).trans ?_
  omega

end Sys2Proof.Machine
end

section
/-! PROOF. The end of a Plumb cycle of an instance, before its deadline or at it (R354–R364). -/

namespace Sys2Proof.Machine
open Sys2Proof

/-! ### What the cycle of an instance writes (R276, R362) -/

/-- From `s` to `t` a cycle writes its output: the Scribe, the mailbox and the units' tables stay as they are. -/
structure CycleOutput (s t : State) : Prop where
  scribe : t.scribe = s.scribe
  mb : t.mb = s.mb
  plumb : t.plumb = s.plumb
  tally : t.tally = s.tally
  words : SameWords s t inChecks

theorem CycleOutput.refl (s : State) : CycleOutput s s := ⟨rfl, rfl, rfl, rfl, SameWords.refl s _⟩

theorem CycleOutput.trans {s t u : State} (h : CycleOutput s t) (k : CycleOutput t u) : CycleOutput s u :=
  ⟨k.scribe.trans h.scribe, k.mb.trans h.mb, k.plumb.trans h.plumb, k.tally.trans h.tally, h.words.trans k.words⟩

/-- One write after another. -/
theorem CycleOutput.andThen {s t u : State} {i : Nat} (a : CycleOutput s t) (h : Direct i s) (b : Direct i t → CycleOutput t u) : CycleOutput s u :=
  a.trans (b (h.congr a.scribe))

theorem Fenced.cycleOutput {s t : State} (h : Fenced s t) : CycleOutput s t := by
  refine ⟨?_, ?_, ?_, ?_, h.2⟩ <;> rw [h.1]

theorem CycleOutput.cycleWrite {i : Nat} {s : State} (h : Direct i s) (dom a : Nat) (bs : List Byte) (poison : Bool) :
    CycleOutput s (cycleWrite (some i) dom a bs poison s) := by
  rw [Machine.cycleWrite]
  cases hx : tget i s.scribe.insts with
  | some x =>
    rw [unitWrite_direct hx (h x hx)]
    exact (Fenced.fencedWrite _ _ _ s).cycleOutput
  | none =>
    rw [unitWrite, hx]
    exact (Fenced.fencedWrite _ _ _ s).cycleOutput

theorem CycleOutput.foldl {β : Type} {i : Nat} {f : State → β → State} (hf : ∀ s b, Direct i s → CycleOutput s (f s b)) (l : List β)
    {s : State} (h : Direct i s) : CycleOutput s (l.foldl f s) := by
  induction l generalizing s with
  | nil => exact CycleOutput.refl s
  | cons b l ih => exact (hf s b h).andThen h ih

theorem CycleOutput.writeCodes {i : Nat} {s : State} (h : Direct i s) {r : PlumbRun} (hr : r.inst = some i) (arg : Nat)
    (cs : List (List Nat × Nat)) (poison : List Nat → Bool) : CycleOutput s (writeCodes r arg cs poison s) := by
  unfold Machine.writeCodes
  split
  · exact CycleOutput.refl s
  · rw [hr]
    exact CycleOutput.foldl (fun u c hu => CycleOutput.cycleWrite hu _ _ _ _) cs h

theorem CycleOutput.takeFree (n : Nat) (s : State) : CycleOutput s (takeFree n s) := ⟨rfl, rfl, rfl, rfl, SameWords.of_regs rfl⟩

/-! ### What a cycle counts and shows (R363, R370, R371) -/

/-- The counts of a cycle (R370). -/
def plumbCounted (outcome : Nat) (dead : Bool) (factors dropped viol ill : Nat) (s : State) : State :=
  let s := inc PLUMB_CYCLES (incFld PLUMB_FACTORS_IN 31 0 factors (incFld PLUMB_FACTORS_DROPPED 31 0 dropped s))
  let s := incFld PLUMB_RANGE_VIOL 31 0 viol (incFld PLUMB_ILL_POSED 31 0 ill s)
  if outcome = 0 then inc PLUMB_CONVERGED s else if dead then inc PLUMB_DEADLINE_RETURNS s
  else if outcome = 0x1B12 then inc PLUMB_NOT_CONVERGED s else s

/-- The last result of Plumb, its extremes and its status. -/
def plumbShown (last steps : Nat) (slack : Int) (status : Nat) (s : State) : State :=
  let s := wr PLUMB_LAST_RESULT last s
  let s := wr PLUMB_CYCLE_STEPS_MAX (max (rd s PLUMB_CYCLE_STEPS_MAX) (sat32 steps)) s
  let s := if slack < toSigned 32 (rd s PLUMB_SLACK_MIN) then wr PLUMB_SLACK_MIN (ofSigned 32 slack) s else s
  setMask PLUMB_STATUS status s

/-- The events of a cycle (R371). -/
def plumbReported (arg ill viol : Nat) (dead nan : Bool) (s : State) : State :=
  let s := if 0 < ill then raise 0x6001 arg s else s
  let s := if dead then raise 0x6002 arg s else s
  let s := if 0 < viol then raise 0x6003 arg s else s
  if nan then raise 0x6004 arg s else s

/-- Plumb is idle again. -/
def plumbClosed (s : State) : State := setFld PLUMB_STATE 7 0 0 { s with plumb.run := none }

/-- From `s` to `t` Plumb counts a cycle with its outcome, and shows it. -/
structure PlumbShows (outcome steps : Nat) (s t : State) : Prop where
  scribe : t.scribe = s.scribe
  mb : t.mb = s.mb
  plumb : t.plumb = s.plumb
  last : rd t PLUMB_LAST_RESULT % 65536 = outcome % 65536
  cycles : rd t PLUMB_CYCLES = min 0xFFFFFFFF (rd s PLUMB_CYCLES + 1)
  steps : rd t PLUMB_CYCLE_STEPS_MAX = max (rd s PLUMB_CYCLE_STEPS_MAX) (min 0xFFFFFFFF steps)
  converged : outcome = 0 → rd t PLUMB_CONVERGED = min 0xFFFFFFFF (rd s PLUMB_CONVERGED + 1)
  returned : outcome = 0x1B11 → rd t PLUMB_DEADLINE_RETURNS = min 0xFFFFFFFF (rd s PLUMB_DEADLINE_RETURNS + 1) ∧
    bit (rd t PLUMB_STATUS) 1 = true

theorem plumbCounted_keeps (outcome : Nat) (dead : Bool) (factors dropped viol ill : Nat) (s : State) :
    let t := plumbCounted outcome dead factors dropped viol ill s
    t.scribe = s.scribe ∧ t.mb = s.mb ∧ t.plumb = s.plumb := by
  unfold plumbCounted
  split_ifs <;> exact ⟨rfl, rfl, rfl⟩

theorem plumbCounted_words (outcome : Nat) (dead : Bool) (factors dropped viol ill : Nat) (s : State) :
    let t := plumbCounted outcome dead factors dropped viol ill s
    rd t PLUMB_CYCLES = min 0xFFFFFFFF (rd s PLUMB_CYCLES + 1) ∧ rd t PLUMB_CYCLE_STEPS_MAX = rd s PLUMB_CYCLE_STEPS_MAX ∧
      (outcome = 0 → rd t PLUMB_CONVERGED = min 0xFFFFFFFF (rd s PLUMB_CONVERGED + 1)) ∧
      (outcome ≠ 0 → dead = true → rd t PLUMB_DEADLINE_RETURNS = min 0xFFFFFFFF (rd s PLUMB_DEADLINE_RETURNS + 1)) := by
  unfold plumbCounted
  refine ⟨?_, ?_, fun h => ?_, fun h hdead => ?_⟩
  · split_ifs <;> simp (disch := decide) only [rd_inc, rd_inc_ne, rd_incFld_ne]
  · split_ifs <;> simp (disch := decide) only [rd_inc_ne, rd_incFld_ne]
  · simp (disch := decide) only [if_pos h, rd_inc, rd_inc_ne, rd_incFld_ne]
  · simp (disch := decide) only [if_neg h, if_pos hdead, rd_inc, rd_inc_ne, rd_incFld_ne]

theorem plumbShown_keeps (last steps : Nat) (slack : Int) (status : Nat) (s : State) : let t := plumbShown last steps slack status s
    t.scribe = s.scribe ∧ t.mb = s.mb ∧ t.plumb = s.plumb := by
  unfold plumbShown
  dsimp only
  split_ifs <;> exact ⟨rfl, rfl, rfl⟩

theorem plumbShown_words (last steps : Nat) (slack : Int) {status : Nat} (hstatus : status < 2 ^ 32) (s : State) :
    let t := plumbShown last steps slack status s
    rd t PLUMB_LAST_RESULT = last % 2 ^ 32 ∧ rd t PLUMB_CYCLE_STEPS_MAX = max (rd s PLUMB_CYCLE_STEPS_MAX) (sat32 steps) ∧
      rd t PLUMB_STATUS = rd s PLUMB_STATUS ||| status ∧ rd t PLUMB_CYCLES = rd s PLUMB_CYCLES ∧
      rd t PLUMB_CONVERGED = rd s PLUMB_CONVERGED ∧ rd t PLUMB_DEADLINE_RETURNS = rd s PLUMB_DEADLINE_RETURNS := by
  have hmax : max (rd s PLUMB_CYCLE_STEPS_MAX) (sat32 steps) < 2 ^ 32 := by
    have := rd_lt s PLUMB_CYCLE_STEPS_MAX (by decide)
    rw [sat32]
    omega
  have hmask := fun u => rd_setMask_same (r := PLUMB_STATUS) (by decide) hstatus u
  unfold plumbShown
  dsimp only
  refine ⟨?_, ?_, ?_, ?_, ?_, ?_⟩ <;> split_ifs <;>
    simp (disch := decide) only [hmask, rd_setMask_ne, rd_wr_ne, rd_wr_same, Nat.mod_eq_of_lt hmax]

theorem Logged.plumbReported (arg ill viol : Nat) (dead nan : Bool) (s : State) : Logged s (plumbReported arg ill viol dead nan s) := by
  have hreport : ∀ (p : Prop) [Decidable p] (c : Nat) (u : State), Logged u (if p then Machine.raise c arg u else u) := fun p _ c u =>
    Logged.ite (Logged.raise c arg u) (Logged.refl u)
  exact (((hreport _ _ _).trans (hreport _ _ _)).trans (hreport _ _ _)).trans (hreport _ _ _)

/-- The bits of Plumb's status that a cycle sets. -/
def outcomeMask (ill dead viol nan : Bool) : Nat := b2n ill + 2 * b2n dead + 4 * b2n viol + 8 * b2n nan

theorem outcomeMask_lt : ∀ ill dead viol nan, outcomeMask ill dead viol nan < 2 ^ 32 := by decide

theorem outcomeMask_dead : ∀ ill viol nan, (outcomeMask ill true viol nan).testBit 1 = true := by decide

theorem plumbShows (outcome iters steps factors dropped viol ill arg : Nat) (slack : Int) (nan : Bool) (s : State) :
    let dead := decide (outcome = 0x1B11)
    PlumbShows outcome steps s (plumbReported arg ill viol dead nan (plumbShown (outcome + 65536 * iters) steps slack
      (outcomeMask (decide (0 < ill)) dead (decide (0 < viol)) nan) (plumbCounted outcome dead factors dropped viol ill s))) := by
  intro dead
  obtain ⟨hscribe, hmb, hplumb⟩ := plumbCounted_keeps outcome dead factors dropped viol ill s
  obtain ⟨hcycles, hmax, hconverged, hreturned⟩ := plumbCounted_words outcome dead factors dropped viol ill s
  generalize plumbCounted outcome dead factors dropped viol ill s = t at *
  have hmask := outcomeMask_lt (decide (0 < ill)) dead (decide (0 < viol)) nan
  have hdead : dead = true → (outcomeMask (decide (0 < ill)) dead (decide (0 < viol)) nan).testBit 1 = true := fun h => by
    rw [h, outcomeMask_dead]
  generalize outcomeMask (decide (0 < ill)) dead (decide (0 < viol)) nan = mask at *
  obtain ⟨hscribe', hmb', hplumb'⟩ := plumbShown_keeps (outcome + 65536 * iters) steps slack mask t
  obtain ⟨hlast, hsteps, hstatus, hcycles', hconverged', hreturned'⟩ := plumbShown_words (outcome + 65536 * iters) steps slack hmask t
  generalize plumbShown (outcome + 65536 * iters) steps slack mask t = u at *
  obtain ⟨hframe, hwords⟩ := Logged.plumbReported arg ill viol dead nan u
  refine ⟨?_, ?_, ?_, ?_, ?_, ?_, fun h => ?_, fun h => ⟨?_, ?_⟩⟩
  · rw [hframe]
    exact hscribe'.trans hscribe
  · rw [hframe]
    exact hmb'.trans hmb
  · rw [hframe]
    exact hplumb'.trans hplumb
  · rw [hwords.rd rfl, hlast]
    omega
  · rw [hwords.rd rfl, hcycles', hcycles]
  · rw [hwords.rd rfl, hsteps, hmax, sat32]
  · rw [hwords.rd rfl, hconverged', hconverged h]
  · rw [hwords.rd rfl, hreturned', hreturned (by omega) (decide_eq_true h)]
  · rw [hwords.rd rfl, hstatus, bit_eq_testBit, Nat.testBit_or, hdead (decide_eq_true h), Bool.or_true]

/-! ### The end of a cycle (R359–R364) -/

/-- A cycle of an instance that is no batch and publishes no pose writes its output, counts and shows its outcome, and ends. -/
theorem endPlumb_inst {r : PlumbRun} {j : Nat} {s : State} (hinst : r.inst = some j) (hbatch : pdBatch r.desc = false)
    (hpose : pdPoseOut r.desc = false) (hdirect : Direct j s) (i : PlIn) (e : PlEnd) (steps : Nat) : ∃ u v completion, CycleOutput s u ∧
      PlumbShows e.outcome steps u v ∧ endPlumb r i e steps s = settle (endRun j 0 completion (plumbClosed v)) := by
  unfold endPlumb
  rw [hinst]
  extract_lets d now checked viol skipped dropped covs nar ill nan dead arg xa read xs cov st wn scratch flags res result ok table block body
    rec_ src posed counted ranged judged last stepped slack slacked masked illRaised deadRaised rangeRaised nanRaised status src closed
  have hread : CycleOutput s read := (Fenced.noteRead _ _ _ _ _).cycleOutput.trans (Fenced.noteRead _ _ _ _ _).cycleOutput
  have hxs : CycleOutput s xs := hread.andThen hdirect (CycleOutput.foldl (fun _ _ hu => CycleOutput.cycleWrite hu _ _ _ _) _)
  have hcov : CycleOutput s cov := hxs.andThen hdirect (CycleOutput.writeCodes · hinst _ _ _)
  have hst : CycleOutput s st := by
    have hplain : st = cov := if_neg (by simp [d, hbatch])
    rwa [hplain]
  have hscratch : CycleOutput s scratch := (hst.andThen hdirect (CycleOutput.cycleWrite · _ _ _ _)).trans (CycleOutput.takeFree _ _)
  have hresult : CycleOutput s result := hscratch.andThen hdirect (CycleOutput.cycleWrite · _ _ _ _)
  have hposed : CycleOutput s posed := by
    have hplain : posed = result := if_pos (by simp [d, hpose])
    rwa [hplain]
  exact ⟨posed, nanRaised, _, hposed, plumbShows e.outcome e.iters steps i.raw.length dropped viol ill arg slack nan posed, rfl⟩

/-- What stands when the cycle of a lone instance is over: its outcome is counted and shown, and the instance has ended. -/
def PlumbOver (s t : State) (x : Inst) (g : Graph) (steps outcome : Nat) (counter : Reg) : Prop :=
  Ended s t x g ∧ t.plumb = { s.plumb with run := none } ∧ fld t PLUMB_STATE 7 0 = 0 ∧ rd t PLUMB_LAST_RESULT % 65536 = outcome ∧
    rd t PLUMB_CYCLES = min 0xFFFFFFFF (rd s PLUMB_CYCLES + 1) ∧
    rd t PLUMB_CYCLE_STEPS_MAX = max (rd s PLUMB_CYCLE_STEPS_MAX) (min 0xFFFFFFFF steps) ∧ rd t counter = min 0xFFFFFFFF (rd s counter + 1)

section
variable {s : State} {i : Nat} {z : Inst × Graph × Node} (hunit : InUnit s 4 i z.1 z.2.1 z.2.2) {r : PlumbRun} (hrun : s.plumb.run = some r)
  (hinst : r.inst = some i) (hbatch : pdBatch r.desc = false) (hpose : pdPoseOut r.desc = false)
include hunit hinst hbatch hpose

theorem endPlumb_over (p : PlIn) (e : PlEnd) (steps : Nat) : let t := endPlumb r p e steps s
    (e.outcome = 0 → PlumbOver s t z.1 z.2.1 steps 0 PLUMB_CONVERGED) ∧
    (e.outcome = 0x1B11 → PlumbOver s t z.1 z.2.1 steps 0x1B11 PLUMB_DEADLINE_RETURNS ∧ bit (rd t PLUMB_STATUS) 1 = true) := by
  obtain ⟨hlone, -, hflags, hprov, hst, -⟩ := hunit
  obtain ⟨u, v, completion, hout, hshows, hend⟩ := endPlumb_inst hinst hbatch hpose (hlone.direct hprov) p e steps
  have hscribe : (plumbClosed v).scribe = s.scribe := hshows.scribe.trans hout.scribe
  obtain ⟨⟨hframe, -, hwords⟩, hended, hcounted, hpegs⟩ :=
    settle_endRun_lone (hlone.congr hscribe (hshows.mb.trans hout.mb)) hflags hprov hst completion
  rw [hend]
  generalize settle (endRun i 0 completion (plumbClosed v)) = t at *
  have hword : ∀ q : Reg, inWindow 0x80000 q.addr = false → q.addr ≠ PLUMB_STATE.addr → rd t q = rd v q := fun q hq hne =>
    (hwords.rd hq).trans (rd_setFld_ne hne 7 0 0 _)
  have hstart : ∀ q : Reg, inChecks q.addr = false → rd u q = rd s q := fun q hq => hout.words.rd hq
  have hover : ∀ outcome c, e.outcome = outcome → outcome < 65536 → rd t c = min 0xFFFFFFFF (rd s c + 1) →
      PlumbOver s t z.1 z.2.1 steps outcome c := by
    intro outcome c houtcome hlt hc
    refine ⟨⟨hended, hcounted, hpegs.trans (congrArg _ hscribe)⟩, ?_, ?_, ?_, ?_, ?_, hc⟩
    · rw [hframe]
      change { v.plumb with run := none } = _
      rw [hshows.plumb, hout.plumb]
    · rw [fld, hwords.rd rfl]
      exact fld_setFld_same (by decide) (by decide) (by decide) 0 _
    · rw [hword _ rfl (by decide), hshows.last, houtcome, Nat.mod_eq_of_lt hlt]
    · rw [hword _ rfl (by decide), hshows.cycles, hstart _ rfl]
    · rw [hword _ rfl (by decide), hshows.steps, hstart _ rfl]
  refine ⟨fun h => hover _ _ h (by decide) ?_, fun h => ⟨hover _ _ h (by decide) ?_, ?_⟩⟩
  · rw [hword _ rfl (by decide), hshows.converged h, hstart _ rfl]
  · rw [hword _ rfl (by decide), (hshows.returned h).1, hstart _ rfl]
  · rw [hword _ rfl (by decide), (hshows.returned h).2]

include hrun

/-- A cycle whose solution converges before the deadline is counted so. -/
theorem completes_plumbCycleEnd_converged (steps : Nat) : let p := plInputs s r
    problemBad r p 0 = false → (solvePlumb r.desc p.ks p.fs p.x0 (pdMaxIter r.desc)).outcome = 0 →
      Completes (.plumbCycleEnd steps) s (fun t => PlumbOver s t z.1 z.2.1 steps 0 PLUMB_CONVERGED) := by
  intro p hgood hsolved
  have hexec : exec (.plumbCycleEnd steps) s = execPlumbCycleEnd steps s := rfl
  rw [execPlumbCycleEnd, hrun] at hexec
  dsimp only at hexec
  rw [if_neg (ne_true_of_eq_false hbatch), if_neg (ne_true_of_eq_false hgood)] at hexec
  exact ⟨_, hexec, (endPlumb_over hunit hinst hbatch hpose p _ steps).1 hsolved⟩

/-- A cycle that reaches its deadline before an iterate exists is counted so. -/
theorem completes_plumbDeadline (steps : Nat) (hdue : r.ts + pdDeadline r.desc ≤ s.ridge.ns) :
    Completes (.plumbDeadline 0 steps false) s (fun t => PlumbOver s t z.1 z.2.1 steps 0x1B11 PLUMB_DEADLINE_RETURNS ∧
      bit (rd t PLUMB_STATUS) 1 = true) := by
  have hexec : exec (.plumbDeadline 0 steps false) s = execPlumbDeadline 0 steps false s := rfl
  rw [execPlumbDeadline, hrun] at hexec
  dsimp only at hexec
  rw [if_neg (Nat.not_lt.2 hdue), if_neg (ne_true_of_eq_false hbatch), if_pos rfl] at hexec
  exact ⟨_, hexec, (endPlumb_over hunit hinst hbatch hpose (plInputs s r) _ steps).2 rfl⟩

end

end Sys2Proof.Machine
end

section
/-! PROOF. The cycles of Tally (R374–R393): an instance at the head of the queue that associates or updates, and the statement about the
cycles of Plumb and Tally. -/

namespace Sys2Proof.Machine
open Sys2Proof

/-! ### The cycle of an instance (R374, R391, R392) -/

/-- A cycle runs for instance `i`, which is not provisional. -/
def RunsFor (j : TallyJob) (i : Nat) : Prop := j.who = .inl i ∧ j.prov = false

theorem tallyJob_runsFor {s : State} {i : Nat} {z : Inst × Graph × Node} (hz : instOf s i = some z) (hhead : AtHead s 3 i z.1 z.2.1 z.2.2)
    (hqueue : s.tally.queue = []) (hfree : s.tally.unresolved = none) {j : TallyJob} (hj : tallyJob s = some j) : RunsFor j i := by
  obtain ⟨-, hready, -, -, hprov, -⟩ := hhead
  rw [tallyJob, hfree, if_neg (by decide), hqueue, cycleHead_inst hready] at hj
  dsimp only at hj
  rw [hz] at hj
  cases hj
  exact ⟨rfl, hprov⟩

section
variable {j : TallyJob} {i : Nat} (h : RunsFor j i)
include h

theorem RunsFor.jobInst : jobInst j = some i := by rw [Machine.jobInst, h.1]

theorem RunsFor.tallyBegin (s : State) : tallyBegin j s = settle (beginRun i 0 s) := by
  simp only [Machine.tallyBegin, h.1, h.2, Bool.false_eq_true, if_false]

theorem RunsFor.putTable (t : TalTable) (s : State) : putTable j t s = { s with tally.table := t } := by
  simp only [Machine.putTable, h.2, Bool.false_eq_true, if_false]

theorem CycleOutput.writeRecords {s : State} (hdirect : Direct i s) (arg stride : Nat) (rs : List (List Byte × Bool)) :
    CycleOutput s (writeRecords j arg stride rs s) := by
  rw [Machine.writeRecords, h.jobInst]
  exact CycleOutput.foldl (fun _ _ hu => CycleOutput.cycleWrite hu _ _ _ _) _ hdirect

theorem CycleOutput.writeProblems {s : State} (hdirect : Direct i s) (c : List Byte) (ps : List (Nat × Track × Det × List (List Nat))) :
    CycleOutput s (writeProblems j c ps s) := by
  unfold Machine.writeProblems
  extract_lets b n sizes null var xs fac blocks factors states desc
  have hdesc : CycleOutput s desc := (((CycleOutput.writeRecords h hdirect _ _ _).andThen hdirect (CycleOutput.writeRecords h · _ _ _)).andThen
    hdirect (CycleOutput.writeRecords h · _ _ _)).andThen hdirect (CycleOutput.writeRecords h · _ _ _)
  split
  · exact hdesc
  · rw [h.jobInst]
    exact hdesc.andThen hdirect (CycleOutput.foldl (fun _ _ hu => CycleOutput.cycleWrite hu _ _ _ _) _)

end

/-- A cycle is counted, with the steps it took (R395). -/
def tallyCounted (steps : Nat) (s : State) : State :=
  inc TALLY_CYCLES (wr TALLY_CYCLE_STEPS_MAX (max (rd s TALLY_CYCLE_STEPS_MAX) (sat32 steps)) s)

theorem RunsFor.tallyDone {j : TallyJob} {i : Nat} (h : RunsFor j i) (flags steps : Nat) (s : State) :
    tallyDone j none flags steps s = settle (endRun i 0 flags (tallyCounted steps s)) := by
  rw [Machine.tallyDone, h.1]
  rfl

theorem tallyCounted_words (steps : Nat) (s : State) : let t := tallyCounted steps s
    rd t TALLY_CYCLES = min 0xFFFFFFFF (rd s TALLY_CYCLES + 1) ∧
      rd t TALLY_CYCLE_STEPS_MAX = max (rd s TALLY_CYCLE_STEPS_MAX) (min 0xFFFFFFFF steps) := by
  have hmax : max (rd s TALLY_CYCLE_STEPS_MAX) (min 0xFFFFFFFF steps) < 2 ^ 32 := by
    have := rd_lt s TALLY_CYCLE_STEPS_MAX (by decide)
    omega
  constructor <;> simp (disch := decide) only [tallyCounted, sat32, rd_inc, rd_inc_ne, rd_wr_ne, rd_wr_same, Nat.mod_eq_of_lt hmax]

/-- A register that neither the end of an instance nor the count of a cycle changes. -/
def tallyWord (q : Reg) : Prop := inWindow 0x80000 q.addr = false ∧ q.addr ≠ TALLY_CYCLES.addr ∧ q.addr ≠ TALLY_CYCLE_STEPS_MAX.addr

theorem rd_tallyCounted {q : Reg} (hcycles : q.addr ≠ TALLY_CYCLES.addr) (hsteps : q.addr ≠ TALLY_CYCLE_STEPS_MAX.addr) (steps : Nat)
    (s : State) : rd (tallyCounted steps s) q = rd s q := by
  rw [tallyCounted, rd_inc_ne hcycles, rd_wr_ne hsteps]

/-- From `s` to `t` Tally shows what a cycle has found: no table, instance, mailbox or byte changes, and no cycle is counted yet. -/
structure TallyShows (s t : State) : Prop where
  scribe : t.scribe = s.scribe
  mb : t.mb = s.mb
  tally : t.tally = s.tally
  mem : t.mem = s.mem
  cycles : rd t TALLY_CYCLES = rd s TALLY_CYCLES
  steps : rd t TALLY_CYCLE_STEPS_MAX = rd s TALLY_CYCLE_STEPS_MAX

theorem TallyShows.trans {s t u : State} (h : TallyShows s t) (k : TallyShows t u) : TallyShows s u :=
  ⟨k.scribe.trans h.scribe, k.mb.trans h.mb, k.tally.trans h.tally, k.mem.trans h.mem, k.cycles.trans h.cycles, k.steps.trans h.steps⟩

theorem Logged.tallyShows {s t : State} (h : Logged s t) : TallyShows s t := by
  refine ⟨?_, ?_, ?_, ?_, h.2.rd rfl, h.2.rd rfl⟩ <;> rw [h.1]

/-- What stands when the cycle of a lone instance is over: it is counted, and the instance has ended. -/
def TallyOver (s t : State) (x : Inst) (g : Graph) (steps : Nat) : Prop :=
  Ended s t x g ∧ rd t TALLY_CYCLES = min 0xFFFFFFFF (rd s TALLY_CYCLES + 1) ∧
    rd t TALLY_CYCLE_STEPS_MAX = max (rd s TALLY_CYCLE_STEPS_MAX) (min 0xFFFFFFFF steps)

theorem Lone.started {s : State} {i : Nat} {x : Inst} {g : Graph} {nd : Node} (h : Lone s i x g nd) :
    Lone (started i x s) i (begun s x) g nd := by
  obtain ⟨hwork, hinsts, hwaits, hrest⟩ := h
  refine ⟨hwork, ?_, hwaits, hrest⟩
  exact (congrArg (tput i (begun s x)) hinsts).trans (tput_single ..)

/-- The state in which a cycle's input has been read, its instance has started, and the table is as the cycle leaves it. -/
def tableTaken (i : Nat) (x : Inst) (a n : Nat) (new : TalTable) (s : State) : State :=
  { started i x (noteRead 0 a n 2 s) with tally.table := new }

theorem rd_tableTaken {s : State} {i : Nat} {x : Inst} {q : Reg} (hscribe : inWindow 0x80000 q.addr = false)
    (hchecks : inChecks q.addr = false) (a n : Nat) (new : TalTable) : rd (tableTaken i x a n new s) q = rd s q :=
  ((Scheduled.started i x (noteRead 0 a n 2 s)).2.2.rd hscribe).trans ((Fenced.noteRead 0 a n 2 s).2.rd hchecks)

section
variable {s : State} {i : Nat} {x : Inst} {g : Graph} {nd : Node} (hhead : AtHead s 3 i x g nd)
include hhead

theorem lone_noteRead (a n : Nat) : Lone (noteRead 0 a n 2 s) i x g nd := by
  have hread := Fenced.noteRead 0 a n 2 s
  exact hhead.1.congr (by rw [hread.1]) (by rw [hread.1])

theorem settle_beginRun_noteRead (a n : Nat) : settle (beginRun i 0 (noteRead 0 a n 2 s)) = started i x (noteRead 0 a n 2 s) := by
  have hlone := lone_noteRead hhead a n
  obtain ⟨-, -, -, hflags, hprov, hruns⟩ := hhead
  exact settle_beginRun_lone hlone hflags hprov (by rw [hruns]; rfl)

theorem lone_tableTaken (a n : Nat) (new : TalTable) : Lone (tableTaken i x a n new s) i (begun (noteRead 0 a n 2 s) x) g nd :=
  (lone_noteRead hhead a n).started.congr rfl rfl

theorem direct_tableTaken (a n : Nat) (new : TalTable) : Direct i (tableTaken i x a n new s) := by
  have hlone := lone_tableTaken hhead a n new
  obtain ⟨-, -, -, -, hprov, -⟩ := hhead
  exact hlone.direct hprov

/-- A cycle that has written its output and shown what it found is counted, and its instance ends. -/
theorem tallyDone_over {j : TallyJob} (hjob : RunsFor j i) {a n : Nat} {new : TalTable} {u v : State}
    (hout : CycleOutput (tableTaken i x a n new s) u) (hshows : TallyShows u v) (flags steps : Nat) : let t := tallyDone j none flags steps v
    TallyOver s t x g steps ∧ t.tally.table = new ∧ t.mem = v.mem ∧ ∀ q, tallyWord q → rd t q = rd v q := by
  have hlone := lone_tableTaken hhead a n new
  obtain ⟨-, -, -, hflags, hprov, -⟩ := hhead
  have hscribe : (tallyCounted steps v).scribe = (tableTaken i x a n new s).scribe := hshows.scribe.trans hout.scribe
  obtain ⟨⟨hframe, -, hwords⟩, hended, hcounted, hpegs⟩ :=
    settle_endRun_lone (hlone.congr hscribe (hshows.mb.trans hout.mb)) hflags hprov rfl flags
  obtain ⟨hcycles, hsteps⟩ := tallyCounted_words steps v
  have hpegs' : (tableTaken i x a n new s).scribe.pegs = s.scribe.pegs := by
    have hread := Fenced.noteRead 0 a n 2 s
    refine (Scheduled.started i x (noteRead 0 a n 2 s)).2.1.trans ?_
    rw [hread.1]
  rw [hjob.tallyDone]
  generalize settle (endRun i 0 flags (tallyCounted steps v)) = t at *
  refine ⟨⟨⟨hended, hcounted, (hpegs.trans (congrArg _ hscribe)).trans hpegs'⟩, ?_, ?_⟩, ?_, ?_, fun q hq => ?_⟩
  · rw [hwords.rd rfl, hcycles, hshows.cycles, hout.words.rd rfl, rd_tableTaken rfl rfl]
  · rw [hwords.rd rfl, hsteps, hshows.steps, hout.words.rd rfl, rd_tableTaken rfl rfl]
  · rw [hframe]
    exact congrArg TallySt.table (hshows.tally.trans hout.tally)
  · rw [hframe]
    rfl
  · obtain ⟨hwindow, hc, hs⟩ := hq
    rw [hwords.rd hwindow, rd_tallyCounted hc hs]

end

/-! ### ASSOCIATE (R379–R388) -/

/-- The counts and the status of an ASSOCIATE (R395). -/
def associateCounted (k : TallyCounts) (failed mask : Nat) (s : State) : State :=
  let s := incFld TALLY_DET_IN 31 0 k.detIn (incFld TALLY_DET_DROPPED 31 0 k.detDropped (incFld TALLY_PAIRS_DROPPED 31 0 k.pairsDropped s))
  let s := incFld TALLY_ASSIGNED 31 0 k.assigned (incFld TALLY_BIRTHS 31 0 k.births (incFld TALLY_BIRTHS_DROPPED 31 0 k.birthsDropped s))
  let s := incFld TALLY_CONFIRMS 31 0 (k.life.headD 0) (incFld TALLY_DELETES 31 0 (k.life.drop 1).sum (incFld TALLY_UPDATE_FAILED 31 0 failed s))
  setMask TALLY_STATUS mask s

theorem TallyShows.associateCounted (k : TallyCounts) (failed mask : Nat) (s : State) : TallyShows s (associateCounted k failed mask s) := by
  refine ⟨rfl, rfl, rfl, rfl, ?_, ?_⟩ <;> simp (disch := decide) only [Machine.associateCounted, rd_incFld_ne, rd_setMask_ne]

/-- The events of an ASSOCIATE (R396). -/
def associateReported (arg verdict dropped : Nat) (failed : List Nat) (truncated pending : Bool) (s : State) : State :=
  let s := if truncated then raise 0x7001 arg s else s
  let s := if 2 ≤ verdict then raise 0x7002 arg s else s
  let s := (List.range dropped).foldl (fun s _ => raise 0x7003 arg s) s
  let s := failed.foldl (fun s _ => raise 0x7004 arg s) s
  if pending then raise 0x7005 arg s else s

theorem Logged.associateReported (arg verdict dropped : Nat) (failed : List Nat) (truncated pending : Bool) (s : State) :
    Logged s (associateReported arg verdict dropped failed truncated pending s) := by
  have hreport : ∀ (p : Prop) [Decidable p] (c : Nat) (u : State), Logged u (if p then Machine.raise c arg u else u) := fun p _ c u =>
    Logged.ite (Logged.raise c arg u) (Logged.refl u)
  have hreports : ∀ (c : Nat) (l : List Nat) (u : State), Logged u (l.foldl (fun u _ => Machine.raise c arg u) u) := fun c l u =>
    Logged.foldl (fun v _ => Logged.raise c arg v) l u
  exact ((((hreport _ _ _).trans (hreport _ _ _)).trans (hreports _ _ _)).trans (hreports _ _ _)).trans (hreport _ _ _)

/-- The bits of Tally's status that an ASSOCIATE sets. -/
def associateMask (truncated dropped invalid failed : Bool) : Nat := b2n truncated + 2 * b2n dropped + 4 * b2n invalid + 8 * b2n failed

theorem associateMask_lt : ∀ truncated dropped invalid failed, associateMask truncated dropped invalid failed < 2 ^ 32 := by decide

theorem associateMask_invalid : ∀ truncated dropped failed, (associateMask truncated dropped true failed).testBit 2 = true := by decide

theorem associateCounted_invalid {verdict : Nat} (h : 2 ≤ verdict) (k : TallyCounts) (n : Nat) (truncated dropped failed : Bool) (s : State) :
    bit (rd (associateCounted k n (associateMask truncated dropped (decide (2 ≤ verdict)) failed) s) TALLY_STATUS) 2 = true := by
  rw [associateCounted, rd_setMask_same (by decide) (associateMask_lt ..), bit_eq_testBit, Nat.testBit_or, decide_eq_true h,
    associateMask_invalid, Bool.or_true]

theorem associate_invalid {verdict : Nat} (h : 2 ≤ verdict) (c : List Byte) (cap t : Nat) (dets : List Det) (tracks : Tab Track) (id : Nat) :
    associate c cap t verdict dets tracks id = (tracks, id, {}, []) := if_pos h

theorem associate_empty {verdict : Nat} (h : verdict < 2) (c : List Byte) (cap t id : Nat) :
    associate c cap t verdict [] [] id = ([], id, {}, []) := by
  rw [associate, if_neg (Nat.not_le.2 h)]
  rfl

/-- What an ASSOCIATE leaves of the table: with INVALID input its tracks stay out of matching, and without detections an empty table stays
empty. -/
structure Associated (s : State) (j : TallyJob) (c : List Byte) (new : TalTable) : Prop where
  invalid : 2 ≤ (detHeader s j c).2.2 → new.pending = false ∧ new.last.map = [] ∧
    new.tracks.length = (s.tally.table.tracks.filter (fun p => decide (p.2.state ≠ 4))).length
  empty : (detHeader s j c).2.2 < 2 → (detHeader s j c).2.1 = false → fieldU (detHeader s j c).1 4 4 = 0 → tcSchedule c = false →
    s.tally.table.tracks = [] → new = { s.tally.table with pending := true, last := new.last } ∧ new.last.map = [] ∧
      new.last.t = ofSigned 64 ((fieldU (detHeader s j c).1 8 8 : Int) + tcOffset c)

/-- A table in which only the pending map is new. -/
theorem table_eq_of_pending {old new : TalTable} (hpending : new.pending = true) (htracks : new.tracks = old.tracks)
    (hid : new.nextId = old.nextId) (hcycle : new.cycle = old.cycle) (hreset : new.wasReset = old.wasReset) :
    new = { old with pending := true, last := new.last } := by
  rw [← hpending, ← htracks, ← hid, ← hcycle, ← hreset]

theorem exec_tallyAssociate (steps : Nat) (s : State) : exec (.tallyAssociate steps) s = execTallyAssociate steps s := rfl

/-- An ASSOCIATE of an instance that passes its checks reads its input, starts, changes the table, writes its problems unless the input is
INVALID, and shows what it has found. -/
theorem exec_tallyAssociate_passes {s : State} {j : TallyJob} {i : Nat} {x : Inst} {g : Graph} {nd : Node} (hhead : AtHead s 3 i x g nd)
    (hj : tallyJob s = some j) (hjob : RunsFor j i) (hpass : tallyRefusal s j.dom j.addr j.binds j.nbEn = none)
    (hop : tcOp (readBytes s j.addr 384) = 1) (steps : Nat) : ∃ a n new u v flags, let b := tableTaken i x a n new s
      Associated s j (readBytes s j.addr 384) new ∧ CycleOutput b u ∧ TallyShows u v ∧
      (2 ≤ (detHeader s j (readBytes s j.addr 384)).2.2 → u = b ∧ bit (rd v TALLY_STATUS) 2 = true) ∧
      exec (.tallyAssociate steps) s = .next (tallyDone j none flags steps v) := by
  rw [exec_tallyAssociate, execTallyAssociate, hj]
  dsimp -zeta only
  rw [hpass]
  dsimp -zeta only
  generalize readBytes s j.addr 384 = c at hop ⊢
  rw [if_neg (not_not_intro hop)]
  rcases hdet : detHeader s j c with ⟨h, err, verdict⟩
  dsimp -zeta only
  extract_lets own base t a room count detIn dets table cap ready k tracks truncated epoch flags live counts new arg begun put written
    counted₁ counted₂ counted₃ masked truncatedRaised invalidRaised droppedRaised failedRaised raised
  have hput : put = tableTaken i x a (64 + 64 * if 2 ≤ verdict then 0 else detIn) new s := by
    rw [tableTaken, ← settle_beginRun_noteRead hhead, ← hjob.tallyBegin]
    exact hjob.putTable new begun
  have hwritten : CycleOutput put written := by
    by_cases hinvalid : 2 ≤ verdict
    · rw [show written = put from if_pos hinvalid]
      exact CycleOutput.refl put
    · rw [show written = writeProblems j c _ put from if_neg hinvalid]
      exact CycleOutput.writeProblems hjob (hput ▸ direct_tableTaken hhead a _ new) c _
  have hreported : Logged masked raised := Logged.associateReported arg verdict k.birthsDropped _ truncated table.pending masked
  have hshows : TallyShows written raised := (TallyShows.associateCounted k _ _ written).trans hreported.tallyShows
  refine ⟨a, _, new, written, raised, _, ⟨fun hinvalid => ?_, fun hvalid herr hcount hsched htracks => ?_⟩, hput ▸ hwritten, hshows,
    fun hinvalid => ⟨(if_pos hinvalid).trans hput, ?_⟩, rfl⟩
  · rw [hdet] at hinvalid
    refine ⟨decide_eq_false (Nat.not_lt.2 hinvalid), ?_, ?_⟩
    · change List.map _ (if 2 ≤ verdict then ([], []) else _).1 = []
      rw [if_pos hinvalid]
      rfl
    · change (List.map _ (associate c cap t verdict dets ready table.nextId).1).length = _
      rw [associate_invalid hinvalid, List.length_map]
      exact List.length_map _
  · rw [hdet] at hvalid herr hcount ⊢
    dsimp only at hvalid herr hcount
    have hdets : dets = [] := by simp [dets, detIn, count, hcount]
    have hready : ready = [] := by simp [ready, table, htracks]
    have hassoc : associate c cap t verdict dets ready table.nextId = ([], table.nextId, {}, []) := by
      rw [hdets, hready, associate_empty hvalid]
    have hbase : base = fieldU h 8 8 := by
      simp only [base, hjob.1, hsched, herr, Bool.false_eq_true, if_false]
    refine ⟨table_eq_of_pending (decide_eq_true hvalid) ?_ (congrArg (·.2.1) hassoc) rfl rfl, ?_, ?_⟩
    · change List.map _ (associate c cap t verdict dets ready table.nextId).1 = _
      rw [hassoc, htracks]
      rfl
    · change List.map _ (if 2 ≤ verdict then ([], []) else problemsOf c _ _ dets).1 = []
      rw [if_neg (Nat.not_le.2 hvalid), hassoc]
      rfl
    · change ofSigned 64 (base + tcOffset c) = _
      rw [hbase]
  · rw [hreported.2.rd rfl]
    exact associateCounted_invalid hinvalid k _ _ _ _ written

section
variable {s : State} {i : Nat} {z : Inst × Graph × Node} (hz : instOf s i = some z) (hhead : AtHead s 3 i z.1 z.2.1 z.2.2)
  (hqueue : s.tally.queue = []) (hfree : s.tally.unresolved = none) {j : TallyJob} (hj : tallyJob s = some j)
  (hpass : tallyRefusal s j.dom j.addr j.binds j.nbEn = none)
include hz hhead hqueue hfree hj hpass

/-- An ASSOCIATE with INVALID input keeps its tracks out of matching, and leaves no map. -/
theorem completes_tallyAssociate_invalid (steps : Nat) : let c := readBytes s j.addr 384
    tcOp c = 1 → 2 ≤ (detHeader s j c).2.2 → Completes (.tallyAssociate steps) s (fun t => TallyOver s t z.1 z.2.1 steps ∧
      t.tally.table.pending = false ∧ t.tally.table.last.map = [] ∧
      t.tally.table.tracks.length = (s.tally.table.tracks.filter (fun p => decide (p.2.state ≠ 4))).length ∧
      bit (rd t TALLY_STATUS) 2 = true ∧ t.mem = s.mem) := by
  intro c hop hinvalid
  have hjob := tallyJob_runsFor hz hhead hqueue hfree hj
  obtain ⟨a, n, new, u, v, flags, htable, hout, hshows, hplain, hexec⟩ := exec_tallyAssociate_passes hhead hj hjob hpass hop steps
  obtain ⟨hover, hnew, hmem, hwords⟩ := tallyDone_over hhead hjob hout hshows flags steps
  obtain ⟨hpending, hmap, htracks⟩ := htable.invalid hinvalid
  obtain ⟨rfl, hstatus⟩ := hplain hinvalid
  refine ⟨_, hexec, hover, ?_, ?_, ?_, ?_, ?_⟩
  · rw [hnew, hpending]
  · rw [hnew, hmap]
  · rw [hnew, htracks]
  · rw [hwords _ ⟨rfl, by decide, by decide⟩, hstatus]
  · rw [hmem, hshows.mem]
    exact noteRead_mem 0 a n 2 s

/-- An ASSOCIATE without detections on an empty table leaves an empty pending map at T. -/
theorem completes_tallyAssociate_empty (steps : Nat) : let c := readBytes s j.addr 384
    let h := detHeader s j c
    tcOp c = 1 → h.2.2 < 2 → h.2.1 = false → fieldU h.1 4 4 = 0 → tcSchedule c = false → s.tally.table.tracks = [] →
      Completes (.tallyAssociate steps) s (fun t => TallyOver s t z.1 z.2.1 steps ∧
        t.tally.table = { s.tally.table with pending := true, last := t.tally.table.last } ∧ t.tally.table.last.map = [] ∧
        t.tally.table.last.t = ofSigned 64 ((fieldU h.1 8 8 : Int) + tcOffset c)) := by
  intro c h hop hvalid herr hcount hsched htracks
  have hjob := tallyJob_runsFor hz hhead hqueue hfree hj
  obtain ⟨a, n, new, u, v, flags, htable, hout, hshows, -, hexec⟩ := exec_tallyAssociate_passes hhead hj hjob hpass hop steps
  obtain ⟨hover, hnew, -, -⟩ := tallyDone_over hhead hjob hout hshows flags steps
  refine ⟨_, hexec, hover, ?_⟩
  rw [hnew]
  exact htable.empty hvalid herr hcount hsched htracks

end

/-! ### UPDATE (R389–R392) -/

/-- The flags of a track frame without entries (R391). -/
def trackFlags (t : TalTable) : Nat := t.last.flags ||| (512 * b2n (!t.pending) + 1024 * b2n t.wasReset)

/-- The verdict of a track frame with these flags (R391). -/
def trackVerdict (flags : Nat) : Nat := if flags &&& 0x200 ≠ 0 then 2 else if flags &&& 0x1BF ≠ 0 then 1 else 0

/-- The last frame, the counts and the status of an UPDATE (R395). -/
def updateShown (frame late failed mask : Nat) (s : State) : State :=
  setMask TALLY_STATUS mask (incFld TALLY_UPDATE_LATE 31 0 late (incFld TALLY_UPDATE_FAILED 31 0 failed (wr TALLY_LAST_FRAME frame s)))

theorem TallyShows.updateShown (frame late failed mask : Nat) (s : State) : TallyShows s (updateShown frame late failed mask s) := by
  refine ⟨rfl, rfl, rfl, rfl, ?_, ?_⟩ <;> simp (disch := decide) only [Machine.updateShown, rd_incFld_ne, rd_setMask_ne, rd_wr_ne]

theorem rd_updateShown (frame late failed mask : Nat) (s : State) :
    rd (updateShown frame late failed mask s) TALLY_LAST_FRAME = frame % 2 ^ 32 := by
  simp (disch := decide) only [updateShown, rd_incFld_ne, rd_setMask_ne, rd_wr_same]

theorem trackFlags_and_absent {t : TalTable} (h : t.last.flags < 512) : trackFlags t &&& 0x200 = 512 * b2n (!t.pending) := by
  have hlow : t.last.flags &&& 2 ^ 9 = 0 := by rw [and_two_pow_eq, if_neg (by simp [bit, Nat.div_eq_of_lt h])]
  have hrest : ∀ p r, (512 * b2n (!p) + 1024 * b2n r) &&& 0x200 = 512 * b2n (!p) := by decide
  rw [trackFlags, Nat.and_or_distrib_right, hrest]
  exact (congrArg (· ||| _) hlow).trans (Nat.zero_or _)

theorem trackFlags_and_degraded (t : TalTable) : trackFlags t &&& 0x1BF = t.last.flags &&& 0x1BF := by
  have hrest : ∀ p r, (512 * b2n (!p) + 1024 * b2n r) &&& 0x1BF = 0 := by decide
  rw [trackFlags, Nat.and_or_distrib_right, hrest, Nat.or_zero]

/-- Without a pending map the verdict is INVALID; with one, it follows the flags of the ASSOCIATE. -/
theorem trackVerdict_trackFlags {t : TalTable} (h : t.last.flags < 512) :
    trackVerdict (trackFlags t) = if t.pending then if t.last.flags &&& 0x1BF ≠ 0 then 1 else 0 else 2 := by
  rw [trackVerdict, trackFlags_and_absent h, trackFlags_and_degraded]
  cases t.pending <;> rfl

theorem trackVerdict_le (flags : Nat) : trackVerdict flags ≤ 2 := by
  unfold trackVerdict
  split
  · decide
  · split <;> decide

/-- The flags of the frame, above those of the ASSOCIATE. -/
theorem trackFlags_eq {t : TalTable} (h : t.last.flags < 512) : trackFlags t = 512 * (b2n (!t.pending) + 2 * b2n t.wasReset) + t.last.flags := by
  have hor := Nat.two_pow_add_eq_or_of_lt (i := 9) h (b2n (!t.pending) + 2 * b2n t.wasReset)
  rw [trackFlags, Nat.or_comm, show 512 * b2n (!t.pending) + 1024 * b2n t.wasReset = 2 ^ 9 * (b2n (!t.pending) + 2 * b2n t.wasReset) by omega,
    ← hor]

/-- A word with a verdict from bit 16, two flags at bits 9 and 10, and other flags below them. -/
theorem flagged_word {low verdict : Nat} (hlow : low < 512) (hverdict : verdict ≤ 2) (absent reset : Bool) :
    let w := (512 * (b2n absent + 2 * b2n reset) + low + 65536 * verdict) % 2 ^ 32
    w / 65536 = verdict ∧ bit w 9 = absent ∧ bit w 10 = reset := by
  have hbit : ∀ b : Bool, b2n b ≤ 1 ∧ decide (b2n b = 1) = b := by decide
  obtain ⟨habsent, habsent'⟩ := hbit absent
  obtain ⟨hreset, hreset'⟩ := hbit reset
  refine ⟨by omega, ?_, ?_⟩
  · refine (decide_eq_decide.2 ?_).trans habsent'
    omega
  · refine (decide_eq_decide.2 ?_).trans hreset'
    omega

/-- What the word of the last frame shows: the verdict, whether a map was absent, and whether the table was reset (R391). -/
theorem trackFrame_shown {t : TalTable} (h : t.last.flags < 512) : let w := (trackFlags t + 65536 * trackVerdict (trackFlags t)) % 2 ^ 32
    w / 65536 = (if t.pending then if t.last.flags &&& 0x1BF ≠ 0 then 1 else 0 else 2) ∧ bit w 9 = !t.pending ∧ bit w 10 = t.wasReset := by
  have hword := flagged_word h (trackVerdict_le (trackFlags t)) (!t.pending) t.wasReset
  rw [← trackFlags_eq h] at hword
  obtain ⟨hverdict, habsent, hreset⟩ := hword
  exact ⟨hverdict.trans (trackVerdict_trackFlags h), habsent, hreset⟩

theorem exec_tallyUpdate (steps : Nat) (s : State) : exec (.tallyUpdate steps) s = execTallyUpdate steps s := rfl

/-- The table after an UPDATE that takes no posterior (R389, R390). -/
def tableUpdated (t : TalTable) : TalTable := { t with pending := false, cycle := (t.cycle + 1) % 2 ^ 32, wasReset := false }

/-- An UPDATE of an instance, on an empty table and with an empty map or none, writes and shows its frame. -/
theorem exec_tallyUpdate_empty {s : State} {j : TallyJob} {i : Nat} {x : Inst} {g : Graph} {nd : Node} (hhead : AtHead s 3 i x g nd)
    (hj : tallyJob s = some j) (hjob : RunsFor j i) (hpass : tallyRefusal s j.dom j.addr j.binds j.nbEn = none)
    (hop : tcOp (readBytes s j.addr 384) = 2) (hpeg : tcPeg (readBytes s j.addr 384) = 0xFFFF) (htracks : s.tally.table.tracks = [])
    (hmap : s.tally.table.pending = true → s.tally.table.last.map = []) (steps : Nat) : ∃ a n u v flags,
      CycleOutput (tableTaken i x a n (tableUpdated s.tally.table) s) u ∧ TallyShows u v ∧
      rd v TALLY_LAST_FRAME = (trackFlags s.tally.table + 65536 * trackVerdict (trackFlags s.tally.table)) % 2 ^ 32 ∧
      exec (.tallyUpdate steps) s = .next (tallyDone j none flags steps v) := by
  rw [exec_tallyUpdate, execTallyUpdate, hj]
  dsimp -zeta only
  rw [hpass]
  dsimp -zeta only
  generalize readBytes s j.addr 384 = c at hop hpeg ⊢
  rw [if_neg (not_not_intro hop)]
  extract_lets table last map r tracks shown anyFailed anyLate flags verdict tOld counts num head frame nProb read bad begun put written
    shownFrame counted masked raised
  rw [if_pos hpeg]
  have hempty : map = [] := by
    by_cases hpending : s.tally.table.pending = true
    · exact (if_pos hpending).trans (hmap hpending)
    · exact if_neg hpending
  have hr : r = ([], 0, 0) := by
    change List.foldl _ (s.tally.table.tracks, 0, 0) map.zipIdx = _
    rw [hempty, htracks]
    rfl
  have hnone : tracks = [] := congrArg (·.1) hr
  have hflags : flags = trackFlags s.tally.table := by
    have hshown : shown = [] := by
      change List.filter _ tracks = []
      rw [hnone, List.filter_nil]
    simp [flags, anyFailed, anyLate, hshown, b2n, trackFlags, last, table]
  have hput : put = tableTaken i x (argBase s 0 j.binds (tcArg c 4) [0]) (64 * tcBlocks c * nProb) (tableUpdated s.tally.table) s := by
    rw [tableTaken, ← settle_beginRun_noteRead hhead, ← hjob.tallyBegin, tableUpdated, htracks, ← hnone]
    exact hjob.putTable _ begun
  have hwritten : CycleOutput put written := by
    rw [show written = cycleWrite (some i) 0 (argBase put 0 j.binds (tcArg c 1) [1]) frame false put from
      congrArg (cycleWrite · 0 _ frame false put) hjob.jobInst]
    exact CycleOutput.cycleWrite (hput ▸ direct_tableTaken hhead _ _ _) _ _ _ _
  have hreported : Logged masked raised := Logged.foldl (fun u _ => Logged.raise 0x7004 num u) _ masked
  refine ⟨_, _, written, raised, _, hput ▸ hwritten, (TallyShows.updateShown _ _ _ _ written).trans hreported.tallyShows, ?_, rfl⟩
  rw [hreported.2.rd rfl, ← hflags]
  exact rd_updateShown ..

/-- An UPDATE on an empty table, with an empty map or none, gives a frame without tracks; the cycle number advances and the map is no
longer pending. -/
theorem completes_tallyUpdate_empty {s : State} {i : Nat} {z : Inst × Graph × Node} (hz : instOf s i = some z)
    (hhead : AtHead s 3 i z.1 z.2.1 z.2.2) (hqueue : s.tally.queue = []) (hfree : s.tally.unresolved = none) {j : TallyJob}
    (hj : tallyJob s = some j) (hpass : tallyRefusal s j.dom j.addr j.binds j.nbEn = none) (steps : Nat) : let c := readBytes s j.addr 384
    tcOp c = 2 → s.tally.table.tracks = [] → (s.tally.table.pending = true → s.tally.table.last.map = []) → tcPeg c = 0xFFFF →
      s.tally.table.last.flags < 512 → Completes (.tallyUpdate steps) s (fun t => TallyOver s t z.1 z.2.1 steps ∧
        t.tally.table = tableUpdated s.tally.table ∧ rd t TALLY_LAST_FRAME / 65536 =
          (if s.tally.table.pending then if s.tally.table.last.flags &&& 0x1BF ≠ 0 then 1 else 0 else 2) ∧
        bit (rd t TALLY_LAST_FRAME) 9 = !s.tally.table.pending ∧ bit (rd t TALLY_LAST_FRAME) 10 = s.tally.table.wasReset) := by
  intro c hop htracks hmap hpeg hlow
  have hjob := tallyJob_runsFor hz hhead hqueue hfree hj
  obtain ⟨a, n, u, v, flags, hout, hshows, hframe, hexec⟩ := exec_tallyUpdate_empty hhead hj hjob hpass hop hpeg htracks hmap steps
  obtain ⟨hover, hnew, -, hwords⟩ := tallyDone_over hhead hjob hout hshows flags steps
  refine ⟨_, hexec, hover, hnew, ?_⟩
  rw [hwords TALLY_LAST_FRAME ⟨rfl, by decide, by decide⟩, hframe]
  exact trackFrame_shown hlow

/-- Settles O39: the start of a Plumb cycle, its end, and the operations of Tally, by the lemma of each case. -/
theorem plumbAndTally : Obligations.PlumbAndTally := by
  refine ⟨fun s hrun => ⟨fun z hz w hw hhead hqueue => ?_, fun m hqueue hinsts hslot hpass => ?_⟩,
    fun s steps i w hw hunit r hrun hinst _ hbatch hpose => ?_, fun s steps hqueue hfree z _ w hw hhead j hj hpass => ?_⟩
  · exact ⟨completes_plumbCycleStart_passes hw hhead hrun hqueue, fun q => completes_plumbCycleStart_refused hw hhead hrun hqueue⟩
  · exact completes_plumbCycleStart_mark hrun hqueue hinsts hslot hpass
  · exact ⟨completes_plumbCycleEnd_converged hunit hrun hinst hbatch hpose steps, completes_plumbDeadline hunit hrun hinst hbatch hpose steps⟩
  · exact ⟨completes_tallyAssociate_invalid hw hhead hqueue hfree hj hpass steps,
      completes_tallyAssociate_empty hw hhead hqueue hfree hj hpass steps, completes_tallyUpdate_empty hw hhead hqueue hfree hj hpass steps⟩

end Sys2Proof.Machine
end

section
/-! SUPPORT. What no command takes back: the queue of commands, the record of what has left the package, the count of free values,
the canonical form of memory and the fuses. `Lasts u s` says that `s` has what `u` has of them. Every operation of the model keeps it:
its lemma, named after it, chains those of the operations it is made of (`h.a.b` is `b` after `a`), and splits where it splits. -/

namespace Sys2Proof.Machine
open Sys2Proof

/-- What every step leaves, adds to or only blows. -/
structure Lasts (u s : State) : Prop where
  pending : s.pending = u.pending
  emitted : u.emitted <+: s.emitted
  free : u.free ≤ s.free
  mem : Memory.wf u.mem → Memory.wf s.mem
  fuses : FusesKept u.sec.fuses s.sec.fuses

/-- The parts of a state that `Lasts` speaks of. -/
def lasting (s : State) : List Instr × List Emission × Nat × List Host.Cell × Fuses :=
  (s.pending, s.emitted, s.free, s.mem, s.sec.fuses)

theorem FusesKept.refl (a : Fuses) : FusesKept a a := ⟨le_rfl, fun _ => id, id, id, id⟩

theorem FusesKept.trans {a b c : Fuses} (h : FusesKept a b) (k : FusesKept b c) : FusesKept a c := by
  obtain ⟨h1, h2, h3, h4, h5⟩ := h
  obtain ⟨k1, k2, k3, k4, k5⟩ := k
  exact ⟨h1.trans k1, fun i hi => k2 i (h2 i hi), k3 ∘ h3, k4 ∘ h4, k5 ∘ h5⟩

theorem bit_or_left {a b i : Nat} (h : bit a i = true) : bit (a ||| b) i = true := by
  rw [bit_eq_testBit] at h ⊢
  simp [h]

/-- The command answers a next state that keeps what `u` has. -/
def Ends (u : State) (o : Out) : Prop := ∃ t, o = .next t ∧ Lasts u t

/-- The state that an answer leaves keeps what `u` has. -/
def AnsLasts (u : State) (a : Ans) : Prop := Lasts u a.st

/-- So does the state that a deferred command leaves, refused or begun. -/
structure ActLasts (u : State) (o : Ans ⊕ State) : Prop where
  refused : ∀ a, o = .inl a → AnsLasts u a
  begun : ∀ t, o = .inr t → Lasts u t

/-- So does the state after an entry of a Ledger operation. -/
structure EntryLasts (u : State) (o : EntryOut) : Prop where
  kept : ∀ st t, o = .done st t → Lasts u t

/-- So does the state after a ring access of a task. -/
def IoLasts (u : State) : IoOut → Prop
  | .stall => True
  | .mismatch s => Lasts u s
  | .done s _ => Lasts u s

variable {u s : State}

theorem Lasts.refl (s : State) : Lasts s s := ⟨rfl, List.prefix_refl _, le_rfl, id, .refl _⟩

/-- An update that leaves those parts as they are, by computation. -/
theorem Lasts.upd {t : State} (h : Lasts u s) (e : lasting t = lasting s := by rfl) : Lasts u t := by
  simp only [lasting, Prod.mk.injEq] at e
  obtain ⟨hp, he, hf, hm, hs⟩ := e
  exact ⟨hp ▸ h.pending, he ▸ h.emitted, hf ▸ h.free, hm ▸ h.mem, hs ▸ h.fuses⟩

theorem Lasts.ite {p : Prop} [Decidable p] {a b : State} (ha : Lasts u a) (hb : Lasts u b) : Lasts u (if p then a else b) := by
  split
  · exact ha
  · exact hb

/-- A step whose several uses share one fact. -/
theorem Lasts.pipe {P : Prop} (h : Lasts u s) (hp : Lasts u s → P) : P := hp h

/-- A change made under a condition. -/
theorem Lasts.when {p : Prop} [Decidable p] {t : State} (h : Lasts u s) (ht : Lasts u s → Lasts u t) : Lasts u (if p then t else s) :=
  .ite (ht h) h

theorem Lasts.ite_fst {α : Type} {p : Prop} [Decidable p] {a b : State × α} (ha : Lasts u a.1) (hb : Lasts u b.1) :
    Lasts u (if p then a else b).1 := by
  split
  · exact ha
  · exact hb

theorem Lasts.ite_snd {α : Type} {p : Prop} [Decidable p] {a b : α × State} (ha : Lasts u a.2) (hb : Lasts u b.2) :
    Lasts u (if p then a else b).2 := by
  split
  · exact ha
  · exact hb

theorem AnsLasts.ite {p : Prop} [Decidable p] {a b : Ans} (ha : AnsLasts u a) (hb : AnsLasts u b) : AnsLasts u (if p then a else b) := by
  split
  · exact ha
  · exact hb

theorem ActLasts.ite {p : Prop} [Decidable p] {a b : Ans ⊕ State} (ha : ActLasts u a) (hb : ActLasts u b) :
    ActLasts u (if p then a else b) := by
  split
  · exact ha
  · exact hb

theorem EntryLasts.ite {p : Prop} [Decidable p] {a b : EntryOut} (ha : EntryLasts u a) (hb : EntryLasts u b) :
    EntryLasts u (if p then a else b) := by
  split
  · exact ha
  · exact hb

theorem IoLasts.ite {p : Prop} [Decidable p] {a b : IoOut} (ha : IoLasts u a) (hb : IoLasts u b) : IoLasts u (if p then a else b) := by
  split
  · exact ha
  · exact hb

theorem Ends.ite {p : Prop} [Decidable p] {a b : Out} (ha : Ends u a) (hb : Ends u b) : Ends u (if p then a else b) := by
  split
  · exact ha
  · exact hb

theorem Lasts.next (h : Lasts u s) : Ends u (.next s) := ⟨s, rfl, h⟩
theorem Ends.next (h : Lasts u s) : Ends u (.next s) := h.next
theorem AnsLasts.inl {a : Ans} (h : AnsLasts u a) : ActLasts u (.inl a) :=
  ⟨fun _ e => Sum.inl.inj e ▸ h, fun _ e => absurd e (by simp)⟩

theorem Lasts.inr (h : Lasts u s) : ActLasts u (.inr s) :=
  ⟨fun _ e => absurd e (by simp), fun _ e => Sum.inr.inj e ▸ h⟩

theorem AnsLasts.res {a : Ans} {res : Res} (h : AnsLasts u a) : AnsLasts u { a with res := res } := h
theorem EntryLasts.park : EntryLasts u .park := ⟨fun _ _ e => EntryOut.noConfusion e⟩

theorem Lasts.done {st : Nat} (h : Lasts u s) : EntryLasts u (.done st s) :=
  ⟨fun _ _ e => (EntryOut.done.inj e).2 ▸ h⟩


theorem Lasts.foldl {β : Type} {g : State → β → State} {l : List β} (h : Lasts u s) (hg : ∀ {s b}, Lasts u s → Lasts u (g s b)) :
    Lasts u (l.foldl g s) := by
  induction l generalizing s with
  | nil => exact h
  | cons b r ih => exact ih (hg h)

theorem Lasts.foldl_snd {α β : Type} {g : α × State → β → α × State} {l : List β} {a : α}
    (hg : ∀ {p b}, Lasts u p.2 → Lasts u (g p b).2) (h : Lasts u s) : Lasts u (l.foldl g (a, s)).2 := by
  induction l generalizing a s with
  | nil => exact h
  | cons b r ih => exact ih (a := (g (a, s) b).1) (hg (p := (a, s)) h)

/-- Updates of other parts. -/
theorem Lasts.parts {regs live prevLive latch staged : Tab Word} {poison : List Nat} {memory : MemSt} {ridge : RidgeSt}
    {scribe : ScribeSt} {fab : FabSt} {tensors : TenSt} {out : OutSt} {mb : MbSt} {kp : KpSt} {recd : RecSt} {cam : CamSt}
    {net : NetSt} {ingest : List IngestRec} {plan : PlanSt} {raft : RaftSt} {ledger : LedSt} {plumb : PlumbSt} {tally : TallySt}
    {gov : GovSt} {power : PowerSt} {fw : FwSt} {yard : YardSt} (h : Lasts u s) : Lasts u ⟨regs, live, prevLive, latch, staged, s.mem,
    poison, memory, ridge, scribe, fab, tensors, out, mb, s.sec, kp, recd, cam, net, ingest, plan, raft, ledger, plumb, tally, gov,
    power, fw, yard, s.emitted, s.free, s.pending⟩ := h.upd

/-- Updates of other parts, and of the keys' part, that blow fuses. -/
theorem Lasts.blow {regs live prevLive latch staged : Tab Word} {poison : List Nat} {memory : MemSt} {ridge : RidgeSt}
    {scribe : ScribeSt} {fab : FabSt} {tensors : TenSt} {out : OutSt} {mb : MbSt} {kp : KpSt} {recd : RecSt} {cam : CamSt}
    {net : NetSt} {ingest : List IngestRec} {plan : PlanSt} {raft : RaftSt} {ledger : LedSt} {plumb : PlumbSt} {tally : TallySt}
    {gov : GovSt} {power : PowerSt} {fw : FwSt} {yard : YardSt} {fuses : Fuses} {check : Option Nat} {secret rekey : Tab Nat}
    {deciding : Option (List Nat)} {nonces : Nat} {serviceLevel2 : Bool} {revoke : Nat} {raised : Bool} {returnBy : Option Nat} (h :
    Lasts u s) (hf : FusesKept s.sec.fuses fuses) : Lasts u ⟨regs, live, prevLive, latch, staged, s.mem, poison, memory, ridge, scribe,
    fab, tensors, out, mb, ⟨fuses, check, secret, rekey, deciding, nonces, serviceLevel2, revoke, raised, returnBy⟩, kp, recd, cam,
    net, ingest, plan, raft, ledger, plumb, tally, gov, power, fw, yard, s.emitted, s.free, s.pending⟩ := ⟨h.pending, h.emitted,
    h.free, h.mem, h.fuses.trans hf⟩

end Sys2Proof.Machine
end

section
/-! SUPPORT. Operations keep what lasts: Ops, LedgerOps, PlanerDesc, MbOps, ScribeOps. -/

namespace Sys2Proof.Machine
open Sys2Proof
variable {u s : State}

/-! ### Machine/Ops -/

theorem Lasts.wr {r : Reg} {v : Nat} (h : Lasts u s) : Lasts u (Machine.wr r v s) :=
  h.parts

theorem Lasts.setFld {r : Reg} {hi lo v : Nat} (h : Lasts u s) : Lasts u (Machine.setFld r hi lo v s) :=
  h.wr

theorem Lasts.incFld {r : Reg} {hi lo n : Nat} (h : Lasts u s) : Lasts u (Machine.incFld r hi lo n s) :=
  h.setFld

theorem Lasts.inc {r : Reg} (h : Lasts u s) : Lasts u (Machine.inc r s) :=
  h.incFld

theorem Lasts.setMask {r : Reg} {mask : Nat} (h : Lasts u s) : Lasts u (Machine.setMask r mask s) :=
  h.wr

theorem Lasts.clearMask {r : Reg} {mask : Nat} (h : Lasts u s) : Lasts u (Machine.clearMask r mask s) :=
  h.wr

theorem Lasts.wr64 {lo hi : Reg} {v : Nat} (h : Lasts u s) : Lasts u (Machine.wr64 lo hi v s) :=
  h.wr.wr

theorem Lasts.setLive {r : Reg} {v : Nat} (h : Lasts u s) : Lasts u (Machine.setLive r v s) :=
  h.parts

theorem Lasts.setLiveNow {r : Reg} {v : Nat} (h : Lasts u s) : Lasts u (Machine.setLiveNow r v s) :=
  .ite h.setLive h.setLive.parts

theorem Lasts.setLiveEnable {r : Reg} {b : Nat} (h : Lasts u s) : Lasts u (Machine.setLiveEnable r b s) :=
  .ite h.setLive h.setLive.parts

theorem Lasts.emit {e : Emission} (h : Lasts u s) : Lasts u (Machine.emit e s) :=
  { h with emitted := h.emitted.trans (List.prefix_append ..) }

theorem Lasts.takeFree {n : Nat} (h : Lasts u s) : Lasts u (Machine.takeFree n s) :=
  { h with free := Nat.le_add_right_of_le h.free }

theorem Lasts.writeMem {w : MemWrite} (h : Lasts u s) : Lasts u (Machine.writeMem w s) :=
  { h with mem := fun hu => wf_writeMem w (h.mem hu) }

theorem Lasts.writeBytes {a : Nat} {bs : List Byte} (h : Lasts u s) : Lasts u (Machine.writeBytes a bs s) :=
  h.writeMem

theorem Lasts.writeFree {a n : Nat} (h : Lasts u s) : Lasts u (Machine.writeFree a n s) :=
  h.writeBytes.takeFree

theorem Lasts.zeroRange {a n : Nat} (h : Lasts u s) : Lasts u (Machine.zeroRange a n s) :=
  { h with mem := fun hu => wf_zeroRange a n (h.mem hu) }

theorem Lasts.msix {f v : Nat} (h : Lasts u s) : Lasts u (Machine.msix f v s) :=
  .ite h.emit h

theorem Lasts.notice {f mask : Nat} (h : Lasts u s) : Lasts u (Machine.notice f mask s) :=
  .ite h.setMask.msix h.setMask

theorem Lasts.noticeOpen {mask : Nat} (h : Lasts u s) : Lasts u (Machine.noticeOpen mask s) :=
  h.foldl (fun h => .ite h.notice h)

theorem Lasts.notifyEvent {code : Nat} (h : Lasts u s) : Lasts u (Machine.notifyEvent code s) :=
  h.foldl (fun h => .ite h.msix h)

theorem Lasts.occur {code arg extra : Nat} (h : Lasts u s) : Lasts u (Machine.occur code arg extra s) :=
  .ite h.parts.inc.setFld.setFld.wr.wr.notifyEvent h.parts.inc.setFld.setFld.inc

theorem Lasts.raiseX {code arg extra : Nat} (h : Lasts u s) : Lasts u (Machine.raiseX code arg extra s) :=
  .ite h.occur.occur h.occur

theorem Lasts.raise {code arg : Nat} (h : Lasts u s) : Lasts u (Machine.raise code arg s) :=
  h.raiseX

theorem Lasts.queueSafeMessage (h : Lasts u s) : Lasts u (Machine.queueSafeMessage s) :=
  .ite h.parts.setFld h

theorem Lasts.drivePair {valid : Bool} {reason : Nat} (h : Lasts u s) : Lasts u (Machine.drivePair valid reason s) :=
  .ite h h.setFld.setFld.setFld.inc.wr64.raise.emit.queueSafeMessage

theorem Lasts.updatePair (h : Lasts u s) : Lasts u (Machine.updatePair s) :=
  .ite h.drivePair (.ite h.drivePair h.setFld)

theorem Lasts.enterSafe {f cause : Nat} (h : Lasts u s) : Lasts u (Machine.enterSafe f cause s) :=
  .ite h h.wr64.setFld.inc.parts.setMask.setFld.parts.raise.updatePair

theorem Lasts.faultX {f cause : Nat} (h : Lasts u s) : Lasts u (Machine.faultX f cause s) :=
  .when (.ite h.incFld.setMask.setMask h.incFld.setMask) (fun h2 => h2.enterSafe)

theorem Lasts.fault {f : Nat} (h : Lasts u s) : Lasts u (Machine.fault f s) :=
  h.faultX

theorem Lasts.faultEnds {f : Nat} (h : Lasts u s) : Lasts u (Machine.faultEnds f s) :=
  h.clearMask

theorem Lasts.refuseLine {tag line agent : Nat} {write : Bool} (h : Lasts u s) : Lasts u (Machine.refuseLine tag line agent write s) :=
  Lasts.pipe (.ite h.inc.incFld h.inc) (fun h2 => .ite h2 (.when (.fault (.raise (.parts (.ite h2 h2.wr.wr64)))) (fun h4 =>
      h4.parts.setMask.raise)))

theorem Lasts.refuseLines {tag a n agent : Nat} {write : Bool} (h : Lasts u s) : Lasts u (Machine.refuseLines tag a n agent write s) :=
  h.foldl (fun h => .ite h h.refuseLine)

theorem Lasts.checkerTest {c : Nat} {correct : Bool} (h : Lasts u s) : Lasts u (Machine.checkerTest c correct s) :=
  .ite (.fault (.ite h.parts.setMask h.parts.setMask.raise)) (.ite (.ite h.parts (h.parts.clearMask.raise.when (fun h2 => h2.faultEnds)))
      h)

theorem Lasts.poisonRead {w : Nat} (h : Lasts u s) : Lasts u (Machine.poisonRead w s) :=
  .ite h.inc.setMask.raise h.inc.setMask.raise

theorem Lasts.noteRead {tag a n agent : Nat} (h : Lasts u s) : Lasts u (Machine.noteRead tag a n agent s) :=
  h.refuseLines.foldl (fun h => .ite h.poisonRead h)

theorem Lasts.noteSpans {tag agent : Nat} {spans : List (Nat × Nat)} (h : Lasts u s) : Lasts u (Machine.noteSpans tag agent spans s) :=
  Lasts.foldl (h.foldl (fun h => .ite h h.refuseLine)) (fun h => .ite h.poisonRead h)

theorem Lasts.fencedWrite {tag agent : Nat} {w : MemWrite} (h : Lasts u s) : Lasts u (Machine.fencedWrite tag agent w s) :=
  .ite h.inc.refuseLines (.ite h.writeMem (h.foldl (fun h => .ite h.writeMem h.refuseLine)))

theorem Lasts.copyMem {tag agent a b n : Nat} (h : Lasts u s) : Lasts u (Machine.copyMem tag agent a b n s) :=
  h.noteRead.foldl (fun h => h.fencedWrite)

theorem Lasts.histo {id bin : Nat} (h : Lasts u s) : Lasts u (Machine.histo id bin s) :=
  h.parts

theorem Lasts.extreme {k : Nat} {v : Int} (h : Lasts u s) : Lasts u (Machine.extreme k v s) :=
  h.parts

/-! ### Machine/LedgerOps -/

theorem Lasts.putPage {p : Nat} {x : Page} (h : Lasts u s) : Lasts u (Machine.putPage p x s) :=
  h.parts

theorem Lasts.modPage {p : Nat} {f : Page → Page} (h : Lasts u s) : Lasts u (Machine.modPage p f s) :=
  h.putPage

theorem Lasts.freePage {p : Nat} (h : Lasts u s) : Lasts u (Machine.freePage p s) :=
  h.modPage

theorem Lasts.labDrop {keep : Nat × Nat × Nat → Bool} (h : Lasts u s) : Lasts u (Machine.labDrop keep s) :=
  h.parts

theorem Lasts.labDropPage {p : Nat} (h : Lasts u s) : Lasts u (Machine.labDropPage p s) :=
  h.labDrop

theorem Lasts.dropPage {p : Nat} (h : Lasts u s) : Lasts u (Machine.dropPage p s) :=
  h.putPage.labDropPage.inc.setMask.raise

theorem Lasts.findSlot {c k serial : Nat} {prov dropEn : Bool} {t : State} (h : Lasts u s)
    (e : Machine.findSlot c prov dropEn serial s = some (k, t)) : Lasts u t := by
  unfold Machine.findSlot at e
  split at e
  · cases e
    exact h
  · split at e
    · cases e
    · split at e
      · cases e
      · obtain ⟨_, _, e⟩ := Option.map_eq_some_iff.1 e
        cases e
        exact h.dropPage

theorem Lasts.dropRefNow {p : Nat} (h : Lasts u s) : Lasts u (Machine.dropRefNow p s) := by
  refine .ite h.putPage ?_
  split
  · exact .ite h.putPage.freePage h.putPage.putPage.labDropPage
  · exact h.putPage.freePage
  · exact h.putPage.putPage
  · exact h.putPage

theorem Lasts.pinPage {p : Nat} (h : Lasts u s) : Lasts u (Machine.pinPage p s) :=
  h.modPage

theorem Lasts.unpinPage {p : Nat} (h : Lasts u s) : Lasts u (Machine.unpinPage p s) :=
  .ite h (.ite h.putPage.freePage h.putPage)

theorem Lasts.releasePins {keep : LedPin → Bool} (h : Lasts u s) : Lasts u (Machine.releasePins keep s) :=
  h.parts.foldl (fun h => h.foldl (fun h => h.unpinPage))

theorem Lasts.logOp {i : Nat} {o : LogOp} (h : Lasts u s) : Lasts u (Machine.logOp i o s) :=
  h.parts

theorem Lasts.setSeq {i q : Nat} {prov : Bool} {e : Option Seq} (h : Lasts u s) : Lasts u (Machine.setSeq i q prov e s) := by
  refine .ite h.logOp.parts ?_
  dsimp only
  split
  · exact h.labDrop.parts
  · exact h.labDrop.parts

theorem Lasts.addRef {i p : Nat} {prov : Bool} (h : Lasts u s) : Lasts u (Machine.addRef i p prov s) :=
  .ite h.logOp h.modPage

theorem Lasts.dropRef {i p : Nat} {prov : Bool} (h : Lasts u s) : Lasts u (Machine.dropRef i p prov s) :=
  .ite h.logOp h.dropRefNow

theorem Lasts.applyLog {o : LogOp} (h : Lasts u s) : Lasts u (Machine.applyLog o s) := by
  unfold Machine.applyLog
  split
  · exact h.modPage
  · exact h.modPage
  · exact h.dropRefNow
  · exact h.setSeq
  · exact .ite h.putPage.labDropPage h

theorem Lasts.unhold {i : Nat} (h : Lasts u s) : Lasts u (Machine.unhold i s) :=
  h.parts

theorem Lasts.commitLedger {i : Nat} {x : Inst} (h : Lasts u s) : Lasts u (Machine.commitLedger i x s) :=
  .unhold (h.foldl (fun h => h.applyLog))

theorem Lasts.discardLedger {i : Nat} {x : Inst} (h : Lasts u s) : Lasts u (Machine.discardLedger i x s) := by
  refine .releasePins (.unhold (.parts (h.foldl (fun h => ?_))))
  split
  · exact .ite h.freePage h
  · exact h

theorem Lasts.stopLedger {i : Nat} (h : Lasts u s) : Lasts u (Machine.stopLedger i s) :=
  h.parts

/-! ### Machine/PlanerDesc -/

theorem Lasts.planerStage {addr : Nat} (h : Lasts u s) : Lasts u (Machine.planerStage addr s).2 := by
  unfold Machine.planerStage
  dsimp only
  split
  · exact h.parts
  · exact h.wr.setMask.raise

/-! ### Machine/MbOps -/

theorem Lasts.wrWord {a v : Nat} (h : Lasts u s) : Lasts u (Machine.wrWord a v s) :=
  h.wr

theorem Lasts.wrBytes {a : Nat} {bs : List Byte} (h : Lasts u s) : Lasts u (Machine.wrBytes a bs s) := by
  rw [wrBytes_eq]
  exact h.parts

theorem Lasts.answerX {f k flags status detail : Nat} {res : Res} (h : Lasts u s) :
    Lasts u (Machine.answerX f k flags status detail res s) := by
  unfold Machine.answerX
  dsimp only
  split
  · exact h
  · exact .ite h.parts (.ite h.parts.wrBytes.clearMask.setMask.inc.msix h.parts.wrBytes.clearMask.setMask.inc)

theorem Lasts.answer {f k status detail : Nat} {res : Res} (h : Lasts u s) : Lasts u (Machine.answer f k status detail res s) :=
  h.answerX

theorem Lasts.ok {res : Res} (h : Lasts u s) : AnsLasts u (Machine.ok res s) :=
  h

theorem Lasts.no {status detail : Nat} (h : Lasts u s) : AnsLasts u (Machine.no status detail s) :=
  h

theorem Lasts.immediate {f k op : Nat} {act : State → Ans} (h : Lasts u s) (hact : ∀ {s}, Lasts u s → AnsLasts u (act s)) :
    Lasts u (Machine.immediate f k op act s) :=
  .ite (.answer (hact h)) h

theorem Lasts.deferred {f k op : Nat} {act : State → Ans ⊕ State} (h : Lasts u s) (hact : ∀ {s}, Lasts u s → ActLasts u (act s)) :
    Lasts u (Machine.deferred f k op act s) := by
  have ha := hact h
  refine .ite ?_ h
  split
  · next e => exact .answer (ha.refused _ e)
  · next e => exact ha.begun _ e

theorem Lasts.finish {f k status detail : Nat} {res : Res} (h : Lasts u s) : Lasts u (Machine.finish f k status detail res s) :=
  .ite h.answer h.parts

theorem Lasts.setForemanUp {up : Bool} (h : Lasts u s) : Lasts u (Machine.setForemanUp up s) :=
  h.parts.setFld

theorem Lasts.badParam {op i : Nat} (h : Lasts u s) : AnsLasts u (Machine.badParam op i s) :=
  h.no

/-! ### Machine/ScribeOps -/

theorem Lasts.setInst {i : Nat} {x : Inst} (h : Lasts u s) : Lasts u (Machine.setInst i x s) :=
  h.parts

theorem Lasts.modInst {i : Nat} {f : Inst → Inst} (h : Lasts u s) : Lasts u (Machine.modInst i f s) :=
  h.parts

theorem Lasts.enqueue {w : Work} (h : Lasts u s) : Lasts u (Machine.enqueue w s) :=
  h.parts

theorem Lasts.freeRuns {mine : Nat × Nat → Bool} (h : Lasts u s) : Lasts u (Machine.freeRuns mine s) :=
  h.parts

theorem Lasts.freeTrusses {i : Nat} (h : Lasts u s) : Lasts u (Machine.freeTrusses i s) :=
  h.freeRuns

theorem Lasts.freePages {i : Nat} (h : Lasts u s) : Lasts u (Machine.freePages i s) := by
  unfold Machine.freePages
  split
  · exact h
  · exact .modInst (h.foldl (fun h => h.wr))

theorem Lasts.stopUnits {i : Nat} (h : Lasts u s) : Lasts u (Machine.stopUnits i s) :=
  .when (.ite h.stopLedger.parts.setFld h.stopLedger) (fun h2 => h2.parts.setFld)

theorem Lasts.ringReset {k : Nat} {r : Ring} (h : Lasts u s) : Lasts u (Machine.ringReset k r s) :=
  h.parts.incFld.inc.wr.parts.raise.fault

theorem Lasts.checkRing {k : Nat} {parity : Bool} (h : Lasts u s) : Lasts u (Machine.checkRing k parity s) := by
  unfold Machine.checkRing
  split
  · exact h
  · exact .when (.ite h.inc.raise h) (fun h1 => h1.ringReset)

theorem Lasts.upsetRing {k upset : Nat} (h : Lasts u s) : Lasts u (Machine.upsetRing k upset s) := by
  unfold Machine.upsetRing
  split
  · exact h
  · exact .ite h.ringReset h.checkRing

theorem Lasts.ringPeg {r : Ring} (h : Lasts u s) : Lasts u (Machine.ringPeg r s) := by
  unfold Machine.ringPeg
  split
  · exact h.enqueue
  · exact h

theorem Lasts.pushPlain {k tag agent : Nat} {e : List Byte} (h : Lasts u s) : Lasts u (Machine.pushPlain k tag agent e s) := by
  unfold Machine.pushPlain
  split
  · exact h
  · exact h.fencedWrite.parts.ringPeg

theorem Lasts.unitPush {k tag : Nat} {e : List Byte} (h : Lasts u s) : Lasts u (Machine.unitPush k tag e s).1 := by
  unfold Machine.unitPush
  dsimp only
  split
  · exact h.checkRing
  · exact .ite_fst h.checkRing h.checkRing.pushPlain

theorem Lasts.pushPacket {k tag agent n : Nat} {es : List (List Byte)} {truncated : Bool} (h : Lasts u s) :
    Lasts u (Machine.pushPacket k tag agent n es truncated s) := by
  unfold Machine.pushPacket
  split
  · exact h
  · exact Lasts.foldl (.parts (.fencedWrite (h.foldl (fun h => h.fencedWrite)))) (fun h => h.ringPeg)

theorem Lasts.popEntry {k tag agent : Nat} {bad : List Nat} {bs : List Byte} {p : Bool} {t : State} (h : Lasts u s)
    (e : Machine.popEntry k tag agent bad s = some (bs, p, t)) : Lasts u t := by
  unfold Machine.popEntry at e
  split at e
  · cases e
  · split at e <;> cases e
    exact .parts (.ite h.noteRead h.noteRead.parts.raise)

theorem Lasts.sendSignals {dom : Nat} {nd : Node} {x : Inst} (h : Lasts u s) : Lasts u (Machine.sendSignals dom nd x s) :=
  h.foldl (fun h => .ite h (.ite h.msix h.enqueue))

theorem Lasts.pushRecord {g : Graph} {nd : Node} {x : Inst} (h : Lasts u s) : Lasts u (Machine.pushRecord g nd x s) := by
  unfold Machine.pushRecord
  split
  · exact h
  · exact .ite h.unitPush h.unitPush.inc

theorem Lasts.recheckNode {g node : Nat} (h : Lasts u s) : Lasts u (Machine.recheckNode g node s) :=
  h.foldl (fun h => h.enqueue)

theorem Lasts.finishInst {i : Nat} (h : Lasts u s) : Lasts u (Machine.finishInst i s) := by
  unfold Machine.finishInst
  split
  · exact h
  · refine .ite h.modInst ?_
    split
    · dsimp only
      split
      · refine .enqueue (.ite (.recheckNode (.incFld (.parts (.pushRecord (.sendSignals ?_))))) (.incFld (.parts (.pushRecord
          (.sendSignals ?_)))))
        · split
          · exact .ite h h.enqueue
          · exact h
        · split
          · exact .ite h h.enqueue
          · exact h
      · refine .ite (.recheckNode (.incFld (.parts (.pushRecord (.sendSignals ?_))))) (.incFld (.parts (.pushRecord (.sendSignals ?_))))
        · split
          · exact .ite h h.enqueue
          · exact h
        · split
          · exact .ite h h.enqueue
          · exact h
    · exact h.parts

theorem Lasts.spawnInst {g node n : Nat} (h : Lasts u s) : Lasts u (Machine.spawnInst g node n s) := by
  unfold Machine.spawnInst
  split
  · exact .ite h (.ite h.parts h.parts.setInst.enqueue)
  · exact h

theorem Lasts.skipInst {i : Nat} {x : Inst} (h : Lasts u s) : Lasts u (Machine.skipInst i x s) :=
  h.inc.raise.freePages.freeTrusses.setInst.enqueue.enqueue

theorem Lasts.resolve {i : Nat} {st : IState} (h : Lasts u s) : Lasts u (Machine.resolve i st s) :=
  h.parts.modInst

theorem Lasts.beginDiscard {i : Nat} {x : Inst} (h : Lasts u s) : Lasts u (Machine.beginDiscard i x s) :=
  h.setInst.freeTrusses.stopUnits.resolve

theorem Lasts.beginRun {i k : Nat} (h : Lasts u s) : Lasts u (Machine.beginRun i k s) := by
  unfold Machine.beginRun
  split
  · exact h
  · exact .ite h.setInst (.enqueue (.parts (.ite h.setInst.inc.inc h.setInst.inc)))

theorem Lasts.endRun {i k completion : Nat} (h : Lasts u s) : Lasts u (Machine.endRun i k completion s) := by
  unfold Machine.endRun
  split
  · exact h
  · dsimp only
    split
    · exact h.setInst.freeRuns
    · refine .ite h.setInst.freeRuns ?_
      split
      · exact h.setInst.freeRuns.enqueue
      · exact .ite h.setInst.freeRuns.modInst h.setInst.freeRuns.resolve
      · exact h.setInst.freeRuns

theorem Lasts.checkInst {i : Nat} (h : Lasts u s) : Lasts u (Machine.checkInst i s) := by
  unfold Machine.checkInst
  split
  · exact h
  split
  · refine .ite h ?_
    have hs {x : Inst} {l : List Nat} : Lasts u (Machine.setInst i x
        (l.foldl (fun s p => Machine.raise 0x8005 p (Machine.inc SCRIBE_VERDICT_EXPIRED s)) s)) :=
      (h.foldl fun h => h.inc.raise).setInst
    dsimp only
    split
    · exact .ite hs.skipInst (.ite (.ite hs.setInst.beginRun.endRun (.ite hs.setInst (.modInst (.ite hs hs.freePages)))) hs)
    · exact .ite hs.skipInst (.ite (.ite hs.setInst.beginRun.endRun (.ite hs.setInst (.modInst (.ite hs hs.freePages)))) hs)
    · exact .ite hs.beginDiscard (.ite hs.resolve hs)
    · exact .ite hs.beginDiscard (.ite hs.resolve hs)
    · exact hs
    · exact hs
  · exact h

theorem Lasts.reachWait {key : Nat} {w : MbWait} {pg : Peg} (h : Lasts u s) : Lasts u (Machine.reachWait key w pg s) :=
  Lasts.pipe (.ite h.inc.raise h) (fun h1 => .ite (.ite h1.parts.notice h1.parts.notice.msix) (.ite h1.parts.parts.answer h1.parts))

theorem Lasts.applyAdd {p amount verdict : Nat} (h : Lasts u s) : Lasts u (Machine.applyAdd p amount verdict s) := by
  unfold Machine.applyAdd
  split
  · exact h.inc
  · exact .ite h.inc (.parts (Lasts.foldl (.parts (.parts (.ite h.inc.raise h))) (fun h => .ite h.reachWait h)))

theorem Lasts.drain {n : Nat} (h : Lasts u s) : Lasts u (Machine.drain n s) := by
  induction n generalizing s with
  | zero => exact h
  | succ n ih =>
    unfold Machine.drain
    split
    · exact h
    · exact ih (by split; exacts [h.parts.applyAdd, h.parts.checkInst, h.parts.spawnInst, h.parts.finishInst])

theorem Lasts.settle (h : Lasts u s) : Lasts u (Machine.settle s) :=
  h.drain

theorem Lasts.pegAdd {p amount verdict : Nat} (h : Lasts u s) : Lasts u (Machine.pegAdd p amount verdict s) :=
  h.enqueue.settle

theorem Lasts.unitPegAdd {p verdict : Nat} (h : Lasts u s) : Lasts u (Machine.unitPegAdd p verdict s) :=
  h.pegAdd

theorem Lasts.unitSignal {p verdict : Nat} {record : List Byte} (h : Lasts u s) : Lasts u (Machine.unitSignal p verdict record s) :=
  h.parts.unitPegAdd

theorem Lasts.unitPushS {k : Nat} {e : List Byte} (h : Lasts u s) : Lasts u (Machine.unitPushS k e s).1 :=
  h.unitPush.settle

theorem Lasts.dropHeld {x : Inst} (h : Lasts u s) : Lasts u (Machine.dropHeld x s) :=
  h.foldl (fun h => h.parts)

theorem Lasts.applyWrites {dom agent bay : Nat} {binds : List Bind} {ws : List HeldWrite} (h : Lasts u s) :
    Lasts u (Machine.applyWrites dom agent bay binds ws s) := by
  refine h.foldl (fun h => ?_)
  split
  · exact h.fencedWrite
  · exact h

theorem Lasts.freeOutputs {dom bay : Nat} {binds : List Bind} (h : Lasts u s) : Lasts u (Machine.freeOutputs dom bay binds s) := by
  refine h.foldl (fun h => ?_)
  split
  · exact h
  · exact h.fencedWrite.takeFree

theorem Lasts.releaseWrites {i k : Nat} (h : Lasts u s) : Lasts u (Machine.releaseWrites i k s) := by
  unfold Machine.releaseWrites
  split
  · exact .ite h.freeOutputs h.applyWrites
  · exact h

theorem Lasts.releasePushes {i k : Nat} (h : Lasts u s) : Lasts u (Machine.releasePushes i k s) := by
  unfold Machine.releasePushes
  split
  · exact h.foldl (fun h => .ite h.pushPacket (h.foldl (fun h => h.pushPlain)))
  · exact h

theorem Lasts.releaseRun {i k : Nat} (h : Lasts u s) : Lasts u (Machine.releaseRun i k s) :=
  h.releaseWrites.releasePushes

theorem Lasts.discardEffects {i : Nat} (h : Lasts u s) : Lasts u (Machine.discardEffects i s) := by
  unfold Machine.discardEffects
  split
  · exact h
  · exact Lasts.pipe (.ite h.freePages.discardLedger.parts.setFld h.freePages.discardLedger) (fun h2 => .raise (.ite
      h2.dropHeld.modInst.inc h2.dropHeld.modInst))

theorem Lasts.abortInst {i : Nat} (h : Lasts u s) : Lasts u (Machine.abortInst i s) := by
  unfold Machine.abortInst
  split
  · exact h
  · split
    · exact h.freePages.freeTrusses.parts
    · exact h.freePages.freeTrusses.parts
    · exact h.freePages.freeTrusses.parts
    · exact .ite h (h.setInst.freeTrusses.stopUnits.pipe (fun h4 => .ite h4.parts.modInst.discardEffects.enqueue (.enqueue (h4.parts.foldl
        (fun h => .ite h.releaseRun h)))))
    · exact .ite h (h.setInst.freeTrusses.stopUnits.pipe (fun h7 => .ite h7.parts.modInst.discardEffects.enqueue (.enqueue (h7.parts.foldl
        (fun h => .ite h.releaseRun h)))))
    · exact .ite h (h.setInst.freeTrusses.stopUnits.pipe (fun h10 => .ite h10.parts.modInst.discardEffects.enqueue (.enqueue
        (h10.parts.foldl (fun h => .ite h.releaseRun h)))))
    · exact .ite h (h.setInst.freeTrusses.stopUnits.pipe (fun h13 => .ite h13.parts.modInst.discardEffects.enqueue (.enqueue
        (h13.parts.foldl (fun h => .ite h.releaseRun h)))))
    · exact .ite h (h.setInst.freeTrusses.stopUnits.pipe (fun h16 => .ite h16.parts.modInst.discardEffects.enqueue (.enqueue
        (h16.parts.foldl (fun h => .ite h.releaseRun h)))))
    · exact h
    · exact h

theorem Lasts.stopGraph {g : Nat} (h : Lasts u s) : Lasts u (Machine.stopGraph g s) :=
  .releasePins (h.parts.foldl (fun h => h.abortInst))

theorem Lasts.abortGraph {g : Nat} (h : Lasts u s) : Lasts u (Machine.abortGraph g s) :=
  .settle (h.parts.stopGraph.foldl (fun h => h.abortInst))

theorem Lasts.abortDomain {d : Nat} (h : Lasts u s) : Lasts u (Machine.abortDomain d s) :=
  h.foldl (fun h => h.abortGraph)

theorem Lasts.resumeGraph {g : Nat} (h : Lasts u s) : Lasts u (Machine.resumeGraph g s) := by
  unfold Machine.resumeGraph
  split
  · exact h
  · exact .settle (h.parts.foldl (fun h => h.enqueue))

theorem Lasts.startGraph {g t0 : Nat} (h : Lasts u s) : Lasts u (Machine.startGraph g t0 s) := by
  unfold Machine.startGraph
  split
  · exact h
  · exact .settle (h.parts.foldl (fun h => h.enqueue))

theorem Lasts.unitWrite {i dom a : Nat} {bs : List Byte} {poison : Bool} (h : Lasts u s) :
    Lasts u (Machine.unitWrite i dom a bs poison s) := by
  unfold Machine.unitWrite
  split
  · exact .ite h.modInst h.fencedWrite
  · exact h.fencedWrite

theorem Lasts.refuseUnit {i status : Nat} (h : Lasts u s) : Lasts u (Machine.refuseUnit i status s) :=
  h.beginRun.endRun.settle

end Sys2Proof.Machine
end

section
/-! SUPPORT. Operations keep what lasts: RaftDesc, TallyDesc, Registers, CameraOps, Camera, NetOps, OutOps, FenceOps, Network. -/

namespace Sys2Proof.Machine
open Sys2Proof
variable {u s : State}

/-! ### Machine/RaftDesc -/

theorem Lasts.raftStage {addr : Nat} (h : Lasts u s) : Lasts u (Machine.raftStage addr s).2 := by
  unfold Machine.raftStage
  dsimp only
  split
  · exact h.noteRead.parts
  · exact h.noteRead.wr.setMask.raise

theorem Lasts.raftSwitch {d : List Byte} (h : Lasts u s) : Lasts u (Machine.raftSwitch d s) :=
  h.parts.setFld

/-! ### Machine/TallyDesc -/

theorem Lasts.tallyStage {addr : Nat} (h : Lasts u s) : Lasts u (Machine.tallyStage addr s).2 := by
  unfold Machine.tallyStage
  dsimp only
  split
  · exact h.noteRead.parts
  · exact h.noteRead.wr.setMask.raise

theorem Lasts.tallySwitch {d : List Byte} {wasOn : Bool} (h : Lasts u s) : Lasts u (Machine.tallySwitch d wasOn s) :=
  h.parts.parts

/-! ### Machine/Registers -/

theorem Lasts.ignoredWrite {f a : Nat} {locked : Bool} {covered : Nat} (h : Lasts u s) :
    Lasts u (Machine.ignoredWrite f a locked covered s) := by
  refine .ite h.inc ?_
  split
  · exact h
  · exact .ite h.inc h.inc.wr

theorem Lasts.hwAlone {a : Nat} {hw : List HwUpdate} (h : Lasts u s) : Lasts u (Machine.hwAlone a hw s) := by
  unfold Machine.hwAlone
  split
  · exact .ite h h.wr
  · exact h

theorem Lasts.commitWord {a w : Nat} (h : Lasts u s) : Lasts u (Machine.commitWord a w s) := by
  refine .ite h.parts ?_
  split
  · exact .ite (.when (.wr (.ite h.parts.wr.setLiveNow h.parts.wr)) (fun h2 => h2.setLiveNow)) (.ite h.wr.setLiveNow h.wr)
  · exact .ite h.wr.setLiveNow h.wr

theorem Lasts.limitInc (h : Lasts u s) : Lasts u (Machine.limitInc s) :=
  .ite h h.parts

theorem Lasts.postWrite {a : Nat} (h : Lasts u s) : Lasts u (Machine.postWrite a s) := by
  refine .ite h.planerStage (.ite h.raftStage (.ite h.tallyStage (.ite h.limitInc ?_)))
  split
  · exact h.setLiveEnable
  · exact .ite (.ite h.setLiveEnable.wr h.setLiveEnable) h.setLiveEnable.setFld
  · exact .ite h h.parts.setFld.setFld
  · exact h

theorem Lasts.acceptWrite {a v : Nat} {hw : List HwUpdate} (h : Lasts u s) : Lasts u (Machine.acceptWrite a v hw s) := by
  unfold Machine.acceptWrite
  split
  · exact h.ignoredWrite
  · exact Lasts.pipe (.ite h.ignoredWrite h) (fun h1 => .ite h1.commitWord.postWrite h1.hwAlone)

theorem Lasts.pageWrite {f a v : Nat} {hw : List HwUpdate} (h : Lasts u s) : Lasts u (Machine.pageWrite f a v hw s) := by
  refine .ite ?_ (.ite h.ignoredWrite h.wrWord)
  split
  · exact h.ignoredWrite
  · exact .wr (.ite h.ignoredWrite h)

theorem Lasts.write32 {f a v : Nat} {hw : List HwUpdate} (h : Lasts u s) : Lasts u (Machine.write32 f a v hw s) := by
  refine .ite (.ite h.pageWrite (.ite h.inc h)) (.ite h ?_)
  split
  · exact h
  · refine .ite h.ignoredWrite (.ite h ?_)
    split
    · exact h.ignoredWrite
    · refine .ite h.hwAlone.ignoredWrite (.ite (.ite h.ignoredWrite (h.blow (.refl _))) (.ite (.ite h.ignoredWrite (h.blow (.refl _)))
        ?_))
      split
      · exact h.hwAlone.ignoredWrite
      · exact h.acceptWrite

theorem Lasts.execRegisterWrite {function addr size value : Nat} {hw : List HwUpdate} (h : Lasts u s) :
    Ends u (Machine.execRegisterWrite function addr size value hw s) :=
  .ite h.next (.next (h.foldl (fun h => .ite h.write32 (.ite h.hwAlone.ignoredWrite h))))

theorem Lasts.execRcRead {function addr size : Nat} {hw : List HwUpdate} (h : Lasts u s) :
    Ends u (Machine.execRcRead function addr size hw s) := by
  refine .ite h.next ?_
  split
  · exact h.next
  · exact .next (.emit (h.wr.foldl (fun h => h.wr)))

theorem Lasts.execLowWordReadLatch {function addr : Nat} (h : Lasts u s) : Ends u (Machine.execLowWordReadLatch function addr s) :=
  .ite h.next (.ite (.ite (.next (.emit (.ite h.parts.parts h.parts))) h.next) h.next)

/-! ### Machine/CameraOps -/

theorem Lasts.putCam {n : Nat} {c : Cam} (h : Lasts u s) : Lasts u (Machine.putCam n c s) :=
  h.parts

theorem Lasts.modCam {n : Nat} {f : Cam → Cam} (h : Lasts u s) : Lasts u (Machine.modCam n f s) :=
  h.putCam

theorem Lasts.closeFrame {n why : Nat} (h : Lasts u s) : Lasts u (Machine.closeFrame n why s) := by
  unfold Machine.closeFrame
  dsimp only
  split
  · exact h
  · refine .when (?_) (fun h2 => h2.unitPegAdd)
    split
    · exact h.putCam
    · exact h.putCam.fencedWrite

theorem Lasts.camLink {n : Nat} {up : Bool} (h : Lasts u s) : Lasts u (Machine.camLink n up s) :=
  .ite h (.ite h.modCam.setFld.setMask.raise h.clearMask.closeFrame.raise)

theorem Lasts.measurePort {n mv ma : Nat} (h : Lasts u s) : Lasts u (Machine.measurePort n mv ma s) :=
  h.setFld.setFld.wr

theorem Lasts.rampTo {n : Nat} (h : Lasts u s) : Lasts u (Machine.rampTo n s) :=
  .ite h (.ite (.ite h h.setFld) (.ite (.ite h (.ite h.setFld h.setFld)) (.ite h (.ite h.setFld h.setFld))))

theorem Lasts.putPocCtrl {n v : Nat} (h : Lasts u s) : Lasts u (Machine.putPocCtrl n v s) :=
  h.acceptWrite.rampTo

theorem Lasts.clearPocFault {n mask : Nat} (h : Lasts u s) : Lasts u (Machine.clearPocFault n mask s) :=
  .ite h.clearMask.clearMask.setFld.rampTo h.clearMask

theorem Lasts.camTrigger {mask instant : Nat} (h : Lasts u s) : Lasts u (Machine.camTrigger mask instant s) :=
  h.foldl (fun h => .ite (.modCam (.ite h.emit.inc.raise h.emit)) h)

/-! ### Machine/Camera -/

theorem Lasts.execPocCommand {port value : Nat} (h : Lasts u s) : Ends u (Machine.execPocCommand port value s) :=
  .next (.ite h h.putPocCtrl)

theorem Lasts.execPocRampComplete {port mv ma vpoc : Nat} (h : Lasts u s) : Ends u (Machine.execPocRampComplete port mv ma vpoc s) :=
  .ite h.next (.ite h.measurePort.wr.setFld.modCam.next (.ite h.measurePort.wr.setFld.next h.measurePort.wr.setFld.next))

theorem Lasts.execPocFaultDetected {port conditions : Nat} (h : Lasts u s) : Ends u (Machine.execPocFaultDetected port conditions s) :=
  .ite h.next (Lasts.pipe (.ite h.setMask.setMask.raise h.setMask.setMask) (fun h2 => Lasts.pipe (.ite h2 h2.raise) (fun h3 => .ite
      h3.setFld.measurePort.setFld.modCam.camLink.clearMask.raise.next h3.setFld.measurePort.setFld.modCam.camLink.next)))

theorem Lasts.execPocFaultClear {port value recur : Nat} (h : Lasts u s) : Ends u (Machine.execPocFaultClear port value recur s) :=
  .ite h.next h.modCam.setFld.clearPocFault.next

theorem Lasts.execPocAutoRetry {port : Nat} (h : Lasts u s) : Ends u (Machine.execPocAutoRetry port s) :=
  .ite h.next h.modCam.clearPocFault.next

theorem Lasts.execAphyPacketReceived {port attempts : Nat} {received : Bool} (h : Lasts u s) :
    Ends u (Machine.execAphyPacketReceived port attempts received s) :=
  .ite h.next (.next (.modCam (.ite h.incFld.inc (.ite h.incFld.inc h.incFld.inc))))

theorem Lasts.execAphyLockLoss {port : Nat} (h : Lasts u s) : Ends u (Machine.execAphyLockLoss port s) :=
  .next (.ite h h.camLink)

theorem Lasts.execAphyLinkUp {port : Nat} (h : Lasts u s) : Ends u (Machine.execAphyLinkUp port s) :=
  .ite h.next h.camLink.next

theorem Lasts.execCameraAbsentTimeout {port : Nat} (h : Lasts u s) : Ends u (Machine.execCameraAbsentTimeout port s) := by
  unfold Machine.execCameraAbsentTimeout
  split
  · exact h.next
  · exact .ite h.next h.modCam.setFld.raise.next

theorem Lasts.countEcc {n ecc : Nat} (h : Lasts u s) : Lasts u (Machine.countEcc n ecc s) :=
  .ite h.incFld (.ite h.incFld h)

theorem Lasts.execFrameStartReceived {port vc ecc stamp : Nat} {retransmitted : Bool} (h : Lasts u s) :
    Ends u (Machine.execFrameStartReceived port vc ecc stamp retransmitted s) :=
  .ite h.next (.ite h.countEcc.inc.next h.countEcc.closeFrame.putCam.next)

theorem Lasts.execLineReceived {port vc dt fate : Nat} {pixels : List Nat} (h : Lasts u s) :
    Ends u (Machine.execLineReceived port vc dt fate pixels s) := by
  refine .ite h.next (.ite (.next (.ite h.countEcc h.countEcc.inc)) ?_)
  dsimp only
  split
  · exact .ite (.next (.ite h.countEcc.inc h.countEcc)) (.ite (.next (.inc (.ite h.countEcc.inc h.countEcc))) (.next (.modCam (.inc (.ite
      h.countEcc.inc h.countEcc)))))
  · exact .ite (.ite (.next (.ite h.countEcc.inc h.countEcc)) (.next (.fencedWrite (.putCam (.ite h.countEcc.inc h.countEcc))))) (.ite
      (.next (.ite h.countEcc.inc h.countEcc)) (Lasts.pipe (.ite (.ite (.writeFree (.inc (.putCam (.ite h.countEcc.inc h.countEcc))))
      (.inc (.putCam (.ite h.countEcc.inc h.countEcc)))) (.fencedWrite (.putCam (.ite h.countEcc.inc h.countEcc)))) (fun h5 => .next (.ite
      h5.unitPegAdd h5))))

theorem Lasts.execFrameEndReceived {port vc ecc : Nat} (h : Lasts u s) : Ends u (Machine.execFrameEndReceived port vc ecc s) := by
  refine .ite h.next ?_
  dsimp only
  split
  · exact h.countEcc.next
  · exact .ite h.countEcc.modCam.next (.ite h.countEcc.inc.next h.countEcc.closeFrame.next)

theorem Lasts.execFrameTimeout {port : Nat} (h : Lasts u s) : Ends u (Machine.execFrameTimeout port s) := by
  unfold Machine.execFrameTimeout
  split
  · exact h.next
  · exact .ite h.closeFrame.next h.next

theorem Lasts.execPatternCheckDone {port : Nat} {pathFail testFail : Bool} (h : Lasts u s) :
    Ends u (Machine.execPatternCheckDone port pathFail testFail s) := by
  unfold Machine.execPatternCheckDone
  dsimp only
  split
  · exact h.next
  · exact Lasts.pipe (.ite h.putCam.incFld (.ite h.putCam.incFld.raise.fault h.putCam)) (fun h2 => Lasts.pipe (.ite h2.unitPushS
      h2.unitPushS.inc.raise) (fun h3 => Lasts.pipe (.ite h3.unitSignal.incFld.wr.histo.raise h3.unitSignal.incFld.wr.histo) (fun h7 =>
      Lasts.pipe (.ite h7.raise h7) (fun h8 => Lasts.pipe (.ite h8.raise h8) (fun h9 => .ite (.next (.checkerTest (.ite h9.inc.raise
      h9.inc))) h9.next)))))

theorem Lasts.execCamPortEnableWrite {port value : Nat} (h : Lasts u s) : Ends u (Machine.execCamPortEnableWrite port value s) :=
  .ite h.next (Lasts.pipe (.ite h.acceptWrite (.ite h.acceptWrite.setLiveEnable h.acceptWrite.setLiveNow)) (fun h2 => .ite h2.modCam.next
      (.ite h2.camLink.next h2.next)))

/-! ### Machine/NetOps -/

theorem Lasts.setQueue {p q : Nat} {l : List EthFrame} (h : Lasts u s) : Lasts u (Machine.setQueue p q l s) :=
  h.parts

theorem Lasts.enqueueFrame {p q : Nat} {f : EthFrame} (h : Lasts u s) : Lasts u (Machine.enqueueFrame p q f s) :=
  .ite h.inc h.setQueue

theorem Lasts.putGcl {p : Nat} {g : Gcl} (h : Lasts u s) : Lasts u (Machine.putGcl p g s) :=
  h.parts

theorem Lasts.sendFrame {p q : Nat} {bytes : List Byte} (h : Lasts u s) : Lasts u (Machine.sendFrame p q bytes s) :=
  h.parts.inc.emit

theorem Lasts.configChangeAt {now p : Nat} (h : Lasts u s) : Lasts u (Machine.configChangeAt now p s) :=
  .ite h h.setFld.setFld.putGcl

theorem Lasts.configChange {p : Nat} (h : Lasts u s) : Lasts u (Machine.configChange p s) :=
  h.configChangeAt

theorem Lasts.showGates {p : Nat} (h : Lasts u s) : Lasts u (Machine.showGates p s) :=
  h.setFld.setFld.setFld

theorem Lasts.egressRelease {p q : Nat} (h : Lasts u s) : Lasts u (Machine.egressRelease p q s) := by
  unfold Machine.egressRelease
  split
  · exact h
  · exact h.setQueue

theorem Lasts.gclMark {p t : Nat} (h : Lasts u s) : Lasts u (Machine.gclMark p t s) :=
  .ite h.ignoredWrite.ignoredWrite h.wr64.configChangeAt

theorem Lasts.putJig {p : Nat} {j : Jig} (h : Lasts u s) : Lasts u (Machine.putJig p j s) :=
  h.parts

theorem Lasts.modJig {p : Nat} {f : Jig → Jig} (h : Lasts u s) : Lasts u (Machine.modJig p f s) :=
  h.putJig

theorem Lasts.modSweep {p : Nat} {f : Sweep → Sweep} (h : Lasts u s) : Lasts u (Machine.modSweep p f s) :=
  h.modJig

theorem Lasts.scannerTest {p : Nat} {testFail : Bool} (h : Lasts u s) : Lasts u (Machine.scannerTest p testFail s) :=
  .checkerTest (.ite h.modJig.incFld.raise h.modJig.incFld)

theorem Lasts.closeSweep {p : Nat} {testFail : Bool} (h : Lasts u s) : Lasts u (Machine.closeSweep p testFail s) := by
  unfold Machine.closeSweep
  dsimp only
  split
  · exact h
  · exact Lasts.pipe (.ite h.putJig.unitPushS h.putJig.unitPushS.inc.raise) (fun h2 => Lasts.pipe (.ite h2.unitSignal.histo.raise
      h2.unitSignal.histo) (fun h4 => Lasts.pipe (.ite h4.raise h4) (fun h5 => Lasts.pipe (.ite h5.raise h5) (fun h6 => .scannerTest (.ite
      h6.raise h6)))))

theorem Lasts.openSweep {p number t : Nat} (h : Lasts u s) : Lasts u (Machine.openSweep p number t s) := by
  unfold Machine.openSweep
  exact h.modJig

theorem Lasts.takePoint {p : Nat} {base : Int} {pt : List Byte} (h : Lasts u s) : Lasts u (Machine.takePoint p base pt s) :=
  h.modSweep.modJig.parts

theorem Lasts.takePacket {p tRx : Nat} {testFail : Bool} {bs : List Byte} (h : Lasts u s) :
    Lasts u (Machine.takePacket p tRx testFail bs s) :=
  .ite h.inc (.when (.incFld (Lasts.foldl (.modSweep (.ite h.modJig.incFld.closeSweep.openSweep h.modJig.incFld)) (fun h => h.takePoint)))
      (fun h4 => h4.closeSweep))

theorem Lasts.sweepCommand {p param instant : Nat} (h : Lasts u s) : Lasts u (Machine.sweepCommand p param instant s) := by
  unfold Machine.sweepCommand
  split
  · exact h.inc
  · exact .ite h.inc h.modJig.sendFrame

theorem Lasts.queueCan {c k : Nat} {data : List Byte} (h : Lasts u s) : Lasts u (Machine.queueCan c k data s) :=
  h.parts

theorem Lasts.canMark {c k instant : Nat} (h : Lasts u s) : Lasts u (Machine.canMark c k instant s) := by
  unfold Machine.canMark
  split
  · exact h
  · exact h.queueCan

theorem Lasts.canState {c : Nat} (h : Lasts u s) : Lasts u (Machine.canState c s) :=
  .ite h (.ite h.setFld.inc.raise (.ite h.setFld.raise h.setFld))

theorem Lasts.pushSignal {rec_ : List Byte} (h : Lasts u s) : Lasts u (Machine.pushSignal rec_ s) :=
  .ite h.unitPushS.unitPegAdd h.unitPushS.inc

theorem Lasts.keepImu {x : ImuSample} (h : Lasts u s) : Lasts u (Machine.keepImu x s) :=
  h.parts

theorem Lasts.takeSignal {i : Nat} {e data : List Byte} {t : Nat} (h : Lasts u s) : Lasts u (Machine.takeSignal i e data t s) := by
  unfold Machine.takeSignal
  refine .ite h.inc.raise (.pushSignal ?_)
  have hr : ∀ {c : Prop} [Decidable c] {n a b : Nat} {t : State}, Lasts u t →
      Lasts u (if c then (a, Machine.takeFree n t) else (b, t)).2 :=
    fun h => .ite_snd h.takeFree h
  exact .when (.clearMask (.when (.when (.parts (hr (hr h))) (·.inc.raise)) (·.inc))) (·.keepImu)

/-! ### Machine/OutOps -/

theorem Lasts.putStream {k : Nat} {x : Stream} (h : Lasts u s) : Lasts u (Machine.putStream k x s) :=
  h.parts

theorem Lasts.modStream {k : Nat} {f : Stream → Stream} (h : Lasts u s) : Lasts u (Machine.modStream k f s) :=
  h.putStream

theorem Lasts.enterStream {k st run : Nat} (h : Lasts u s) : Lasts u (Machine.enterStream k st run s) :=
  .setFld (.setFld (.ite h.raise h))

theorem Lasts.missWindow {k cause : Nat} {safety verdictOnly : Bool} (h : Lasts u s) :
    Lasts u (Machine.missWindow k cause safety verdictOnly s) :=
  .when (.ite h.inc.raise (.ite h.inc.raise.enterStream h.inc.raise.enterStream)) (fun h2 => h2.faultX)

theorem Lasts.meetWindow {k recover : Nat} (h : Lasts u s) : Lasts u (Machine.meetWindow k recover s) := by
  unfold Machine.meetWindow
  split
  · exact h.enterStream
  · exact h.enterStream.updatePair
  · exact h

theorem Lasts.dropMessage {k : Nat} (h : Lasts u s) : Lasts u (Machine.dropMessage k s) :=
  h.incFld

theorem Lasts.settleLeaving {k : Nat} (h : Lasts u s) : Lasts u (Machine.settleLeaving k s) := by
  unfold Machine.settleLeaving
  dsimp only
  split
  · exact h
  · exact .ite h (.ite h.putStream h.putStream.inc)

theorem Lasts.putOutgoing {k : Nat} {m : Message} (h : Lasts u s) : Lasts u (Machine.putOutgoing k m s) :=
  h.modStream

theorem Lasts.segmentDone {k : Nat} {m : Message} {dropped : Bool} (h : Lasts u s) : Lasts u (Machine.segmentDone k m dropped s) :=
  .settleLeaving (.putOutgoing (.ite h.raise h))

theorem Lasts.disableStream {k : Nat} (h : Lasts u s) : Lasts u (Machine.disableStream k s) :=
  h.modStream.setFld.setFld.updatePair

theorem Lasts.latchStream {k : Nat} (h : Lasts u s) : Lasts u (Machine.latchStream k s) :=
  .ite (.ite h.setFld.disableStream h.setFld) (.ite h.setFld.putStream h.setFld.putStream.modStream.enterStream.updatePair)

theorem Lasts.discardQueued {k : Nat} (h : Lasts u s) : Lasts u (Machine.discardQueued k s) :=
  .ite h.putStream h.putStream.incFld.raise

/-! ### Machine/FenceOps -/

theorem Lasts.closeDomain {d : Nat} {kp : Bool} (h : Lasts u s) : Lasts u (Machine.closeDomain d kp s) :=
  .setMask (.ite h h.clearMask)

theorem Lasts.stopObjects {d : Nat} (h : Lasts u s) : Lasts u (Machine.stopObjects d s) :=
  Lasts.foldl (.ite h.abortDomain.parts.parts.setFld h.abortDomain.parts) (fun h => h.discardQueued)

theorem Lasts.quiesceDomain {d : Nat} {kp : Bool} (h : Lasts u s) : Lasts u (Machine.quiesceDomain d kp s) :=
  Lasts.pipe (.ite h.clearMask h) (fun h1 => .ite h1.setMask.notice.stopObjects h1.setMask)

theorem Lasts.settleDomain {d : Nat} (h : Lasts u s) : Lasts u (Machine.settleDomain d s) :=
  .ite h h.setMask.raise

theorem Lasts.resumeDomain {d : Nat} (h : Lasts u s) : Lasts u (Machine.resumeDomain d s) :=
  .ite h (Lasts.pipe (.ite h.parts.notice.stopObjects h) (fun h1 => .ite h1.clearMask.raise.notice h1.clearMask.raise))

theorem Lasts.raiseCounter (h : Lasts u s) : Lasts u (Machine.raiseCounter s) :=
  .raise (.setFld (Lasts.blow h ⟨le_max_left .., fun _ => bit_or_left, id, id, id⟩))

/-! ### Machine/Network -/

theorem Lasts.execGclConfigChange {port value : Nat} (h : Lasts u s) : Ends u (Machine.execGclConfigChange port value s) :=
  .ite h.next (.ite h.ignoredWrite.next h.acceptWrite.configChange.next)

theorem Lasts.execGclConfigApply {port : Nat} (h : Lasts u s) : Ends u (Machine.execGclConfigApply port s) := by
  unfold Machine.execGclConfigApply
  split
  · exact h.next
  · exact .ite h.next h.setFld.setFld.putGcl.showGates.next

theorem Lasts.execGateIntervalEnd {port : Nat} (h : Lasts u s) : Ends u (Machine.execGateIntervalEnd port s) :=
  .ite h.next (.ite h.putGcl.showGates.next (.ite h.next h.putGcl.showGates.next))

theorem Lasts.execEgressFrameStart {port queue : Nat} (h : Lasts u s) : Ends u (Machine.execEgressFrameStart port queue s) := by
  unfold Machine.execEgressFrameStart
  split
  · exact h.next
  · exact .ite h.next (.ite h.setQueue.inc.next (.ite (.ite h.setQueue.inc.next h.next) (.ite h.next h.setQueue.sendFrame.next)))

theorem Lasts.execCanTxStart {channel slot stamp : Nat} (h : Lasts u s) : Ends u (Machine.execCanTxStart channel slot stamp s) := by
  refine .ite h.next (.ite ?_ ?_)
  · split
    · exact h.next
    · exact .ite h.next h.parts.inc.emit.setFld.canState.next
  · split
    · exact h.next
    · refine .ite ?_ h.parts.inc.emit.setFld.canState.next
      split
      · exact h.parts.inc.emit.setFld.canState.queueCan.next
      · exact h.parts.inc.emit.setFld.canState.next

theorem Lasts.execEthFrameReceived {port stamp : Nat} {fcsOk : Bool} {frame : List Byte} (h : Lasts u s) :
    Ends u (Machine.execEthFrameReceived port stamp fcsOk frame s) := by
  refine .ite h.next (.ite h.inc.next (.ite h.inc.next (.ite h.next (.ite h.inc.next ?_))))
  split
  · exact .ite h.inc.inc.next (.ite h.inc.inc.modSweep.next h.inc.putJig.next)
  · split
    · exact h.inc.inc.next
    · exact .next (Lasts.foldl (.ite h.inc.inc h.inc) (fun h => .ite h.enqueueFrame h))

theorem Lasts.execEthLinkDown {port : Nat} {testFail : Bool} (h : Lasts u s) : Ends u (Machine.execEthLinkDown port testFail s) :=
  .ite h.next (Lasts.pipe (h.setFld.clearMask.raise.foldl (fun h => h.incFld.setQueue)) (fun h2 => .ite h2.modSweep.closeSweep.modJig.next
      h2.next))

theorem Lasts.execEthLinkUp {port speed role quality : Nat} (h : Lasts u s) : Ends u (Machine.execEthLinkUp port speed role quality s) :=
  .ite h.next h.wr.setMask.raise.next

theorem Lasts.execJigPacket {port : Nat} {packets : List (List Byte)} {fault_ testFail : Bool} (h : Lasts u s) :
    Ends u (Machine.execJigPacket port packets fault_ testFail s) := by
  unfold Machine.execJigPacket
  dsimp only
  split
  · exact h.next
  · exact .ite h.putJig.inc.next (.ite (h.putJig.inc.raise.modJig.pipe (fun h2 => .ite h2.modSweep.setFld.raise.next h2.modSweep.next))
      (.next (h.putJig.foldl (fun h => .ite h.takePacket h.inc.modSweep))))

theorem Lasts.execSweepTimeout {port : Nat} {testFail : Bool} (h : Lasts u s) : Ends u (Machine.execSweepTimeout port testFail s) := by
  unfold Machine.execSweepTimeout
  split
  · exact h.next
  · exact .ite h.next h.modSweep.closeSweep.next

theorem Lasts.execSynthBlockInject {port : Nat} {damage : List (Nat × Nat)} (h : Lasts u s) :
    Ends u (Machine.execSynthBlockInject port damage s) :=
  .ite h.next h.putJig.parts.next

theorem Lasts.execCheckerSelftestIdle {checker : Nat} {testFail : Bool} (h : Lasts u s) :
    Ends u (Machine.execCheckerSelftestIdle checker testFail s) :=
  .ite (.ite h.next (.next (.checkerTest (.ite h.modCam.inc.raise h.modCam.inc)))) (.ite h.next h.scannerTest.next)

theorem Lasts.execCanFrameReceived {channel id stamp : Nat} {sec : Bool} {data : List Byte} (h : Lasts u s) :
    Ends u (Machine.execCanFrameReceived channel id stamp sec data s) :=
  .ite h.next (.ite h.inc.next (.next (h.setFld.inc.canState.foldl (fun h => .ite h.takeSignal h))))

theorem Lasts.execCanErrorFrame {channel : Nat} {transmitting : Bool} (h : Lasts u s) :
    Ends u (Machine.execCanErrorFrame channel transmitting s) :=
  .ite h.next (.next (.canState (.ite h.inc.incFld h.inc.incFld)))

theorem Lasts.execCanBusoffRecovery {channel : Nat} (h : Lasts u s) : Ends u (Machine.execCanBusoffRecovery channel s) :=
  .ite h.next h.wr.next

theorem Lasts.execSignalStale {entry : Nat} (h : Lasts u s) : Ends u (Machine.execSignalStale entry s) := by
  unfold Machine.execSignalStale
  split
  · exact h.next
  · exact .ite h.next h.setMask.pushSignal.raise.next

theorem Lasts.execRefImuSample {stamp : Nat} {rate acc : List Int} {saturated : Bool} (h : Lasts u s) :
    Ends u (Machine.execRefImuSample stamp rate acc saturated s) :=
  .next (.pushSignal (.pushSignal (Lasts.foldl (h.parts.setFld.foldl (fun h => h.keepImu)) (fun h => h.keepImu))))

theorem Lasts.execRefImuFault {selftestFailed : Bool} (h : Lasts u s) : Ends u (Machine.execRefImuFault selftestFailed s) :=
  .ite h.next h.setMask.raise.fault.next

theorem Lasts.execXchkWindowEval (h : Lasts u s) : Ends u (Machine.execXchkWindowEval s) :=
  .ite h.next (.ite h.parts.setFld.setFld.next (.next (.ite h.parts.wr.raise.fault h.parts.wr)))

end Sys2Proof.Machine
end

section
/-! SUPPORT. Operations keep what lasts: RidgeOps, FabOps, Scribe, MarkOps, PlanerOps, RecOps, YardOps, Session, EpochOps, Epochs. -/

namespace Sys2Proof.Machine
open Sys2Proof
variable {u s : State}

/-! ### Machine/RidgeOps -/

theorem Lasts.setLoop {k : Nat} (h : Lasts u s) : Lasts u (Machine.setLoop k s) :=
  .ite h.setFld.parts h.setFld

theorem Lasts.putInc {i : Nat} (h : Lasts u s) : Lasts u (Machine.putInc i s) :=
  h.parts.wr.wr

theorem Lasts.putTrim {integ trim : Int} (h : Lasts u s) : Lasts u (Machine.putTrim integ trim s) :=
  .ite h.parts.putInc.wr h

theorem Lasts.enterBySource (h : Lasts u s) : Lasts u (Machine.enterBySource s) :=
  h.setLoop.setFld

theorem Lasts.sample {e : Int} (h : Lasts u s) : Lasts u (Machine.sample e s) :=
  Lasts.pipe (.ite h.histo.wr.parts.setLoop h.histo.wr.parts) (fun h3 => .ite (.ite (.setLoop (.ite h3.parts h3)) (.ite h3
      h3.setFld.putTrim.setLoop)) (.ite h3.setFld.putTrim.parts.setLoop (.ite h3.setFld.putTrim.parts.setLoop h3.setFld.putTrim.parts)))

theorem Lasts.putGm {b : Bool} (h : Lasts u s) : Lasts u (Machine.putGm b s) :=
  .ite h (.ite h.setFld.enterBySource h.setFld)

theorem Lasts.runBmca (h : Lasts u s) : Lasts u (Machine.runBmca s) := by
  refine .ite h ?_
  split
  · exact h.putGm
  · exact h.putGm

theorem Lasts.putRidgeCtrl {v : Nat} (h : Lasts u s) : Lasts u (Machine.putRidgeCtrl v s) :=
  h.acceptWrite.parts.setFld.enterBySource

/-! ### Machine/FabOps -/

theorem Lasts.modTruss {b t : Nat} {f : Truss → Truss} (h : Lasts u s) : Lasts u (Machine.modTruss b t f s) :=
  h.parts

theorem Lasts.modRun {i k : Nat} {f : Run → Run} (h : Lasts u s) : Lasts u (Machine.modRun i k f s) :=
  h.modInst

theorem Lasts.takePages {i k bay n : Nat} (h : Lasts u s) : Lasts u (Machine.takePages i k bay n s) :=
  h.wr.modRun

theorem Lasts.noAgreement {i : Nat} (h : Lasts u s) : Lasts u (Machine.noAgreement i s) := by
  unfold Machine.noAgreement
  split
  · exact h
  · exact h.setInst.resolve.incFld.raise.fault

theorem Lasts.tiebreakUnavailable {i : Nat} (h : Lasts u s) : Lasts u (Machine.tiebreakUnavailable i s) := by
  unfold Machine.tiebreakUnavailable
  split
  · exact h
  · exact h.incFld.raise.noAgreement

theorem Lasts.agreeOn {i k : Nat} (h : Lasts u s) : Lasts u (Machine.agreeOn i k s) := by
  unfold Machine.agreeOn
  split
  · exact h
  · exact .ite h.setInst.modInst h.setInst.resolve

theorem Lasts.attribute_ {x : Inst} {bay : Nat} (h : Lasts u s) : Lasts u (Machine.attribute_ x bay s) :=
  h.incFld.raise.fault

theorem Lasts.nameRun {i k bay need : Nat} (h : Lasts u s) : Lasts u (Machine.nameRun i k bay need s) :=
  .incFld (.parts (.modRun (Lasts.foldl (h.foldl (fun h => h.modTruss)) (fun h => h.modTruss))))

theorem Lasts.notePlan {dom bay a : Nat} (h : Lasts u s) : Lasts u (Machine.notePlan dom bay a s) :=
  .ite h.noteRead h.noteRead

theorem Lasts.holdPush {i k : Nat} {p : RingPush} {space : Nat} (h : Lasts u s) : Lasts u (Machine.holdPush i k p space s) :=
  .ite h.modRun.parts h.modRun

theorem Lasts.ioStep {i k dom : Nat} {nd : Node} {held : Bool} {io : TaskIo} (h : Lasts u s) :
    IoLasts u (Machine.ioStep i k dom nd held io s) := by
  unfold Machine.ioStep
  split
  · split
    · exact h
    · dsimp only
      split
      · exact .ite h.checkRing trivial
      · next e => exact h.checkRing.popEntry e
  · split
    · exact h
    · dsimp only
      split
      · exact h.checkRing
      · exact .ite h.checkRing (.ite (.ite trivial h.checkRing.holdPush) (.ite trivial h.checkRing.pushPlain))
  · split
    · exact h
    · dsimp only
      split
      · exact h.checkRing
      · exact .ite h.checkRing (.ite trivial (.ite h.checkRing.holdPush h.checkRing.pushPacket))

theorem Lasts.ioRun {i k dom : Nat} {nd : Node} {held : Bool} {ios : List TaskIo} (h : Lasts u s) :
    Lasts u (Machine.ioRun i k dom nd held ios s).1 := by
  induction ios generalizing s with
  | nil => exact h
  | cons io rest ih =>
    have hs : IoLasts u (Machine.ioStep i k dom nd held io s) := h.ioStep
    unfold Machine.ioRun
    split
    · exact h
    · next e =>
      rw [e] at hs
      exact hs
    · next e =>
      rw [e] at hs
      exact ih hs

theorem Lasts.stopWith {i k status : Nat} (h : Lasts u s) : Lasts u (Machine.stopWith i k status s) := by
  unfold Machine.stopWith
  split
  · exact .settle (.ite h.modRun.endRun h.modRun.endRun.releaseRun)
  · exact h

theorem Lasts.continueTask {i k : Nat} (h : Lasts u s) : Lasts u (Machine.continueTask i k s) := by
  unfold Machine.continueTask
  split
  · exact .ite h.ioRun.modRun.stopWith (.ite h.ioRun.modRun.endRun.settle h.ioRun.modRun.modRun.settle)
  · exact h

theorem Lasts.countTask {b t nar sat nti oob lost narrow tiles collide : Nat} (h : Lasts u s) :
    Lasts u (Machine.countTask b t nar sat nti oob lost narrow tiles collide s) :=
  h.incFld.incFld.incFld.pipe (fun h1 => Lasts.pipe (.ite h1.incFld.incFld.incFld.incFld.incFld
      h1.incFld.incFld.incFld.incFld.incFld.raise) (fun h5 => Lasts.pipe (.ite h5 h5.raise) (fun h6 => .ite h6 h6.raise)))

/-! ### Machine/Scribe -/

theorem Lasts.execScribePegAddWrite {value : Nat} (h : Lasts u s) : Ends u (Machine.execScribePegAddWrite value s) :=
  .ite h.ignoredWrite.next (.ite h.inc.ignoredWrite.next h.pegAdd.next)

theorem Lasts.setPeg {p v : Nat} (h : Lasts u s) : Lasts u (Machine.setPeg p v s) :=
  h.parts

theorem Lasts.execPegSetWrite {value : Nat} (h : Lasts u s) : Ends u (Machine.execPegSetWrite value s) :=
  .ite h.ignoredWrite.next h.parts.wr.wr.setPeg.next

theorem Lasts.popData {bs : List Byte} (h : Lasts u s) : Lasts u (Machine.popData bs s) :=
  h.foldl (fun h => h.wr)

theorem Lasts.execRingPopRegisterRead {upset : Nat} {bad : List Nat} (h : Lasts u s) :
    Ends u (Machine.execRingPopRegisterRead upset bad s) := by
  unfold Machine.execRingPopRegisterRead; dsimp only
  split
  · exact h.parts.emit.next
  · split
    · exact h.upsetRing.parts.emit.next
    · next e => exact (h.upsetRing.popEntry e).popData.parts.emit.next

theorem Lasts.execNotBeforePassed {inst : Nat} (h : Lasts u s) : Ends u (Machine.execNotBeforePassed inst s) := by
  unfold Machine.execNotBeforePassed
  split
  · exact .ite h.setInst.enqueue.settle.next h.next
  · exact h.next

theorem Lasts.denyProvisional {i bay : Nat} {x : Inst} (h : Lasts u s) : Lasts u (Machine.denyProvisional i bay x s) :=
  h.setInst.inc.raise

theorem Lasts.execProvisionalStart {i : Nat} (h : Lasts u s) : Ends u (Machine.execProvisionalStart i s) := by
  unfold Machine.execProvisionalStart
  split
  · refine .ite h.next ?_
    dsimp only
    split
    · exact h.denyProvisional.next
    · exact .ite h.denyProvisional.next (Lasts.pipe (h.setInst.foldl (fun h => h.takePages)) (fun h2 => .next (.ite
        h2.beginRun.endRun.settle h2)))
  · exact h.next

/-! ### Machine/MarkOps -/

theorem Lasts.putMarkTime {m t : Nat} (h : Lasts u s) : Lasts u (Machine.putMarkTime m t s) :=
  h.wr.wr64

theorem Lasts.putMarkState {m st f : Nat} (h : Lasts u s) : Lasts u (Machine.putMarkState m st f s) :=
  h.parts.setFld.setFld.setFld

theorem Lasts.disarmMark {m : Nat} (h : Lasts u s) : Lasts u (Machine.disarmMark m s) :=
  .ite h.putMarkState h.setFld

theorem Lasts.releaseNode {g node : Nat} (h : Lasts u s) : Lasts u (Machine.releaseNode g node s) := by
  unfold Machine.releaseNode
  split
  · exact h.inc
  · exact .ite h.inc (.settle (h.parts.foldl (fun h => h.enqueue)))

theorem Lasts.queueTally {k t : Nat} (h : Lasts u s) : Lasts u (Machine.queueTally k t s) := by
  unfold Machine.queueTally
  split
  · exact h.inc.raise
  · exact .ite h.inc.raise h.parts

theorem Lasts.queuePlumb {k t : Nat} (h : Lasts u s) : Lasts u (Machine.queuePlumb k t s) := by
  unfold Machine.queuePlumb
  dsimp only
  split
  · exact h.inc.raise
  · exact .ite h.inc.raise h.parts

theorem Lasts.ppsRise {t : Nat} (h : Lasts u s) : Lasts u (Machine.ppsRise t s) :=
  h.parts.emit

theorem Lasts.markAction {m t : Nat} (h : Lasts u s) : Lasts u (Machine.markAction m t s) := by
  unfold Machine.markAction
  dsimp only
  split
  · exact h.egressRelease
  · exact h.gclMark
  · exact h.camTrigger
  · exact h.sweepCommand
  · exact h.canMark
  · exact h.releaseNode
  · exact h.queueTally
  · exact h.queuePlumb
  · exact h.pegAdd
  · exact h.ppsRise
  · exact h.msix
  · exact h

theorem Lasts.countLate {m : Nat} (h : Lasts u s) : Lasts u (Machine.countLate m s) :=
  h.incFld.inc

theorem Lasts.fireMark {m : Nat} {late : Bool} (h : Lasts u s) : Lasts u (Machine.fireMark m late s) :=
  Lasts.pipe (.ite h.parts.countLate h.parts) (fun h2 => .ite h2.putMarkState (Lasts.pipe (.ite h2 h2.markAction) (fun h3 => .ite
      h3.incFld.putMarkTime.putMarkState h3.incFld.putMarkTime)))

theorem Lasts.armMark {m domain : Nat} (h : Lasts u s) : Lasts u (Machine.armMark m domain s) :=
  .ite h.putMarkState.setFld.setFld.putMarkState (.ite h.putMarkState.setFld.setFld.setFld.setFld.fireMark
      h.putMarkState.setFld.setFld.setFld.setFld)

theorem Lasts.putMarkCtrl {m v domain : Nat} (h : Lasts u s) : Lasts u (Machine.putMarkCtrl m v domain s) :=
  .ite h.setFld.setFld.armMark h.setFld.setFld.disarmMark.setFld

theorem Lasts.armSystem {m t param : Nat} (h : Lasts u s) : Lasts u (Machine.armSystem m t param s) :=
  h.putMarkTime.wr.wr.wr.parts.wr.wr

theorem Lasts.fireSystem {m : Nat} (h : Lasts u s) : Lasts u (Machine.fireSystem m s) :=
  h.incFld.putMarkState.parts

theorem Lasts.marksDue {before skipTo : Nat} (h : Lasts u s) : Lasts u (Machine.marksDue before skipTo s) :=
  h.parts

/-! ### Machine/PlanerOps -/

theorem Lasts.putGrid {d : List Byte} {n : Nat} {e : GridEpoch} (h : Lasts u s) : Lasts u (Machine.putGrid d n e s) :=
  h.parts

theorem Lasts.countPoseRejects {d : List Byte} (h : Lasts u s) : Lasts u (Machine.countPoseRejects d s) :=
  h.foldl (fun h => .ite h h.parts.inc.raise)

theorem Lasts.planerSwitch {t : Nat} {d : List Byte} (h : Lasts u s) : Lasts u (Machine.planerSwitch t d s) :=
  .ite (h.parts.setFld.parts.foldl (fun h => h.wr)) h.parts.setFld

theorem Lasts.gridDone (h : Lasts u s) : Lasts u (Machine.gridDone s) := by
  unfold Machine.gridDone
  split
  · exact h
  · exact h.parts

/-! ### Machine/RecOps -/

theorem Lasts.commitPage {cause : Nat} (h : Lasts u s) : Lasts u (Machine.commitPage cause s) :=
  .ite h (.ite h.inc.setFld.parts.raise h.inc.setFld.parts)

theorem Lasts.keepWindow {w : List Byte} (h : Lasts u s) : Lasts u (Machine.keepWindow w s) :=
  h.parts

theorem Lasts.refillBuckets (h : Lasts u s) : Lasts u (Machine.refillBuckets s) :=
  h.parts.parts

theorem Lasts.powerSecond (h : Lasts u s) : Lasts u (Machine.powerSecond s) :=
  .ite h.parts.refillBuckets.parts.histo.histo h.parts.refillBuckets

/-! ### Machine/YardOps -/

theorem Lasts.yardEvent {i : Nat} (h : Lasts u s) : Lasts u (Machine.yardEvent i s) :=
  h.setMask

theorem Lasts.putReserve {p r : Nat} (h : Lasts u s) : Lasts u (Machine.putReserve p r s) :=
  Lasts.pipe (.ite h.parts h.parts) (fun h1 => .ite h1 (.ite h1.raise.yardEvent h1.raise.yardEvent))

theorem Lasts.retireBlock {p r : Nat} (h : Lasts u s) : Lasts u (Machine.retireBlock p r s) :=
  h.parts.raise.yardEvent.putReserve

theorem Lasts.failedPrograms {p n r : Nat} (h : Lasts u s) : Lasts u (Machine.failedPrograms p n r s) :=
  h.foldl (fun h => h.inc.retireBlock)

theorem Lasts.relocate {p : Nat} {disturb : Bool} (h : Lasts u s) : Lasts u (Machine.relocate p disturb s) :=
  .ite h.inc.raise h.inc.raise

theorem Lasts.modCmd {serial : Nat} {g : StoreCmd → StoreCmd} (h : Lasts u s) : Lasts u (Machine.modCmd serial g s) :=
  h.parts

theorem Lasts.refuseCmd {serial status detail : Nat} (h : Lasts u s) : Lasts u (Machine.refuseCmd serial status detail s) :=
  h.modCmd

theorem Lasts.startNsWrite {c : StoreCmd} (h : Lasts u s) : Lasts u (Machine.startNsWrite c s) :=
  .ite h.noteRead.refuseCmd (.ite h.noteRead.refuseCmd h.noteRead.modCmd)

theorem Lasts.startModelPut {c : StoreCmd} (h : Lasts u s) : Lasts u (Machine.startModelPut c s) :=
  .ite (.ite h.refuseCmd h.modCmd) (.ite h.refuseCmd (.ite h.noteRead.refuseCmd (.ite h.noteRead.refuseCmd h.noteRead.modCmd)))

theorem Lasts.startCmd {c : StoreCmd} (h : Lasts u s) : Lasts u (Machine.startCmd c s) :=
  .ite h (.ite h.startNsWrite (.ite h.startModelPut h.modCmd))

theorem Lasts.appendRec {r : JRec} (h : Lasts u s) : Lasts u (Machine.appendRec r s) :=
  .ite h.parts h.parts

theorem Lasts.settleCmd {serial : Nat} (h : Lasts u s) : Lasts u (Machine.settleCmd serial s) := by
  unfold Machine.settleCmd
  split
  · exact h
  · exact .ite (.ite h h.modCmd) (h.modCmd.foldl (fun h => h.appendRec))

theorem Lasts.settleYard (h : Lasts u s) : Lasts u (Machine.settleYard s) :=
  h.foldl (fun h => h.settleCmd)

theorem Lasts.queueCmd {f slot opcode a b c : Nat} (h : Lasts u s) : Lasts u (Machine.queueCmd f slot opcode a b c s) :=
  .ite h.parts.startCmd.settleYard h.parts

theorem Lasts.endCmd {c : StoreCmd} {status detail : Nat} {res : Res} (h : Lasts u s) : Lasts u (Machine.endCmd c status detail res s) :=
  .ite h.parts.wr h.parts.wr.finish

theorem Lasts.markUnreadable {key part block : Nat} (h : Lasts u s) : Lasts u (Machine.markUnreadable key part block s) :=
  h.parts.inc.yardEvent.raise

theorem Lasts.railsFall (h : Lasts u s) : Lasts u (Machine.railsFall s) :=
  h.parts

theorem Lasts.powerDownYard (h : Lasts u s) : Lasts u (Machine.powerDownYard s) :=
  .ite h.railsFall h

/-! ### Machine/Session -/

theorem Lasts.execMbDoorbell {f value : Nat} (h : Lasts u s) : Ends u (Machine.execMbDoorbell f value s) :=
  .ite h.next h.incFld.setMask.next

theorem Lasts.execCommandAccept (h : Lasts u s) : Ends u (Machine.execCommandAccept s) := by
  refine .ite h.next ?_
  split
  · exact h.next
  · dsimp only
    split
    · exact h.parts.next
    · exact .next (.answer (.ite h.parts.raise h.parts))

theorem Lasts.execHello {f slot : Nat} (h : Lasts u s) : Ends u (Machine.execHello f slot s) :=
  .next (h.immediate (fun h => .ite h.no (.ite h.no h.parts.setMask.setFld.raise.ok)))

theorem Lasts.closeSession {f : Nat} (h : Lasts u s) : Lasts u (Machine.closeSession f s) :=
  .ite h.clearMask.setFld.raise h

theorem Lasts.execGoodbye {f slot : Nat} (h : Lasts u s) : Ends u (Machine.execGoodbye f slot s) :=
  .next (h.immediate (fun h => .ite h.no h.closeSession.ok))

theorem Lasts.execPing {f slot : Nat} (h : Lasts u s) : Ends u (Machine.execPing f slot s) :=
  .next (h.immediate (fun h => h.ok))

theorem Lasts.execLimits {f slot : Nat} (h : Lasts u s) : Ends u (Machine.execLimits f slot s) :=
  .next (h.immediate (fun h => h.ok))

theorem Lasts.execQuotaSet {f slot : Nat} (h : Lasts u s) : Ends u (Machine.execQuotaSet f slot s) :=
  .next (h.immediate (fun h => .ite h.no (.ite h.badParam (.ite h.badParam h.parts.ok))))

theorem Lasts.resetFunction {f : Nat} (h : Lasts u s) : Lasts u (Machine.resetFunction f s) :=
  h.closeSession.parts

theorem Lasts.execFunctionLevelReset {f : Nat} (h : Lasts u s) : Ends u (Machine.execFunctionLevelReset f s) :=
  .ite h.next h.resetFunction.raise.next

theorem Lasts.failCopy {key : Nat} {c : HostCopy} (h : Lasts u s) : Lasts u (Machine.failCopy key c s) :=
  .finish (.raise (.ite h.parts.takeFree.writeFree h.parts.takeFree))

theorem Lasts.execBusMasterDisable {f : Nat} (h : Lasts u s) : Ends u (Machine.execBusMasterDisable f s) :=
  .ite h.next (.next (h.parts.foldl (fun h => h.failCopy)))

theorem Lasts.execNumvfsLowered {n : Nat} (h : Lasts u s) : Ends u (Machine.execNumvfsLowered n s) :=
  .ite h.next (.next (.parts (h.foldl (fun h => .ite h.resetFunction.raise h))))

theorem Lasts.execNumvfsRaised {n : Nat} (h : Lasts u s) : Ends u (Machine.execNumvfsRaised n s) :=
  .ite h.next h.parts.next

theorem Lasts.execPcieLinkReset (h : Lasts u s) : Ends u (Machine.execPcieLinkReset s) :=
  .next (.raise (.parts (h.foldl (fun h => h.resetFunction))))

theorem Lasts.execPcieLinkTrained {ptm : Bool} (h : Lasts u s) : Ends u (Machine.execPcieLinkTrained ptm s) :=
  h.parts.next

theorem Lasts.execForemanHeartbeat (h : Lasts u s) : Ends u (Machine.execForemanHeartbeat s) :=
  .ite h.parts.next h.next

theorem Lasts.restartForeman (h : Lasts u s) : Lasts u (Machine.restartForeman s) :=
  .ite h.parts.setForemanUp.inc.setFld.raise.fault.setMask.enterSafe h.parts.setForemanUp.inc.setFld.raise.fault

theorem Lasts.execForemanWatchdog (h : Lasts u s) : Ends u (Machine.execForemanWatchdog s) :=
  .ite h.restartForeman.next h.next

theorem Lasts.answerJournal (h : Lasts u s) : Lasts u (Machine.answerJournal s) := by
  refine h.foldl (fun h => ?_)
  dsimp only
  split
  · exact h.answerX
  · refine .answer (.parts (.parts (.parts (.parts ?_))))
    split
    · exact .ite h.parts.writeFree h.parts
    · exact h

theorem Lasts.execForemanResume (h : Lasts u s) : Ends u (Machine.execForemanResume s) :=
  .ite h.next (.next (.answerJournal (.raise (h.parts.parts.setForemanUp.foldl (fun h => h.notice)))))

theorem Lasts.execForemanLog {f slot : Nat} (h : Lasts u s) : Ends u (Machine.execForemanLog f slot s) :=
  .next (h.immediate (fun h => .ite h.no h.fencedWrite.takeFree.ok))

/-! ### Machine/EpochOps -/

theorem Lasts.latchRegs {u' : Nat} (h : Lasts u s) : Lasts u (Machine.latchRegs u' s) :=
  h.parts

theorem Lasts.restoreRegs {u' : Nat} (h : Lasts u s) : Lasts u (Machine.restoreRegs u' s) :=
  h.parts

theorem Lasts.switchCameras {was : Nat → Bool} (h : Lasts u s) : Lasts u (Machine.switchCameras was s) :=
  h.foldl (fun h => .ite h.modCam (.ite h.camLink h))

theorem Lasts.verifyAdapters (h : Lasts u s) : Lasts u (Machine.verifyAdapters s) := by
  refine h.foldl (fun h => ?_)
  split
  · exact h
  · split
    · exact h
    · exact h.parts.raise

theorem Lasts.reloadAdapters (h : Lasts u s) : Lasts u (Machine.reloadAdapters s) :=
  h.foldl (fun h => h.parts.wr)

theorem Lasts.switchScanners {was : Nat → Bool} (h : Lasts u s) : Lasts u (Machine.switchScanners was s) :=
  h.foldl (fun h => .ite h.parts h)

theorem Lasts.normaliseMount (h : Lasts u s) : Lasts u (Machine.normaliseMount s) :=
  Lasts.pipe (h.foldl (fun h => h.setLive)) (fun h1 => .ite h1.setFld.raise h1.setFld)

theorem Lasts.switchStream {k : Nat} (h : Lasts u s) : Lasts u (Machine.switchStream k s) :=
  .latchStream (.ite h.putStream.putStream.setLive.setFld h.putStream)

theorem Lasts.switchGraphs (h : Lasts u s) : Lasts u (Machine.switchGraphs s) := by
  refine h.foldl (fun h => ?_)
  dsimp only
  split
  · exact .ite h.parts h.startGraph.parts
  · exact .ite h.stopGraph.parts h.parts

theorem Lasts.putSetPoint {n v : Nat} (h : Lasts u s) : Lasts u (Machine.putSetPoint n v s) :=
  h.parts.setFld

theorem Lasts.switchUnit {u' t : Nat} (h : Lasts u s) : Lasts u (Machine.switchUnit u' t s) := by
  unfold Machine.switchUnit
  split
  · exact h.latchRegs.switchCameras
  · exact h.latchRegs.switchScanners.parts.verifyAdapters.reloadAdapters.normaliseMount
  · split
    · exact h.parts.planerSwitch
    · exact h.parts
  · split
    · exact h.parts.raftSwitch
    · exact h.parts
  · exact h.latchRegs.parts
  · exact h.latchRegs.parts.tallySwitch.parts
  · exact h.latchRegs.switchGraphs
  · exact h.latchRegs
  · exact h.latchRegs.foldl (fun h => h.switchStream)
  · exact h.latchRegs
  · exact h.putSetPoint

theorem Lasts.restoreUnit {u' t : Nat} (h : Lasts u s) : Lasts u (Machine.restoreUnit u' t s) := by
  unfold Machine.restoreUnit
  split
  · exact h.restoreRegs.switchCameras
  · exact h.restoreRegs.switchScanners.parts.reloadAdapters
  · split
    · exact h.parts.planerSwitch
    · exact h
  · split
    · exact h.parts.raftSwitch
    · exact h
  · exact h.restoreRegs.parts
  · exact h.restoreRegs.parts.tallySwitch.parts
  · exact h.restoreRegs.foldl (fun h => .ite h.parts.stopGraph (.ite h.parts.resumeGraph h.parts))
  · exact h.restoreRegs
  · exact h.restoreRegs.foldl (fun h => h.putStream.latchStream)
  · exact h.restoreRegs
  · exact h.setFld.setFld

theorem Lasts.dropStaged (h : Lasts u s) : Lasts u (Machine.dropStaged s) :=
  .parts (.parts (h.parts.foldl (fun h => h.setFld)))

theorem Lasts.acknowledge {u' t : Nat} (h : Lasts u s) : Lasts u (Machine.acknowledge u' t s) :=
  .ite h.parts.setMask.parts h.parts.setMask

theorem Lasts.latchUnit {t u' : Nat} (h : Lasts u s) : Lasts u (Machine.latchUnit t s u') :=
  .ite h h.switchUnit.acknowledge

theorem Lasts.revertUnit {t u' : Nat} (h : Lasts u s) : Lasts u (Machine.revertUnit t s u') :=
  .ite h (.acknowledge (.ite h.restoreUnit h))

theorem Lasts.beginChange {a : Nat} (h : Lasts u s) : Lasts u (Machine.beginChange a s) :=
  h.parts.setFld.wr64.wr.armSystem.armSystem

theorem Lasts.persistSet (h : Lasts u s) : Lasts u (Machine.persistSet s) :=
  h.parts

/-! ### Machine/Epochs -/

theorem Lasts.execEpochApplyTime (h : Lasts u s) : Ends u (Machine.execEpochApplyTime s) :=
  .ite h.next (Lasts.pipe (h.parts.fireSystem.foldl (fun h => h.latchUnit)) (fun h2 => .ite h2.parts.setForemanUp.next h2.next))

theorem Lasts.execEpochUnitLatch {unit : Nat} (h : Lasts u s) : Ends u (Machine.execEpochUnitLatch unit s) :=
  .ite h.next (.ite h.revertUnit.next h.latchUnit.next)

theorem Lasts.execEpochCheck (h : Lasts u s) : Ends u (Machine.execEpochCheck s) :=
  .ite h.next (.ite h.fireSystem.parts.setFld.persistSet.noticeOpen.next h.fireSystem.parts.wr.setFld.raise.armSystem.next)

theorem Lasts.execEpochRevert (h : Lasts u s) : Ends u (Machine.execEpochRevert s) :=
  .ite h.next (.next (.armSystem (.noticeOpen (.dropStaged (h.fireSystem.parts.wr.setFld.foldl (fun h => h.revertUnit))))))

theorem Lasts.execEpochRevertCheck (h : Lasts u s) : Ends u (Machine.execEpochRevertCheck s) :=
  .ite h.next (.ite h.parts.fireSystem.next h.parts.fireSystem.setMask.fault.next)

theorem Lasts.execEpochApply {f slot : Nat} (h : Lasts u s) : Ends u (Machine.execEpochApply f slot s) :=
  .next (h.immediate (fun h => .ite h.badParam h.beginChange.ok))

theorem Lasts.execEpochDiscard {f slot : Nat} (h : Lasts u s) : Ends u (Machine.execEpochDiscard f slot s) :=
  .next (h.immediate (fun h => .ite h.no h.dropStaged.ok))

theorem Lasts.execEpochStatus {f slot : Nat} (h : Lasts u s) : Ends u (Machine.execEpochStatus f slot s) :=
  .next (h.immediate (fun h => h.ok))

end Sys2Proof.Machine
end

section
/-! SUPPORT. Operations keep what lasts: Fabric, Fence, PowerOps, Firmware, GovOps, Governor, Health. -/

namespace Sys2Proof.Machine
open Sys2Proof
variable {u s : State}

/-! ### Machine/Fabric -/

theorem Lasts.execBaySetPointWrite {bay value : Nat} (h : Lasts u s) : Ends u (Machine.execBaySetPointWrite bay value s) :=
  .ite h.next (.ite h.acceptWrite.next h.ignoredWrite.next)

theorem Lasts.execInstanceNamed {bay : Nat} (h : Lasts u s) : Ends u (Machine.execInstanceNamed bay s) := by
  unfold Machine.execInstanceNamed
  split
  · exact h.next
  · split
    · exact h.next
    · exact .ite (.ite h.tiebreakUnavailable.settle.next h.next) (.ite (Lasts.pipe (.ite h.takePages h) (fun h1 => .next (.nameRun (.ite
        h1.incFld h1)))) h.next)

theorem Lasts.execShadowLoadComplete {bay t : Nat} (h : Lasts u s) : Ends u (Machine.execShadowLoadComplete bay t s) :=
  .ite h.modTruss.next h.next

theorem Lasts.startCopy {i k : Nat} {x : Inst} {g : Graph} {nd : Node} {r : Run} (h : Lasts u s) :
    Lasts u (Machine.startCopy i k x g nd r s) :=
  .ite h (.ite (.ite h.tiebreakUnavailable.settle h) (Lasts.pipe (.ite h.takePages h) (fun h1 => .settle (.beginRun (.parts (.ite
      h1.incFld h1))))))

theorem Lasts.execTaskStart {i k : Nat} {unsupported : Bool} (h : Lasts u s) : Ends u (Machine.execTaskStart i k unsupported s) := by
  unfold Machine.execTaskStart
  split
  · refine .ite (.next (.ite h h.startCopy)) (.ite h.next ?_)
    dsimp only
    split
    · exact h.notePlan.parts.beginRun.modRun.settle.next
    · exact h.notePlan.parts.beginRun.incFld.raise.endRun.settle.next
  · exact h.next

theorem Lasts.taskWrite {res : List Nat} {w : TaskWrite} (h : Lasts u s) : Lasts u (Machine.taskWrite res w s).2 :=
  .ite_snd h.takeFree h

theorem Lasts.endCopy {i k : Nat} {x : Inst} {g : Graph} {nd : Node} {r : Run} (h : Lasts u s) :
    Lasts u (Machine.endCopy i k x g nd r s) := by
  unfold Machine.endCopy
  split
  · exact h.endRun.settle
  · exact .settle (.ite h.takeFree.noteSpans.countTask.modRun.endRun h.takeFree.noteSpans.countTask.modRun.endRun.releaseRun)

theorem Lasts.execTaskEnd {i k : Nat} {res : TaskResult} (h : Lasts u s) : Ends u (Machine.execTaskEnd i k res s) := by
  unfold Machine.execTaskEnd
  split
  · refine .ite h.next (.ite h.endCopy.next (.ite h.next (.next (.continueTask ?_))))
    refine .ite (.modRun ?hw) (.applyWrites (.modRun ?hw))
    exact .countTask (.foldl_snd (fun h => h.taskWrite) h)
  · exact h.next

theorem Lasts.execStepBoundReached {i k : Nat} (h : Lasts u s) : Ends u (Machine.execStepBoundReached i k s) := by
  unfold Machine.execStepBoundReached
  split
  · exact .ite h.next h.incFld.modRun.raise.stopWith.next
  · exact h.next

theorem Lasts.execTrussSelftestStart {bay t : Nat} (h : Lasts u s) : Ends u (Machine.execTrussSelftestStart bay t s) :=
  .ite h.next (.ite h.modTruss.next h.next)

theorem Lasts.retireTruss {bay t : Nat} (h : Lasts u s) : Lasts u (Machine.retireTruss bay t s) := by
  refine .raiseX (.setMask (.clearMask ?_))
  split
  · exact h.freeRuns.modRun
  · exact h

theorem Lasts.execTrussSelftestDone {bay t : Nat} {res : TestResult} (h : Lasts u s) :
    Ends u (Machine.execTrussSelftestDone bay t res s) := by
  refine .ite h.next ?_
  split
  · exact .ite h.modTruss.modTruss.inc.parts.wr64.next h.modTruss.modTruss.inc.parts.next
  · split
    · exact .ite h.modTruss.parts.setMask.raiseX.fault.setFld.raiseX.next h.modTruss.parts.setMask.raiseX.fault.retireTruss.next
    · exact h.modTruss.parts.setMask.raiseX.fault.retireTruss.next

theorem Lasts.execStreamStallEnd {i k : Nat} (h : Lasts u s) : Ends u (Machine.execStreamStallEnd i k s) := by
  unfold Machine.execStreamStallEnd
  split
  · exact .ite h.modRun.continueTask.next h.next
  · exact h.next

theorem Lasts.execStallTimeout {i k : Nat} (h : Lasts u s) : Ends u (Machine.execStallTimeout i k s) := by
  unfold Machine.execStallTimeout
  split
  · split
    · exact h.next
    · exact .ite h.next h.inc.raise.modInst.stopWith.next
  · exact h.next

theorem Lasts.execDualCompare {i : Nat} (h : Lasts u s) : Ends u (Machine.execDualCompare i s) := by
  unfold Machine.execDualCompare
  split
  · split
    · refine .ite h.next (.ite h.takeFree.agreeOn.settle.next ?_)
      split
      · exact h.takeFree.tiebreakUnavailable.settle.next
      · exact h.takeFree.setInst.next
    · exact h.next
  · exact h.next

theorem Lasts.execTiebreakCompare {i : Nat} (h : Lasts u s) : Ends u (Machine.execTiebreakCompare i s) := by
  unfold Machine.execTiebreakCompare
  split
  · split
    · exact .ite h.next (.ite h.takeFree.attribute_.agreeOn.settle.next (.ite h.takeFree.attribute_.agreeOn.settle.next
        h.takeFree.noAgreement.settle.next))
    · exact h.next
  · exact h.next

/-! ### Machine/Fence -/

theorem Lasts.ignoreDomainCmd (h : Lasts u s) : Lasts u (Machine.ignoreDomainCmd s) :=
  h.ignoredWrite

theorem Lasts.execDomainClose {domain : Nat} (h : Lasts u s) : Ends u (Machine.execDomainClose domain s) :=
  .ite h.ignoreDomainCmd.next h.closeDomain.next

theorem Lasts.execDomainQuiesce {domain : Nat} (h : Lasts u s) : Ends u (Machine.execDomainQuiesce domain s) :=
  .ite h.ignoreDomainCmd.next h.quiesceDomain.next

theorem Lasts.execDomainResume {domain : Nat} (h : Lasts u s) : Ends u (Machine.execDomainResume domain s) :=
  .ite h.ignoreDomainCmd.next h.resumeDomain.next

theorem Lasts.execDomainSettled {domain : Nat} (h : Lasts u s) : Ends u (Machine.execDomainSettled domain s) :=
  .ite h.next (.next (.settleDomain (.ite h.parts.notice.stopObjects h)))

theorem Lasts.execOwnerSecretSubmit {value : Nat} (h : Lasts u s) : Ends u (Machine.execOwnerSecretSubmit value s) :=
  .ite h.ignoredWrite.next (.next (.setMask (h.blow (.refl _))))

theorem Lasts.execOwnerSecretDecision (h : Lasts u s) : Ends u (Machine.execOwnerSecretDecision s) := by
  unfold Machine.execOwnerSecretDecision
  split
  · exact h.next
  · refine .ite (.next (.clearMask (h.blow (.refl _)))) ?_
    split
    · exact .next (.raise (.setMask (.setMask (.blow (.clearMask (h.blow (.refl _))) (.refl _)))))
    · exact .ite (.next (.setMask (.setMask (.clearMask (h.blow (.refl _)))))) (.next (.ite (.setMask (.raise (.setFld (.clearMask (h.blow
        (.refl _)))))) (.raise (.setFld (.clearMask (h.blow (.refl _)))))))

theorem Lasts.execOwnerRekeySubmit {value : Nat} (h : Lasts u s) : Ends u (Machine.execOwnerRekeySubmit value s) :=
  .ite h.ignoredWrite.next (.next (.raise (h.blow (.refl _))))

theorem Lasts.execServiceToken {container : List Byte} (h : Lasts u s) : Ends u (Machine.execServiceToken container s) := by
  unfold Machine.execServiceToken
  dsimp only
  split
  · exact .next (.emit (.raise (h.blow (.refl _))))
  · exact .next (.emit (.raise (.blow (h.blow (.refl _)) (.refl _))))

theorem Lasts.execSecCounterRaise (h : Lasts u s) : Ends u (Machine.execSecCounterRaise s) :=
  .ite h.next h.raiseCounter.next

/-! ### Machine/PowerOps -/

theorem Lasts.putPlinth {p : Plinth} (h : Lasts u s) : Lasts u (Machine.putPlinth p s) :=
  h.parts.setFld

theorem Lasts.judgeVin {vin : Nat} (h : Lasts u s) : Lasts u (Machine.judgeVin vin s) :=
  Lasts.pipe (.ite h.parts.incFld h.parts) (fun h2 => Lasts.pipe (.ite h2.setFld.setFld.raise h2.setFld.setFld) (fun h4 => Lasts.pipe
      (.ite h4.raise h4) (fun h5 => .ite h5.putPlinth (.ite h5.putPlinth h5))))

theorem Lasts.startSequencing (h : Lasts u s) : Lasts u (Machine.startSequencing s) :=
  h.parts.parts.setFld.putPlinth

theorem Lasts.endSession {code : Nat} (h : Lasts u s) : Lasts u (Machine.endSession code s) :=
  h.parts

theorem Lasts.cleared {r : RecSt} (h : Lasts u s) : Lasts u (Machine.cleared r s) :=
  { h with mem := fun _ => Memory.wf_nil }

theorem Lasts.losePower (h : Lasts u s) : Lasts u (Machine.losePower s) :=
  .when (.ite h.cleared.setForemanUp.parts.setFld.putPlinth h.cleared.setForemanUp.parts.setFld.putPlinth) (fun h4 => h4.startSequencing)

theorem Lasts.putFwSlot {k : Nat} {x : FwSlot} (h : Lasts u s) : Lasts u (Machine.putFwSlot k x s) :=
  h.parts

theorem Lasts.expireTrial {b : BootResult} {k : Nat} (h : Lasts u s) : Lasts u (Machine.expireTrial b s k) :=
  .ite h.putFwSlot.raise h

theorem Lasts.chooseSlot {b : BootResult} {n : Nat} (h : Lasts u s) : Lasts u (Machine.chooseSlot b n s).2 := by
  induction n generalizing s with
  | zero => exact h
  | succ n ih =>
    unfold Machine.chooseSlot
    dsimp only
    have ht : Lasts u (Machine.expireTrial b (Machine.expireTrial b s 0) 1) := h.expireTrial.expireTrial
    split
    · exact ht
    · refine .ite_snd ?hp (ih (.raise (.raise (.setFld (.putFwSlot ?hp)))))
      exact ht.when (·.putFwSlot)

theorem Lasts.runImage {k : Nat} (h : Lasts u s) : Lasts u (Machine.runImage k s) :=
  h.setFld.setFld.setFld.setFld.blow (.refl _)

theorem Lasts.dieResults {b : BootResult} (h : Lasts u s) : Lasts u (Machine.dieResults b s) :=
  Lasts.foldl (h.setFld.setFld.wr.wr.wr.foldl (fun h => h.setFld)) (fun h => h.raise)

theorem Lasts.recallRetained {cause : Nat} (h : Lasts u s) : Lasts u (Machine.recallRetained cause s) := by
  refine Lasts.pipe (?_) (fun h6 => .parts (.ite h6.raiseX h6))
  split
  · refine .raiseX (.ite ?_ (.wr (.setFld (h.setFld.foldl (fun h => h.setFld)))))
    split
    · exact .raiseX (.wr (.setFld (h.setFld.foldl (fun h => h.setFld))))
    · exact .wr (.setFld (h.setFld.foldl (fun h => h.setFld)))
  · refine .ite ?_ (.wr (.setFld (h.setFld.foldl (fun h => h.setFld))))
    split
    · exact .raiseX (.wr (.setFld (h.setFld.foldl (fun h => h.setFld))))
    · exact .wr (.setFld (h.setFld.foldl (fun h => h.setFld)))

theorem Lasts.recorderFound {kind : Nat} (h : Lasts u s) : Lasts u (Machine.recorderFound kind s) :=
  .ite h.wr.raise h.wr

theorem Lasts.bootDevice {b : BootResult} {cause kind : Nat} (h : Lasts u s) : Lasts u (Machine.bootDevice b cause kind s) := by
  unfold Machine.bootDevice
  extract_lets s1 link power s2 s3 entry opened s4
  have h3 : Lasts u s3 := .recallRetained (.parts h.recorderFound.dieResults.setForemanUp)
  have h4 : Lasts u s4 := h3.putPlinth
  have ho {t : State} (h : Lasts u t) : Lasts u (opened t) := h.parts
  have hc : Lasts u (Machine.chooseSlot b 3 s4).2 := h4.chooseSlot
  refine .ite (ho h3).putPlinth (.ite (ho h4).setFld.raise (.ite (ho (Lasts.blow h4 ⟨le_rfl, fun _ => id, id, id, fun _ => rfl⟩)) ?_))
  split
  · next e =>
    rw [e] at hc
    exact ho hc.parts
  · next e =>
    rw [e] at hc
    exact .setForemanUp (ho (.parts (.when hc.runImage (·.raise))))

theorem Lasts.packageReset {b : BootResult} {cause code : Nat} (h : Lasts u s) : Lasts u (Machine.packageReset b cause code s) :=
  h.drivePair.endSession.cleared.bootDevice

theorem Lasts.kingpostReset {cause code : Nat} (h : Lasts u s) : Lasts u (Machine.kingpostReset cause code s) :=
  h.commitPage.packageReset

/-! ### Machine/Firmware -/

theorem Lasts.execFwStage {f slot : Nat} (h : Lasts u s) : Ends u (Machine.execFwStage f slot s) := by
  refine .next (h.immediate (fun h => .ite h.badParam ?_))
  split
  · exact h.no
  · exact .ite h.no (Lasts.ok (.ite h.putFwSlot.parts h.putFwSlot))

theorem Lasts.execFwActivate {f slot : Nat} (h : Lasts u s) : Ends u (Machine.execFwActivate f slot s) := by
  refine .next (h.immediate (fun h => .ite h.no ?_))
  split
  · exact h.no
  · exact h.parts.ok

theorem Lasts.execKingpostFwSwitch (h : Lasts u s) : Ends u (Machine.execKingpostFwSwitch s) := by
  unfold Machine.execKingpostFwSwitch
  split
  · exact h.next
  · exact .ite h.next h.parts.runImage.raise.next

theorem Lasts.execFwTrialConfirm (h : Lasts u s) : Ends u (Machine.execFwTrialConfirm s) := by
  unfold Machine.execFwTrialConfirm
  dsimp only
  split
  · exact h.next
  · exact .ite h.next (.next (.ite h.parts.putFwSlot.raise h.parts.putFwSlot.raise.raiseCounter))

theorem Lasts.execFwTrialRevert {selftestFailed : Bool} (h : Lasts u s) : Ends u (Machine.execFwTrialRevert selftestFailed s) :=
  .ite h.next h.putFwSlot.raise.parts.setForemanUp.next

theorem Lasts.execRecoveryPackageReset (h : Lasts u s) : Ends u (Machine.execRecoveryPackageReset s) := by
  unfold Machine.execRecoveryPackageReset
  split
  · exact h.next
  · exact .ite h.next h.parts.kingpostReset.next

theorem Lasts.execAdapterStore {f slot : Nat} {image : AdapterImage} (h : Lasts u s) : Ends u (Machine.execAdapterStore f slot image s) := by
  refine .next (h.immediate (fun h => .ite h.badParam ?_))
  split
  · exact h.no
  · exact .ite h.no (.ite h.no h.parts.ok)

theorem Lasts.execAdapterStage {f slot : Nat} (h : Lasts u s) : Ends u (Machine.execAdapterStage f slot s) := by
  refine .next (h.immediate (fun h => .ite h.badParam (.ite h.parts.ok ?_)))
  split
  · exact h.no
  · split
    · exact h.no
    · exact h.parts.ok

theorem Lasts.execReturnPrepare {f slot : Nat} (h : Lasts u s) : Ends u (Machine.execReturnPrepare f slot s) := by
  refine .ite h.next (.next (h.deferred fun {t} h => ?_))
  refine .ite h.no.inl (.ite h.no.inl ?_)
  split
  · exact h.no.inl
  · extract_lets sec fuses s1 s2 s3
    have h1 : Lasts u s1 := Lasts.blow h ⟨le_rfl, fun _ => id, fun _ => rfl, id, id⟩
    have h3 : Lasts u s3 := .fault (h1.foldl fun h => h.quiesceDomain)
    exact Lasts.inr (.clearMask (.blow h3 ⟨le_rfl, fun _ => id, id, id, fun _ => rfl⟩))

theorem Lasts.execReturnEraseComplete (h : Lasts u s) : Ends u (Machine.execReturnEraseComplete s) := by
  unfold Machine.execReturnEraseComplete
  refine .ite h.next ?_
  extract_lets yard y sec fuses s1 s2
  have h1 : Lasts u s1 := .raise (Lasts.blow h ⟨le_rfl, fun _ => id, id, fun _ => rfl, id⟩)
  have h2 : Lasts u s2 := by
    unfold s2
    split
    · exact h1.finish
    · exact h1
  exact (Lasts.kingpostReset (Lasts.blow h2 (.refl _))).next

/-! ### Machine/GovOps -/

theorem Lasts.putCeiling {n i v : Nat} (h : Lasts u s) : Lasts u (Machine.putCeiling n i v s) :=
  h.setFld

theorem Lasts.putTokens {n : Nat} (h : Lasts u s) : Lasts u (Machine.putTokens n s) :=
  h.wr

theorem Lasts.accrueReasons (h : Lasts u s) : Lasts u (Machine.accrueReasons s) :=
  h.parts.foldl (fun h => .ite h (.ite h.parts.raise h.parts))

theorem Lasts.calibrateRail {r : Nat} {act : List (Nat × Nat)} {static : Nat} (h : Lasts u s) :
    Lasts u (Machine.calibrateRail r act static s) :=
  Lasts.pipe (.ite h.parts.raise h) (fun h1 => .ite h1.parts.wr h1.parts)

theorem Lasts.openWindow (h : Lasts u s) : Lasts u (Machine.openWindow s) :=
  h.parts.wr.wr.setFld.when (fun h2 => h2.raise)

theorem Lasts.closeWindow {w : Window} (h : Lasts u s) : Lasts u (Machine.closeWindow w s) :=
  .ite h.keepWindow.setFld.wr.histo.inc.raise h.keepWindow.setFld.wr.histo

theorem Lasts.windowSecond (h : Lasts u s) : Lasts u (Machine.windowSecond s) := by
  unfold Machine.windowSecond
  split
  · exact h.openWindow
  · exact .ite h.closeWindow.openWindow h.parts

theorem Lasts.thermalCeiling {n : Nat} (h : Lasts u s) : Lasts u (Machine.thermalCeiling n s) := by
  unfold Machine.thermalCeiling
  split
  · exact h
  · exact .ite h.parts.putCeiling (.ite (.ite h.parts h.parts.putCeiling) h.parts)

theorem Lasts.ageCeiling {n : Nat} (h : Lasts u s) : Lasts u (Machine.ageCeiling n s) :=
  .ite (.ite h.parts h.parts.putCeiling) (.ite (.ite h.parts h.parts.putCeiling) h.parts)

theorem Lasts.putInputCeiling (h : Lasts u s) : Lasts u (Machine.putInputCeiling s) :=
  h.foldl (fun h => .ite h h.putCeiling.putTokens)

theorem Lasts.takeExternal (h : Lasts u s) : Lasts u (Machine.takeExternal s) :=
  h.parts.foldl (fun h => h.setFld)

theorem Lasts.externalRequest {mask tokens : Nat} {t : State} (h : Lasts u s) (e : Machine.externalRequest mask tokens s = some t) :
    Lasts u t := by
  unfold Machine.externalRequest at e
  dsimp only at e
  split at e <;> cases e
  exact h.parts.raise

theorem Lasts.capRequest {cap secs : Nat} {by_ : Option Nat} (h : Lasts u s) : Lasts u (Machine.capRequest cap secs by_ s) :=
  h.parts.setFld

/-! ### Machine/Governor -/

theorem Lasts.execInputSample {vin ma : Nat} {rails : List (Nat × Nat)} (h : Lasts u s) :
    Ends u (Machine.execInputSample vin ma rails s) :=
  Lasts.pipe (Lasts.foldl (.extreme (.extreme (h.parts.wr.foldl (fun h => h.foldl (fun h => h.setFld))))) (fun h => h.extreme)) (fun h4 =>
      Lasts.pipe (.ite h4.faultEnds h4) (fun h5 => Lasts.pipe (.ite h5.parts.parts.inc.raise (.ite h5.parts.parts h5.parts)) (fun h7 =>
      .next (.judgeVin (.putInputCeiling (.ite h7.parts.setFld.parts.inc.raise (.ite h7.parts.setFld.parts h7.parts.setFld)))))))

theorem Lasts.execRailFault {rail : Nat} (h : Lasts u s) : Ends u (Machine.execRailFault rail s) :=
  .ite h.next h.raise.fault.next

theorem Lasts.execTjReport {region : Nat} {t : Int} (h : Lasts u s) : Ends u (Machine.execTjReport region t s) :=
  .ite h.next (Lasts.pipe (.ite (.ite h.parts.extreme.setFld.setFld h.parts.extreme.setFld) h.parts.extreme) (fun h3 => .ite
      h3.parts.raise.fault.next (.ite h3.parts.faultEnds.next h3.parts.next)))

theorem Lasts.linkInterval {b : Nat} {replays : List Nat} {load : Nat} (h : Lasts u s) :
    Lasts u (Machine.linkInterval b replays load s) :=
  h.incFld.wr.foldl (fun h => .ite h.setMask.raise h)

theorem Lasts.dramInterval {b : Nat} {t : Int} (h : Lasts u s) : Lasts u (Machine.dramInterval b t s) :=
  h.setFld.setFld

theorem Lasts.execControlInterval {activity : List (List (Nat × Nat) × Nat)} {headroom : List Nat} {dram : List Int} {links : List (List
    Nat × Nat)} (h : Lasts u s) :
    Ends u (Machine.execControlInterval activity headroom dram links s) := by
  refine .ite h.next (.next (Lasts.foldl (.setFld (.parts (Lasts.foldl (.takeExternal ?_) (fun h =>
      h.putCeiling.thermalCeiling.ageCeiling)))) (fun h => h.putTokens)))
  split
  · exact Lasts.foldl (Lasts.foldl (Lasts.foldl (.extreme (.extreme (.extreme (.setFld (.wr (.parts (h.parts.foldl (fun h =>
      h.calibrateRail)))))))) (fun h => h.extreme.dramInterval)) (fun h => h.linkInterval)) (fun h => .ite h.setFld.parts h.setFld)
  · exact .parts (Lasts.foldl (.wr (.parts (Lasts.foldl (Lasts.foldl (Lasts.foldl (.extreme (.extreme (.extreme (.setFld (.wr (.parts
      (h.parts.foldl (fun h => h.calibrateRail)))))))) (fun h => h.extreme.dramInterval)) (fun h => h.linkInterval)) (fun h => .ite
      h.setFld.parts h.setFld)))) (fun h => h.putCeiling))

theorem Lasts.execSecondMark (h : Lasts u s) : Ends u (Machine.execSecondMark s) := by
  unfold Machine.execSecondMark
  refine .ite h.next ?_
  extract_lets gov s1 top sample s2 s3 s4 s5
  have hs {n : Nat} {l : List Nat} {t : State} (h : Lasts u t) : Lasts u (sample n l t) := by
    unfold sample
    split
    · exact h
    · exact h.histo
  have h3 : Lasts u s3 := hs (Lasts.foldl h.parts.powerSecond hs)
  exact .next (.windowSecond (.when h3.histo.histo.histo.inc.parts (·.faultEnds)))

theorem Lasts.execAgeTrimRise {rail : Nat} (h : Lasts u s) : Ends u (Machine.execAgeTrimRise rail s) :=
  .ite h.next (.next (.ite h.parts.setFld.raise h.parts.setFld))

theorem Lasts.execCapLatch (h : Lasts u s) : Ends u (Machine.execCapLatch s) := by
  unfold Machine.execCapLatch
  split
  · exact h.next
  · dsimp only
    split
    · exact h.parts.parts.setFld.setMask.next
    · exact h.parts.parts.setFld.setMask.finish.next

theorem Lasts.execGovernorCapReqWrite {value : Nat} (h : Lasts u s) : Ends u (Machine.execGovernorCapReqWrite value s) :=
  .ite h.capRequest.next h.ignoredWrite.next

theorem Lasts.execGovernorExtReqWrite {value : Nat} (h : Lasts u s) : Ends u (Machine.execGovernorExtReqWrite value s) := by
  unfold Machine.execGovernorExtReqWrite
  split
  · next e => exact (h.externalRequest e).next
  · exact h.ignoredWrite.next

theorem Lasts.execPowerRead {f slot : Nat} (h : Lasts u s) : Ends u (Machine.execPowerRead f slot s) :=
  .next (h.immediate (fun h => h.ok))

theorem Lasts.execSetPointStage {f slot : Nat} (h : Lasts u s) : Ends u (Machine.execSetPointStage f slot s) :=
  .next (h.immediate (fun h => .ite h.badParam (.ite h.badParam h.setFld.ok)))

theorem Lasts.execCapSet {f slot : Nat} (h : Lasts u s) : Ends u (Machine.execCapSet f slot s) :=
  .ite h.next (.next (h.deferred (fun h => .ite h.no.inl (.ite h.no.inl h.capRequest.inr))))

theorem Lasts.execThrottleRead {f slot : Nat} (h : Lasts u s) : Ends u (Machine.execThrottleRead f slot s) :=
  .next (h.immediate (fun h => h.ok))

theorem Lasts.execThrottleRequest {f slot : Nat} (h : Lasts u s) : Ends u (Machine.execThrottleRequest f slot s) :=
  .next (h.immediate (fun h => by
    split
    · next e => exact (h.externalRequest e).ok
    · exact h.no))

/-! ### Machine/Health -/

theorem Lasts.correctedWord {a : Nat} (h : Lasts u s) : Lasts u (Machine.correctedWord a s) :=
  .ite h.setMask.inc.parts (.ite h.setMask.inc.parts.parts.raise h.setMask.inc.parts.parts)

theorem Lasts.lostWord {a : Nat} (h : Lasts u s) : Lasts u (Machine.lostWord a s) :=
  .ite h.parts.setMask.inc.wr64.raise h.parts.setMask.inc.wr64.raise

theorem Lasts.poisonedStructure {x : SysWord} (h : Lasts u s) : Lasts u (Machine.poisonedStructure x s) := by
  unfold Machine.poisonedStructure
  split
  · split
    · exact h
    · exact .ite h h.parts.raise
  · exact .ite h h.abortGraph.fault
  · exact .ite h (.ite h.answer h.parts)

theorem Lasts.execScrubRead {addr found : Nat} {structure_ : Option SysWord} {passEnds : Bool} (h : Lasts u s) :
    Ends u (Machine.execScrubRead addr found structure_ passEnds s) := by
  refine .ite h.next (Lasts.pipe (?_) (fun h2 => .next (.ite h2 (.ite h2.incFld h2.incFld))))
  split
  · exact .ite (.poisonedStructure (.ite h.poisonRead (.ite h.correctedWord (.ite h.lostWord h)))) (.ite h.poisonRead (.ite
      h.correctedWord (.ite h.lostWord h)))
  · exact .ite h.poisonRead (.ite h.correctedWord (.ite h.lostWord h))

theorem Lasts.execPurlinLinkDown {bay port : Nat} (h : Lasts u s) : Ends u (Machine.execPurlinLinkDown bay port s) :=
  .ite h.next (.next (.fault (.raise (h.parts.foldl (fun h => h.clearMask.setMask)))))

theorem Lasts.execPurlinLinkUp {bay port lanes : Nat} (h : Lasts u s) : Ends u (Machine.execPurlinLinkUp bay port lanes s) :=
  .ite h.next (Lasts.pipe (h.parts.foldl (fun h => h.setMask)) (fun h2 => .next (.ite h2.setFld.faultEnds h2.setFld)))

theorem Lasts.execRegionCrossingAlert {die region : Nat} {outside : Bool} (h : Lasts u s) :
    Ends u (Machine.execRegionCrossingAlert die region outside s) :=
  .ite h.next (.ite h.next (.ite (.ite h.clearMask.raise.fault.next h.setMask.raise.fault.next) (Lasts.pipe (.ite h.setMask h.clearMask)
      (fun h1 => .next (.ite h1.faultEnds h1)))))

end Sys2Proof.Machine
end

section
/-! SUPPORT. Operations keep what lasts: RaftOps, LedgerRun, Outputs, Plumb, Raft, Tally. -/

namespace Sys2Proof.Machine
open Sys2Proof
variable {u s : State}

/-! ### Machine/RaftOps -/

theorem Lasts.noteInput {nd : Node} {e : List Byte} (h : Lasts u s) : Lasts u (Machine.noteInput nd e s) := by
  unfold Machine.noteInput
  extract_lets note s1 s2
  have hn {arg : Nat} {t : State} (h : Lasts u t) : Lasts u (note arg t) := by
    unfold note
    split
    · exact h.noteRead
    · exact h
  refine .ite (.when (hn (hn (hn h))) hn) ?_
  refine .ite ?hs (hn ?hs)
  unfold s2
  split
  · exact h.noteRead
  · exact h

/-! ### Machine/LedgerRun -/

theorem Lasts.loPut {i dom : Nat} {t : List Byte} {ix : List Nat} {v : Nat} (h : Lasts u s) : Lasts u (Machine.loPut i dom t ix v s) :=
  h.foldl (fun h => h.unitWrite)

theorem Lasts.modLed {i : Nat} {f : LedRun → LedRun} (h : Lasts u s) : Lasts u (Machine.modLed i f s) :=
  h.parts

theorem Lasts.ledgerFaults {seqs pages : List Nat} (h : Lasts u s) : Lasts u (Machine.ledgerFaults seqs pages s) :=
  h.parts.foldl (fun h => .ite h h.parts.setMask.raise.fault)

theorem Lasts.startLedger {i : Nat} {x : Inst} {nd : Node} (h : Lasts u s) : Lasts u (Machine.startLedger i x nd s) :=
  h.beginRun.settle.inc.pipe (fun h1 => .ite h1.parts.releasePins h1.parts)

theorem Lasts.noteLedger {dom : Nat} {nd : Node} {d : List Byte} (h : Lasts u s) : Lasts u (Machine.noteLedger dom nd d s) := by
  unfold Machine.noteLedger
  split
  · exact h
  · exact .ite h (h.foldl (fun h => h.noteRead))

theorem Lasts.newPage {i c q p serial : Nat} {prov dropEn : Bool} {x : Page} {t : State} (h : Lasts u s)
    (e : Machine.newPage i c q prov dropEn serial x s = .inl (p, t)) : Lasts u t := by
  unfold Machine.newPage at e; dsimp only at e
  split at e
  · cases e
  · split at e
    · cases e
    · next ef =>
      cases e
      exact .ite (h.findSlot ef).parts (h.findSlot ef).parts

theorem Lasts.copySlot {dom c frm to_ fill : Nat} (h : Lasts u s) : Lasts u (Machine.copySlot dom c frm to_ fill s) :=
  h.foldl (fun h => .when (h.foldl (fun h => h.copyMem)) (fun h1 => h1.foldl (fun h => h.foldl (fun h => h.copyMem))))

theorem Lasts.allocFail {c q : Nat} (h : Lasts u s) : Lasts u (Machine.allocFail c q s) :=
  h.setMask.inc.raise

theorem Lasts.entryOpen {i dom : Nat} {nd : Node} {r : LedRun} {prov : Bool} {k : Nat} (h : Lasts u s) :
    EntryLasts u (Machine.entryOpen i dom nd r prov k s) := by
  unfold Machine.entryOpen
  split
  · exact h.done
  · exact h.setSeq.loPut.done

theorem Lasts.entryFork {i dom : Nat} {nd : Node} {r : LedRun} {prov : Bool} {k : Nat} (h : Lasts u s) :
    EntryLasts u (Machine.entryFork i dom nd r prov k s) := by
  refine .ite .park ?_
  split
  · exact h.done
  · split
    · exact h.done
    · exact Lasts.done (.loPut (.setSeq (h.foldl (fun h => .ite h.addRef h.addRef.modPage))))

theorem Lasts.appendToken {i dom q tOld w : Nat} {r : LedRun} {prov : Bool} {e e' : Seq} {t : State} (h : Lasts u s)
    (ha : Machine.appendToken i dom r prov q tOld e s = .inl (w, e', t)) : Lasts u t := by
  unfold Machine.appendToken at ha; dsimp only at ha
  split at ha
  · cases ha
  split at ha
  · split at ha
    · split at ha
      · cases ha
        exact h.parts
      · split at ha
        · cases ha
        · next hn =>
          cases ha
          exact (h.dropRef.newPage hn).parts
    · split at ha
      · cases ha
      · next hn =>
        cases ha
        exact (h.newPage hn).parts
  · split at ha
    · cases ha
    · split at ha
      · cases ha
        exact h.parts
      · split at ha
        · cases ha
        · next hn =>
          cases ha
          exact (h.newPage hn).copySlot.parts.dropRef.parts

theorem Lasts.appendTokens {i dom k q tOld n out : Nat} {nd : Node} {r : LedRun} {prov : Bool} {e : Seq} (h : Lasts u s) :
    Lasts u (Machine.appendTokens i dom nd r prov k q tOld n out e s).2.2 := by
  induction n generalizing out e s with
  | zero => exact h
  | succ n ih =>
    unfold Machine.appendTokens
    split
    · exact h.foldl (fun h => h.loPut)
    · next ha => exact ih (h.appendToken ha).setSeq.loPut.loPut.loPut

theorem Lasts.entryAppend {i dom k : Nat} {nd : Node} {r : LedRun} {prov : Bool} (h : Lasts u s) :
    EntryLasts u (Machine.entryAppend i dom nd r prov k s) := by
  refine .ite .park ?_
  split
  · exact Lasts.done (h.modLed.foldl (fun h => h.loPut))
  · exact Lasts.done (.ite h.modLed.appendTokens.allocFail h.modLed.appendTokens)

theorem Lasts.entryClose {i dom : Nat} {nd : Node} {r : LedRun} {prov : Bool} {k : Nat} (h : Lasts u s) :
    EntryLasts u (Machine.entryClose i dom nd r prov k s) := by
  refine .ite .park ?_
  split
  · exact h.done
  · exact .ite h.done (Lasts.done (.setSeq (h.foldl (fun h => .ite h h.dropRef))))

theorem Lasts.entryRefill {i dom : Nat} {nd : Node} {r : LedRun} {prov : Bool} {k : Nat} (h : Lasts u s) :
    EntryLasts u (Machine.entryRefill i dom nd r prov k s) :=
  .ite h.done (.ite h.inc.logOp.done (Lasts.done (.ite h.inc.putPage.labDropPage h.inc.putPage.labDropPage.enqueue)))

theorem Lasts.listPage {i : Nat} {r : LedRun} {prov : Bool} {p : Nat} (h : Lasts u s) : Lasts u (Machine.listPage i r prov p s) :=
  .ite h.modPage.pinPage.parts (.ite h.modPage.modLed (by
    split
    · exact h.modPage.modLed
    · next e =>
      refine .parts (.pinPage (.modPage (.ite ?hr (.ite (.unitPush ?hr) (.inc (.unitPush ?hr))))))
      exact (h.findSlot e).putPage.labDropPage.inc.raise))

theorem Lasts.walkLeaves {cd : List Byte} {c q : Nat} {leaves : List Nat} (h : Lasts u s) :
    Lasts u (Machine.walkLeaves cd c q leaves s) :=
  h.foldl (fun h => h.foldl (fun h => h.inc.parts))

theorem Lasts.entryRead {i dom : Nat} {nd : Node} {r : LedRun} {prov : Bool} {k : Nat} (h : Lasts u s) :
    EntryLasts u (Machine.entryRead i dom nd r prov k s) := by
  refine .ite .park ?_
  dsimp only
  split
  · exact h.modLed.done
  · exact .ite h.modLed.done (Lasts.pipe (h.walkLeaves.foldl (fun h => h.listPage)) (fun h2 => Lasts.done (.modLed (.ite
      h2.setMask.inc.raise h2))))

theorem Lasts.writeLists {i dom : Nat} {nd : Node} {r : LedRun} (h : Lasts u s) : Lasts u (Machine.writeLists i dom nd r s) := by
  refine h.foldl (fun h => .loPut (h.foldl (fun h => ?_)))
  dsimp only
  split
  · exact h.loPut.foldl (fun h => h.loPut)
  · exact Lasts.foldl (.loPut (.ite h.inc h)) (fun h => h.loPut)

theorem Lasts.runCollective {i dom kind src : Nat} {a b : List Byte} (h : Lasts u s) :
    Lasts u (Machine.runCollective i dom kind src a b s) :=
  Lasts.pipe (h.foldl (fun h => h.foldl (fun h => h.unitWrite))) (fun h1 => .incFld (.ite (h1.foldl (fun h => h.foldl (fun h =>
      h.unitWrite))) h1))

theorem Lasts.ledgerEntry {i dom : Nat} {nd : Node} {r : LedRun} {prov : Bool} {k : Nat} (h : Lasts u s) :
    EntryLasts u (Machine.ledgerEntry i dom nd r prov k s) := by
  unfold Machine.ledgerEntry
  split
  · exact h.entryOpen
  · exact h.entryFork
  · exact h.entryAppend
  · exact h.entryRead
  · exact h.entryClose
  · exact h.entryRefill
  · exact h.done

theorem Lasts.endLedger {i : Nat} (h : Lasts u s) : Lasts u (Machine.endLedger i s) :=
  h.parts.endRun.settle

theorem Lasts.ledgerWork {i dom n : Nat} {nd : Node} {prov : Bool} (h : Lasts u s) : Lasts u (Machine.ledgerWork i dom nd prov n s) := by
  induction n generalizing s with
  | zero => exact h
  | succ n ih =>
    unfold Machine.ledgerWork
    split
    · exact h
    · next r _ =>
      refine .ite (.ite (.ite h h.writeLists.endLedger) h.endLedger) ?_
      have he : EntryLasts u (Machine.ledgerEntry i dom nd r prov r.next s) := h.ledgerEntry
      split
      · exact h
      · next e =>
        have ht := he.kept _ _ e
        exact ih (.modLed (.ite ht ht.loPut))

theorem Lasts.ledgerRow {op i : Nat} {seqs pages : List Nat} (h : Lasts u s) : Lasts u (Machine.ledgerRow op i seqs pages s) := by
  unfold Machine.ledgerRow
  split
  · exact h
  · dsimp only
    split
    · refine .ite ?_ h
      split
      · exact h.ledgerFaults
      · refine .ite ?_ h.ledgerFaults.ledgerWork.settle
        split
        · exact h.ledgerFaults.runCollective.endLedger
        · exact h.ledgerFaults.endLedger
    · refine .ite h ?_
      split
      · exact .ite h.noteRead.setMask.raise.refuseUnit h
      · refine .ite ?_ h
        split
        · exact .ledgerFaults (.noteLedger (.ite h.startLedger.parts h.startLedger))
        · refine .ite ?_ (.settle (.ledgerWork (.ledgerFaults (.noteLedger (.ite h.startLedger.parts h.startLedger)))))
          split
          · exact .endLedger (.runCollective (.ledgerFaults (.noteLedger (.ite h.startLedger.parts h.startLedger))))
          · exact .endLedger (.ledgerFaults (.noteLedger (.ite h.startLedger.parts h.startLedger)))

/-! ### Machine/Outputs -/

theorem Lasts.captureDone {c : StreamCfg} (h : Lasts u s) : Lasts u (Machine.captureDone c s) :=
  .ite h h.pegAdd

theorem Lasts.captureStale {k : Nat} {c : StreamCfg} (h : Lasts u s) : Lasts u (Machine.captureStale k c s) :=
  h.incFld.captureDone

theorem Lasts.execStreamCapture {stream_ : Nat} (h : Lasts u s) : Ends u (Machine.execStreamCapture stream_ s) := by
  refine .ite h.next (.ite h.putStream.next (.ite (.next (.captureStale (.setFld (.disableStream (h.putStream.foldl (fun h =>
      h.noteRead)))))) ?_))
  split
  · exact .next (.captureStale (h.putStream.foldl (fun h => h.noteRead)))
  · exact .ite (.next (.captureStale (h.putStream.foldl (fun h => h.noteRead)))) (.ite (.next (.captureDone (.raise (.dropMessage
      (h.putStream.foldl (fun h => h.noteRead)))))) (.next (.modStream (h.putStream.foldl (fun h => h.noteRead)))))

theorem Lasts.placeMessage {k : Nat} {m : Message} (h : Lasts u s) : Lasts u (Machine.placeMessage k m s) :=
  Lasts.pipe (.ite h.modStream.missWindow h) (fun h1 => .ite h1.raise (.modStream (.ite h1.dropMessage.raise h1)))

theorem Lasts.execCaptureComplete {stream_ : Nat} (h : Lasts u s) : Ends u (Machine.execCaptureComplete stream_ s) := by
  unfold Machine.execCaptureComplete
  dsimp only
  split
  · exact h.next
  · exact h.putStream.setFld.fencedWrite.captureDone.placeMessage.next

theorem Lasts.execSegmentLaunch {stream_ : Nat} (h : Lasts u s) : Ends u (Machine.execSegmentLaunch stream_ s) := by
  unfold Machine.execSegmentLaunch
  dsimp only
  split
  · exact h.next
  · exact .ite h.next (.ite h.inc.segmentDone.next (.ite h.inc.segmentDone.next (.ite (.ite h.modStream.inc.next h.next)
      h.sendFrame.segmentDone.next)))

theorem Lasts.execPcieDelivery {stream_ consumed : Nat} (h : Lasts u s) : Ends u (Machine.execPcieDelivery stream_ consumed s) := by
  unfold Machine.execPcieDelivery
  dsimp only
  split
  · exact h.next
  · refine .ite h.next ?_
    split
    · exact h.modStream.dropMessage.raise.next
    · exact .ite h.modStream.dropMessage.raise.next (.ite h.modStream.dropMessage.raise.raise.next
        h.emit.emit.msix.putOutgoing.settleLeaving.next)

theorem Lasts.execWindowDecision {stream_ : Nat} (h : Lasts u s) : Ends u (Machine.execWindowDecision stream_ s) := by
  unfold Machine.execWindowDecision
  dsimp only
  split
  · exact h.next
  · exact .ite h.next (Lasts.pipe (.ite h.putStream.raise h.putStream) (fun h2 => Lasts.pipe (.ite h2.histo h2) (fun h3 => .ite h3.next
      (.ite h3.meetWindow.next (.ite h3.next h3.missWindow.next)))))

theorem Lasts.execValidOutReadback {level : Bool} (h : Lasts u s) : Ends u (Machine.execValidOutReadback level s) :=
  .ite h.parts.setFld.faultEnds.next (.ite h.parts.setFld.raise.fault.next h.parts.setFld.next)

theorem Lasts.execSafeStateHeartbeat (h : Lasts u s) : Ends u (Machine.execSafeStateHeartbeat s) :=
  .ite h.parts.queueSafeMessage.next h.next

theorem Lasts.putVlinkCtrl {value : Nat} (h : Lasts u s) : Lasts u (Machine.putVlinkCtrl value s) :=
  .updatePair (.ite h.acceptWrite.parts h.acceptWrite)

theorem Lasts.execVlinkCtrlWrite {ident : Bool} {value : Nat} (h : Lasts u s) : Ends u (Machine.execVlinkCtrlWrite ident value s) :=
  .next (.ite h.acceptWrite h.putVlinkCtrl)

/-! ### Machine/Plumb -/

theorem Lasts.markDone {m : MarkCycle} {verdict : Nat} (h : Lasts u s) : Lasts u (Machine.markDone m verdict s) :=
  h.pegAdd

theorem Lasts.cycleWrite {inst : Option Nat} {dom a : Nat} {bs : List Byte} {poison : Bool} (h : Lasts u s) :
    Lasts u (Machine.cycleWrite inst dom a bs poison s) := by
  unfold Machine.cycleWrite
  split
  · exact h.unitWrite
  · exact h.fencedWrite

theorem Lasts.refusePlumb {who : Nat ⊕ MarkCycle} {status off : Nat} (h : Lasts u s) : Lasts u (Machine.refusePlumb who status off s) := by
  unfold Machine.refusePlumb
  dsimp only
  split
  · exact h.wr.setMask.raise.refuseUnit
  · exact h.wr.setMask.raise.markDone

theorem Lasts.execPlumbCycleStart (h : Lasts u s) : Ends u (Machine.execPlumbCycleStart s) := by
  refine .ite h.next ?_
  split
  · exact h.next
  · dsimp only
    split
    · exact h.next
    · split
      · refine .next (.refusePlumb (.noteRead ?_))
        split
        · exact h
        · exact h.parts
      · refine .next ?_
        split
        · refine .settle (.beginRun (.setFld (.parts ?_)))
          split
          · exact h
          · exact h.parts
        · refine .setFld (.parts ?_)
          split
          · exact h
          · exact h.parts

theorem Lasts.publishPose {dom table count : Nat} {rec_ : List Byte} (h : Lasts u s) :
    Lasts u (Machine.publishPose dom table count rec_ s) :=
  h.parts.fencedWrite.inc

theorem Lasts.writeCodes {r : PlumbRun} {arg : Nat} {cs : List (List Nat × Nat)} {poison : List Nat → Bool} (h : Lasts u s) :
    Lasts u (Machine.writeCodes r arg cs poison s) := by
  unfold Machine.writeCodes
  split
  · exact h
  · exact h.foldl (fun h => h.cycleWrite)

theorem Lasts.endPlumb {r : PlumbRun} {i : PlIn} {e : PlEnd} {steps : Nat} (h : Lasts u s) :
    Lasts u (Machine.endPlumb r i e steps s) := by
  unfold Machine.endPlumb
  extract_lets d now checked viol skipped dropped covs nar ill nan dead arg xa s1 s2 s3 s4 wn s5 flags res s6 ok table block body rec_ scribe s7
    s8 s9 s10 s11 s12 slack s13 s14 s15 s16 s17 s18 status plumb s19
  have h3 : Lasts u s3 := (h.noteRead.noteRead.foldl fun h => h.cycleWrite).writeCodes
  have h6 : Lasts u s6 := (h3.when (·.writeCodes)).cycleWrite.takeFree.cycleWrite
  have h7 : Lasts u s7 := by
    refine .ite h6 (.ite h6.inc.setMask.raise ?_)
    split
    · exact .ite h6.parts h6.publishPose
    · exact h6.publishPose
  have h9 : Lasts u s9 := h7.incFld.incFld.inc.incFld.incFld
  have h10 : Lasts u s10 := .ite h9.inc (.ite h9.inc (.ite h9.inc h9))
  have h14 : Lasts u s14 := (h10.wr.wr.when (·.wr)).setMask
  have h18 : Lasts u s18 := ((((h14.when (·.raise)).when (·.raise)).when (·.raise)).when (·.raise))
  have h19 : Lasts u s19 := h18.parts.setFld
  split
  · exact h19.endRun.settle
  · exact h19.markDone
  · exact h19

theorem Lasts.execPlumbCycleEnd {steps : Nat} (h : Lasts u s) : Ends u (Machine.execPlumbCycleEnd steps s) := by
  unfold Machine.execPlumbCycleEnd
  split
  · exact h.next
  · exact h.endPlumb.next

theorem Lasts.execPlumbDeadline {progress steps : Nat} {costed : Bool} (h : Lasts u s) :
    Ends u (Machine.execPlumbDeadline progress steps costed s) := by
  unfold Machine.execPlumbDeadline
  split
  · exact h.next
  · exact .ite h.next h.endPlumb.next

/-! ### Machine/Raft -/

theorem Lasts.refuseRaft {i status off : Nat} (h : Lasts u s) : Lasts u (Machine.refuseRaft i status off s) :=
  h.wr.setMask.raise.refuseUnit

theorem Lasts.execRaftCycleStart {i : Nat} (h : Lasts u s) : Ends u (Machine.execRaftCycleStart i s) := by
  unfold Machine.execRaftCycleStart
  split
  · exact h.next
  · refine .ite h.next ?_
    split
    · exact h.noteRead.refuseRaft.next
    · refine Lasts.pipe (Lasts.foldl (.settle (.beginRun (h.foldl (fun h => ?_)))) (fun h => .ite h (.ite h.inc.setMask.raise (.ite
        h.inc.setMask.raise h.inc.setMask)))) (fun h4 => .next (.setFld (.parts (.ite h4.raise h4))))
      split
      · exact h.noteRead
      · exact h

theorem Lasts.writeGrid {i addr : Nat} {run : RaftRun} {header : List Byte} {a : RaftAcc} (h : Lasts u s) :
    Lasts u (Machine.writeGrid i addr run header a s) :=
  h.unitWrite.unitWrite.foldl (fun h => h.foldl (fun h => h.unitWrite))

theorem Lasts.execRaftCycleEnd {i steps : Nat} (h : Lasts u s) : Ends u (Machine.execRaftCycleEnd i steps s) := by
  unfold Machine.execRaftCycleEnd
  split
  · exact .ite h.next (Lasts.pipe (.incFld (.incFld (.incFld (.incFld (.incFld (.incFld (.incFld (.incFld (.inc (.incFld (.incFld
      (.writeGrid (h.foldl (fun h => .ite h.noteInput h)))))))))))))) (fun h6 => Lasts.pipe (.ite h6.wr.setFld.wr.setMask.raise
      h6.wr.setFld.wr.setMask) (fun h11 => Lasts.pipe (.ite h11.raise h11) (fun h12 => Lasts.pipe (.ite h12.raise h12) (fun h13 => .next
      (.settle (.endRun (.ite h13.parts.setFld h13.parts.setFld.modInst))))))))
  · exact h.next

/-! ### Machine/Tally -/

theorem Lasts.tallyBegin {j : TallyJob} (h : Lasts u s) : Lasts u (Machine.tallyBegin j s) := by
  unfold Machine.tallyBegin
  split
  · exact .ite h.beginRun.settle.parts h.beginRun.settle
  · exact h.parts

theorem Lasts.refuseTally {j : TallyJob} {status : Nat} (h : Lasts u s) : Lasts u (Machine.refuseTally j status s) := by
  unfold Machine.refuseTally
  dsimp only
  split
  · exact h.wr.setMask.raise.refuseUnit
  · exact h.wr.setMask.raise.parts.markDone

theorem Lasts.putTable {j : TallyJob} {t : TalTable} (h : Lasts u s) : Lasts u (Machine.putTable j t s) := by
  refine .ite ?_ h.parts
  split
  · exact h.modInst
  · exact h

theorem Lasts.tallyDone {j : TallyJob} {peg : Option (Nat × Nat)} {flags steps : Nat} (h : Lasts u s) :
    Lasts u (Machine.tallyDone j peg flags steps s) := by
  unfold Machine.tallyDone
  dsimp only
  split
  · refine .settle (.endRun ?_)
    split
    · exact h.wr.inc.modInst
    · exact h.wr.inc
  · refine .markDone ?_
    split
    · exact h.wr.inc.unitPegAdd
    · exact h.wr.inc

theorem Lasts.writeRecords {j : TallyJob} {arg stride : Nat} {rs : List (List Byte × Bool)} (h : Lasts u s) :
    Lasts u (Machine.writeRecords j arg stride rs s) :=
  h.foldl (fun h => h.cycleWrite)

theorem Lasts.writeProblems {j : TallyJob} {c : List Byte} {ps : List (Nat × Track × Det × List (List Nat))} (h : Lasts u s) :
    Lasts u (Machine.writeProblems j c ps s) := by
  unfold Machine.writeProblems
  dsimp only
  split
  · exact h.writeRecords.writeRecords.writeRecords.writeRecords
  · exact h.writeRecords.writeRecords.writeRecords.writeRecords.foldl (fun h => h.cycleWrite)

theorem Lasts.execTallyAssociate {steps : Nat} (h : Lasts u s) : Ends u (Machine.execTallyAssociate steps s) := by
  unfold Machine.execTallyAssociate
  split
  · exact h.next
  · split
    · exact h.noteRead.refuseTally.next
    · exact .ite h.next (Lasts.pipe (.incFld (.incFld (.incFld (.incFld (.incFld (.incFld (.incFld (.incFld (.incFld (.ite
        h.noteRead.tallyBegin.putTable h.noteRead.tallyBegin.putTable.writeProblems)))))))))) (fun h6 => Lasts.pipe (.ite h6.setMask.raise
        h6.setMask) (fun h8 => Lasts.pipe (Lasts.foldl (Lasts.foldl (.ite h8.raise h8) (fun h => h.raise)) (fun h => h.raise)) (fun h11 =>
        .next (.tallyDone (.ite h11.raise h11))))))

theorem Lasts.execTallyUpdate {steps : Nat} (h : Lasts u s) : Ends u (Machine.execTallyUpdate steps s) := by
  unfold Machine.execTallyUpdate
  split
  · exact h.next
  · split
    · exact h.noteRead.refuseTally.next
    · exact .ite h.next (.next (.tallyDone (h.noteRead.tallyBegin.putTable.cycleWrite.wr.incFld.incFld.setMask.foldl (fun h => h.raise))))

end Sys2Proof.Machine
end

section
/-! SUPPORT. Operations keep what lasts: Kingpost, Ledger, Marks, MemOps, MbMemory, MbGraph, MbSensors. -/

namespace Sys2Proof.Machine
open Sys2Proof
variable {u s : State}

/-! ### Machine/Kingpost -/

theorem Lasts.kingpostFault (h : Lasts u s) : Lasts u (Machine.kingpostFault s) :=
  h.fault.drivePair.kingpostReset

theorem Lasts.execFaultReport {f port : Nat} (h : Lasts u s) : Ends u (Machine.execFaultReport f port s) :=
  .ite h.next (.ite h.restartForeman.next (.ite h.kingpostFault.next (.ite h.inc.raise.fault.next (.ite h.checkerTest.next (.ite
      h.checkerTest.next h.fault.next)))))

theorem Lasts.execKingpostLockstepMismatch (h : Lasts u s) : Ends u (Machine.execKingpostLockstepMismatch s) :=
  .ite h.kingpostFault.next h.next

theorem Lasts.slotDone {k : Nat} {passed : Bool} (h : Lasts u s) : Lasts u (Machine.slotDone k passed s) :=
  Lasts.pipe (.ite (.ite h.parts.faultEnds h.parts) h.parts.incFld.setFld.raise.fault) (fun h3 => .ite h3.parts (.ite
      h3.parts.wr64.parts.faultEnds h3.parts.wr64))

theorem Lasts.execRotationSlot {result : Option Bool} (h : Lasts u s) : Ends u (Machine.execRotationSlot result s) := by
  refine .ite h.next ?_
  dsimp only
  split
  · exact .next (.ite h.parts.raise.fault h.parts)
  · exact .next (.slotDone (.ite h.parts.raise.fault h.parts))

theorem Lasts.execRotationOverdue (h : Lasts u s) : Ends u (Machine.execRotationOverdue s) := by
  unfold Machine.execRotationOverdue
  split
  · exact h.next
  · exact .ite h.next h.parts.raise.fault.next

theorem Lasts.execSafeStateRelease {f slot : Nat} (h : Lasts u s) : Ends u (Machine.execSafeStateRelease f slot s) :=
  .next (h.immediate (fun h => Lasts.pipe (.ite h.faultEnds h) (fun h1 => .ite h1.ok (.ite h1.raise.no (Lasts.ok (.updatePair (.raise
      (.wr64 (.setFld (h1.clearMask.wr.foldl (fun h => .ite h.clearMask h)))))))))))

theorem Lasts.execSafetyStatus {f slot : Nat} (h : Lasts u s) : Ends u (Machine.execSafetyStatus f slot s) :=
  .next (h.immediate (fun h => h.ok))

theorem Lasts.execSelftestLog {f slot : Nat} (h : Lasts u s) : Ends u (Machine.execSelftestLog f slot s) :=
  .next (h.immediate (fun h => h.ok))

theorem Lasts.lockstepRaft (h : Lasts u s) : Lasts u (Machine.lockstepRaft s) := by
  unfold Machine.lockstepRaft
  split
  · exact h
  · exact .settle (.endRun (.ite h.parts.setFld h.parts.setFld.modInst))

theorem Lasts.lockstepPlumb (h : Lasts u s) : Lasts u (Machine.lockstepPlumb s) := by
  unfold Machine.lockstepPlumb
  split
  · exact h
  · dsimp only
    split
    · exact h.parts.setFld.endRun.settle
    · exact h.parts.setFld.markDone
    · exact h.parts.setFld

theorem Lasts.lockstepTally (h : Lasts u s) : Lasts u (Machine.lockstepTally s) := by
  unfold Machine.lockstepTally
  split
  · exact h
  · dsimp only
    split
    · exact .settle (.endRun (.ite h.tallyBegin h.tallyBegin.modInst))
    · exact .markDone (.ite h.tallyBegin h.tallyBegin.unitPegAdd)

theorem Lasts.lockstepLedger {i : Nat} (h : Lasts u s) : Lasts u (Machine.lockstepLedger i s) := by
  unfold Machine.lockstepLedger
  split
  · exact h
  · exact h.stopLedger.endRun.settle

theorem Lasts.lockstepPlaner (h : Lasts u s) : Lasts u (Machine.lockstepPlaner s) := by
  unfold Machine.lockstepPlaner
  split
  · exact h
  · exact h.unitPegAdd.gridDone

theorem Lasts.lockstepStream {k : Nat} (h : Lasts u s) : Lasts u (Machine.lockstepStream k s) := by
  unfold Machine.lockstepStream
  split
  · exact h
  · exact h.modStream.dropMessage.captureDone

theorem Lasts.execSillLockstepMismatch {unit which : Nat} (h : Lasts u s) : Ends u (Machine.execSillLockstepMismatch unit which s) := by
  refine .ite h.next (.next ?_)
  split
  · exact h.incFld.setFld.raise.fault
  · exact h.incFld.setFld.raise.lockstepPlaner.fault
  · exact h.incFld.setFld.raise.lockstepRaft.fault
  · exact h.incFld.setFld.raise.lockstepPlumb.fault
  · exact h.incFld.setFld.raise.lockstepTally.fault
  · exact h.incFld.setFld.raise.lockstepLedger.fault
  · exact h.incFld.setFld.raise.lockstepStream.fault

/-! ### Machine/Ledger -/

theorem Lasts.execLedgerOpen {i : Nat} {badSeqs badPages : List Nat} (h : Lasts u s) :
    Ends u (Machine.execLedgerOpen i badSeqs badPages s) :=
  h.ledgerRow.next

theorem Lasts.execLedgerFork {i : Nat} {badSeqs badPages : List Nat} (h : Lasts u s) :
    Ends u (Machine.execLedgerFork i badSeqs badPages s) :=
  h.ledgerRow.next

theorem Lasts.execLedgerAppend {i : Nat} {badSeqs badPages : List Nat} (h : Lasts u s) :
    Ends u (Machine.execLedgerAppend i badSeqs badPages s) :=
  h.ledgerRow.next

theorem Lasts.execLedgerRead {i : Nat} {badSeqs badPages : List Nat} (h : Lasts u s) :
    Ends u (Machine.execLedgerRead i badSeqs badPages s) :=
  h.ledgerRow.next

theorem Lasts.execLedgerClose {i : Nat} {badSeqs badPages : List Nat} (h : Lasts u s) :
    Ends u (Machine.execLedgerClose i badSeqs badPages s) :=
  h.ledgerRow.next

theorem Lasts.execLedgerRefill {i : Nat} {badSeqs badPages : List Nat} (h : Lasts u s) :
    Ends u (Machine.execLedgerRefill i badSeqs badPages s) :=
  h.ledgerRow.next

theorem Lasts.execLedgerCollective {i : Nat} (h : Lasts u s) : Ends u (Machine.execLedgerCollective i s) :=
  h.ledgerRow.next

theorem Lasts.execReadResume {i : Nat} (h : Lasts u s) : Ends u (Machine.execReadResume i s) := by
  unfold Machine.execReadResume
  split
  · exact .ite h.writeLists.endLedger.next h.next
  · exact h.next

theorem Lasts.execRecomputeDeadline {page : Nat} (h : Lasts u s) : Ends u (Machine.execRecomputeDeadline page s) :=
  .ite h.next (.next (.raise (.inc (.setMask (.modPage (.parts (Lasts.foldl (h.labDropPage.foldl (fun h => h.modLed)) (fun h => .ite
      (h.foldl (fun h => h.unpinPage)) h))))))))

/-! ### Machine/Marks -/

theorem Lasts.advanceRidge (h : Lasts u s) : Lasts u (Machine.advanceRidge s) := by
  refine .marksDue (.parts ?_)
  split
  · refine .ite (.ite (.ignoredWrite (.parts ?_)) (.parts ?_)) ?_
    · split
      · exact h.parts.putInc.wr
      · exact h
    · split
      · exact h.parts.putInc.wr
      · exact h
    · split
      · exact h.parts.putInc.wr
      · exact h
  · split
    · exact h.parts.putInc.wr
    · exact h

theorem Lasts.holdoverElapsed (h : Lasts u s) : Lasts u (Machine.holdoverElapsed s) :=
  .ite h.setFld h

theorem Lasts.bayTick {want : List (Nat × Nat)} {waiting : Bool} {b : Nat} (h : Lasts u s) : Lasts u (Machine.bayTick want waiting b s) :=
  .when (h.parts.foldl (fun h => h.modTruss.parts)) (fun h3 => h3.inc)

theorem Lasts.regionRates {b : Nat} (h : Lasts u s) : Lasts u (Machine.regionRates b s) :=
  Lasts.foldl (h.foldl (fun h => h.setFld)) (fun h => h.modTruss)

theorem Lasts.execReferenceTick {steps : List (Nat × Nat)} {waiting : Nat} (h : Lasts u s) :
    Ends u (Machine.execReferenceTick steps waiting s) :=
  Lasts.pipe (h.advanceRidge.holdoverElapsed.foldl (fun h => h.bayTick)) (fun h2 => .next (.ite (h2.accrueReasons.foldl (fun h =>
      h.regionRates)) h2.accrueReasons))

theorem Lasts.execMarkCtrlWrite {m value : Nat} (h : Lasts u s) : Ends u (Machine.execMarkCtrlWrite m value s) :=
  .ite h.next (.ite h.ignoredWrite.next h.putMarkCtrl.next)

theorem Lasts.fireDue {m : Nat} (h : Lasts u s) : Lasts u (Machine.fireDue m s) :=
  .fireMark (.ite h h.parts)

theorem Lasts.execMarkFire {m : Nat} {coinciding : Option Nat} (h : Lasts u s) : Ends u (Machine.execMarkFire m coinciding s) := by
  refine .ite h.next ?_
  dsimp only
  split
  · exact .next (.ite (.putMarkCtrl (.ite h.fireDue h.parts)) (.ignoredWrite (.ite h.fireDue h.parts)))
  · exact .next (.ite h.fireDue h.parts)

theorem Lasts.execTimeRead {f slot : Nat} (h : Lasts u s) : Ends u (Machine.execTimeRead f slot s) :=
  .next (h.immediate (fun h => h.ok))

theorem Lasts.execTimeCorrelate {f slot ptm uncertainty : Nat} (h : Lasts u s) :
    Ends u (Machine.execTimeCorrelate f slot ptm uncertainty s) :=
  .next (h.deferred (fun h => .ite h.ok.inl h.no.inl))

theorem Lasts.execMarkAlloc {f slot : Nat} (h : Lasts u s) : Ends u (Machine.execMarkAlloc f slot s) := by
  refine .next (h.immediate (fun h => .ite h.no ?_))
  split
  · exact h.no
  · exact h.parts.ok

theorem Lasts.execMarkRelease {f slot : Nat} (h : Lasts u s) : Ends u (Machine.execMarkRelease f slot s) :=
  .next (h.immediate (fun h => .ite h.badParam (.ite h.no h.disarmMark.parts.ok)))

theorem Lasts.execMarkArm {f slot : Nat} (h : Lasts u s) : Ends u (Machine.execMarkArm f slot s) :=
  .next (h.immediate (fun h => .ite h.badParam (.ite h.no (.ite h.no.res (h.putMarkTime.wr.wr.wr.pipe (fun h2 => .ite
      h2.putMarkCtrl.no.res h2.putMarkCtrl.ok))))))

theorem Lasts.execMarkDisarm {f slot : Nat} (h : Lasts u s) : Ends u (Machine.execMarkDisarm f slot s) :=
  .next (h.immediate (fun h => .ite h.badParam (.ite h.no h.disarmMark.ok)))

theorem Lasts.execGptpSet {f slot : Nat} (h : Lasts u s) : Ends u (Machine.execGptpSet f slot s) := by
  refine .next (h.immediate (fun h => ?_))
  dsimp only
  split
  · exact h.badParam
  · exact .ite h.badParam (.ite h.badParam (.ite h.badParam (.ite h.badParam h.parts.putRidgeCtrl.runBmca.ok)))

/-! ### Machine/MemOps -/

theorem Lasts.dropCache {c : Nat} (h : Lasts u s) : Lasts u (Machine.dropCache c s) :=
  h.labDrop.parts

/-! ### Machine/MbMemory -/

theorem Lasts.execMemAlloc {f slot : Nat} (h : Lasts u s) : Ends u (Machine.execMemAlloc f slot s) := by
  refine .next (h.immediate (fun h => .ite h.no (.ite h.no ?_)))
  split
  · exact h.no
  · refine .ite h.no (.ite h.no ?_)
    split
    · exact h.no
    · exact h.parts.zeroRange.ok

theorem Lasts.execMemRelease {f slot : Nat} (h : Lasts u s) : Ends u (Machine.execMemRelease f slot s) := by
  refine .next (h.immediate (fun h => ?_))
  dsimp only
  split
  · exact h.no
  · exact .ite h.no (.ite h.no h.parts.ok)

theorem Lasts.execMemShare {f slot : Nat} (h : Lasts u s) : Ends u (Machine.execMemShare f slot s) := by
  refine .next (h.immediate (fun h => ?_))
  dsimp only
  split
  · exact h.no
  · exact .ite h.no (.ite h.no (.ite h.no (.ite h.no (.ite h.no h.parts.ok))))

theorem Lasts.startHostCopy {f slot op dev host bytes : Nat} {toDevice : Bool} {iBytes : Nat} (h : Lasts u s) :
    ActLasts u (Machine.startHostCopy f slot op dev host bytes toDevice iBytes s) :=
  .ite h.badParam.inl (.ite h.no.inl (.ite h.raise.no.inl h.parts.inr))

theorem Lasts.execMemCopyIn {f slot : Nat} (h : Lasts u s) : Ends u (Machine.execMemCopyIn f slot s) :=
  .ite h.next (.next (h.deferred (fun h => h.startHostCopy)))

theorem Lasts.execMemCopyOut {f slot : Nat} (h : Lasts u s) : Ends u (Machine.execMemCopyOut f slot s) :=
  .ite h.next (.next (h.deferred (fun h => h.startHostCopy)))

theorem Lasts.execCopyComplete {f slot : Nat} {data : List Byte} {failedAt : Option Nat} (h : Lasts u s) :
    Ends u (Machine.execCopyComplete f slot data failedAt s) := by
  unfold Machine.execCopyComplete
  split
  · exact h.next
  · dsimp only
    split
    · exact .next (.finish (.raise (.ite h.parts.writeFree h.parts)))
    · refine .ite (.ite h.next h.parts.fencedWrite.finish.next) ?_
      split
      · exact h.parts.noteRead.emit.finish.next
      · exact h.parts.noteRead.emit.finish.next

theorem Lasts.execTensorCreate {f slot : Nat} (h : Lasts u s) : Ends u (Machine.execTensorCreate f slot s) := by
  refine .next (h.immediate (fun h => ?_))
  dsimp only
  split
  · exact h.no
  · refine .ite h.no ?_
    split
    · exact h.no
    · exact h.parts.ok

theorem Lasts.execTensorDestroy {f slot : Nat} (h : Lasts u s) : Ends u (Machine.execTensorDestroy f slot s) :=
  .next (h.immediate (fun h => .ite h.no (.ite h.no h.parts.ok)))

theorem Lasts.execTensorQuery {f slot : Nat} (h : Lasts u s) : Ends u (Machine.execTensorQuery f slot s) := by
  refine .next (h.immediate (fun h => ?_))
  split
  · exact h.no
  · exact h.ok

theorem Lasts.execRingCreate {f slot : Nat} (h : Lasts u s) : Ends u (Machine.execRingCreate f slot s) := by
  refine .next (h.immediate (fun h => .ite h.badParam (.ite h.no (.ite h.badParam (.ite h.no ?_)))))
  split
  · exact h.no
  · exact h.parts.ok

theorem Lasts.execRingDestroy {f slot : Nat} (h : Lasts u s) : Ends u (Machine.execRingDestroy f slot s) := by
  refine .next (h.immediate (fun h => ?_))
  dsimp only
  split
  · exact h.no
  · exact .ite h.no h.parts.ok

theorem Lasts.execRingQuery {f slot : Nat} (h : Lasts u s) : Ends u (Machine.execRingQuery f slot s) := by
  refine .next (h.immediate (fun h => ?_))
  split
  · exact h.no
  · exact h.ok

theorem Lasts.execRingPush {f slot upset : Nat} (h : Lasts u s) : Ends u (Machine.execRingPush f slot upset s) := by
  refine .next (h.immediate (fun h => .ite h.no ?_))
  dsimp only
  split
  · exact h.upsetRing.no
  · exact .ite h.upsetRing.no (.ite h.upsetRing.no h.upsetRing.pushPlain.settle.ok)

theorem Lasts.execRingPop {f slot upset : Nat} {bad : List Nat} (h : Lasts u s) : Ends u (Machine.execRingPop f slot upset bad s) :=
  .next (h.immediate (fun h => .ite h.no (by
    split
    · exact h.upsetRing.no
    · next e => exact (h.upsetRing.popEntry e).ok)))

theorem Lasts.execCacheCreate {f slot : Nat} (h : Lasts u s) : Ends u (Machine.execCacheCreate f slot s) := by
  refine .next (h.immediate (fun h => ?_))
  dsimp only
  split
  · exact h.no
  · refine .ite h.no ?_
    split
    · exact h.no
    · exact .ite h.no (.ite h.no h.parts.ok)

theorem Lasts.execCacheDestroy {f slot : Nat} (h : Lasts u s) : Ends u (Machine.execCacheDestroy f slot s) :=
  .next (h.immediate (fun h => .ite h.no (.ite h.no h.dropCache.ok)))

theorem Lasts.execLedgerQuery {f slot : Nat} (h : Lasts u s) : Ends u (Machine.execLedgerQuery f slot s) := by
  refine .next (h.immediate (fun h => .ite h.no (.ite h.badParam (.ite ?_ (.ite h.no h.ok)))))
  split
  · exact h.no
  · exact h.ok

theorem Lasts.execZeroingComplete (h : Lasts u s) : Ends u (Machine.execZeroingComplete s) := by
  unfold Machine.execZeroingComplete
  split
  · exact h.next
  · exact h.parts.zeroRange.next

/-! ### Machine/MbGraph -/

theorem Lasts.execPegAlloc {f slot : Nat} (h : Lasts u s) : Ends u (Machine.execPegAlloc f slot s) := by
  refine .next (h.immediate (fun h => .ite h.no ?_))
  split
  · exact h.no
  · exact h.parts.ok

theorem Lasts.execPegRelease {f slot : Nat} (h : Lasts u s) : Ends u (Machine.execPegRelease f slot s) :=
  .next (h.immediate (fun h => .ite h.no (.ite h.no h.parts.ok)))

theorem Lasts.execPegGrant {f slot : Nat} (h : Lasts u s) : Ends u (Machine.execPegGrant f slot s) :=
  .next (h.immediate (fun h => .ite h.no (.ite h.badParam h.parts.ok)))

theorem Lasts.execPegAdd {f slot : Nat} (h : Lasts u s) : Ends u (Machine.execPegAdd f slot s) :=
  .next (h.immediate (fun h => .ite h.badParam (.ite h.badParam (.ite h.no h.pegAdd.ok))))

theorem Lasts.execPegSet {f slot : Nat} (h : Lasts u s) : Ends u (Machine.execPegSet f slot s) :=
  .next (h.immediate (fun h => .ite h.no (.ite h.no h.setPeg.ok)))

theorem Lasts.execPegRead {f slot : Nat} (h : Lasts u s) : Ends u (Machine.execPegRead f slot s) := by
  refine .next (h.immediate (fun h => ?_))
  dsimp only
  split
  · exact h.no
  · exact .ite h.no h.ok

theorem Lasts.execPegWait {f slot : Nat} (h : Lasts u s) : Ends u (Machine.execPegWait f slot s) := by
  refine .ite h.next (.next (h.deferred (fun h => .ite h.no.inl (.ite h.badParam.inl ?_))))
  split
  · exact Lasts.pipe (.ite h.parts.reachWait h.parts) (fun h2 => .ite h2.ok.inl h2.inr)
  · exact h.no.inl

theorem Lasts.endWait {key st : Nat} {w : MbWait} (h : Lasts u s) : Lasts u (Machine.endWait key st w s) :=
  h.parts

theorem Lasts.execWaitTimeout {f wait : Nat} (h : Lasts u s) : Ends u (Machine.execWaitTimeout f wait s) := by
  unfold Machine.execWaitTimeout
  dsimp only
  split
  · exact h.next
  · exact .ite h.next (.ite (.next (.ite h.endWait.notice h.endWait.notice.msix)) (.ite h.endWait.parts.answer.next h.endWait.next))

theorem Lasts.execWaitQuery {f slot : Nat} (h : Lasts u s) : Ends u (Machine.execWaitQuery f slot s) := by
  refine .next (h.immediate (fun h => ?_))
  dsimp only
  split
  · exact h.no
  · exact .ite (.ite (Lasts.ok (.ite h.parts h.parts.answer)) h.ok) h.parts.ok

theorem Lasts.execGraphLoad {f slot : Nat} (h : Lasts u s) : Ends u (Machine.execGraphLoad f slot s) := by
  refine .next (h.immediate (fun h => ?_))
  dsimp only
  split
  · exact h.no
  · split
    · exact h.no
    · exact h.parts.ok

theorem Lasts.execGraphStart {f slot : Nat} (h : Lasts u s) : Ends u (Machine.execGraphStart f slot s) := by
  refine .next (h.immediate (fun h => .ite h.no ?_))
  split
  · exact h.no
  · exact .ite h.no (.ite h.parts.ok h.startGraph.ok)

theorem Lasts.execGraphStop {f slot : Nat} (h : Lasts u s) : Ends u (Machine.execGraphStop f slot s) := by
  refine .next (h.immediate (fun h => .ite h.no ?_))
  split
  · exact h.no
  · exact .ite h.parts.ok h.stopGraph.settle.ok

theorem Lasts.execGraphAbort {f slot : Nat} (h : Lasts u s) : Ends u (Machine.execGraphAbort f slot s) :=
  .next (h.immediate (fun h => .ite h.no h.abortGraph.ok))

theorem Lasts.execGraphUnload {f slot : Nat} (h : Lasts u s) : Ends u (Machine.execGraphUnload f slot s) := by
  refine .next (h.immediate (fun h => ?_))
  dsimp only
  split
  · exact h.no
  · exact .ite h.no h.parts.ok

theorem Lasts.execGraphQuery {f slot : Nat} (h : Lasts u s) : Ends u (Machine.execGraphQuery f slot s) := by
  refine .next (h.immediate (fun h => ?_))
  dsimp only
  split
  · exact h.no
  · exact h.ok

theorem Lasts.registration {f slot op top unread : Nat} {a : Ans} (h : Lasts u s)
    (e : Machine.registration s f slot op top unread = .inl a) : AnsLasts u a := by
  unfold Machine.registration at e; dsimp only at e
  split at e
  · cases e; exact h.badParam
  split at e
  · cases e; exact h.badParam
  split at e
  · cases e; exact h.no
  split at e
  · cases e; exact h.badParam
  split at e <;> cases e
  exact h.no

theorem Lasts.execPlumbRegister {f slot : Nat} (h : Lasts u s) : Ends u (Machine.execPlumbRegister f slot s) :=
  .next (h.immediate (fun h => by
    split
    · next e => exact h.registration e
    · split
      · exact .ite h.no h.parts.ok
      · exact .ite h.no h.parts.ok))

theorem Lasts.execPlumbRelease {f slot : Nat} (h : Lasts u s) : Ends u (Machine.execPlumbRelease f slot s) :=
  .next (h.immediate (fun h => .ite h.badParam (.ite h.parts.ok h.no)))

theorem Lasts.execTallyRegister {f slot : Nat} (h : Lasts u s) : Ends u (Machine.execTallyRegister f slot s) :=
  .next (h.immediate (fun h => by
    split
    · next e => exact h.registration e
    · exact h.parts.ok))

theorem Lasts.execTallyRelease {f slot : Nat} (h : Lasts u s) : Ends u (Machine.execTallyRelease f slot s) :=
  .next (h.immediate (fun h => .ite h.badParam (.ite h.parts.ok h.no)))

/-! ### Machine/MbSensors -/

theorem Lasts.stageWord {a v : Nat} (h : Lasts u s) : Lasts u (Machine.stageWord a v s) := by
  unfold Machine.stageWord
  split
  · exact h
  · exact h.wr.postWrite

theorem Lasts.stageWords {a : Nat} {l : List Nat} (h : Lasts u s) : Lasts u (Machine.stageWords a l s) := by
  induction l generalizing a s with
  | nil => exact h
  | cons v r ih => exact ih h.stageWord

theorem Lasts.rejected100D {detail : Nat} (h : Lasts u s) : AnsLasts u (Machine.rejected100D detail s) :=
  h.no

theorem Lasts.execCamStage {f slot : Nat} (h : Lasts u s) : Ends u (Machine.execCamStage f slot s) :=
  .next (h.immediate (fun h => .ite h.badParam (.ite h.rejected100D h.stageWord.stageWords.ok)))

theorem Lasts.execCamPower {f slot : Nat} (h : Lasts u s) : Ends u (Machine.execCamPower f slot s) :=
  .next (h.immediate (fun h => .ite h.badParam h.putPocCtrl.ok))

theorem Lasts.execCamControl {f slot : Nat} (h : Lasts u s) : Ends u (Machine.execCamControl f slot s) :=
  .ite h.next (.next (h.deferred (fun h => .ite h.badParam.inl (.ite h.badParam.inl (.ite h.badParam.inl h.parts.emit.inr)))))

theorem Lasts.execCamControlReply {f slot : Nat} {data : List Byte} (h : Lasts u s) :
    Ends u (Machine.execCamControlReply f slot data s) := by
  unfold Machine.execCamControlReply
  split
  · exact h.next
  · exact .ite h.next h.parts.finish.next

theorem Lasts.execNetPortStage {f slot : Nat} (h : Lasts u s) : Ends u (Machine.execNetPortStage f slot s) :=
  .next (h.immediate (fun h => .ite h.badParam h.stageWord.stageWords.ok))

theorem Lasts.execFwdWrite {f slot : Nat} (h : Lasts u s) : Ends u (Machine.execFwdWrite f slot s) :=
  .next (h.immediate (fun h => .ite h.badParam (.ite h.parts.ok h.parts.ok)))

theorem Lasts.execScanStage {f slot : Nat} (h : Lasts u s) : Ends u (Machine.execScanStage f slot s) :=
  .next (h.immediate (fun h => .ite h.badParam h.parts.stageWords.ok))

theorem Lasts.execSignalMapWrite {f slot : Nat} (h : Lasts u s) : Ends u (Machine.execSignalMapWrite f slot s) :=
  .next (h.immediate (fun h => .ite h.rejected100D h.parts.ok))

theorem Lasts.execCanStage {f slot : Nat} (h : Lasts u s) : Ends u (Machine.execCanStage f slot s) :=
  .next (h.immediate (fun h => .ite h.badParam h.stageWord.ok))

theorem Lasts.execCanSlotWrite {f slot : Nat} (h : Lasts u s) : Ends u (Machine.execCanSlotWrite f slot s) :=
  .next (h.immediate (fun h => .ite h.badParam (.ite h.badParam (.ite h.rejected100D h.parts.ok))))

theorem Lasts.execImuStage {f slot : Nat} (h : Lasts u s) : Ends u (Machine.execImuStage f slot s) :=
  .next (h.immediate (fun h => h.stageWord.stageWords.stageWords.stageWords.ok))

theorem Lasts.execUnitStage {f slot : Nat} (h : Lasts u s) : Ends u (Machine.execUnitStage f slot s) := by
  refine .next (h.immediate (fun h => ?_))
  dsimp only
  split
  · exact .ite h.planerStage.ok h.planerStage.rejected100D
  · exact .ite h.raftStage.ok h.raftStage.rejected100D
  · exact .ite h.tallyStage.ok h.tallyStage.rejected100D
  · exact h.badParam

theorem Lasts.execGclWrite {f slot : Nat} (h : Lasts u s) : Ends u (Machine.execGclWrite f slot s) :=
  .next (h.immediate (fun h => .ite h.badParam (.ite h.badParam (.ite h.badParam (.ite h.no h.stageWords.ok)))))

end Sys2Proof.Machine
end

section
/-! SUPPORT. Operations keep what lasts: MbStreams, Planer, Power, Profile, Recorder, Release, Resolve, Ridge, Yard. -/

namespace Sys2Proof.Machine
open Sys2Proof
variable {u s : State}

/-! ### Machine/MbStreams -/

theorem Lasts.execStreamOpen {f slot : Nat} (h : Lasts u s) : Ends u (Machine.execStreamOpen f slot s) := by
  refine .next (h.immediate (fun h => .ite h.badParam (.ite h.no (.ite (.ite h.modStream.ok h.no) ?_))))
  split
  · exact h.no
  · exact h.modStream.ok

theorem Lasts.execStreamStage {f slot : Nat} (h : Lasts u s) : Ends u (Machine.execStreamStage f slot s) :=
  .next (h.immediate (fun h => .ite h.badParam (.ite h.no h.modStream.stageWords.ok)))

theorem Lasts.execStreamHostRing {f slot : Nat} (h : Lasts u s) : Ends u (Machine.execStreamHostRing f slot s) :=
  .next (h.immediate (fun h => .ite h.badParam (.ite h.no (.ite h.modStream.ok (.ite h.badParam (.ite h.badParam (.ite h.badParam
      h.modStream.ok)))))))

theorem Lasts.execStreamClose {f slot : Nat} (h : Lasts u s) : Ends u (Machine.execStreamClose f slot s) :=
  .next (h.immediate (fun h => .ite h.badParam (.ite h.no h.modStream.ok)))

theorem Lasts.execStreamQuery {f slot : Nat} (h : Lasts u s) : Ends u (Machine.execStreamQuery f slot s) :=
  .next (h.immediate (fun h => .ite h.badParam (.ite h.no h.ok)))

theorem Lasts.execVlinkSet {f slot : Nat} (h : Lasts u s) : Ends u (Machine.execVlinkSet f slot s) :=
  .next (h.immediate (fun h => .ite h.no h.acceptWrite.putVlinkCtrl.ok))

/-! ### Machine/Planer -/

theorem Lasts.blockEnds {port : Nat} {recs : List (List Byte)} (h : Lasts u s) : Lasts u (Machine.blockEnds port recs s) :=
  .ite h.parts.inc.modSweep h.parts.inc.modSweep.inc.incFld.raise.fault

theorem Lasts.takeIngest {x : IngestRec} (h : Lasts u s) : Lasts u (Machine.takeIngest x s) := by
  refine .ite (.ite h.blockEnds h.parts) ?_
  dsimp only
  split
  · exact .ite (.inc (.inc (.parts (.ite h h.blockEnds)))) (.ite (.inc (.inc (.parts (.ite h h.blockEnds)))) (.inc (.inc (.parts (.ite h
      h.blockEnds)))))
  · exact .ite (.inc (.ite (.putGrid (.inc (.parts (.ite h h.blockEnds)))) (.inc (.parts (.ite h h.blockEnds))))) (.ite (.inc (.ite
      (.putGrid (.inc (.parts (.ite h h.blockEnds)))) (.inc (.parts (.ite h h.blockEnds))))) (.ite (.inc (.inc (.parts (.ite h
      h.blockEnds)))) (.ite (.inc (.putGrid (.inc (.parts (.ite h h.blockEnds))))) (.ite (.inc (.ite (.putGrid (.inc (.parts (.ite h
      h.blockEnds)))) (.inc (.parts (.ite h h.blockEnds))))) (.setFld (.putGrid (.inc (.parts (.ite h h.blockEnds)))))))))

theorem Lasts.execPlanerIngest (h : Lasts u s) : Ends u (Machine.execPlanerIngest s) := by
  unfold Machine.execPlanerIngest
  split
  · exact h.next
  · exact h.parts.takeIngest.next

theorem Lasts.execPoseRefFix {n : Nat} (h : Lasts u s) : Ends u (Machine.execPoseRefFix n s) := by
  unfold Machine.execPoseRefFix
  split
  · exact h.next
  · exact .ite h.countPoseRejects.setFld.next h.countPoseRejects.putGrid.setFld.next

theorem Lasts.execSliceRelease {n : Nat} (h : Lasts u s) : Ends u (Machine.execSliceRelease n s) := by
  unfold Machine.execSliceRelease; dsimp only
  split
  · exact h.next
  · split
    · exact h.countPoseRejects.next
    · refine .ite h.countPoseRejects.next (.next (.parts (.foldl_snd (fun h => ?_) h.countPoseRejects)))
      split
      · exact h.parts
      · exact h

theorem Lasts.writeBitmap {d : List Byte} {n : Nat} {marked : List Nat} (h : Lasts u s) : Lasts u (Machine.writeBitmap d n marked s) :=
  h.zeroRange.foldl (fun h => h.writeBytes)

theorem Lasts.execVoxelFrameEmit (h : Lasts u s) : Ends u (Machine.execVoxelFrameEmit s) := by
  unfold Machine.execVoxelFrameEmit
  split
  · exact h.next
  · exact .ite h.next (Lasts.pipe (.incFld (.incFld (.incFld (.unitSignal (.ite h.writeBitmap.fencedWrite.unitPushS
      h.writeBitmap.fencedWrite.unitPushS.inc.raise))))) (fun h4 => Lasts.pipe (.ite h4.incFld.inc.wr.wr.wr.setMask.raise
      h4.incFld.inc.wr.wr.wr.setMask) (fun h9 => Lasts.pipe (.ite h9.raise h9) (fun h10 => Lasts.pipe (.ite h10.raise h10) (fun h11 =>
      .next (.gridDone (.ite h11.raise h11)))))))

/-! ### Machine/Power -/

theorem Lasts.execVinRise (h : Lasts u s) : Ends u (Machine.execVinRise s) :=
  .ite h.startSequencing.next h.next

theorem Lasts.execEnHigh (h : Lasts u s) : Ends u (Machine.execEnHigh s) := by
  refine .ite h.parts.next ?_
  split
  · exact .next (.ite h.parts h.parts.startSequencing)
  · exact h.parts.parts.next
  · exact h.parts.parts.next
  · exact h.parts.parts.next
  · exact h.parts.next

theorem Lasts.execRailStepInLimits (h : Lasts u s) : Ends u (Machine.execRailStepInLimits s) :=
  .ite h.parts.next h.next

theorem Lasts.execRailStepTimeout {rail : Nat} (h : Lasts u s) : Ends u (Machine.execRailStepTimeout rail s) :=
  .ite h.next (.ite h.parts.setFld.setFld.parts.next h.parts.setFld.setFld.parts.putPlinth.next)

theorem Lasts.execSequencingRetry (h : Lasts u s) : Ends u (Machine.execSequencingRetry s) :=
  .ite h.parts.next h.next

theorem Lasts.execHoldupCharged (h : Lasts u s) : Ends u (Machine.execHoldupCharged s) :=
  .ite h.setFld.setFld.next h.next

theorem Lasts.execPowerOn {b : BootResult} (h : Lasts u s) : Ends u (Machine.execPowerOn b s) :=
  .ite h.parts.bootDevice.next h.next

theorem Lasts.execBootExcursion (h : Lasts u s) : Ends u (Machine.execBootExcursion s) :=
  .ite h.raise.next h.next

theorem Lasts.execPkgReset {b : BootResult} (h : Lasts u s) : Ends u (Machine.execPkgReset b s) :=
  .ite h.packageReset.next h.next

theorem Lasts.pairOff {message : Bool} (h : Lasts u s) : Lasts u (Machine.pairOff message s) :=
  .ite (.ite h.drivePair h.drivePair.parts.setFld) (.ite h.setFld.queueSafeMessage h)

theorem Lasts.execEnLow (h : Lasts u s) : Ends u (Machine.execEnLow s) :=
  .ite (.next (.powerDownYard (.ite h.parts.parts.putPlinth.pairOff h.parts.parts.putPlinth))) h.parts.next

theorem Lasts.execPowerDownStorageLimit (h : Lasts u s) : Ends u (Machine.execPowerDownStorageLimit s) :=
  .ite h.railsFall.next h.next

theorem Lasts.execPowerDownRailStep (h : Lasts u s) : Ends u (Machine.execPowerDownRailStep s) :=
  .ite h.next (.ite h.parts.next h.endSession.losePower.next)

theorem Lasts.execCrashDischarge {rail low high : Nat} (h : Lasts u s) : Ends u (Machine.execCrashDischarge rail low high s) :=
  .ite h.next h.putPlinth.pairOff.parts.endSession.losePower.next

theorem Lasts.execInputLoss (h : Lasts u s) : Ends u (Machine.execInputLoss s) := by
  refine .ite h.next ?_
  dsimp only
  split
  · exact h.parts.parts.pairOff.putPlinth.next
  · exact h.parts.endSession.losePower.next
  · exact .ite h.parts.parts.putPlinth.next h.parts.parts.next
  · exact h.parts.next

theorem Lasts.execPowerFailCommit (h : Lasts u s) : Ends u (Machine.execPowerFailCommit s) :=
  .ite h.next h.parts.commitPage.yardEvent.raise.endSession.losePower.next

/-! ### Machine/Profile -/

theorem Lasts.installObjects {p : Profile} (h : Lasts u s) : Lasts u (Machine.installObjects p s) :=
  .parts (.parts (h.parts.foldl (fun h => h.writeMem)))

theorem Lasts.installCamera {c : ProfileCam} (h : Lasts u s) : Lasts u (Machine.installCamera c s) :=
  h.putPocCtrl.stageWord.stageWord.stageWords

theorem Lasts.installScanner {c : ProfileScan} (h : Lasts u s) : Lasts u (Machine.installScanner c s) := by
  unfold Machine.installScanner
  dsimp only
  split
  · exact h.stageWords.stageWord.stageWord.parts.parts
  · exact h.stageWords.stageWord.stageWord.parts.parts

theorem Lasts.installMark {x : Nat × Nat × Nat × Nat} (h : Lasts u s) : Lasts u (Machine.installMark x s) :=
  h.putMarkTime.wr.wr.wr.wr.wr

theorem Lasts.installStream {p : Profile} {k ctrl chan : Nat} {hdr : WireHdr} (h : Lasts u s) :
    Lasts u (Machine.installStream p k ctrl chan hdr s) := by
  unfold Machine.installStream
  split
  · exact h
  · exact h.modStream.stageWords

theorem Lasts.installStreams {p : Profile} (h : Lasts u s) : Lasts u (Machine.installStreams p s) :=
  h.stageWord.installStream.installStream.foldl (fun h => h.installStream)

theorem Lasts.stagePersisted {x : Persisted} (h : Lasts u s) : Lasts u (Machine.stagePersisted x s) :=
  .parts (h.foldl (fun h => h.stageWord))

theorem Lasts.profileLink {x : Option Persisted} (h : Lasts u s) : Lasts u (Machine.profileLink x s) := by
  unfold Machine.profileLink
  split
  · exact h
  · exact h.acceptWrite.putVlinkCtrl

theorem Lasts.execDefaultProfileStart {p : Profile} (h : Lasts u s) : Ends u (Machine.execDefaultProfileStart p s) := by
  refine .ite h.next (.next (.beginChange (.wr (.profileLink (.installStreams (Lasts.foldl (.parts (Lasts.foldl (Lasts.foldl
      (.installObjects ?_) (fun h => h.installCamera)) (fun h => h.installScanner))) (fun h => h.installMark)))))))
  split
  · exact h.stagePersisted
  · exact h

/-! ### Machine/Recorder -/

theorem Lasts.execEventOccurrence {code arg extra : Nat} (h : Lasts u s) : Ends u (Machine.execEventOccurrence code arg extra s) :=
  .ite h.next (.ite h.raiseX.next h.raise.next)

theorem Lasts.execRecorderPageCommit (h : Lasts u s) : Ends u (Machine.execRecorderPageCommit s) :=
  .ite h.next h.commitPage.next

theorem Lasts.execRecorderCommitWrite {value : Nat} (h : Lasts u s) : Ends u (Machine.execRecorderCommitWrite value s) :=
  .ite h.commitPage.next h.next

theorem Lasts.execRecSummary {f slot : Nat} (h : Lasts u s) : Ends u (Machine.execRecSummary f slot s) :=
  .next (h.immediate (fun h => h.ok))

theorem Lasts.execRecRead {f slot : Nat} {bad : List Nat} (h : Lasts u s) : Ends u (Machine.execRecRead f slot bad s) :=
  .next (h.immediate (fun h => .ite h.badParam (.ite h.badParam (Lasts.pipe (h.foldl (fun h => h.raise)) (fun h1 => .ite h1.no
      h1.fencedWrite.ok)))))

theorem Lasts.execEventNotify {f slot : Nat} (h : Lasts u s) : Ends u (Machine.execEventNotify f slot s) :=
  .next (h.immediate (fun h => .ite h.badParam (.ite h.parts.ok (.ite h.no h.parts.ok))))

/-! ### Machine/Release -/

theorem Lasts.releaseStreams {d : Nat} (h : Lasts u s) : Lasts u (Machine.releaseStreams d s) :=
  Lasts.foldl (h.foldl (fun h => h.discardQueued.disableStream.setLiveEnable.setFld.modStream)) (fun h => h.disarmMark.parts)

theorem Lasts.releaseGraphs {d : Nat} (h : Lasts u s) : Lasts u (Machine.releaseGraphs d s) :=
  Lasts.foldl (.parts (h.parts.foldl (fun h => h.abortGraph))) (fun h => h.dropCache)

theorem Lasts.releaseMemory {d : Nat} (h : Lasts u s) : Lasts u (Machine.releaseMemory d s) :=
  h.parts

theorem Lasts.execDomainRelease {f slot : Nat} (h : Lasts u s) : Ends u (Machine.execDomainRelease f slot s) :=
  .next (h.immediate (fun h => .ite h.badParam (h.quiesceDomain.settleDomain.releaseStreams.releaseGraphs.releaseMemory.pipe (fun h1 =>
      Lasts.ok (.raise (.notice (.ite h1.ignoredWrite h1.resumeDomain)))))))

/-! ### Machine/Resolve -/

theorem Lasts.refillPegs {x : Inst} (h : Lasts u s) : Lasts u (Machine.refillPegs x s) := by
  refine h.foldl (fun h => ?_)
  split
  · exact .ite h.enqueue h
  · exact h

theorem Lasts.commitTally {i : Nat} {x : Inst} (h : Lasts u s) : Lasts u (Machine.commitTally i x s) := by
  refine .when (?_) (fun h1 => h1.parts)
  split
  · exact h.parts
  · exact h

theorem Lasts.execInstanceCommit (h : Lasts u s) : Ends u (Machine.execInstanceCommit s) := by
  unfold Machine.execInstanceCommit
  split
  · exact h.next
  · refine Lasts.pipe (.commitTally (.commitLedger (.refillPegs ?_))) (fun h4 => .next (.settle (.enqueue (.ite
      h4.dropHeld.releasePushes.modInst.inc h4.dropHeld.releasePushes.modInst))))
    split
    · exact h.parts.releaseWrites.freePages.publishPose
    · exact h.parts.releaseWrites.freePages

theorem Lasts.execInstanceDiscard (h : Lasts u s) : Ends u (Machine.execInstanceDiscard s) := by
  unfold Machine.execInstanceDiscard
  split
  · exact h.next
  · exact h.parts.discardEffects.enqueue.settle.next

/-! ### Machine/Ridge -/

theorem Lasts.execRidgeIncCommit {value : Nat} (h : Lasts u s) : Ends u (Machine.execRidgeIncCommit value s) :=
  .next (.ite h.parts.parts h.parts)

theorem Lasts.execRidgeStep {value : Nat} (h : Lasts u s) : Ends u (Machine.execRidgeStep value s) :=
  .ite h.parts.ignoredWrite.next h.parts.parts.next

theorem Lasts.execRidgeCtrlWrite {value : Nat} (h : Lasts u s) : Ends u (Machine.execRidgeCtrlWrite value s) := by
  unfold Machine.execRidgeCtrlWrite
  split
  · exact h.ignoredWrite.next
  · exact h.putRidgeCtrl.next

theorem Lasts.execDisciplineSample {port stamp : Nat} {origin correction : Int} (h : Lasts u s) :
    Ends u (Machine.execDisciplineSample port stamp origin correction s) :=
  .ite h.parts.sample.next (.ite h.parts.next h.next)

theorem Lasts.execPpsInEdge {stamp : Nat} (h : Lasts u s) : Ends u (Machine.execPpsInEdge stamp s) :=
  .ite h.next (.ite h.parts.wr64.sample.next h.inc.next)

theorem Lasts.execHoldoverEntry (h : Lasts u s) : Ends u (Machine.execHoldoverEntry s) :=
  .ite h.parts.putTrim.setLoop.setFld.setFld.next h.next

theorem Lasts.execHoldoverExpiry (h : Lasts u s) : Ends u (Machine.execHoldoverExpiry s) :=
  .ite h.setLoop.next h.next

theorem Lasts.execAnnounceReceived {port : Nat} {a : Announce} (h : Lasts u s) : Ends u (Machine.execAnnounceReceived port a s) :=
  .ite h.next (.next (.runBmca (.ite h.parts.parts h.parts)))

theorem Lasts.execAnnounceReceiptTimeout {port : Nat} (h : Lasts u s) : Ends u (Machine.execAnnounceReceiptTimeout port s) :=
  h.parts.runBmca.next

theorem Lasts.execPdelayExchange {port : Nat} {t1 t2 t3 t4 : Int} (h : Lasts u s) :
    Ends u (Machine.execPdelayExchange port t1 t2 t3 t4 s) :=
  .ite h.next h.parts.next

theorem Lasts.execGptpSyncTransmit {port : Nat} (h : Lasts u s) : Ends u (Machine.execGptpSyncTransmit port s) := by
  refine .ite h.next ?_
  dsimp only
  split
  · exact h.parts.emit.next
  · exact .next (.ite h.parts.emit h)

theorem Lasts.execPpsOutCfgWrite {value : Nat} (h : Lasts u s) : Ends u (Machine.execPpsOutCfgWrite value s) :=
  .ite h.acceptWrite.wr64.wr.wr.wr.wr.next (.ite h.acceptWrite.setFld.setFld.next h.acceptWrite.next)

theorem Lasts.execPpsPulseEnd (h : Lasts u s) : Ends u (Machine.execPpsPulseEnd s) := by
  unfold Machine.execPpsPulseEnd
  split
  · exact h.next
  · exact .ite h.parts.emit.next h.next

theorem Lasts.execReplicaCorrection {region : Nat} {diff : Int} (h : Lasts u s) : Ends u (Machine.execReplicaCorrection region diff s) :=
  .ite h.next (Lasts.pipe (.ite h.setFld.parts.fault h.setFld.parts) (fun h3 => .ite h3.faultEnds.next h3.next))

/-! ### Machine/Yard -/

theorem Lasts.storageStart {f slot op a b c : Nat} {bad : Option (Nat × Nat)} (h : Lasts u s) :
    ActLasts u (Machine.storageStart f slot op a b c bad s) := by
  refine .ite h.no.inl (.ite h.no.inl ?_)
  split
  · exact h.no.inl
  · exact .ite h.no.inl h.queueCmd.inr

theorem Lasts.execNsRead {f slot : Nat} (h : Lasts u s) : Ends u (Machine.execNsRead f slot s) :=
  .ite h.next (.next (h.deferred (fun h => h.storageStart)))

theorem Lasts.execNsWrite {f slot : Nat} (h : Lasts u s) : Ends u (Machine.execNsWrite f slot s) :=
  .ite h.next (.next (h.deferred (fun h => h.storageStart)))

theorem Lasts.execNsFlush {f slot : Nat} (h : Lasts u s) : Ends u (Machine.execNsFlush f slot s) :=
  .ite h.next (.next (h.deferred (fun h => h.storageStart)))

theorem Lasts.execModelPut {f slot : Nat} (h : Lasts u s) : Ends u (Machine.execModelPut f slot s) :=
  .ite h.next (.next (h.deferred (fun h => h.storageStart)))

theorem Lasts.execModelGet {f slot : Nat} (h : Lasts u s) : Ends u (Machine.execModelGet f slot s) :=
  .ite h.next (.next (h.deferred (fun h => h.storageStart)))

theorem Lasts.execStorageInfo {f slot : Nat} (h : Lasts u s) : Ends u (Machine.execStorageInfo f slot s) :=
  .next (h.immediate (fun h => .ite h.no h.ok))

theorem Lasts.deliverBlock {f a : Nat} {data : Option (List Byte)} {n : Nat} {lost : Bool} (h : Lasts u s) :
    Lasts u (Machine.deliverBlock f a data n lost s) :=
  .ite h.fencedWrite h.fencedWrite

theorem Lasts.endNsRead {c : StoreCmd} {recs : List JRec} {bad : List Nat} (h : Lasts u s) : Lasts u (Machine.endNsRead c recs bad s) := by
  unfold Machine.endNsRead
  dsimp only
  split
  · exact .endCmd (.incFld (Lasts.foldl (h.foldl (fun h => h.deliverBlock)) (fun h => .ite h.markUnreadable h)))
  · exact .endCmd (.incFld (Lasts.foldl (h.foldl (fun h => h.deliverBlock)) (fun h => .ite h.markUnreadable h)))
  · exact .endCmd (.incFld (Lasts.foldl (h.foldl (fun h => h.deliverBlock)) (fun h => .ite h.markUnreadable h)))
  · exact .endCmd (.incFld (Lasts.foldl (h.foldl (fun h => h.deliverBlock)) (fun h => .ite h.markUnreadable h)))

theorem Lasts.endModelGet {c : StoreCmd} {recs : List JRec} {bad : List Nat} (h : Lasts u s) :
    Lasts u (Machine.endModelGet c recs bad s) := by
  unfold Machine.endModelGet
  dsimp only
  split
  · exact h.endCmd
  · refine .ite h.endCmd ?_
    split
    · exact .endCmd (.incFld (Lasts.foldl (h.foldl (fun h => h.deliverBlock)) (fun h => .ite h.markUnreadable h)))
    · exact .endCmd (.incFld (Lasts.foldl (h.foldl (fun h => h.deliverBlock)) (fun h => .ite h.markUnreadable h)))
    · exact .endCmd (.incFld (Lasts.foldl (h.foldl (fun h => h.deliverBlock)) (fun h => .ite h.markUnreadable h)))

theorem Lasts.execStorageCommandComplete {serial retry soft disturb : Nat} {bad : List Nat} (h : Lasts u s) :
    Ends u (Machine.execStorageCommandComplete serial retry soft disturb bad s) := by
  unfold Machine.execStorageCommandComplete
  split
  · exact h.next
  · refine .ite h.next (.ite ?_ (.ite (.ite h.next h.endCmd.powerDownYard.next) (.ite h.endCmd.powerDownYard.next h.next)))
    split
    · exact h.next
    · exact .next (.powerDownYard (.ite (.endNsRead (h.incFld.incFld.foldl (fun h => h.relocate))) (.endModelGet (h.incFld.incFld.foldl
        (fun h => h.relocate)))))

theorem Lasts.execWordlineVerified {serial n failed reserve : Nat} (h : Lasts u s) :
    Ends u (Machine.execWordlineVerified serial n failed reserve s) := by
  unfold Machine.execWordlineVerified
  split
  · exact h.next
  · exact .ite h.next (.next (.settleYard (h.failedPrograms.incFld.modCmd.foldl (fun h => h.appendRec))))

theorem Lasts.execJournalWindowExpiry (h : Lasts u s) : Ends u (Machine.execJournalWindowExpiry s) :=
  .ite h.parts.next h.next

theorem Lasts.execJournalPageVerified {failed reserve : Nat} (h : Lasts u s) :
    Ends u (Machine.execJournalPageVerified failed reserve s) := by
  unfold Machine.execJournalPageVerified
  split
  · exact h.next
  · exact .ite h.next h.failedPrograms.inc.parts.incFld.settleYard.powerDownYard.next

theorem Lasts.execYardMount {checkpointRead : Bool} {ms : Nat} (h : Lasts u s) : Ends u (Machine.execYardMount checkpointRead ms s) :=
  .ite h.next (.ite (.next (h.parts.raise.yardEvent.foldl (fun h => h.endCmd))) (.next (.settleYard (Lasts.foldl (.setFld (.setFld (.parts
      (.ite h.setFld.wr h.setFld.wr.raise.yardEvent)))) (fun h => h.startCmd)))))

theorem Lasts.execCheckpointWrite {pages : Nat} (h : Lasts u s) : Ends u (Machine.execCheckpointWrite pages s) :=
  .ite h.parts.incFld.next h.next

theorem Lasts.execPatrolPass {retry soft : Nat} {moved : List (Nat × Bool)} {bad : List (Nat × Nat)} {complete : Bool} (h : Lasts u s) :
    Ends u (Machine.execPatrolPass retry soft moved bad complete s) :=
  .ite h.next (Lasts.pipe (Lasts.foldl (h.incFld.incFld.foldl (fun h => h.relocate)) (fun h => .ite h h.markUnreadable)) (fun h3 => .next
      (.ite h3.wr h3)))

theorem Lasts.execFreeBlockErase {pool count avg highest reserve : Nat} {failed : Bool} (h : Lasts u s) :
    Ends u (Machine.execFreeBlockErase pool count avg highest reserve failed s) :=
  .ite h.next (Lasts.pipe (.ite h.parts h.parts) (fun h1 => Lasts.pipe (.ite h1 h1.parts) (fun h2 => Lasts.pipe (.ite h2.parts.raise h2)
      (fun h3 => .next (.ite h3.inc.retireBlock h3)))))

end Sys2Proof.Machine
end

section
/-! SUPPORT. Every command keeps what lasts, and the statements that say so of a step; the statements about a step and reset. -/

namespace Sys2Proof.Machine
open Sys2Proof
variable {u s : State}

/-- Whatever the command, it ends in a next state that keeps what `u` has. -/
theorem Lasts.exec {i : Instr} (h : Lasts u s) : Ends u (Machine.exec i s) := by
  cases i with
  | registerWrite => exact h.execRegisterWrite
  | rcRead => exact h.execRcRead
  | lowWordReadLatch => exact h.execLowWordReadLatch
  | referenceTick => exact h.execReferenceTick
  | ridgeIncCommit => exact h.execRidgeIncCommit
  | ridgeStep => exact h.execRidgeStep
  | ridgeCtrlWrite => exact h.execRidgeCtrlWrite
  | disciplineSample => exact h.execDisciplineSample
  | ppsInEdge => exact h.execPpsInEdge
  | holdoverEntry => exact h.execHoldoverEntry
  | holdoverExpiry => exact h.execHoldoverExpiry
  | announceReceived => exact h.execAnnounceReceived
  | pdelayExchange => exact h.execPdelayExchange
  | ppsOutCfgWrite => exact h.execPpsOutCfgWrite
  | ppsPulseEnd => exact h.execPpsPulseEnd
  | replicaCorrection => exact h.execReplicaCorrection
  | markCtrlWrite => exact h.execMarkCtrlWrite
  | markFire => exact h.execMarkFire
  | notBeforePassed => exact h.execNotBeforePassed
  | epochApplyTime => exact h.execEpochApplyTime
  | epochUnitLatch => exact h.execEpochUnitLatch
  | epochCheck => exact h.execEpochCheck
  | epochRevert => exact h.execEpochRevert
  | epochRevertCheck => exact h.execEpochRevertCheck
  | gclConfigChange => exact h.execGclConfigChange
  | gclConfigApply => exact h.execGclConfigApply
  | gateIntervalEnd => exact h.execGateIntervalEnd
  | egressFrameStart => exact h.execEgressFrameStart
  | canTxStart => exact h.execCanTxStart
  | pocCommand => exact h.execPocCommand
  | pocRampComplete => exact h.execPocRampComplete
  | pocFaultDetected => exact h.execPocFaultDetected
  | pocFaultClear => exact h.execPocFaultClear
  | pocAutoRetry => exact h.execPocAutoRetry
  | aphyPacketReceived => exact h.execAphyPacketReceived
  | aphyLockLoss => exact h.execAphyLockLoss
  | aphyLinkUp => exact h.execAphyLinkUp
  | cameraAbsentTimeout => exact h.execCameraAbsentTimeout
  | frameStartReceived => exact h.execFrameStartReceived
  | lineReceived => exact h.execLineReceived
  | frameEndReceived => exact h.execFrameEndReceived
  | frameTimeout => exact h.execFrameTimeout
  | patternCheckDone => exact h.execPatternCheckDone
  | checkerSelftestIdle => exact h.execCheckerSelftestIdle
  | camPortEnableWrite => exact h.execCamPortEnableWrite
  | ethFrameReceived => exact h.execEthFrameReceived
  | ethLinkDown => exact h.execEthLinkDown
  | ethLinkUp => exact h.execEthLinkUp
  | jigPacket => exact h.execJigPacket
  | sweepTimeout => exact h.execSweepTimeout
  | synthBlockInject => exact h.execSynthBlockInject
  | canFrameReceived => exact h.execCanFrameReceived
  | canErrorFrame => exact h.execCanErrorFrame
  | canBusoffRecovery => exact h.execCanBusoffRecovery
  | signalStale => exact h.execSignalStale
  | refImuSample => exact h.execRefImuSample
  | refImuFault => exact h.execRefImuFault
  | xchkWindowEval => exact h.execXchkWindowEval
  | planerIngest => exact h.execPlanerIngest
  | poseRefFix => exact h.execPoseRefFix
  | sliceRelease => exact h.execSliceRelease
  | voxelFrameEmit => exact h.execVoxelFrameEmit
  | baySetPointWrite => exact h.execBaySetPointWrite
  | instanceNamed => exact h.execInstanceNamed
  | shadowLoadComplete => exact h.execShadowLoadComplete
  | taskStart => exact h.execTaskStart
  | taskEnd => exact h.execTaskEnd
  | stepBoundReached => exact h.execStepBoundReached
  | trussSelftestStart => exact h.execTrussSelftestStart
  | trussSelftestDone => exact h.execTrussSelftestDone
  | scribePegAddWrite => exact h.execScribePegAddWrite
  | pegSetWrite => exact h.execPegSetWrite
  | ringPopRegisterRead => exact h.execRingPopRegisterRead
  | provisionalStart => exact h.execProvisionalStart
  | instanceCommit => exact h.execInstanceCommit
  | instanceDiscard => exact h.execInstanceDiscard
  | streamStallEnd => exact h.execStreamStallEnd
  | stallTimeout => exact h.execStallTimeout
  | raftCycleStart => exact h.execRaftCycleStart
  | raftCycleEnd => exact h.execRaftCycleEnd
  | ledgerOpen => exact h.execLedgerOpen
  | ledgerFork => exact h.execLedgerFork
  | ledgerAppend => exact h.execLedgerAppend
  | ledgerRead => exact h.execLedgerRead
  | ledgerClose => exact h.execLedgerClose
  | ledgerRefill => exact h.execLedgerRefill
  | ledgerCollective => exact h.execLedgerCollective
  | readResume => exact h.execReadResume
  | recomputeDeadline => exact h.execRecomputeDeadline
  | plumbCycleStart => exact h.execPlumbCycleStart
  | plumbDeadline => exact h.execPlumbDeadline
  | plumbCycleEnd => exact h.execPlumbCycleEnd
  | tallyAssociate => exact h.execTallyAssociate
  | tallyUpdate => exact h.execTallyUpdate
  | streamCapture => exact h.execStreamCapture
  | captureComplete => exact h.execCaptureComplete
  | segmentLaunch => exact h.execSegmentLaunch
  | pcieDelivery => exact h.execPcieDelivery
  | windowDecision => exact h.execWindowDecision
  | validOutReadback => exact h.execValidOutReadback
  | safeStateHeartbeat => exact h.execSafeStateHeartbeat
  | vlinkCtrlWrite => exact h.execVlinkCtrlWrite
  | mbDoorbell => exact h.execMbDoorbell
  | commandAccept => exact h.execCommandAccept
  | hello => exact h.execHello
  | goodbye => exact h.execGoodbye
  | ping => exact h.execPing
  | limits => exact h.execLimits
  | memAlloc => exact h.execMemAlloc
  | memRelease => exact h.execMemRelease
  | memShare => exact h.execMemShare
  | memCopyIn => exact h.execMemCopyIn
  | memCopyOut => exact h.execMemCopyOut
  | copyComplete => exact h.execCopyComplete
  | tensorCreate f slot => exact h.execTensorCreate (f := f) (slot := slot)
  | tensorDestroy => exact h.execTensorDestroy
  | tensorQuery => exact h.execTensorQuery
  | ringCreate => exact h.execRingCreate
  | ringDestroy => exact h.execRingDestroy
  | ringQuery => exact h.execRingQuery
  | ringPush => exact h.execRingPush
  | ringPop => exact h.execRingPop
  | cacheCreate f slot => exact h.execCacheCreate (f := f) (slot := slot)
  | cacheDestroy => exact h.execCacheDestroy
  | ledgerQuery => exact h.execLedgerQuery
  | quotaSet => exact h.execQuotaSet
  | pegAlloc => exact h.execPegAlloc
  | pegRelease => exact h.execPegRelease
  | pegGrant => exact h.execPegGrant
  | pegAdd => exact h.execPegAdd
  | pegSet => exact h.execPegSet
  | pegRead => exact h.execPegRead
  | pegWait => exact h.execPegWait
  | waitTimeout => exact h.execWaitTimeout
  | waitQuery => exact h.execWaitQuery
  | graphLoad f slot => exact h.execGraphLoad (f := f) (slot := slot)
  | graphStart => exact h.execGraphStart
  | graphStop => exact h.execGraphStop
  | graphAbort => exact h.execGraphAbort
  | graphUnload => exact h.execGraphUnload
  | graphQuery => exact h.execGraphQuery
  | plumbRegister => exact h.execPlumbRegister
  | plumbRelease => exact h.execPlumbRelease
  | tallyRegister => exact h.execTallyRegister
  | tallyRelease => exact h.execTallyRelease
  | camStage => exact h.execCamStage
  | camPower => exact h.execCamPower
  | camControl => exact h.execCamControl
  | netPortStage => exact h.execNetPortStage
  | fwdWrite => exact h.execFwdWrite
  | scanStage => exact h.execScanStage
  | signalMapWrite => exact h.execSignalMapWrite
  | canStage => exact h.execCanStage
  | canSlotWrite => exact h.execCanSlotWrite
  | imuStage => exact h.execImuStage
  | unitStage => exact h.execUnitStage
  | gclWrite => exact h.execGclWrite
  | timeRead => exact h.execTimeRead
  | timeCorrelate => exact h.execTimeCorrelate
  | markAlloc => exact h.execMarkAlloc
  | markRelease => exact h.execMarkRelease
  | markArm => exact h.execMarkArm
  | markDisarm => exact h.execMarkDisarm
  | gptpSet => exact h.execGptpSet
  | epochApply => exact h.execEpochApply
  | epochDiscard => exact h.execEpochDiscard
  | epochStatus => exact h.execEpochStatus
  | streamOpen => exact h.execStreamOpen
  | streamStage => exact h.execStreamStage
  | streamHostRing => exact h.execStreamHostRing
  | streamClose => exact h.execStreamClose
  | streamQuery => exact h.execStreamQuery
  | vlinkSet => exact h.execVlinkSet
  | powerRead => exact h.execPowerRead
  | setPointStage => exact h.execSetPointStage
  | capSet => exact h.execCapSet
  | throttleRead => exact h.execThrottleRead
  | throttleRequest => exact h.execThrottleRequest
  | nsRead => exact h.execNsRead
  | nsWrite => exact h.execNsWrite
  | nsFlush => exact h.execNsFlush
  | modelPut => exact h.execModelPut
  | modelGet => exact h.execModelGet
  | storageInfo => exact h.execStorageInfo
  | storageCommandComplete => exact h.execStorageCommandComplete
  | recSummary => exact h.execRecSummary
  | recRead => exact h.execRecRead
  | eventNotify => exact h.execEventNotify
  | safetyStatus => exact h.execSafetyStatus
  | safeStateRelease => exact h.execSafeStateRelease
  | selftestLog => exact h.execSelftestLog
  | fwStage => exact h.execFwStage
  | fwActivate => exact h.execFwActivate
  | adapterStore => exact h.execAdapterStore
  | adapterStage => exact h.execAdapterStage
  | domainRelease => exact h.execDomainRelease
  | foremanLog => exact h.execForemanLog
  | returnPrepare => exact h.execReturnPrepare
  | returnEraseComplete => exact h.execReturnEraseComplete
  | functionLevelReset => exact h.execFunctionLevelReset
  | busMasterDisable => exact h.execBusMasterDisable
  | numvfsLowered => exact h.execNumvfsLowered
  | pcieLinkReset => exact h.execPcieLinkReset
  | foremanHeartbeat => exact h.execForemanHeartbeat
  | foremanWatchdog => exact h.execForemanWatchdog
  | foremanResume => exact h.execForemanResume
  | domainClose => exact h.execDomainClose
  | domainQuiesce => exact h.execDomainQuiesce
  | domainResume => exact h.execDomainResume
  | domainSettled => exact h.execDomainSettled
  | ownerSecretSubmit => exact h.execOwnerSecretSubmit
  | ownerSecretDecision => exact h.execOwnerSecretDecision
  | ownerRekeySubmit => exact h.execOwnerRekeySubmit
  | serviceToken => exact h.execServiceToken
  | secCounterRaise => exact h.execSecCounterRaise
  | bootExcursion => exact h.execBootExcursion
  | scrubRead => exact h.execScrubRead
  | purlinLinkDown => exact h.execPurlinLinkDown
  | purlinLinkUp => exact h.execPurlinLinkUp
  | zeroingComplete => exact h.execZeroingComplete
  | wordlineVerified => exact h.execWordlineVerified
  | journalWindowExpiry => exact h.execJournalWindowExpiry
  | journalPageVerified => exact h.execJournalPageVerified
  | yardMount => exact h.execYardMount
  | checkpointWrite => exact h.execCheckpointWrite
  | powerFailCommit => exact h.execPowerFailCommit
  | patrolPass => exact h.execPatrolPass
  | faultReport => exact h.execFaultReport
  | dualCompare => exact h.execDualCompare
  | tiebreakCompare => exact h.execTiebreakCompare
  | kingpostLockstepMismatch => exact h.execKingpostLockstepMismatch
  | rotationSlot => exact h.execRotationSlot
  | rotationOverdue => exact h.execRotationOverdue
  | inputSample => exact h.execInputSample
  | railFault => exact h.execRailFault
  | tjReport => exact h.execTjReport
  | controlInterval => exact h.execControlInterval
  | secondMark => exact h.execSecondMark
  | ageTrimRise => exact h.execAgeTrimRise
  | capLatch => exact h.execCapLatch
  | governorCapReqWrite => exact h.execGovernorCapReqWrite
  | governorExtReqWrite => exact h.execGovernorExtReqWrite
  | eventOccurrence => exact h.execEventOccurrence
  | recorderPageCommit => exact h.execRecorderPageCommit
  | recorderCommitWrite => exact h.execRecorderCommitWrite
  | vinRise => exact h.execVinRise
  | enHigh => exact h.execEnHigh
  | enLow => exact h.execEnLow
  | powerOn => exact h.execPowerOn
  | railStepInLimits => exact h.execRailStepInLimits
  | railStepTimeout => exact h.execRailStepTimeout
  | sequencingRetry => exact h.execSequencingRetry
  | holdupCharged => exact h.execHoldupCharged
  | pkgReset => exact h.execPkgReset
  | kingpostFwSwitch => exact h.execKingpostFwSwitch
  | fwTrialConfirm => exact h.execFwTrialConfirm
  | fwTrialRevert => exact h.execFwTrialRevert
  | defaultProfileStart => exact h.execDefaultProfileStart
  | powerDownRailStep => exact h.execPowerDownRailStep
  | crashDischarge => exact h.execCrashDischarge
  | inputLoss => exact h.execInputLoss
  | gptpSyncTransmit => exact h.execGptpSyncTransmit
  | announceReceiptTimeout => exact h.execAnnounceReceiptTimeout
  | sillLockstepMismatch => exact h.execSillLockstepMismatch
  | regionCrossingAlert => exact h.execRegionCrossingAlert
  | pcieLinkTrained => exact h.execPcieLinkTrained
  | numvfsRaised => exact h.execNumvfsRaised
  | camControlReply => exact h.execCamControlReply
  | powerDownStorageLimit => exact h.execPowerDownStorageLimit
  | recoveryPackageReset => exact h.execRecoveryPackageReset
  | freeBlockErase => exact h.execFreeBlockErase

/-- A step answers a next state, which keeps what the state without the command at its front has. -/
theorem ends_step (s : State) : Ends { s with pending := s.pending.tail } (step s) := by
  unfold step
  split
  · next e => exact ⟨s, rfl, by rw [e]; rfl, List.prefix_refl _, le_rfl, id, .refl _⟩
  · next e =>
    rw [e]
    exact (Lasts.refl _).exec

/-- So a next state of a step is one that keeps it. -/
theorem Lasts.of_step {s t : State} (e : step s = .next t) : Lasts { s with pending := s.pending.tail } t := by
  obtain ⟨t', e', h⟩ := ends_step s
  obtain rfl : t = t' := by simpa [e] using e'
  exact h

/-- Hence a run of any length is safe. -/
theorem safe_run (k : Nat) (s : State) : Safe k s := by
  induction k generalizing s with
  | zero => exact trivial
  | succ k ih =>
    obtain ⟨t, e, _⟩ := ends_step s
    unfold Safe
    rw [e]
    exact ih t

/-- Settles O60: every step keeps what came before it, and no command ends in a fault or a refusal. -/
theorem everyCommandEnds : Obligations.EveryCommandEnds := by
  refine ⟨fun s => ?_, safe_run⟩
  obtain ⟨t, e, h⟩ := ends_step s
  exact ⟨t, e, h.pending, h.emitted, h.free⟩

/-- Settles O58: every write of memory keeps its canonical form, and every operation keeps it by the writes it makes. -/
theorem memoryStaysCanonical : Obligations.MemoryStaysCanonical :=
  fun _ _ hm e => (Lasts.of_step e).mem hm

/-- Settles O59: the operations that write a fuse set it or raise the counter, and a restart keeps what the fuses hold. -/
theorem fusesOnlyBlow : Obligations.FusesOnlyBlow :=
  fun _ _ e => (Lasts.of_step e).fuses

/-! ### The first statements -/

/-- Settles O1: the two cases of `step`. -/
theorem stepRunsTheFrontCommand : Obligations.StepRunsTheFrontCommand := by
  refine ⟨fun s c rest e => ?_, fun s e => ?_⟩
  · unfold step
    rw [e]
  · unfold step
    rw [e]

/-- Settles O2: the parts of the state after reset, each computed; memory and the windows hold nothing at any index. -/
theorem resetState : Obligations.ResetState := by
  have hw (w : Nat) : winValid State.reset w = false := by
    have hc : rd State.reset (FENCE_WIN_CTRL w) = 0 := rfl
    simp [winValid, hc, bit]
  exact ⟨rfl, rfl, rfl, rfl, rfl, fun _ => rfl, rfl, rfl, rfl, rfl, rfl, rfl, fun w _ => hw w, rfl, rfl, rfl, rfl, rfl⟩

/-- Settles O57: nothing is there at reset, so nothing can be lost from it; the step idles on the empty queue. -/
theorem resetMeetsTheInvariants : Obligations.ResetMeetsTheInvariants :=
  ⟨Memory.wf_nil, rfl, rfl, fun _ => ⟨Nat.zero_le _, by simp [State.reset, bit], nofun, nofun, nofun⟩, rfl, rfl, rfl, rfl⟩

end Sys2Proof.Machine
end

section
/-! SUPPORT. The Event Recorder: occurrences, commits, and its commands (R585–R598). -/

namespace Sys2Proof.Machine
open Sys2Proof

/-! ### The slot of a code (R588) -/

theorem slotOf_new {slots : List EvSlot} {code : Nat} (hnew : slots.any (fun e => decide (e.code = code)) = false)
    (hroom : slots.length < 199) : slotOf slots code = (slots.length, slots ++ [{ code := code }]) := by
  have hnone : slots.findIdx? (fun e => decide (e.code = code)) = none := by
    rw [List.findIdx?_eq_none_iff]
    simpa using hnew
  simp [slotOf, hnone, hroom]

theorem slotOf_head {e : EvSlot} {rest : List EvSlot} {code : Nat} (h : e.code = code) : slotOf (e :: rest) code = (0, e :: rest) := by
  simp [slotOf, List.findIdx?_cons, h]

theorem modify_append_length {α : Type} (f : α → α) (l : List α) (a : α) : (l ++ [a]).modify l.length f = l ++ [f a] := by
  induction l with
  | nil => rfl
  | cons b r ih => simp [ih]

/-! ### An occurrence (R588–R590) -/

/-- The tokens in the bucket of a code. -/
def tokensOf (s : State) (code : Nat) : Nat := tgetD code (if classL.contains code then s.recd.fullL else s.recd.fullN) s.recd.buckets

/-- A slot that counts one more occurrence. -/
def slotCounted (l : Life) (e : EvSlot) : EvSlot :=
  { e with count := satAdd 0xFFFFFFFF e.count 1, first := if e.first = (⟨0, 0⟩ : Life) then l else e.first }

/-- The recorder's part after an occurrence that is recorded in slot `i`. -/
def recorded (s : State) (code arg x i : Nat) (slots : List EvSlot) : RecSt :=
  { s.recd with
    slots := slots.modify i (fun e => { slotCounted s.recd.life e with arg := arg, last := s.recd.life, extra := x })
    eventsTotal := satAdd 0xFFFFFFFF s.recd.eventsTotal 1
    buckets := tput code (tokensOf s code - 1) s.recd.buckets }

/-- The same after one that is held back. -/
def heldBack (s : State) (i : Nat) (slots : List EvSlot) : RecSt :=
  { s.recd with
    slots := slots.modify i (fun e => { slotCounted s.recd.life e with held := satAdd 0xFFFFFFFF e.held 1 })
    eventsTotal := satAdd 0xFFFFFFFF s.recd.eventsTotal 1
    heldTotal := satAdd 0xFFFFFFFF s.recd.heldTotal 1 }

/-- The words that count an occurrence, where the recorder's part becomes `r`. -/
def eventCounted (r : RecSt) (s : State) : State :=
  setFld RECORDER_STATUS 2 2 (b2n (decide (r.slots.length = 200)))
    (setFld RECORDER_STATUS 15 8 (min 199 (r.slots.length - 1)) (inc RECORDER_EVENTS { s with recd := r }))

section
variable {s : State} {code i : Nat} {slots : List EvSlot} (hslot : slotOf s.recd.slots code = (i, slots))
include hslot

theorem occur_recorded (htokens : 1 ≤ tokensOf s code) (hnone : s.recd.notifies = []) (arg x : Nat) :
    occur code arg x s = wr RECORDER_LAST_ARG arg (wr RECORDER_LAST_EVENT code (eventCounted (recorded s code arg x i slots) s)) := by
  have hquiet {t : State} (h : t.recd.notifies = []) : notifyEvent code t = t := by rw [notifyEvent, h, List.foldl_nil]
  unfold tokensOf at htokens
  simp only [occur, hslot, htokens, decide_true, if_true]
  exact hquiet hnone

theorem occur_heldBack (htokens : tokensOf s code = 0) (arg x : Nat) :
    occur code arg x s = inc RECORDER_HELD (eventCounted (heldBack s i slots) s) := by
  have hfew : ¬ 1 ≤ tokensOf s code := by omega
  unfold tokensOf at hfew
  simp only [occur, hslot, hfew, decide_false, Bool.false_eq_true, if_false]
  rfl

end

theorem rd_eventCounted_ne {r : Reg} (he : r.addr ≠ RECORDER_EVENTS.addr) (hs : r.addr ≠ RECORDER_STATUS.addr) (c : RecSt) (s : State) :
    rd (eventCounted c s) r = rd s r := by
  rw [eventCounted, rd_setFld_ne hs, rd_setFld_ne hs, inc, incFld, rd_setFld_ne he]
  rfl

theorem rd_eventCounted (c : RecSt) (s : State) : rd (eventCounted c s) RECORDER_EVENTS = min 0xFFFFFFFF (rd s RECORDER_EVENTS + 1) := by
  rw [eventCounted, rd_setFld_ne (by decide), rd_setFld_ne (by decide), rd_inc (by decide)]
  rfl

/-- An occurrence leaves no more slots than there are, and one of a new code one more. -/
theorem raise_of_room {s : State} {code arg : Nat} (h : s.recd.slots.length ≠ 199 ∨ (occur code arg s.ridge.ns s).recd.slots.length ≠ 200) :
    raise code arg s = occur code arg s.ridge.ns s := by
  rw [raise, raiseX]
  exact if_neg (fun hfull => h.elim (· hfull.1) (· hfull.2))

section
variable {s : State} {code : Nat} (h0 : 0 < code) (hlast : code < 0xFFFF) (hx : ¬(0xF001 ≤ code ∧ code ≤ 0xF003))
include h0 hlast hx

theorem exec_eventOccurrence (arg x : Nat) : exec (.eventOccurrence code arg x) s = .next (raise code arg s) := by
  rw [show exec (.eventOccurrence code arg x) s = execEventOccurrence code arg x s from rfl, execEventOccurrence,
    if_neg (by omega), if_neg hx]

theorem completes_eventOccurrence_new (hnone : s.recd.notifies = []) (hnew : s.recd.slots.any (fun e => decide (e.code = code)) = false)
    (hroom : s.recd.slots.length < 199) (htokens : 1 ≤ tokensOf s code) (arg x : Nat) :
    Completes (.eventOccurrence code arg x) s (fun t =>
      let e : EvSlot := { code := code, count := 1, arg := arg, first := s.recd.life, last := s.recd.life, extra := s.ridge.ns }
      t.recd.slots = s.recd.slots ++ [e] ∧ t.recd.buckets = tput code (tokensOf s code - 1) s.recd.buckets ∧
      rd t RECORDER_LAST_EVENT = code ∧ rd t RECORDER_LAST_ARG = arg % 2 ^ 32 ∧
      rd t RECORDER_EVENTS = min 0xFFFFFFFF (rd s RECORDER_EVENTS + 1) ∧ Logged s t) := by
  have hraise : raise code arg s = occur code arg s.ridge.ns s := raise_of_room (.inl (by omega))
  refine ⟨_, exec_eventOccurrence h0 hlast hx arg x, ?_⟩
  have hlogged := Logged.raise code arg s
  rw [hraise, occur_recorded (slotOf_new hnew hroom) htokens hnone] at *
  refine ⟨?_, rfl, ?_, rd_wr_same .., ?_, hlogged⟩
  · exact modify_append_length _ _ _
  · rw [rd_wr_ne (by decide), rd_wr_same, Nat.mod_eq_of_lt (by omega)]
  · rw [rd_wr_ne (by decide), rd_wr_ne (by decide), rd_eventCounted]

theorem completes_eventOccurrence_held {e : EvSlot} {rest : List EvSlot} (hslots : s.recd.slots = e :: rest) (hcode : e.code = code)
    (htokens : tokensOf s code = 0) (arg x : Nat) : Completes (.eventOccurrence code arg x) s (fun t =>
      t.recd.slots.tail = rest ∧ t.recd.slots.head?.map (fun y => (y.code, y.count, y.held, y.arg, y.last, y.extra)) =
        some (code, min 0xFFFFFFFF (e.count + 1), min 0xFFFFFFFF (e.held + 1), e.arg, e.last, e.extra) ∧
      rd t RECORDER_HELD = min 0xFFFFFFFF (rd s RECORDER_HELD + 1) ∧ rd t RECORDER_LAST_EVENT = rd s RECORDER_LAST_EVENT ∧ Logged s t) := by
  have hslot : slotOf s.recd.slots code = (0, e :: rest) := by rw [hslots, slotOf_head hcode]
  have hoccur := occur_heldBack hslot htokens arg s.ridge.ns
  have hraise : raise code arg s = occur code arg s.ridge.ns s := raise_of_room (by
    rw [hoccur, hslots]
    simp [eventCounted, heldBack]
    omega)
  refine ⟨_, exec_eventOccurrence h0 hlast hx arg x, ?_⟩
  have hlogged := Logged.raise code arg s
  rw [hraise, hoccur] at *
  refine ⟨rfl, ?_, ?_, ?_, hlogged⟩
  · rw [← hcode]
    rfl
  · rw [rd_inc (by decide), rd_eventCounted_ne (by decide) (by decide)]
  · rw [inc, incFld, rd_setFld_ne (by decide), rd_eventCounted_ne (by decide) (by decide)]

end
/-! ### Commits (R594, R595) -/

/-- What a commit leaves, where the limit is not reached. -/
def Committed (s : State) (cause : Nat) (t : State) : Prop :=
  t.recd.pageSeq = s.recd.pageSeq + 1 ∧ t.recd.sinceCommit = 0 ∧ t.recd.commits = recentCommits s ++ [s.recd.life.s] ∧ t.recd.windows = [] ∧
    (s.recd.pages = [] → t.recd.pages = [(s.recd.pageSeq + 1, buildPage s cause (s.recd.pageSeq + 1))]) ∧
    t = { s with regs := t.regs, recd := t.recd } ∧
    SameWords s t (fun a => decide (a = RECORDER_STATUS.addr) || decide (a = YARD_PROG_PSLC.addr))

section
variable {s : State} (hnand : nandWhole s = true) (hfew : (recentCommits s).length < 1000)
include hnand hfew

theorem commitPage_committed (cause : Nat) : Committed s cause (commitPage cause s) := by
  have hlimit : ¬ (if cause = 0 ∨ cause = 3 then 1000 else 1024) ≤ (recentCommits s).length := by
    split <;> omega
  unfold commitPage
  dsimp only
  rw [if_neg (by simp [hnand]), if_neg hlimit]
  refine ⟨rfl, rfl, rfl, rfl, fun hpages => ?_, rfl, ?_⟩
  · simp [hpages, tput]
  · exact (SameWords.wr rfl _ s).trans (SameWords.wr rfl _ (inc YARD_PROG_PSLC s))

theorem completes_recorderCommitWrite {v : Nat} (hv : v < 2) :
    (v = 1 → Completes (.recorderCommitWrite v) s (Committed s 3)) ∧ (v = 0 → Completes (.recorderCommitWrite v) s (fun t => t = s)) := by
  refine ⟨fun h => ?_, fun h => ?_⟩
  · subst h
    exact ⟨_, rfl, commitPage_committed hnand hfew 3⟩
  · subst h
    exact ⟨_, rfl, rfl⟩

theorem completes_recorderPageCommit (hrun : inRun s = true) :
    (4 ≤ s.recd.sinceCommit → Completes .recorderPageCommit s (Committed s 0)) ∧
      (s.recd.sinceCommit < 4 → Completes .recorderPageCommit s (fun t => t = s)) := by
  have hexec : exec .recorderPageCommit s = if s.recd.sinceCommit < 4 then .next s else .next (commitPage 0 s) := by
    rw [show exec .recorderPageCommit s = execRecorderPageCommit s from rfl, execRecorderPageCommit, hrun]
    simp
  refine ⟨fun h => ?_, fun h => ?_⟩
  · exact ⟨_, hexec.trans (if_neg (by omega)), commitPage_committed hnand hfew 0⟩
  · exact ⟨_, hexec.trans (if_pos h), rfl⟩

end

/-! ### The commands (R591, R598) -/

section
variable {s : State} {f k : Nat}

/-- A command that is answered with success and no results. -/
theorem answers_success {i : Instr} {op : Nat} {act : State → Ans} {u : State} (hexec : exec i s = .next (immediate f k op act s))
    (h : Ready f k op s) (ha : act s = ok [] u) (hacc : u.mb.accepted = s.mb.accepted) : Answers i f k 0 s u :=
  answers_of_act (a := ok [] u) hexec h ha hacc (Nat.succ_pos 65535) (Nat.zero_le 80)

theorem packRes_r32s (l : List Nat) : ∀ {acc : List Byte}, acc.length % 4 = 0 → packRes (l.map r32) acc = acc ++ l.flatMap (leBytes 4) := by
  induction l with
  | nil => exact fun _ => by simp [packRes]
  | cons v l ih =>
    intro acc h
    rw [List.map_cons, r32, packRes_aligned (by decide) h, ih (by rw [List.length_append, leBytes_length]; omega), List.flatMap_cons,
      List.append_assoc]

/-- A command that answers numbers of 32 bits: each reads as its value, cut to its size. -/
theorem answersWith_of_r32s {i : Instr} {op : Nat} {act : State → Ans} {u : State} {P : State → Prop} (l : List Nat)
    (hexec : exec i s = .next (immediate f k op act s)) (h : Ready f k op s) (ha : act s = ok (l.map r32) u)
    (hacc : u.mb.accepted = s.mb.accepted) (hlen : l.length ≤ 20)
    (hP : ∀ t, (∀ j, (hj : j < l.length) → result t f k (4 * j) 4 = l[j] % 2 ^ 32) → P t) : AnswersWith i f k 0 s u P := by
  have hsizes (m : List Nat) : ((m.map (fun v => (4, v))).map Prod.fst).sum = 4 * m.length := by
    simp [Function.comp_def, Nat.mul_comm]
  have hpack : packRes (l.map r32) [] = fieldBytes (l.map (fun v => (4, v))) := by
    rw [packRes_r32s l rfl, fieldBytes, List.flatMap_map, List.nil_append]
  refine answersWith_of_fields (l.map (fun v => (4, v))) hexec h ha hacc hpack (by rw [hsizes]; omega) fun t hres => hP t fun j hj => ?_
  have hfield := hres j 4 l[j] (by simp [hj])
  rwa [fieldOffset, ← List.map_take, hsizes, List.length_take, Nat.min_eq_left (Nat.le_of_lt hj)] at hfield

theorem answers_recSummary (h : Ready f k 0x0901 s) : AnswersWith (.recSummary f k) f k 0 s s (fun t =>
    result t f k 0 4 = s.recd.life.s / 3600 % 2 ^ 32 ∧ result t f k 4 4 = s.recd.life.cycle % 2 ^ 32 ∧
    result t f k 8 4 = s.recd.pageSeq % 2 ^ 32 ∧ result t f k 12 4 = ((s.recd.pages.head?.map (·.1)).getD 0) % 2 ^ 32) :=
  answersWith_of_r32s [s.recd.life.s / 3600, s.recd.life.cycle, s.recd.pageSeq, (s.recd.pages.head?.map (·.1)).getD 0] rfl h rfl rfl
    (Nat.le_of_ble_eq_true rfl) fun _ hres => ⟨hres 0 (by simp), hres 1 (by simp), hres 2 (by simp), hres 3 (by simp)⟩

section
variable (h : Ready f k 0x0902 s)
include h

theorem answers_recRead_badCount (hcount : param s f k 0x0902 1 = 0 ∨ 1024 < param s f k 0x0902 1) :
    Answers (.recRead f k []) f k 0x1006 s s :=
  answers_refusal rfl h (if_pos hcount) (by decide)

variable (h0 : 0 < param s f k 0x0902 1) (h1024 : param s f k 0x0902 1 ≤ 1024) (hfirst : param s f k 0x0902 0 < 0xFFFFFFFF)
include h0 h1024 hfirst

theorem answers_recRead_badRange (hheld : holdsRange s f (param s f k 0x0902 2) (16384 * param s f k 0x0902 1) false true = false) :
    Answers (.recRead f k []) f k 0x1006 s s := by
  have hcount : ¬ (param s f k 0x0902 1 = 0 ∨ 1024 < param s f k 0x0902 1) := by omega
  refine answers_refusal (detail := paramOff 0x0902 2) rfl h ?_ (by decide)
  simp [hcount, Nat.ne_of_lt hfirst, hheld, badParam]

variable (hheld : holdsRange s f (param s f k 0x0902 2) (16384 * param s f k 0x0902 1) false true = true)
include hheld

theorem answers_recRead_none (hpages : s.recd.pages = []) : Answers (.recRead f k []) f k 0x1402 s s := by
  have hcount : ¬ (param s f k 0x0902 1 = 0 ∨ 1024 < param s f k 0x0902 1) := by omega
  refine answers_refusal (detail := 0) rfl h ?_ (by decide)
  simp [hcount, Nat.ne_of_lt hfirst, hheld, hpages]

omit h0 h1024 in
theorem answers_recRead_page {p : Nat × List Byte} (hpages : s.recd.pages = [p]) (hp : param s f k 0x0902 0 = p.1)
    (hone : param s f k 0x0902 1 = 1) (hlink : cutOff s none (param s f k 0x0902 2) = false)
    (hadmit : admitAll s f (param s f k 0x0902 2) p.2.length true = true) :
    AnswersWith (.recRead f k []) f k 0 s (writeBytes (param s f k 0x0902 2) p.2 s) (fun t => result t f k 0 4 = 1) := by
  have hwrite : fencedWrite f 6 ⟨param s f k 0x0902 2, p.2, false⟩ s = writeBytes (param s f k 0x0902 2) p.2 s :=
    fencedWrite_admitted hlink hadmit
  refine answersWith_of_r32s [1] rfl h ?_ rfl (by decide) fun _ hres => hres 0 (by decide)
  rw [hp] at hfirst
  rw [hone] at hheld
  simp [hone, hp, Nat.ne_of_lt hfirst, hheld, hpages, hwrite]

end

section
variable (h : Ready f k 0x0903 s)
include h

theorem answers_eventNotify_badVector (hv : param s f k 0x0903 2 < 2 ∨ 31 < param s f k 0x0903 2 ∧ param s f k 0x0903 2 ≠ 0xFF) :
    Answers (.eventNotify f k) f k 0x1006 s s :=
  answers_refusal (detail := paramOff 0x0903 2) rfl h (if_pos (by omega)) (by decide)

variable {others : List Notify}
  (ho : s.recd.notifies.filter (fun n => !(decide (n.code = param s f k 0x0903 0) && decide (n.mask = param s f k 0x0903 1))) = others)
include ho

theorem answers_eventNotify_removed (hv : param s f k 0x0903 2 = 0xFF) :
    Answers (.eventNotify f k) f k 0 s { s with recd.notifies := others } := by
  subst ho
  exact answers_success rfl h ((if_neg (fun hbad => hbad.1 hv)).trans (if_pos hv)) rfl

variable (h2 : 2 ≤ param s f k 0x0903 2) (h31 : param s f k 0x0903 2 ≤ 31)
include h2 h31

theorem answers_eventNotify_full (hfull : 8 ≤ others.length) : Answers (.eventNotify f k) f k 0x1401 s s := by
  subst ho
  exact answers_refusal (detail := 0) rfl h ((if_neg (by omega)).trans ((if_neg (by omega)).trans (if_pos hfull))) (by decide)

theorem answers_eventNotify_set (hroom : others.length < 8) : Answers (.eventNotify f k) f k 0 s
    { s with recd.notifies := others ++ [{ code := param s f k 0x0903 0, mask := param s f k 0x0903 1, vector := param s f k 0x0903 2 }] } := by
  subst ho
  exact answers_success rfl h ((if_neg (by omega)).trans ((if_neg (by omega)).trans (if_neg (by omega)))) rfl

end
end

/-- Settles O42: an occurrence, the commits, and the three commands, each by its cases. -/
theorem recorderRows : Obligations.RecorderRows := by
  refine ⟨fun s code arg x h0 hlast hx hnone => ⟨?_, ?_⟩, fun s hnand hfew => ⟨?_, ?_⟩, fun s f k h => answers_recSummary h, fun s f k h => ?_,
    fun s f k h => ?_⟩
  · exact fun hnew hroom htokens => completes_eventOccurrence_new h0 hlast hx hnone hnew hroom htokens arg x
  · exact fun e rest hslots hcode htokens => completes_eventOccurrence_held h0 hlast hx hslots hcode htokens arg x
  · exact fun v hv => completes_recorderCommitWrite hnand hfew hv
  · exact completes_recorderPageCommit hnand hfew
  · refine ⟨answers_recRead_badCount h, fun h0 h1024 hfirst => ⟨answers_recRead_badRange h h0 h1024 hfirst, answers_recRead_none h h0 h1024 hfirst,
      fun p hpages hp hone hheld hlink hadmit => ?_⟩⟩
    exact answers_recRead_page h hfirst (by rwa [hone]) hpages hp hone hlink hadmit
  · exact ⟨answers_eventNotify_badVector h, answers_eventNotify_removed h rfl, answers_eventNotify_full h rfl, answers_eventNotify_set h rfl⟩

end Sys2Proof.Machine
end

section
/-! SUPPORT. The output streams and the pair: window decisions, the readback and the heartbeat (R409–R413). -/

namespace Sys2Proof.Machine
open Sys2Proof

/-! ### Words and parts that a stream's state uses (R410, R416) -/

/-- The words of the streams are none of those of safety. -/
theorem inSafety_stream {a : Nat} (h : 0x33000 ≤ a) (h' : a < 0x33800) : inSafety a = false := by
  simp only [inSafety, inRecorder, inWindow, Bool.or_eq_false_iff, Bool.and_eq_false_iff, decide_eq_false_iff_not]
  omega

/-- An address of the recorder's words, or that of a stream's status. -/
def inStreamState (k a : Nat) : Bool := inRecorder a || decide (a = (NETIN_OUT_STATUS k).addr)

theorem stream_putStream (k : Nat) (x : Stream) (s : State) : stream (putStream k x s) k = x := by
  simp [stream, putStream, tgetD]

/-- From `s` to `t` nothing changes but a stream's state, and events. -/
def StreamEntered (k : Nat) (s t : State) : Prop :=
  t = { s with regs := t.regs, recd := t.recd, emitted := t.emitted } ∧ SameWords s t (inStreamState k)

theorem Logged.streamEntered {s t : State} (h : Logged s t) (k : Nat) : StreamEntered k s t :=
  ⟨h.1, h.2.mono (fun a ha => by rw [inStreamState, ha, Bool.true_or])⟩

theorem StreamEntered.trans {k : Nat} {s t u : State} (h : StreamEntered k s t) (h' : StreamEntered k t u) : StreamEntered k s u :=
  ⟨by rw [h'.1, h.1], h.2.trans h'.2⟩

theorem streamEntered (k st run : Nat) (s : State) : StreamEntered k s (enterStream k st run s) := by
  have hset : ∀ hi lo v t, StreamEntered k t (setFld (NETIN_OUT_STATUS k) hi lo v t) := fun hi lo v t =>
    ⟨rfl, SameWords.setFld (by simp [inStreamState]) hi lo v t⟩
  unfold enterStream
  refine StreamEntered.trans (Logged.streamEntered ?_ k) ((hset 1 0 st _).trans (hset 15 8 _ _))
  exact Logged.ite (Logged.raise _ _ _) (Logged.refl _)

theorem outStatus_reset (k : Nat) : (NETIN_OUT_STATUS k).reset < 2 ^ 32 := Nat.two_pow_pos 32

theorem streamState_enterStream (k st run : Nat) (s : State) : streamState (enterStream k st run s) k = st % 4 := by
  rw [streamState, enterStream, fld_setFld_below (by decide) (by decide) (outStatus_reset k) (by decide),
    fld_setFld_same (by decide) (by decide) (outStatus_reset k)]
  rfl

theorem run_enterStream (k st run : Nat) (s : State) : fld (enterStream k st run s) (NETIN_OUT_STATUS k) 15 8 = min 255 run := by
  rw [enterStream, fld_setFld_same (by decide) (by decide) (outStatus_reset k), Nat.mod_eq_of_lt (by omega)]

/-- What an update of the pair leaves of the streams. -/
theorem fld_updatePair {r : Reg} (h : 0x33000 ≤ r.addr) (h' : r.addr < 0x33800) (hi lo : Nat) (s : State) :
    fld (updatePair s) r hi lo = fld s r hi lo := by
  rw [fld, (Reported.updatePair s).2.rd (inSafety_stream h h'), fld]

/-! ### The decision of a window (R409, R410) -/

/-- A stream of which window `d` is decided. -/
def decidedStream (x : Stream) (d : Int) : Stream :=
  { x with waiting := none, leaving := none, left := x.left.filter (fun p => p.1 ≠ d), slacks := x.slacks.filter (fun p => p.1 ≠ d),
           missed := x.missed.filter (fun e => e ≠ d), nextWindow := x.nextWindow + 1 }

section
variable {s : State} {k : Nat} {d : Int}

theorem completes_windowDecision_early (hnext : nextDecision (stream s k) (streamCfg s k) = some d) (hearly : (s.ridge.ns : Int) < d) :
    Completes (.windowDecision k) s (fun t => t = s) := by
  refine ⟨s, ?_, rfl⟩
  rw [show exec (.windowDecision k) s = execWindowDecision k s from rfl, execWindowDecision]
  simp [hnext, hearly]

variable (hk : k < 32) (henabled : (stream s k).enabled = true) (hwaiting : (stream s k).waiting = none)
  (hleaving : (stream s k).leaving = none) (hdue : windowDue (streamCfg s k) (stream s k).nextWindow = d)
include henabled hwaiting hleaving hdue

theorem nextDecision_unmet (hleft : (stream s k).left = []) : nextDecision (stream s k) (streamCfg s k) = some d := by
  simp [nextDecision, henabled, hwaiting, hleaving, hleft, hdue]

theorem nextDecision_met (hleft : (stream s k).left = [(d, false)]) : nextDecision (stream s k) (streamCfg s k) = some d := by
  simp [nextDecision, henabled, hwaiting, hleaving, hleft, hdue]

include hk

theorem exec_windowDecision (hsafety : scSafety (streamCfg s k) = false) (hmissed : (stream s k).missed = [])
    (hnext : nextDecision (stream s k) (streamCfg s k) = some d) (hnow : d ≤ s.ridge.ns) :
    exec (.windowDecision k) s = .next (if (stream s k).left.contains (d, false) then
        meetWindow k (scRecover (streamCfg s k)) (putStream k (decidedStream (stream s k) d) s)
      else missWindow k 1 false ((stream s k).left.contains (d, true)) (putStream k (decidedStream (stream s k) d) s)) := by
  have hlate : ¬ ((s.ridge.ns : Int) < d) := by omega
  rw [show exec (.windowDecision k) s = execWindowDecision k s from rfl, execWindowDecision]
  simp only [hnext, hlate, Nat.not_le.2 hk, decide_false, Bool.or_false, Bool.false_eq_true, if_false, hwaiting, hleaving, hsafety,
    henabled, hdue, hmissed, Option.bind_none, Option.isSome_none, Bool.and_false, Bool.not_true, decide_true, Bool.and_true, if_true,
    List.contains_nil]
  simp only [decidedStream, henabled, hmissed]
  split <;> rfl

end

theorem inRecorder_stream {a : Nat} (h : a < 0x33800) : inRecorder a = false := by
  rw [inRecorder, decide_eq_false (by omega), Bool.false_and]

section
variable {k : Nat} (hk : k < 32)
include hk

theorem outStatus_addr_lt : (NETIN_OUT_STATUS k).addr < 0x33800 := by
  simp only [NETIN_OUT_STATUS]
  omega

theorem outMiss_not_inStreamState : inStreamState k (NETIN_OUT_MISS k).addr = false := by
  have hlt : (NETIN_OUT_MISS k).addr < 0x33800 := by
    simp only [NETIN_OUT_MISS]
    omega
  have hne : (NETIN_OUT_MISS k).addr ≠ (NETIN_OUT_STATUS k).addr := by simp [NETIN_OUT_MISS, NETIN_OUT_STATUS]
  rw [inStreamState, inRecorder_stream hlt, decide_eq_false hne, Bool.or_false]

/-- The miss of a window of a stream without safety. -/
theorem missWindow_spec (cause : Nat) (s : State) :
    rd (missWindow k cause false false s) (NETIN_OUT_MISS k) = min 0xFFFFFFFF (rd s (NETIN_OUT_MISS k) + 1) ∧
      streamState (missWindow k cause false false s) k = (if streamState s k = 0 then 0 else 2) ∧
      (missWindow k cause false false s).out = s.out ∧ (missWindow k cause false false s).mem = s.mem := by
  have hmiss := outMiss_not_inStreamState hk
  have hlogged := Logged.raise 0x3060 k (inc (NETIN_OUT_MISS k) s)
  have hcounted : rd (raise 0x3060 k (inc (NETIN_OUT_MISS k) s)) (NETIN_OUT_MISS k) = min 0xFFFFFFFF (rd s (NETIN_OUT_MISS k) + 1) := by
    rw [(hlogged.streamEntered k).2.rd hmiss, rd_inc (Nat.two_pow_pos 32)]
  have hstate : streamState (raise 0x3060 k (inc (NETIN_OUT_MISS k) s)) k = streamState s k := by
    rw [streamState, fld, hlogged.2.rd (inRecorder_stream (outStatus_addr_lt hk)), inc, incFld,
      rd_setFld_ne (by simp [NETIN_OUT_MISS, NETIN_OUT_STATUS]), streamState, fld]
  have hframe := hlogged.1
  unfold missWindow
  dsimp only
  generalize raise 0x3060 k (inc (NETIN_OUT_MISS k) s) = u at *
  simp only [hstate, Bool.and_false, Bool.false_eq_true, if_false]
  split
  case isTrue hoff => exact ⟨hcounted, hstate.trans hoff, by rw [hframe]; rfl, by rw [hframe]; rfl⟩
  case isFalse =>
    have hentered := streamEntered k 2 0 u
    refine ⟨by rw [hentered.2.rd hmiss, hcounted], streamState_enterStream k 2 0 u, ?_, ?_⟩
    · rw [hentered.1, hframe]
      rfl
    · rw [hentered.1, hframe]
      rfl

/-- What the count of a stream's misses, the streams and memory keep where a window is met. -/
theorem meetWindow_frame (recover : Nat) (s : State) : rd (meetWindow k recover s) (NETIN_OUT_MISS k) = rd s (NETIN_OUT_MISS k) ∧
    (meetWindow k recover s).out.streams = s.out.streams ∧ (meetWindow k recover s).mem = s.mem := by
  have hlt : (NETIN_OUT_MISS k).addr < 0x33800 := by
    simp only [NETIN_OUT_MISS]
    omega
  obtain ⟨u, hentered, hreported⟩ : ∃ u, StreamEntered k s u ∧ Reported u (meetWindow k recover s) := by
    unfold meetWindow
    split
    · exact ⟨_, streamEntered k 3 1 s, Reported.refl _⟩
    · exact ⟨_, streamEntered k _ _ s, Reported.updatePair _⟩
    · exact ⟨s, (Logged.refl s).streamEntered k, Reported.refl s⟩
  have hsafety : inSafety (NETIN_OUT_MISS k).addr = false := inSafety_stream (Nat.le_add_right_of_le (by decide)) hlt
  refine ⟨by rw [hreported.2.rd hsafety, hentered.2.rd (outMiss_not_inStreamState hk)], ?_, ?_⟩
  · rw [hreported.1, hentered.1]
  · rw [hreported.1, hentered.1]

/-- A stream that recovers gains a run, and is VALID once the run reaches the frames to recover. -/
theorem meetWindow_recovering {recover : Nat} {s : State} (hstate : streamState s k = 3) (hrun : fld s (NETIN_OUT_STATUS k) 15 8 < 255) :
    fld (meetWindow k recover s) (NETIN_OUT_STATUS k) 15 8 = fld s (NETIN_OUT_STATUS k) 15 8 + 1 ∧
      (streamState (meetWindow k recover s) k = 1 ↔ recover ≤ fld s (NETIN_OUT_STATUS k) 15 8 + 1) := by
  have hpair (hi lo : Nat) (u : State) : fld (updatePair u) (NETIN_OUT_STATUS k) hi lo = fld u (NETIN_OUT_STATUS k) hi lo :=
    fld_updatePair (Nat.le_add_right_of_le (by decide)) (outStatus_addr_lt hk) hi lo u
  have heq : meetWindow k recover s = updatePair (enterStream k (if recover ≤ fld s (NETIN_OUT_STATUS k) 15 8 + 1 then 1 else 3)
      (fld s (NETIN_OUT_STATUS k) 15 8 + 1) s) := by
    unfold meetWindow
    rw [hstate]
    rfl
  rw [heq]
  refine ⟨?_, ?_⟩
  · rw [hpair, run_enterStream]
    omega
  · rw [streamState, hpair, ← streamState, streamState_enterStream]
    split <;> simp [*]

end

theorem meetWindow_invalid {k recover : Nat} {s : State} (hstate : streamState s k = 2) :
    streamState (meetWindow k recover s) k = 3 ∧ fld (meetWindow k recover s) (NETIN_OUT_STATUS k) 15 8 = 1 := by
  have heq : meetWindow k recover s = enterStream k 3 1 s := by
    unfold meetWindow
    rw [hstate]
    rfl
  rw [heq]
  exact ⟨streamState_enterStream k 3 1 s, run_enterStream k 3 1 s⟩

section
variable {s : State} {k : Nat} (hk : k < 32) (henabled : (stream s k).enabled = true) (hwaiting : (stream s k).waiting = none)
  (hleaving : (stream s k).leaving = none) (hsafety : scSafety (streamCfg s k) = false) (hmissed : (stream s k).missed = [])
include hk henabled hwaiting hleaving hsafety hmissed

theorem completes_windowDecision_missed (hleft : (stream s k).left = [])
    (hnow : windowDue (streamCfg s k) (stream s k).nextWindow ≤ s.ridge.ns) :
    Completes (.windowDecision k) s (fun t => (stream t k).nextWindow = (stream s k).nextWindow + 1 ∧
      rd t (NETIN_OUT_MISS k) = min 0xFFFFFFFF (rd s (NETIN_OUT_MISS k) + 1) ∧ (streamState s k = 1 → streamState t k = 2) ∧
      (streamState s k = 0 → streamState t k = 0) ∧ t.mem = s.mem) := by
  have hexec := exec_windowDecision hk henabled hwaiting hleaving rfl hsafety hmissed
    (nextDecision_unmet henabled hwaiting hleaving rfl hleft) hnow
  rw [hleft, List.contains_nil, List.contains_nil, if_neg Bool.false_ne_true] at hexec
  obtain ⟨hcount, hstate, hout, hmem⟩ := missWindow_spec hk 1 (putStream k
    (decidedStream (stream s k) (windowDue (streamCfg s k) (stream s k).nextWindow)) s)
  refine ⟨_, hexec, ?_, hcount, fun h => ?_, fun h => ?_, hmem⟩
  · rw [stream, hout, ← stream, stream_putStream]
    rfl
  · exact hstate.trans (if_neg (by rw [show streamState (putStream k _ s) k = streamState s k from rfl, h]; decide))
  · exact hstate.trans (if_pos h)

theorem completes_windowDecision_met (hleft : (stream s k).left = [(windowDue (streamCfg s k) (stream s k).nextWindow, false)])
    (hnow : windowDue (streamCfg s k) (stream s k).nextWindow ≤ s.ridge.ns) :
    Completes (.windowDecision k) s (fun t => (stream t k).nextWindow = (stream s k).nextWindow + 1 ∧ (stream t k).left = [] ∧
      rd t (NETIN_OUT_MISS k) = rd s (NETIN_OUT_MISS k) ∧
      (streamState s k = 2 → streamState t k = 3 ∧ fld t (NETIN_OUT_STATUS k) 15 8 = 1) ∧
      (streamState s k = 3 → fld s (NETIN_OUT_STATUS k) 15 8 < 255 →
        fld t (NETIN_OUT_STATUS k) 15 8 = fld s (NETIN_OUT_STATUS k) 15 8 + 1 ∧
        (streamState t k = 1 ↔ scRecover (streamCfg s k) ≤ fld s (NETIN_OUT_STATUS k) 15 8 + 1)) ∧ t.mem = s.mem) := by
  have hexec := exec_windowDecision hk henabled hwaiting hleaving rfl hsafety hmissed
    (nextDecision_met henabled hwaiting hleaving rfl hleft) hnow
  rw [if_pos (by simp [hleft])] at hexec
  generalize hx : decidedStream (stream s k) (windowDue (streamCfg s k) (stream s k).nextWindow) = x at hexec
  obtain ⟨hcount, hstreams, hmem⟩ := meetWindow_frame hk (scRecover (streamCfg s k)) (putStream k x s)
  have hstream : stream (meetWindow k (scRecover (streamCfg s k)) (putStream k x s)) k = x := by
    rw [stream, hstreams, ← stream, stream_putStream]
  refine ⟨_, hexec, ?_, ?_, hcount, fun h => meetWindow_invalid (s := putStream k x s) h,
    fun h hrun => meetWindow_recovering (s := putStream k x s) hk h hrun, hmem⟩
  · rw [hstream, ← hx]
    rfl
  · rw [hstream, ← hx]
    simp [decidedStream, hleft]

end

/-! ### The readback of the pair, and the heartbeat (R412, R413) -/

theorem completes_validOutReadback_agrees {s : State} {b : Bool} (h : b = bit (rd s NETIN_VLINK_STATE) 0) :
    Completes (.validOutReadback b) s (fun t =>
      bit (rd t NETIN_VLINK_STATE) 2 = true ∧ t.out.badReads = 0 ∧ t = { s with regs := t.regs, out.badReads := 0 }) := by
  refine ⟨_, if_pos h, ?_, rfl, rfl⟩
  rw [faultEnds, clearMask, rd_wr_ne (by decide), bit_bits, ← fld, fld_setFld_same (by decide) (by decide) (by decide)]
  rfl

theorem completes_validOutReadback_first {s : State} {b : Bool} (h : b ≠ bit (rd s NETIN_VLINK_STATE) 0) (hreads : s.out.badReads = 0) :
    Completes (.validOutReadback b) s (fun t =>
      bit (rd t NETIN_VLINK_STATE) 2 = false ∧ t.out.badReads = 1 ∧ t = { s with regs := t.regs, out.badReads := 1 } ∧
      SameWords s t (fun a => decide (a = NETIN_VLINK_STATE.addr))) := by
  have hone : min 2 (s.out.badReads + 1) = 1 := by omega
  refine ⟨_, (if_neg h).trans (if_neg (by omega)), ?_, hone, ?_, ?_⟩
  · rw [bit_bits, ← fld, fld_setFld_same (by decide) (by decide) (by decide)]
    rfl
  · rw [hone]
    rfl
  · exact SameWords.setFld rfl 2 2 0 { s with out.badReads := _ }

theorem rd_queueSafeMessage {r : Reg} (h : r.addr ≠ NETIN_VLINK_STATE.addr) (s : State) : rd (queueSafeMessage s) r = rd s r := by
  unfold queueSafeMessage
  split
  · exact rd_setFld_ne h _ _ _ _
  · rfl

theorem inSafeState_drivePair (valid : Bool) (reason : Nat) (s : State) : inSafeState (drivePair valid reason s) = inSafeState s := by
  unfold drivePair
  split
  · rfl
  · rw [inSafeState, rd_queueSafeMessage (by decide), rd_regs _ (emit_regs _ _), (Logged.raise _ _ _).2.rd rfl, wr64, rd_wr_ne (by decide),
      rd_wr_ne (by decide), inc, incFld, rd_setFld_ne (by decide), bit_eq_fld,
      fld_setFld_below (by decide) (by decide) (by decide) (by decide), ← bit_eq_fld, rd_setFld_ne (by decide), rd_setFld_ne (by decide)]
    rfl

theorem inSafeState_updatePair (s : State) : inSafeState (updatePair s) = inSafeState s := by
  unfold updatePair
  split
  · exact inSafeState_drivePair _ _ _
  · split
    · exact inSafeState_drivePair _ _ _
    · exact congrArg (bit · 0) (rd_setFld_ne (by decide) _ _ _ _)

theorem inSafeState_enterSafe (f c : Nat) (s : State) : inSafeState (enterSafe f c s) = true := by
  have hset (u : State) (r : RecSt) :
      inSafeState { setFld NETIN_VLINK_STATE 1 1 1 (setMask KINGPOST_SAFETY_STATE 3 u) with recd := r } = true := by
    have hword : rd (setFld NETIN_VLINK_STATE 1 1 1 (setMask KINGPOST_SAFETY_STATE 3 u)) KINGPOST_SAFETY_STATE =
        (rd u KINGPOST_SAFETY_STATE ||| 3) % 2 ^ 32 := by rw [rd_setFld_ne (by decide), setMask, rd_wr_same]
    refine (congrArg (bit · 0) hword).trans ?_
    simp [bit_eq_testBit]
  unfold enterSafe
  split
  · assumption
  · rw [inSafeState_updatePair, inSafeState, (Logged.raise _ _ _).2.rd rfl]
    exact hset _ _

/-- The words that an entry into the safe state writes: those of the pair and of events, and those that tell of the entry. -/
def inSafeEntry (a : Nat) : Bool := inPair a || decide (0xE0010 ≤ a ∧ a < 0xE0028)

theorem SameWords.safeEntry_of_pair {s t : State} (h : SameWords s t inPair) : SameWords s t inSafeEntry :=
  h.mono fun a ha => by rw [inSafeEntry, ha, Bool.true_or]

theorem updatePair_words (s : State) : SameWords s (updatePair s) inPair := by
  unfold updatePair
  split
  · exact drivePair_words _ _ _
  · split
    · exact drivePair_words _ _ _
    · exact SameWords.setFld rfl _ _ _ _

theorem enterSafe_words (f c : Nat) (s : State) : SameWords s (enterSafe f c s) inSafeEntry := by
  unfold enterSafe
  split
  · exact SameWords.refl _ _
  · extract_lets s1 s2 kp s3 s4 recd s5
    have h1 : SameWords s s1 inSafeEntry := (SameWords.wr rfl _ s).trans (SameWords.wr rfl _ _)
    have h2 : SameWords s1 s2 inSafeEntry := (SameWords.setFld rfl 15 8 f s1).trans (SameWords.setFld rfl 31 0 _ _)
    have h3 : SameWords s2 s3 inSafeEntry := (SameWords.of_regs (t := { s2 with kp := kp }) rfl).trans (SameWords.wr rfl _ _)
    have h4 : SameWords s3 s5 inSafeEntry := (SameWords.setFld rfl 1 1 1 s3).trans (SameWords.of_regs rfl)
    exact (((h1.trans h2).trans h3).trans h4).trans ((raise_words _ _ s5).trans (updatePair_words _)).safeEntry_of_pair

theorem bit_fault_pair (s : State) : bit (rd (fault 20 s) KINGPOST_FAULT_LATCH) 20 = true := by
  have hfault : fault 20 s = enterSafe 20 0 (setMask KINGPOST_FAULT_HOLD (2 ^ 20) (setMask KINGPOST_FAULT_LATCH (2 ^ 20)
      (incFld (KINGPOST_FAULT_COUNT 20) 15 0 1 s))) := rfl
  rw [hfault, (enterSafe_words _ _ _).rd rfl, setMask, rd_wr_ne (by decide), setMask, rd_wr_same, bit_eq_testBit, Nat.testBit_mod_two_pow,
    Nat.testBit_or, Nat.testBit_two_pow_self, Bool.or_true]
  rfl

theorem completes_validOutReadback_second {s : State} {b : Bool} (h : b ≠ bit (rd s NETIN_VLINK_STATE) 0) (hreads : s.out.badReads = 1) :
    Completes (.validOutReadback b) s (fun t =>
      bit (rd t KINGPOST_FAULT_LATCH) 20 = true ∧ inSafeState t = true ∧ t.out.badReads = 2 ∧ t.mem = s.mem) := by
  refine ⟨_, (if_neg h).trans (if_pos hreads), bit_fault_pair _, inSafeState_enterSafe _ _ _, ?_, ?_⟩
  · rw [(Reported.fault (by decide : 20 < 32) _).1]
    simp [hreads]
  · rw [(Reported.fault (by decide : 20 < 32) _).1]
    simp

section
variable {s : State} {p : Nat} (hp : min 100 (max 1 (fld s NETIN_VLINK_CTRL 15 8)) * 1000000 = p)
include hp

theorem lastBeat_eq : lastBeat s = s.ridge.ns / p * p := by
  have hclamp : clamp 1 100 (fld s NETIN_VLINK_CTRL 15 8) = min 100 (max 1 (fld s NETIN_VLINK_CTRL 15 8)) := by
    rw [clamp]
    omega
  rw [lastBeat, hclamp, hp]

omit hp in
theorem safeMessage_beat (b : Nat) : safeMessage { s with out.beat := b } = safeMessage s := rfl

omit hp in
/-- The message is queued, and its counter advances, at a beat. -/
theorem queueSafeMessage_beat (hen : bit (rd s NETIN_VLINK_CTRL) 1 = true) (b : Nat) : queueSafeMessage { s with out.beat := b } =
    setFld NETIN_VLINK_STATE 15 8 (fld s NETIN_VLINK_STATE 15 8 + 1)
      { s with out := { s.out with beat := b, slot15 := some (safeMessage s) } } := by
  rw [queueSafeMessage, safeMessage_beat]
  exact if_pos hen

theorem completes_safeStateHeartbeat_due (hen : bit (rd s NETIN_VLINK_CTRL) 1 = true) (hdue : s.out.beat < s.ridge.ns / p * p) :
    Completes .safeStateHeartbeat s (fun t =>
      t.out.slot15 = some (safeMessage s) ∧ t.out.beat = s.ridge.ns / p * p ∧
      fld t NETIN_VLINK_STATE 15 8 = (fld s NETIN_VLINK_STATE 15 8 + 1) % 256 ∧ t = { s with regs := t.regs, out := t.out } ∧
      SameWords s t (fun a => decide (a = NETIN_VLINK_STATE.addr))) := by
  have hbeat := lastBeat_eq hp
  have hexec : exec .safeStateHeartbeat s = .next (queueSafeMessage { s with out.beat := lastBeat s }) :=
    if_pos (by rw [hen, hbeat, Bool.true_and, decide_eq_true_eq]; exact hdue)
  rw [queueSafeMessage_beat hen, hbeat] at hexec
  refine ⟨_, hexec, rfl, rfl, ?_, rfl, SameWords.setFld rfl 15 8 _ { s with out := _ }⟩
  exact fld_setFld_same (by decide) (by decide) (by decide) _ _

theorem completes_safeStateHeartbeat_early (hearly : s.ridge.ns / p * p ≤ s.out.beat) :
    Completes .safeStateHeartbeat s (fun t => t = s) := by
  have hbeat := lastBeat_eq hp
  refine ⟨s, if_neg ?_, rfl⟩
  rw [Bool.and_eq_true, decide_eq_true_eq, hbeat]
  omega

end

/-- Settles O31: the three cases of a window, the three of a reading, and the two of the heartbeat. -/
theorem windowsAndThePair : Obligations.WindowsAndThePair := by
  refine ⟨fun s k hk => ?_, fun s b => ?_, fun s => ?_⟩
  · intro x c d henabled hwaiting hleaving hsafety hmissed
    exact ⟨fun hleft hearly => completes_windowDecision_early (nextDecision_unmet henabled hwaiting hleaving rfl hleft) hearly,
      completes_windowDecision_missed hk henabled hwaiting hleaving hsafety hmissed,
      completes_windowDecision_met hk henabled hwaiting hleaving hsafety hmissed⟩
  · exact ⟨completes_validOutReadback_agrees, completes_validOutReadback_first, completes_validOutReadback_second⟩
  · exact ⟨completes_safeStateHeartbeat_due rfl, completes_safeStateHeartbeat_early rfl⟩

end Sys2Proof.Machine
end

section
/-! SUPPORT. A capture that a second request has overtaken stays requested (R399). -/

namespace Sys2Proof.Machine
open Sys2Proof

/-- After reset, but for stream 0: it is enabled, a capture of it is requested, and a request that came meanwhile leaves a further one. -/
def requestedTwice : State := { State.reset with out.streams := [(0, { enabled := true, requested := true, again := true })] }

/-- Its source holds no tensor. -/
theorem readSource_requestedTwice : readSource requestedTwice 0 (streamCfg requestedTwice 0) = ⟨[], none, false⟩ := rfl

/-- The capture is counted as a drop, and the further one stays requested. -/
theorem exec_requestedTwice : exec (.streamCapture 0) requestedTwice =
    .next (incFld (NETIN_OUT_DROP 0) 31 16 1 (putStream 0 { enabled := true, requested := true } requestedTwice)) := rfl

/-- Refutes O30: where a request came while another was pending, the capture leaves the stream requested (R399), at `requestedTwice`. -/
theorem not_streamMessages : ¬ Obligations.StreamMessages := by
  rintro ⟨hcapture, -⟩
  obtain ⟨-, hdrop⟩ := hcapture requestedTwice 0 (by decide) rfl rfl rfl rfl rfl (by rw [readSource_requestedTwice])
    (by rw [readSource_requestedTwice]; simp)
  obtain ⟨t, hexec, hrequested, -⟩ := hdrop (by rw [readSource_requestedTwice]) rfl
  rw [exec_requestedTwice] at hexec
  cases hexec
  exact absurd hrequested (by decide)

end Sys2Proof.Machine
end

section
/-! SUPPORT. Functions and the link, and Foreman's heartbeat and watchdog (R417, R421, R423, R444, R557). -/

namespace Sys2Proof.Machine
open Sys2Proof

/-! ### A reset of a function (R421) -/

theorem not_inRecorder_of_inPage {f a : Nat} (h : inPage f a = true) : inRecorder a = false := by
  simp only [inPage, inRecorder, Bool.and_eq_true, Bool.and_eq_false_iff, decide_eq_true_eq, decide_eq_false_iff_not] at h ⊢
  omega

theorem inPage_unique {f g a : Nat} (hf : inPage f a = true) (hg : inPage g a = true) : f = g := by
  simp only [inPage, Bool.and_eq_true, decide_eq_true_eq] at hf hg
  omega

theorem inPage_session (f : Nat) : inPage f (MB_SESSION f).addr = true :=
  inPage_of (by simp only [MB_SESSION]; omega) (by simp only [MB_SESSION]; omega)

theorem inPage_busy (f : Nat) : inPage f (MB_BUSY f).addr = true :=
  inPage_of (by simp only [MB_BUSY]; omega) (by simp only [MB_BUSY]; omega)

theorem tget_filter_kept {α : Type} {a : Nat} {p : Nat → Bool} (h : p a = true) (l : Tab α) :
    tget a (l.filter (fun x => p x.1)) = tget a l := by
  induction l with
  | nil => rfl
  | cons x r ih =>
    obtain ⟨j, v⟩ := x
    by_cases hj : j = a
    · subst hj
      simp [h, tget]
    · by_cases hp : p j = true
      · simp [hp, tget, hj, ih]
      · simp [hp, tget, hj, ih]

/-- From `s` to `t` functions whose pages `p` picks are reset, with the events that tell of it. -/
def FunctionsReset (p : Nat → Bool) (s t : State) : Prop :=
  t = { s with regs := t.regs, recd := t.recd, emitted := t.emitted, latch := t.latch, mb.accepted := t.mb.accepted,
               out.streams := t.out.streams } ∧
    t.mb.accepted.map (·.1) = s.mb.accepted.map (·.1) ∧ SameWords s t (fun a => p a || inRecorder a)

namespace FunctionsReset

theorem trans {p : Nat → Bool} {s t u : State} (h : FunctionsReset p s t) (h' : FunctionsReset p t u) : FunctionsReset p s u :=
  ⟨by rw [h'.1, h.1], h'.2.1.trans h.2.1, h.2.2.trans h'.2.2⟩

theorem mono {p q : Nat → Bool} {s t : State} (h : FunctionsReset p s t) (hpq : ∀ a, p a = true → q a = true) : FunctionsReset q s t :=
  ⟨h.1, h.2.1, h.2.2.mono (fun a ha => by
    rw [Bool.or_eq_true] at ha ⊢
    exact ha.imp_left (hpq a))⟩

theorem refl (p : Nat → Bool) (s : State) : FunctionsReset p s s := ⟨rfl, rfl, SameWords.refl _ _⟩

theorem of_logged {s t : State} (h : Logged s t) (p : Nat → Bool) : FunctionsReset p s t := by
  refine ⟨?_, ?_, h.2.mono (fun a ha => by rw [ha, Bool.or_true])⟩
  · rw [h.1]
  · rw [h.1]

theorem closeSession (f : Nat) (s : State) : FunctionsReset (inPage f) s (closeSession f s) := by
  have hwords : ∀ u, FunctionsReset (inPage f) u (setFld (MB_SESSION f) 31 16 0 (clearMask (MB_SESSION f) 1 u)) := fun u =>
    ⟨rfl, rfl, (SameWords.wr (by rw [inPage_session, Bool.true_or]) _ u).trans
      (SameWords.setFld (by rw [inPage_session, Bool.true_or]) 31 16 0 _)⟩
  unfold Machine.closeSession
  split
  · exact (hwords s).trans (of_logged (Logged.raise _ _ _) _)
  · exact refl _ s

theorem resetFunction (f : Nat) (s : State) : FunctionsReset (inPage f) s (resetFunction f s) := by
  have hclose := closeSession f s
  unfold Machine.resetFunction
  dsimp only
  generalize Machine.closeSession f s = u at *
  refine hclose.trans ⟨rfl, ?_, fun a ha => ?_⟩
  · rw [List.map_map]
    refine List.map_congr_left (fun x _ => ?_)
    simp only [Function.comp]
    split <;> rfl
  · refine tget_filter_kept (p := fun a => !(decide (0x200000 + 0x1000 * f ≤ a) && decide (a < 0x201000 + 0x1000 * f))) ?_ _
    have hpage := (Bool.or_eq_false_iff.1 ha).1
    rw [inPage] at hpage
    rw [hpage, Bool.not_false]

theorem foldl {p : Nat → Bool} {g : State → Nat → State} (h : ∀ s b, FunctionsReset p s (g s b)) (l : List Nat) (s : State) :
    FunctionsReset p s (l.foldl g s) := by
  induction l generalizing s with
  | nil => exact refl p s
  | cons b r ih => exact (h s b).trans (ih _)

theorem mem_eq {p : Nat → Bool} {s t : State} (h : FunctionsReset p s t) : t.mem = s.mem ∧ t.memory = s.memory ∧ t.scribe = s.scribe ∧
    t.mb.numVfs = s.mb.numVfs := by
  rw [h.1]
  exact ⟨rfl, rfl, rfl, rfl⟩

end FunctionsReset

/-- The page of function `f` is at its reset values, and none of its streams has a host ring. -/
def FunctionCleared (f : Nat) (s : State) : Prop :=
  (∀ a, inPage f a = true → tget a s.regs = none) ∧ ∀ x ∈ s.out.streams, x.2.owner.getD 0 = f → x.2.hostRing = none

namespace FunctionCleared

theorem logged {f : Nat} {s t : State} (h : FunctionCleared f s) (hl : Logged s t) : FunctionCleared f t := by
  refine ⟨fun a ha => (hl.2 a (not_inRecorder_of_inPage ha)).trans (h.1 a ha), ?_⟩
  rw [hl.1]
  exact h.2

/-- The streams after a reset of `f`. -/
theorem resetFunction_streams (f : Nat) (s : State) : (resetFunction f s).out.streams =
    s.out.streams.map (fun p => if p.2.owner.getD 0 = f then (p.1, { p.2 with hostRing := none }) else p) := by
  unfold resetFunction
  dsimp only
  congr 1
  unfold closeSession
  split
  · rw [(Logged.raise _ _ _).1]
    rfl
  · rfl

theorem of_reset (f : Nat) (s : State) : FunctionCleared f (resetFunction f s) := by
  constructor
  · intro a ha
    refine tget_filter_of_not (fun v => ?_) _
    rw [inPage] at ha
    dsimp only
    rw [ha, Bool.not_true]
  · intro x hx howner
    rw [resetFunction_streams, List.mem_map] at hx
    obtain ⟨y, -, rfl⟩ := hx
    split at howner <;> simp_all

theorem reset {f : Nat} {s : State} (h : FunctionCleared f s) (g : Nat) : FunctionCleared f (resetFunction g s) := by
  by_cases hfg : g = f
  · exact hfg ▸ of_reset g s
  refine ⟨fun a ha => ((FunctionsReset.resetFunction g s).2.2 a ?_).trans (h.1 a ha), ?_⟩
  · dsimp only
    rw [not_inRecorder_of_inPage ha, Bool.or_false, Bool.eq_false_iff]
    exact fun hg => hfg (inPage_unique hg ha)
  · intro x hx howner
    rw [resetFunction_streams, List.mem_map] at hx
    obtain ⟨y, hy, rfl⟩ := hx
    split at howner
    · rw [if_pos ‹_›]
    · rw [if_neg ‹_›]
      exact h.2 y hy howner

theorem words {f : Nat} {s : State} (h : FunctionCleared f s) : bit (rd s (MB_SESSION f)) 0 = false ∧ rd s (MB_BUSY f) = 0 := by
  rw [rd, h.1 _ (inPage_session f), rd, h.1 _ (inPage_busy f)]
  exact ⟨decide_eq_false (by dsimp only [MB_SESSION]; omega), rfl⟩

end FunctionCleared

/-- What one step of a fold establishes for its element, and every step keeps, holds after the fold of each element. -/
theorem foldl_establishes {β : Type} {P : State → Prop} {g : State → β → State} {b : β} (hset : ∀ s, P (g s b))
    (hkeep : ∀ s c, P s → P (g s c)) {l : List β} (hb : b ∈ l) (s : State) : P (l.foldl g s) := by
  have hafter : ∀ (r : List β) (s : State), P s → P (r.foldl g s) := by
    intro r
    induction r with
    | nil => exact fun s h => h
    | cons c r ih => exact fun s h => ih _ (hkeep s c h)
  induction l generalizing s with
  | nil => exact absurd hb List.not_mem_nil
  | cons c r ih =>
    rcases List.mem_cons.1 hb with rfl | hr
    · exact hafter r _ (hset s)
    · exact ih hr _

section
variable {s : State} {f : Nat}

theorem completes_functionLevelReset_unreached (h : hostReaches s f = false) : Completes (.functionLevelReset f) s (fun t => t = s) := by
  refine ⟨s, ?_, rfl⟩
  rw [show exec (.functionLevelReset f) s = execFunctionLevelReset f s from rfl, execFunctionLevelReset, if_pos (by simp [h])]

theorem silent_resetFunction (f : Nat) (s : State) : ∀ x ∈ (resetFunction f s).mb.accepted, x.1 / 16 = f → x.2.silent = true := by
  intro x hx hf
  unfold resetFunction at hx
  dsimp only at hx
  obtain ⟨y, -, rfl⟩ := List.mem_map.1 hx
  split at hf
  · rw [if_pos ‹_›]
  · exact absurd hf ‹_›

theorem completes_functionLevelReset (hf : f < 64) (h : hostReaches s f = true) :
    Completes (.functionLevelReset f) s (fun t => (∀ k, k < 1024 → tget (0x200000 + 0x1000 * f + 4 * k) t.regs = none) ∧
      SameWords s t (fun a => inPage f a || inRecorder a) ∧ (∀ x ∈ t.mb.accepted, x.1 / 16 = f → x.2.silent = true) ∧
      t.mb.accepted.map (·.1) = s.mb.accepted.map (·.1) ∧ (∀ x ∈ t.out.streams, x.2.owner.getD 0 = f → x.2.hostRing = none) ∧
      t.mem = s.mem ∧ t.scribe = s.scribe ∧ t.memory = s.memory) := by
  have hlogged := Logged.raise 0x0004 f (resetFunction f s)
  have hreset := (FunctionsReset.resetFunction f s).trans (FunctionsReset.of_logged hlogged (inPage f))
  obtain ⟨hwords, hstreams⟩ := (FunctionCleared.of_reset f s).logged hlogged
  obtain ⟨hmem, hmemory, hscribe, -⟩ := hreset.mem_eq
  refine ⟨raise 0x0004 f (resetFunction f s), ?_, fun k hk => hwords _ ?_, hreset.2.2, ?_, hreset.2.1, hstreams, hmem, hscribe, hmemory⟩
  · rw [show exec (.functionLevelReset f) s = execFunctionLevelReset f s from rfl, execFunctionLevelReset, if_neg (by simp [h, hf])]
  · simp only [inPage, Bool.and_eq_true, decide_eq_true_eq]
    omega
  · rw [hlogged.1]
    exact silent_resetFunction f s

end

/-! ### Virtual functions and the link (R417, R421) -/

/-- The reset that a lowered NumVFs makes of a function, where it removes it. -/
def resetRemoved (n : Nat) (s : State) (f : Nat) : State :=
  if n < f ∧ f ≤ s.mb.numVfs then raise 0x0004 f (resetFunction f s) else s

/-- An address of the page of a function above `n`, and not above `m`. -/
def inRemoved (n m a : Nat) : Bool := decide (0x200000 + 0x1000 * (n + 1) ≤ a) && decide (a < 0x201000 + 0x1000 * m)

theorem functionsReset_removed (n m f : Nat) (s : State) (hm : s.mb.numVfs = m) : FunctionsReset (inRemoved n m) s (resetRemoved n s f) := by
  unfold resetRemoved
  split
  next hf =>
    refine ((FunctionsReset.resetFunction f s).trans (FunctionsReset.of_logged (Logged.raise _ _ _) _)).mono (fun a ha => ?_)
    simp only [inPage, inRemoved, Bool.and_eq_true, decide_eq_true_eq] at ha ⊢
    omega
  next => exact FunctionsReset.refl _ s

theorem functionsReset_removed_all (n : Nat) (l : List Nat) (s : State) :
    FunctionsReset (inRemoved n s.mb.numVfs) s (l.foldl (resetRemoved n) s) := by
  generalize hm : s.mb.numVfs = m
  induction l generalizing s with
  | nil => exact FunctionsReset.refl _ s
  | cons f r ih =>
    have hfirst := functionsReset_removed n m f s hm
    exact hfirst.trans (ih _ (hfirst.mem_eq.2.2.2.trans hm))

theorem FunctionCleared.removed {f n : Nat} {s : State} (h : FunctionCleared f s) (g : Nat) : FunctionCleared f (resetRemoved n s g) := by
  unfold resetRemoved
  split
  · exact (h.reset g).logged (Logged.raise _ _ _)
  · exact h

/-- A function removed is cleared after the resets of all. -/
theorem functionCleared_removed {n f : Nat} {l : List Nat} (hf : f ∈ l) (s : State) (hn : n < f) (hle : f ≤ s.mb.numVfs) :
    FunctionCleared f (l.foldl (resetRemoved n) s) := by
  generalize hm : s.mb.numVfs = m at hle
  have hafter : ∀ (r : List Nat) (s : State), FunctionCleared f s → FunctionCleared f (r.foldl (resetRemoved n) s) := by
    intro r
    induction r with
    | nil => exact fun s h => h
    | cons c r ih => exact fun s h => ih _ (h.removed c)
  induction l generalizing s with
  | nil => exact absurd hf List.not_mem_nil
  | cons c r ih =>
    rcases List.mem_cons.1 hf with rfl | hr
    · refine hafter r _ ?_
      rw [resetRemoved, if_pos ⟨hn, hm ▸ hle⟩]
      exact (FunctionCleared.of_reset f s).logged (Logged.raise _ _ _)
    · exact ih hr _ ((functionsReset_removed n m c s hm).mem_eq.2.2.2.trans hm)

theorem not_inRemoved {n m f a : Nat} (hf : f ≤ n ∨ m < f) (ha : inPage f a = true) : (inRemoved n m a || inRecorder a) = false := by
  rw [not_inRecorder_of_inPage ha, Bool.or_false]
  simp only [inPage, inRemoved, Bool.and_eq_true, Bool.and_eq_false_iff, decide_eq_true_eq, decide_eq_false_iff_not] at ha ⊢
  omega

section
variable {s : State} {n : Nat}

theorem completes_numvfsLowered_none (h : s.mb.numVfs ≤ n) : Completes (.numvfsLowered n) s (fun t => t = s) := ⟨s, if_pos h, rfl⟩

theorem completes_numvfsLowered (h : n < s.mb.numVfs) :
    Completes (.numvfsLowered n) s (fun t => t.mb.numVfs = n ∧
      (∀ f, f < 64 → (n < f → f ≤ s.mb.numVfs → bit (rd t (MB_SESSION f)) 0 = false ∧ rd t (MB_BUSY f) = 0) ∧
        (f ≤ n ∨ s.mb.numVfs < f → rd t (MB_SESSION f) = rd s (MB_SESSION f) ∧ rd t (MB_BUSY f) = rd s (MB_BUSY f))) ∧
      t.mem = s.mem ∧ t.memory = s.memory) := by
  have hreset := functionsReset_removed_all n (List.range 64) s
  have hcleared : ∀ f, f < 64 → n < f → f ≤ s.mb.numVfs → FunctionCleared f ((List.range 64).foldl (resetRemoved n) s) :=
    fun f hf hn hle => functionCleared_removed (List.mem_range.2 hf) s hn hle
  have hexec : exec (.numvfsLowered n) s = .next { (List.range 64).foldl (resetRemoved n) s with mb.numVfs := n } :=
    if_neg (Nat.not_le.2 h)
  generalize (List.range 64).foldl (resetRemoved n) s = u at *
  obtain ⟨hmem, hmemory, -, -⟩ := hreset.mem_eq
  refine ⟨_, hexec, rfl, fun f hf => ⟨fun hn hle => (hcleared f hf hn hle).words, fun hout => ⟨?_, ?_⟩⟩, hmem, hmemory⟩
  · exact hreset.2.2.rd (not_inRemoved hout (inPage_session f))
  · exact hreset.2.2.rd (not_inRemoved hout (inPage_busy f))

theorem completes_numvfsRaised (h : s.mb.numVfs < n) (hn : n ≤ 63) (hlink : s.mb.linkUp = true) :
    Completes (.numvfsRaised n) s (fun t => t = { s with mb.numVfs := n }) := by
  refine ⟨_, ?_, rfl⟩
  rw [show exec (.numvfsRaised n) s = execNumvfsRaised n s from rfl, execNumvfsRaised, if_neg (by simp [h, hn, hlink])]

theorem completes_numvfsRaised_none (h : n ≤ s.mb.numVfs) : Completes (.numvfsRaised n) s (fun t => t = s) := by
  refine ⟨_, ?_, rfl⟩
  rw [show exec (.numvfsRaised n) s = execNumvfsRaised n s from rfl, execNumvfsRaised, if_pos (by simp [h])]

end

theorem completes_pcieLinkReset (s : State) : Completes .pcieLinkReset s (fun t => t.mb.linkUp = false ∧ t.mb.numVfs = 0 ∧
    (∀ f, f < 64 → bit (rd t (MB_SESSION f)) 0 = false ∧ rd t (MB_BUSY f) = 0) ∧ t.mem = s.mem ∧ t.memory = s.memory ∧
    (∀ x ∈ t.out.streams, x.2.owner.getD 0 < 64 → x.2.hostRing = none)) := by
  have hreset : FunctionsReset (fun _ => true) s ((List.range 64).foldl (fun s f => resetFunction f s) s) :=
    FunctionsReset.foldl (fun s f => (FunctionsReset.resetFunction f s).mono (fun _ _ => rfl)) _ s
  have hcleared : ∀ f, f < 64 → FunctionCleared f ((List.range 64).foldl (fun s f => resetFunction f s) s) := fun f hf =>
    foldl_establishes (P := FunctionCleared f) (FunctionCleared.of_reset f) (fun s g h => h.reset g) (List.mem_range.2 hf) s
  obtain ⟨hmem, hmemory, -, -⟩ := hreset.mem_eq
  generalize hu : (List.range 64).foldl (fun s f => resetFunction f s) s = u at *
  have hlogged := Logged.raise 0x0005 0 { u with mb.numVfs := 0, mb.linkUp := false }
  have hall : ∀ f, f < 64 → FunctionCleared f (raise 0x0005 0 { u with mb.numVfs := 0, mb.linkUp := false }) := fun f hf =>
    FunctionCleared.logged (s := { u with mb.numVfs := 0, mb.linkUp := false }) (hcleared f hf) hlogged
  have hframe := hlogged.1
  refine ⟨raise 0x0005 0 { u with mb.numVfs := 0, mb.linkUp := false }, ?_, ?_, ?_, fun f hf => (hall f hf).words, ?_, ?_,
    fun x hx hf => (hall _ hf).2 x hx rfl⟩
  · rw [← hu]
    rfl
  · rw [hframe]
  · rw [hframe]
  · rw [hframe]
    exact hmem
  · rw [hframe]
    exact hmemory

/-! ### Bus mastering (R421) -/

/-- A copy to the host that fails is answered with 0x100F, at an offset that nothing fixes. -/
theorem failCopy_outward {c : HostCopy} (hout : c.toDevice = false) {s : State} (hserves : mailboxServes s = true) (key : Nat) :
    ∃ u, failCopy key c s = answer c.function c.slot 0x100F (freeNat s % max 1 c.bytes) [] u ∧
      u = { s with memory.copies := tdel key s.memory.copies, free := s.free + 1, regs := u.regs, recd := u.recd, emitted := u.emitted } := by
  have hframe := (Logged.raise 0x0006 (c.function + 65536 * 0x100F) (takeFree 1 { s with memory.copies := tdel key s.memory.copies })).1
  refine ⟨_, ?_, hframe⟩
  rw [failCopy]
  simp only [hout, Bool.false_eq_true, if_false]
  rw [finish, if_pos]
  rw [hframe]
  exact hserves

section
variable {s : State} {f : Nat} (hf : f < 64)
include hf

theorem exec_busMasterDisable : exec (.busMasterDisable f) s = .next ((s.memory.copies.filter (fun p => p.2.function = f)).foldl
    (fun s p => failCopy p.1 p.2 s) { s with mb.bmeClear := linsert f s.mb.bmeClear }) := if_neg (Nat.not_le.2 hf)

theorem completes_busMasterDisable_none (h : s.memory.copies = []) :
    Completes (.busMasterDisable f) s (fun t => t = { s with mb.bmeClear := linsert f s.mb.bmeClear }) := by
  refine ⟨_, exec_busMasterDisable hf, ?_⟩
  rw [h]
  rfl

theorem completes_busMasterDisable_copy {c : Nat × HostCopy} (h : s.memory.copies = [c]) (hfun : c.2.function = f) (hslot : c.2.slot < 16)
    (hout : c.2.toDevice = false) (hserves : mailboxServes s = true) {x : Accepted}
    (hx : tget (16 * f + c.2.slot) s.mb.accepted = some x) (hspeaks : x.silent = false) :
    Completes (.busMasterDisable f) s (fun t => t.memory.copies = [] ∧ Answered f c.2.slot 0x100F t ∧
      t.mb.bmeClear = linsert f s.mb.bmeClear ∧ t.mem = s.mem) := by
  have hexec := exec_busMasterDisable (s := s) hf
  rw [h, List.filter_cons, if_pos (by simp [hfun]), List.filter_nil, List.foldl_cons, List.foldl_nil] at hexec
  obtain ⟨u, hfail, hframe⟩ := failCopy_outward hout (s := { s with mb.bmeClear := linsert f s.mb.bmeClear }) hserves c.1
  rw [hfun] at hfail
  obtain ⟨hanswered, ⟨hafter, -⟩, -⟩ := answer_spec (f := f) (k := c.2.slot) (st := 0x100F) (res := []) (u := u)
    (detail := freeNat { s with mb.bmeClear := linsert f s.mb.bmeClear } % max 1 c.2.bytes) hslot (by decide) (by decide)
    (by rw [hframe]; exact hx) hspeaks
  rw [hfail] at hexec
  generalize answer f c.2.slot 0x100F (freeNat { s with mb.bmeClear := linsert f s.mb.bmeClear } % max 1 c.2.bytes) [] u = t at *
  refine ⟨t, hexec, ?_, hanswered, ?_, ?_⟩
  · rw [hafter, hframe, h]
    exact if_pos rfl
  · rw [hafter, hframe]
  · rw [hafter, hframe]

end

/-! ### Foreman's heartbeat and watchdog (R423, R444, R557) -/

theorem completes_foremanHeartbeat {s : State} (h : s.mb.foremanUp = true) : Completes .foremanHeartbeat s (fun t =>
    t = { s with mb.heartbeat := (s.mb.heartbeat + 1) % 2 ^ 32, kp.lastBeat := s.ridge.ns }) := ⟨_, if_pos h, rfl⟩

theorem completes_foremanHeartbeat_down {s : State} (h : s.mb.foremanUp = false) : Completes .foremanHeartbeat s (fun t => t = s) :=
  ⟨s, if_neg (by simp [h]), rfl⟩

theorem completes_foremanWatchdog_none {s : State} (h : s.mb.foremanUp = false ∨ s.ridge.ns < s.kp.lastBeat + 20000000) :
    Completes .foremanWatchdog s (fun t => t = s) := by
  refine ⟨s, if_neg ?_, rfl⟩
  rw [Bool.and_eq_true, decide_eq_true_eq]
  rintro ⟨hup, hlate⟩
  rcases h with h | h
  · exact Bool.false_ne_true (h.symm.trans hup)
  · omega

/-- From `s` to `t` the word of safety keeps its fields but that of the first cause and bits 0 to 2. -/
def SafetyFieldsKept (s t : State) : Prop :=
  ∀ hi lo, 3 ≤ lo → lo ≤ hi → hi < 8 ∨ 16 ≤ lo → fld t KINGPOST_SAFETY_STATE hi lo = fld s KINGPOST_SAFETY_STATE hi lo

namespace SafetyFieldsKept

theorem of_rd {s t : State} (h : rd t KINGPOST_SAFETY_STATE = rd s KINGPOST_SAFETY_STATE) : SafetyFieldsKept s t :=
  fun hi lo _ _ _ => by rw [fld, h, fld]

theorem trans {s t u : State} (h : SafetyFieldsKept s t) (h' : SafetyFieldsKept t u) : SafetyFieldsKept s u :=
  fun hi lo h3 hle hout => (h' hi lo h3 hle hout).trans (h hi lo h3 hle hout)

theorem setFld_low {h l : Nat} (hl : l ≤ h) (hh : h < 3) (v : Nat) (s : State) :
    SafetyFieldsKept s (setFld KINGPOST_SAFETY_STATE h l v s) :=
  fun _ _ h3 _ _ => fld_setFld_above hl (by omega) (by decide) (by omega) v s

theorem setFld_cause (v : Nat) (s : State) : SafetyFieldsKept s (setFld KINGPOST_SAFETY_STATE 15 8 v s) := fun hi lo _ hle hout => by
  rcases hout with hout | hout
  · exact fld_setFld_below (by decide) (by decide) (by decide) hout v s
  · exact fld_setFld_above (by decide) (by decide) (by decide) hout v s

theorem drivePair (valid : Bool) (reason : Nat) (s : State) : SafetyFieldsKept s (drivePair valid reason s) := by
  unfold Machine.drivePair
  split
  · exact of_rd rfl
  · extract_lets s1 s2 s3
    have h1 : SafetyFieldsKept s s1 := of_rd ((rd_setFld_ne (by decide) _ _ _ _).trans (rd_setFld_ne (by decide) _ _ _ _))
    have h2 : SafetyFieldsKept s1 s2 := setFld_low (by decide) (by decide) (b2n valid) s1
    have h3 : SafetyFieldsKept s2 s3 := of_rd (by
      rw [show s3 = wr64 _ _ _ _ from rfl, wr64, rd_wr_ne (by decide), rd_wr_ne (by decide), inc, incFld, rd_setFld_ne (by decide)])
    refine ((h1.trans h2).trans h3).trans (of_rd ?_)
    rw [rd_queueSafeMessage (by decide), rd_regs _ (emit_regs _ _), (Logged.raise _ _ _).2.rd rfl]

theorem updatePair (s : State) : SafetyFieldsKept s (updatePair s) := by
  unfold Machine.updatePair
  split
  · exact drivePair _ _ _
  · split
    · exact drivePair _ _ _
    · exact of_rd (rd_setFld_ne (by decide) _ _ _ _)

theorem setMask_entry (s : State) : SafetyFieldsKept s (setMask KINGPOST_SAFETY_STATE 3 s) := fun hi lo h3 _ _ => by
  have hsmall : 3 / 2 ^ lo = 0 := Nat.div_eq_of_lt (Nat.lt_of_lt_of_le (by decide : 3 < 2 ^ 3) (Nat.pow_le_pow_right (by decide) h3))
  have hshift : (rd s KINGPOST_SAFETY_STATE ||| 3) / 2 ^ lo = rd s KINGPOST_SAFETY_STATE / 2 ^ lo := by
    rw [← Nat.shiftRight_eq_div_pow, Nat.shiftRight_or_distrib, Nat.shiftRight_eq_div_pow, Nat.shiftRight_eq_div_pow, hsmall, Nat.or_zero]
  rw [fld, rd_setMask_same (by decide) (by decide), bits, hshift, ← bits, ← fld]

theorem enterSafe (f c : Nat) (s : State) : SafetyFieldsKept s (enterSafe f c s) := by
  unfold Machine.enterSafe
  split
  · exact of_rd rfl
  · extract_lets s1 s2 kp s3 s4 recd s5
    have h1 : SafetyFieldsKept s s1 := of_rd ((rd_wr_ne (by decide) _ _).trans (rd_wr_ne (by decide) _ _))
    have h2 : SafetyFieldsKept s1 s2 := (setFld_cause f s1).trans (of_rd (rd_setFld_ne (by decide) _ _ _ _))
    have h3 : SafetyFieldsKept s2 s3 := setMask_entry { s2 with kp := kp }
    have h4 : SafetyFieldsKept s3 s5 := of_rd (rd_setFld_ne (by decide) 1 1 1 s3)
    exact (((h1.trans h2).trans h3).trans h4).trans ((of_rd ((Logged.raise _ _ s5).2.rd rfl)).trans (updatePair _))

end SafetyFieldsKept

/-- The restarts of Foreman within the last 600 s, this one among them. -/
def restartsNow (s : State) : Nat := (s.kp.restarts.filter (fun x => decide (s.ridge.ns < x + 600000000000))).length + 1

/-- Foreman is down, and its restart is among the times of the last 600 s. -/
def foremanDown (s : State) : State :=
  setForemanUp false
    { s with kp.restarts := (s.kp.restarts.filter (fun t => decide (s.ridge.ns < t + 600000000000))) ++ [s.ridge.ns] }

/-- A restart of Foreman, but for the safe state that the fourth within 600 s takes. -/
def foremanRestarted (s : State) : State :=
  fault 23 (raise 0xE007 0 (setFld KINGPOST_SAFETY_STATE 23 16 (min 255 (restartsNow s)) (inc KINGPOST_FOREMAN_RESTARTS (foremanDown s))))

theorem restartForeman_eq (s : State) : restartForeman s = if 4 ≤ restartsNow s then
    enterSafe 23 0 (setMask KINGPOST_FAULT_HOLD (2 ^ 23) (foremanRestarted s)) else foremanRestarted s := by
  have hlength : ((s.kp.restarts.filter (fun t => decide (s.ridge.ns < t + 600000000000))) ++ [s.ridge.ns]).length = restartsNow s :=
    List.length_append
  rw [restartForeman, hlength]
  rfl

/-- Fault 23 is counted and latched, and does nothing more. -/
theorem fault_foreman (s : State) : fault 23 s = setMask KINGPOST_FAULT_LATCH (2 ^ 23) (incFld (KINGPOST_FAULT_COUNT 23) 15 0 1 s) := rfl

theorem foremanRestarted_spec (s : State) : (foremanRestarted s).mb = { s.mb with foremanUp := false } ∧ (foremanRestarted s).mem = s.mem ∧
    bit (rd (foremanRestarted s) KINGPOST_SAFETY_STATE) 3 = false ∧
    fld (foremanRestarted s) KINGPOST_SAFETY_STATE 23 16 = min 255 (restartsNow s) ∧
    rd (foremanRestarted s) KINGPOST_FOREMAN_RESTARTS = min 0xFFFFFFFF (rd s KINGPOST_FOREMAN_RESTARTS + 1) ∧
    bit (rd (foremanRestarted s) KINGPOST_FAULT_LATCH) 23 = true ∧ inSafeState (foremanRestarted s) = inSafeState s := by
  have hdown {hi lo : Nat} (h : hi < 3) : fld (foremanDown s) KINGPOST_SAFETY_STATE hi lo = fld s KINGPOST_SAFETY_STATE hi lo :=
    fld_setFld_below (by decide) (by decide) (by decide) h _ _
  have hup : fld (foremanDown s) KINGPOST_SAFETY_STATE 3 3 = 0 := fld_setFld_same (by decide) (by decide) (by decide) _ _
  have htold : rd (foremanDown s) KINGPOST_FOREMAN_RESTARTS = rd s KINGPOST_FOREMAN_RESTARTS := rd_setFld_ne (by decide) _ _ _ _
  have hmb : (foremanDown s).mb = { s.mb with foremanUp := false } ∧ (foremanDown s).mem = s.mem := ⟨rfl, rfl⟩
  unfold foremanRestarted
  generalize foremanDown s = d at *
  generalize hc : setFld KINGPOST_SAFETY_STATE 23 16 (min 255 (restartsNow s)) (inc KINGPOST_FOREMAN_RESTARTS d) = c
  have hlogged := Logged.raise 0xE007 0 c
  have hword {r : Reg} (hr : r.addr ≠ KINGPOST_FAULT_LATCH.addr) (hr' : r.addr ≠ (KINGPOST_FAULT_COUNT 23).addr)
      (hrec : inRecorder r.addr = false) : rd (fault 23 (raise 0xE007 0 c)) r = rd c r := by
    rw [fault_foreman, setMask, rd_wr_ne hr, incFld, rd_setFld_ne hr', hlogged.2.rd hrec]
  have hframe : (fault 23 (raise 0xE007 0 c)).mb = c.mb ∧ (fault 23 (raise 0xE007 0 c)).mem = c.mem := by
    rw [(Reported.fault (by decide : 23 < 32) _).1, hlogged.1]
    exact ⟨rfl, rfl⟩
  have hsafety := hword (r := KINGPOST_SAFETY_STATE) (by decide) (by decide) rfl
  have hbit {i : Nat} (h : i < 16) : bit (rd (fault 23 (raise 0xE007 0 c)) KINGPOST_SAFETY_STATE) i = bit (rd d KINGPOST_SAFETY_STATE) i := by
    rw [hsafety, ← hc, bit_eq_fld, fld_setFld_below (by decide) (by decide) (by decide) h, ← bit_eq_fld, rd_inc_ne (by decide)]
  refine ⟨?_, ?_, ?_, ?_, ?_, ?_, ?_⟩
  · rw [hframe.1, ← hc]
    exact hmb.1
  · rw [hframe.2, ← hc]
    exact hmb.2
  · rw [hbit (by decide), bit_eq_fld, hup]
    rfl
  · rw [fld, hsafety, ← fld, ← hc, fld_setFld_same (by decide) (by decide) (by decide), Nat.mod_eq_of_lt (by omega)]
  · rw [hword (by decide) (by decide) rfl, ← hc, rd_setFld_ne (by decide), rd_inc (by decide), htold]
  · rw [fault_foreman, setMask, rd_wr_same, bit_mod_two_pow _ (by decide), bit_eq_testBit, Nat.testBit_or, Nat.testBit_two_pow_self,
      Bool.or_true]
  · rw [inSafeState, hbit (by decide), bit_eq_fld, hdown (by decide), ← bit_eq_fld, inSafeState]

theorem restartForeman_spec (s : State) : (restartForeman s).mb = { s.mb with foremanUp := false } ∧
    bit (rd (restartForeman s) KINGPOST_SAFETY_STATE) 3 = false ∧
    fld (restartForeman s) KINGPOST_SAFETY_STATE 23 16 = min 255 (restartsNow s) ∧
    rd (restartForeman s) KINGPOST_FOREMAN_RESTARTS = min 0xFFFFFFFF (rd s KINGPOST_FOREMAN_RESTARTS + 1) ∧
    bit (rd (restartForeman s) KINGPOST_FAULT_LATCH) 23 = true ∧
    (inSafeState s = false → inSafeState (restartForeman s) = decide (4 ≤ restartsNow s)) ∧ (restartForeman s).mem = s.mem := by
  obtain ⟨hmb, hmem, hup, htimes, hcount, hlatch, hsafe⟩ := foremanRestarted_spec s
  rw [restartForeman_eq]
  generalize foremanRestarted s = u at *
  split
  case isFalse hfew => exact ⟨hmb, hup, htimes, hcount, hlatch, fun h => by rw [hsafe, h, decide_eq_false hfew], hmem⟩
  case isTrue hmany =>
    have hheld := SafetyFieldsKept.of_rd (s := u) (t := setMask KINGPOST_FAULT_HOLD (2 ^ 23) u) (rd_setMask_ne (by decide) _ _)
    have hkept := hheld.trans (SafetyFieldsKept.enterSafe 23 0 (setMask KINGPOST_FAULT_HOLD (2 ^ 23) u))
    have hwords := enterSafe_words 23 0 (setMask KINGPOST_FAULT_HOLD (2 ^ 23) u)
    have hframe := (Reported.enterSafe 23 0 (setMask KINGPOST_FAULT_HOLD (2 ^ 23) u)).1
    refine ⟨?_, ?_, ?_, ?_, ?_, fun _ => ?_, ?_⟩
    · rw [hframe]
      exact hmb
    · rw [bit_eq_fld, hkept 3 3 (by decide) (by decide) (by decide), ← bit_eq_fld, hup]
    · rw [hkept 23 16 (by decide) (by decide) (by decide), htimes]
    · rw [hwords.rd rfl, rd_setMask_ne (by decide), hcount]
    · rw [hwords.rd rfl, rd_setMask_ne (by decide), hlatch]
    · rw [inSafeState_enterSafe, decide_eq_true hmany]
    · rw [hframe]
      exact hmem

theorem completes_foremanWatchdog {s : State} (hup : s.mb.foremanUp = true) (hlate : s.kp.lastBeat + 20000000 ≤ s.ridge.ns) :
    Completes .foremanWatchdog s (fun t => t.mb = { s.mb with foremanUp := false } ∧ bit (rd t KINGPOST_SAFETY_STATE) 3 = false ∧
      fld t KINGPOST_SAFETY_STATE 23 16 = min 255 (restartsNow s) ∧
      rd t KINGPOST_FOREMAN_RESTARTS = min 0xFFFFFFFF (rd s KINGPOST_FOREMAN_RESTARTS + 1) ∧ bit (rd t KINGPOST_FAULT_LATCH) 23 = true ∧
      (inSafeState s = false → inSafeState t = decide (4 ≤ restartsNow s)) ∧ t.mem = s.mem) :=
  ⟨_, if_pos (by simp [hup, hlate]), restartForeman_spec s⟩

/-- Settles O46: each of its clauses by the lemma of the command that it is about. -/
theorem functionsAndTheLink : Obligations.FunctionsAndTheLink := by
  refine ⟨fun s f hf => ⟨completes_functionLevelReset_unreached, completes_functionLevelReset hf⟩, fun s n => ?_, completes_pcieLinkReset,
    fun s b => ⟨_, rfl, rfl⟩, fun s f hf => ⟨completes_busMasterDisable_none hf, ?_⟩, fun s => ?_⟩
  · exact ⟨completes_numvfsLowered_none, fun h _ => completes_numvfsLowered h, completes_numvfsRaised, completes_numvfsRaised_none⟩
  · exact fun c hc hfun hslot hout hserves x hx hspeaks => completes_busMasterDisable_copy hf hc hfun hslot hout hserves hx hspeaks
  · exact ⟨completes_foremanHeartbeat, fun h => ⟨completes_foremanHeartbeat_down h, completes_foremanWatchdog_none (.inl h)⟩,
      fun h => completes_foremanWatchdog_none (.inr h), completes_foremanWatchdog⟩

end Sys2Proof.Machine
end

section
/-! SUPPORT. What an event and any boot leave of the fuses, of the life clock and of the words below the Governor's (R490, R586, R604). -/

namespace Sys2Proof.Machine
open Sys2Proof

/-! ### What events leave of the recorder (R586, R588) -/

/-- From `s` to `t` neither the life clock nor the sequence of the recorder's pages has changed. -/
def ClockKept (s t : State) : Prop := t.recd.life = s.recd.life ∧ t.recd.pageSeq = s.recd.pageSeq

namespace ClockKept

theorem refl (s : State) : ClockKept s s := ⟨rfl, rfl⟩

theorem trans {s t u : State} (h : ClockKept s t) (h' : ClockKept t u) : ClockKept s u := ⟨h'.1.trans h.1, h'.2.trans h.2⟩

theorem of_recd {s t : State} (h : t.recd = s.recd) : ClockKept s t := by
  unfold ClockKept
  rw [h]
  exact ⟨rfl, rfl⟩

theorem ite {p : Prop} [Decidable p] {s a b : State} (ha : ClockKept s a) (hb : ClockKept s b) : ClockKept s (if p then a else b) := by
  split
  · exact ha
  · exact hb

theorem notifyEvent (code : Nat) (s : State) : ClockKept s (notifyEvent code s) := by
  refine of_recd (foldl_keeps (f := State.recd) (fun u n => ?_) _ s)
  split
  · rw [msix_eq]
  · rfl

theorem occur (code arg extra : Nat) (s : State) : ClockKept s (occur code arg extra s) := by
  unfold Machine.occur
  dsimp only
  have hcounted : ∀ u : State, u.recd.life = s.recd.life → u.recd.pageSeq = s.recd.pageSeq → ClockKept s u := fun _ h h' => ⟨h, h'⟩
  refine ite (trans (hcounted _ ?_ ?_) (notifyEvent code _)) (hcounted _ ?_ ?_) <;> simp

theorem raiseX (code arg extra : Nat) (s : State) : ClockKept s (raiseX code arg extra s) := by
  unfold Machine.raiseX
  exact ite ((occur _ _ _ s).trans (occur _ _ _ _)) (occur _ _ _ s)

theorem raise (code arg : Nat) (s : State) : ClockKept s (raise code arg s) := raiseX code arg s.ridge.ns s

theorem queueSafeMessage (s : State) : ClockKept s (queueSafeMessage s) := ite (of_recd rfl) (refl s)

theorem drivePair (valid : Bool) (reason : Nat) (s : State) : ClockKept s (drivePair valid reason s) := by
  unfold Machine.drivePair
  split
  · exact refl s
  · extract_lets s1 s2 s3
    have h3 : ClockKept s s3 := of_recd rfl
    exact (h3.trans (raise 0x3063 reason s3)).trans (queueSafeMessage (emit (.validOut valid) (Machine.raise 0x3063 reason s3)))

theorem pairOff (message : Bool) (s : State) : ClockKept s (pairOff message s) := by
  unfold Machine.pairOff
  exact ite (ite (drivePair false 4 s) ((drivePair false 4 s).trans (of_recd rfl))) (ite (queueSafeMessage _) (refl s))

end ClockKept

/-! ### What a boot leaves (R490, R604, R607, R611) -/

/-- From `s` to `t` a boot goes on: no fuse is blown, and the life clock, the state of the Plinth and the words below the Governor's stay. -/
structure BootLeaves (s t : State) : Prop where
  fuses : t.sec.fuses = s.sec.fuses
  life : t.recd.life = s.recd.life
  plinth : t.power.state = s.power.state
  words : SameWords s t fromGovernor

namespace BootLeaves

theorem refl (s : State) : BootLeaves s s := ⟨rfl, rfl, rfl, SameWords.refl _ _⟩

theorem trans {s t u : State} (h : BootLeaves s t) (h' : BootLeaves t u) : BootLeaves s u :=
  ⟨h'.fuses.trans h.fuses, h'.life.trans h.life, h'.plinth.trans h.plinth, h.words.trans h'.words⟩

theorem ite {p : Prop} [Decidable p] {s a b : State} (ha : BootLeaves s a) (hb : BootLeaves s b) : BootLeaves s (if p then a else b) := by
  split
  · exact ha
  · exact hb

theorem foldl {β : Type} {g : State → β → State} (h : ∀ s b, BootLeaves s (g s b)) (l : List β) (s : State) :
    BootLeaves s (l.foldl g s) := by
  induction l generalizing s with
  | nil => exact refl _
  | cons b r ih => exact (h s b).trans (ih _)

theorem logged {s t : State} (h : Logged s t) (hclock : ClockKept s t) : BootLeaves s t := by
  refine ⟨?_, hclock.1, ?_, h.2.mono (fun a ha => ?_)⟩
  · rw [h.1]
  · rw [h.1]
  · simp only [inRecorder, Bool.and_eq_true, decide_eq_true_eq] at ha
    exact decide_eq_true (by omega)

theorem raiseX (c a x : Nat) (s : State) : BootLeaves s (raiseX c a x s) := logged (Logged.raiseX c a x s) (ClockKept.raiseX c a x s)

theorem raise (c a : Nat) (s : State) : BootLeaves s (raise c a s) := raiseX c a _ s

theorem setFld {r : Reg} (h : fromGovernor r.addr = true) (hi lo v : Nat) (s : State) : BootLeaves s (setFld r hi lo v s) :=
  ⟨rfl, rfl, rfl, SameWords.setFld h hi lo v s⟩

theorem setForemanUp (up : Bool) (s : State) : BootLeaves s (setForemanUp up s) := ⟨rfl, rfl, rfl, setForemanUp_words rfl up s⟩

theorem putFwSlot (k : Nat) (x : FwSlot) (s : State) : BootLeaves s (putFwSlot k x s) := by
  rw [putFwSlot_frame]
  exact ⟨rfl, rfl, rfl, SameWords.of_regs rfl⟩

theorem expireTrial (b : BootResult) (s : State) (k : Nat) : BootLeaves s (expireTrial b s k) :=
  ite ((putFwSlot _ _ s).trans (raise _ _ _)) (refl s)

theorem chooseSlot (b : BootResult) (n : Nat) (s : State) : BootLeaves s (chooseSlot b n s).2 := by
  induction n generalizing s with
  | zero => exact refl s
  | succ n ih =>
    have hexpired : BootLeaves s (Machine.expireTrial b (Machine.expireTrial b s 0) 1) := (expireTrial b s 0).trans (expireTrial b _ 1)
    rw [Machine.chooseSlot]
    dsimp only
    generalize Machine.expireTrial b (Machine.expireTrial b s 0) 1 = u at hexpired
    split
    case h_1 => exact hexpired
    case h_2 k _ =>
      have hcounted := hexpired.trans (ite (p := (fwSlot u k).state = 1) (putFwSlot k { fwSlot u k with boots := (fwSlot u k).boots + 1 } u) (refl u))
      generalize (if (fwSlot u k).state = 1 then Machine.putFwSlot k { fwSlot u k with boots := (fwSlot u k).boots + 1 } u else u) = v
        at hcounted
      split
      · exact hcounted
      · exact ((hcounted.trans ((putFwSlot _ _ v).trans (setFld rfl 1 1 1 _))).trans ((raise _ _ _).trans (raise _ _ _))).trans (ih _)

theorem running (k r : Nat) (s : State) : BootLeaves s { s with fw.running := k, sec.revoke := r, sec.raised := false } :=
  ⟨rfl, rfl, rfl, SameWords.of_regs rfl⟩

theorem runImage (k : Nat) (s : State) : BootLeaves s (runImage k s) :=
  ((setFld rfl 15 8 _ s).trans (setFld rfl 0 0 k _)).trans (((setFld rfl 23 16 _ _).trans (setFld rfl 31 24 _ _)).trans (running k _ _))

theorem recallRetained (cause : Nat) (s : State) : BootLeaves s (recallRetained cause s) := by
  have hages : ∀ u, BootLeaves u (agesShown u s.power.retained) := fun u =>
    ⟨rfl, rfl, rfl, (agesShown_words u _).mono (fun a ha => decide_eq_true (Nat.le_trans (by decide) (of_decide_eq_true ha)))⟩
  unfold Machine.recallRetained
  extract_lets r s1 s2 s3 code at_ s4 s5 s6 s7
  have h3 : BootLeaves s s3 := (setFld rfl 15 0 _ s).trans (hages _)
  have h4 : BootLeaves s3 s4 := ⟨rfl, rfl, rfl, SameWords.wr rfl _ _⟩
  have h5 : BootLeaves s4 s5 := by
    refine ite ?_ (refl _)
    split
    · exact raiseX _ _ _ _
    · exact refl _
  have h6 : BootLeaves s5 s6 := by
    show BootLeaves s5 (match r.failedRail with | some k => _ | none => _)
    split
    · exact raiseX _ _ _ _
    · exact refl _
  have h7 : BootLeaves s6 s7 := ite (raiseX _ _ _ _) (refl _)
  exact ((((h3.trans h4).trans h5).trans h6).trans h7).trans ⟨rfl, rfl, rfl, SameWords.of_regs rfl⟩

theorem booting (s : State) : BootLeaves s (booting s) := ⟨rfl, rfl, rfl, booting_words rfl s⟩

theorem sessions (l : List Session) (s : State) : BootLeaves s { s with recd.sessions := l } := ⟨rfl, rfl, rfl, SameWords.of_regs rfl⟩

theorem releases (x : Option Nat) (s : State) :
    BootLeaves s { s with fw := { s.fw with recovery := false, trial := x }, power.released := true } :=
  ⟨rfl, rfl, rfl, SameWords.of_regs rfl⟩

theorem recorderFound (kind : Nat) (s : State) : BootLeaves s (recorderFound kind s) :=
  logged (Logged.recorderFound kind s) ((ClockKept.of_recd (wr_recd _ _ _)).trans (ClockKept.ite (ClockKept.raise _ _ _) (ClockKept.refl _)))

/-- The dies' self-tests: their words, and an event for each that failed. -/
theorem dieResults (b : BootResult) (s : State) : (dieResults b s).sec.fuses = s.sec.fuses ∧ (dieResults b s).recd.life = s.recd.life := by
  unfold Machine.dieResults
  extract_lets s1 used n s2 s3 s4 failed
  have h4 : s4.sec.fuses = s.sec.fuses ∧ s4.recd.life = s.recd.life := ⟨rfl, rfl⟩
  have hfailed := foldl (fun u d => raise 0xA030 d u) failed s4
  exact ⟨hfailed.fuses.trans h4.1, hfailed.life.trans h4.2⟩

end BootLeaves

/-- A boot of a part without an erase to end: the state of the Plinth, and what it leaves of what the dies showed. -/
theorem bootDevice_leaves (b : BootResult) (cause kind : Nat) {s : State} (h : s.sec.fuses.returnPending = false ∨ s.sec.fuses.returned = true) :
    (bootDevice b cause kind s).sec.fuses = s.sec.fuses ∧ (bootDevice b cause kind s).recd.life = s.recd.life ∧
      (bootDevice b cause kind s).power.state = (if !b.core || decide (ones 2 b.nand = 0) then .sequencing else .run) ∧
      SameWords (dieResults b (recorderFound kind s)) (bootDevice b cause kind s) fromGovernor := by
  have hfound := BootLeaves.recorderFound kind s
  obtain ⟨hfuses, hlife⟩ := BootLeaves.dieResults b (recorderFound kind s)
  have hrecalled := (BootLeaves.booting (dieResults b (recorderFound kind s))).trans (BootLeaves.recallRetained cause _)
  have hwhole := (hrecalled.fuses.trans hfuses).trans hfound.fuses
  have hclock := (hrecalled.life.trans hlife).trans hfound.life
  have hboot (p : Plinth) (t : State) (ht : BootLeaves (putPlinth p (recallRetained cause (booting (dieResults b (recorderFound kind s))))) t) :
      t.sec.fuses = s.sec.fuses ∧ t.recd.life = s.recd.life ∧ t.power.state = p ∧
        SameWords (dieResults b (recorderFound kind s)) t fromGovernor :=
    ⟨ht.fuses.trans hwhole, ht.life.trans hclock, ht.plinth, (hrecalled.words.trans (SameWords.setFld rfl 2 0 _ _)).trans ht.words⟩
  unfold bootDevice
  dsimp only
  rw [← booting]
  generalize recallRetained cause (booting (dieResults b (recorderFound kind s))) = u at hwhole hboot
  split
  · exact hboot .sequencing _ ⟨rfl, rfl, rfl, SameWords.of_regs rfl⟩
  · refine hboot .run _ ?_
    have hpending : ((putPlinth .run u).sec.fuses.returnPending && !(putPlinth .run u).sec.fuses.returned) = false := by
      rw [show (putPlinth .run u).sec.fuses = s.sec.fuses from hwhole]
      rcases h with h | h <;> simp [h]
    generalize putPlinth .run u = v at hpending
    split
    · exact (BootLeaves.sessions _ v).trans ((BootLeaves.setFld rfl 4 4 1 _).trans (BootLeaves.raise _ _ _))
    · rw [if_neg (by rw [hpending]; exact Bool.false_ne_true)]
      have hchosen := BootLeaves.chooseSlot b 3 v
      split
      case h_1 w hnone =>
        rw [hnone] at hchosen
        exact hchosen.trans ⟨rfl, rfl, rfl, SameWords.of_regs rfl⟩
      case h_2 k w hsome =>
        rw [hsome] at hchosen
        have himage := (hchosen.trans (BootLeaves.runImage k w)).trans
          (BootLeaves.ite (p := (runImage k w).fw.recovery = true) (BootLeaves.raise 0xA039 0 _) (BootLeaves.refl _))
        exact himage.trans ((BootLeaves.releases _ _).trans ((BootLeaves.sessions _ _).trans (BootLeaves.setForemanUp true _)))

/-! ### A package reset (R490, R596, R608) -/

/-- What a package reset leaves of a part without an erase to end. -/
theorem packageReset_leaves (b : BootResult) (cause code : Nat) {s : State}
    (h : s.sec.fuses.returnPending = false ∨ s.sec.fuses.returned = true) :
    (packageReset b cause code s).sec.fuses = s.sec.fuses ∧ (packageReset b cause code s).recd.life = s.recd.life ∧
      (packageReset b cause code s).power.state = (if !b.core || decide (ones 2 b.nand = 0) then .sequencing else .run) ∧
      ∃ u, SameWords (dieResults b u) (packageReset b cause code s) fromGovernor := by
  have hframe := (Reported.drivePair false 4 s).1
  have hclock := ClockKept.drivePair false 4 s
  unfold packageReset
  dsimp only
  generalize drivePair false 4 s = u at hframe hclock
  have hfuses : (cleared (keepRecorder (endSession code u)) (endSession code u)).sec.fuses = s.sec.fuses := by
    show u.sec.fuses = _
    rw [hframe]
  obtain ⟨hkept, hlife, hstate, hwords⟩ := bootDevice_leaves b cause 1
    (s := cleared (keepRecorder (endSession code u)) (endSession code u)) (by rw [hfuses]; exact h)
  exact ⟨hkept.trans hfuses, hlife.trans hclock.1, hstate, _, hwords⟩

/-- The message that waits is left as it was where the pair is only driven invalid. -/
theorem slot15_pairOff (s : State) : (pairOff false s).out.slot15 = s.out.slot15 := by
  unfold pairOff
  split <;> rfl

/-! ### The rails fall (R609, R620–R622, R625) -/

theorem completes_pkgReset_off {s : State} (h : s.power.en = false) : Completes (.pkgReset {}) s (fun t => t = s) :=
  ⟨s, if_neg (by simp [h]), rfl⟩

theorem completes_pkgReset {s : State} (hen : s.power.en = true) (hrun : s.power.state = .run) (hpending : s.sec.fuses.returnPending = false) :
    Completes (.pkgReset {}) s (fun t => Restarted 1 3 s t ∧ t.power.state = .run ∧ t.sec.fuses = s.sec.fuses ∧ t.recd.life = s.recd.life ∧
      fld t SILL_PACKAGE 9 0 = 0x2FF) := by
  obtain ⟨hfuses, hlife, hstate, u, hwords⟩ := packageReset_leaves {} 1 3 (s := s) (.inl hpending)
  refine ⟨packageReset {} 1 3 s, if_pos ⟨hen, .inl hrun⟩, (restarted_packageReset {} (by decide) s).1, hstate, hfuses, hlife, ?_⟩
  rw [fld, hwords.rd rfl]
  exact (dieResults_passing_words u).1

/-- The state with its rails down, before the Plinth shows STANDBY or OFF. -/
def railsDown (s : State) : State :=
  let t := setForemanUp false (cleared (restoreRecorder s) s)
  setFld KINGPOST_POWER_STATE 15 5 0
    { t with mb.linkUp := false, power := { t.power with released := false, step := 0, ending := 2 } }

/-- Without a power-on that is due, the Plinth stays where the fall of the rails leaves it. -/
theorem losePower_undue {s : State} (h : s.power.due = false) :
    losePower s = putPlinth (if s.power.vin < 6000 then .off else .standby) (railsDown s) := by
  have hdown : (if (railsDown s).power.vin < 6000 then putPlinth .off (railsDown s) else putPlinth .standby (railsDown s)) =
      putPlinth (if s.power.vin < 6000 then .off else .standby) (railsDown s) := by
    rw [apply_ite (putPlinth · (railsDown s))]
    rfl
  have hlose : losePower s =
      let u := if (railsDown s).power.vin < 6000 then putPlinth .off (railsDown s) else putPlinth .standby (railsDown s)
      if u.power.due && u.power.en && inputGood u && decide (u.power.state = .standby) then startSequencing u else u := rfl
  rw [hlose, hdown]
  dsimp only
  generalize (if s.power.vin < 6000 then Plinth.off else Plinth.standby) = p
  rw [show (putPlinth p (railsDown s)).power.due = false from h, Bool.false_and, Bool.false_and, Bool.false_and, if_neg Bool.false_ne_true]

/-- What the fall of the rails leaves at the end of a session. -/
theorem poweredOff_losePower {s : State} {code : Nat} (h : s.power.due = false) : PoweredOff code s (losePower (endSession code s)) := by
  rw [losePower_undue (s := endSession code s) h]
  exact ⟨rfl, rfl, rfl, rfl, rfl, rfl, rfl, rfl, rfl, rfl⟩

/-- The same, told of a state before: what has changed until the session ends is none of what the statement names. -/
theorem poweredOff_of {s t : State} {code : Nat} (h : s.power.due = false) (hpower : t.power.due = s.power.due ∧ t.power.vin = s.power.vin)
    (hlife : t.recd.life = s.recd.life)
    (hkept : t.ridge = s.ridge ∧ t.pending = s.pending ∧ t.yard.blocks = s.yard.blocks ∧ t.sec.fuses = s.sec.fuses) :
    PoweredOff code s (losePower (endSession code t)) := by
  have hoff := poweredOff_losePower (code := code) (hpower.1.trans h)
  obtain ⟨hridge, hpending, hblocks, hfuses⟩ := hkept
  unfold PoweredOff at hoff ⊢
  rw [hpower.2, hlife, hridge, hpending, hblocks, hfuses] at hoff
  exact hoff

section
variable {s : State}

theorem completes_powerDownRailStep_none (h : s.power.state ≠ .powerDown) : Completes .powerDownRailStep s (fun t => t = s) :=
  ⟨s, if_pos (.inl h), rfl⟩

theorem completes_powerDownStorageLimit_none (h : s.power.state ≠ .powerDown) : Completes .powerDownStorageLimit s (fun t => t = s) :=
  ⟨s, if_neg (fun hall => h hall.1), rfl⟩

theorem completes_powerDownRailStep_next (hdown : s.power.state = .powerDown) (hlow : 3 ≤ s.power.step) (hhigh : s.power.step < 10) :
    Completes .powerDownRailStep s (fun t => t = { s with power.step := s.power.step + 1 }) :=
  ⟨_, (if_neg (by simp [hdown]; omega)).trans (if_pos hhigh), rfl⟩

theorem completes_powerDownRailStep_last (hdue : s.power.due = false) (hdown : s.power.state = .powerDown) (hlast : s.power.step = 10) :
    Completes .powerDownRailStep s (PoweredOff s.power.ending s) :=
  ⟨_, (if_neg (by simp [hdown, hlast])).trans (if_neg (by omega)), poweredOff_losePower hdue⟩

theorem completes_powerDownStorageLimit_early (h : s.ridge.ns < s.power.stopFrom + 100000000) :
    Completes .powerDownStorageLimit s (fun t => t = s) := ⟨s, if_neg (fun hall => by omega), rfl⟩

theorem completes_powerDownStorageLimit (hdown : s.power.state = .powerDown) (hstep : s.power.step = 2)
    (hlate : s.power.stopFrom + 100000000 ≤ s.ridge.ns) : Completes .powerDownStorageLimit s (fun t => t.power.step = 3 ∧
      t.yard.stopped = true ∧ t.yard.queue = [] ∧ t.yard.blocks = s.yard.blocks ∧ t = { s with power.step := 3, yard := t.yard }) :=
  ⟨_, if_pos ⟨hdown, hstep, hlate⟩, rfl, rfl, rfl, rfl, rfl⟩

/-! ### A crash discharge (R609, R625) -/

theorem completes_crashDischarge_running {r low high : Nat} (h : s.power.state = .run) :
    Completes (.crashDischarge r low high) s (fun t => t = s) := ⟨s, if_pos (.inr (by simp [h])), rfl⟩

theorem completes_crashDischarge {r low high : Nat} (hdue : s.power.due = false) (hr : r < 11)
    (hstate : s.power.state = .powerDown ∨ s.power.state = .holdUp) : Completes (.crashDischarge r low high) s (fun t =>
      PoweredOff 6 s t ∧ t.power.retained.crash = some { rail := r, phase := crashPhase s, low := low, high := high, t := s.ridge.ns }) := by
  have hexec : exec (.crashDischarge r low high) s = execCrashDischarge r low high s := rfl
  rw [execCrashDischarge, if_neg (by rcases hstate with h | h <;> simp [h] <;> omega)] at hexec
  have hreported := (Reported.pairOff false (putPlinth .crash s)).1
  have hclock := ClockKept.pairOff false (putPlinth .crash s)
  dsimp only at hexec
  generalize hu : pairOff false (putPlinth .crash s) = u at hexec hreported hclock
  obtain ⟨hpower, hkept⟩ : u.power = (putPlinth .crash s).power ∧
      (u.ridge = s.ridge ∧ u.pending = s.pending ∧ u.yard.blocks = s.yard.blocks ∧ u.sec.fuses = s.sec.fuses) := by
    rw [hreported]
    exact ⟨rfl, rfl, rfl, rfl, rfl⟩
  let c : Crash := { rail := r, phase := crashPhase s, low := low, high := high, t := s.ridge.ns }
  have hlose := losePower_undue (s := endSession 6 { u with power.retained.crash := some c }) (by
    show u.power.due = false
    rw [hpower]
    exact hdue)
  refine ⟨_, hexec, poweredOff_of hdue ?_ hclock.1 hkept, (congrArg (·.power.retained.crash) hlose).trans rfl⟩
  show u.power.due = s.power.due ∧ u.power.vin = s.power.vin
  rw [hpower]
  exact ⟨rfl, rfl⟩

/-! ### A loss of the input (R620, R622, R624) -/

theorem completes_inputLoss_none (h : inputLost s = false) : Completes .inputLoss s (fun t => t = s) := by
  refine ⟨s, ?_, rfl⟩
  rw [show exec .inputLoss s = execInputLoss s from rfl, execInputLoss, h]
  rfl

/-- In RUN the pair is driven invalid, storage stops, and the device holds up. -/
def inputHeld (s : State) : State :=
  putPlinth .holdUp (pairOff false { s with power.switchOpen := true, power.step := 4, yard.stopped := true })

section
variable (hlost : inputLost s = true)
include hlost

theorem exec_inputLoss : exec .inputLoss s =
    match s.power.state with
    | .run => .next (inputHeld s)
    | .sequencing => .next (losePower (endSession 1 { s with power.switchOpen := true }))
    | .powerDown =>
      if s.power.step < 3 then .next (putPlinth .holdUp { s with power.switchOpen := true, power.step := 4, yard.stopped := true })
      else .next { s with power.switchOpen := true, power.ending := 1 }
    | _ => .next { s with power.switchOpen := true } := by
  rw [show exec .inputLoss s = execInputLoss s from rfl, execInputLoss, hlost, if_neg (by decide)]
  rfl

theorem completes_inputLoss_sequencing (hstate : s.power.state = .sequencing) (hdue : s.power.due = false) :
    Completes .inputLoss s (PoweredOff 1 s) := by
  refine ⟨losePower (endSession 1 { s with power.switchOpen := true }), ?_, poweredOff_losePower (s := { s with power.switchOpen := true }) hdue⟩
  rw [exec_inputLoss hlost]
  simp only [hstate]

theorem completes_inputLoss_falling (hstate : s.power.state = .powerDown) (hstep : 3 ≤ s.power.step) :
    Completes .inputLoss s (fun t => t = { s with power.switchOpen := true, power.ending := 1 }) := by
  refine ⟨_, ?_, rfl⟩
  rw [exec_inputLoss hlost]
  simp only [hstate, Nat.not_lt.2 hstep, if_false]

theorem completes_inputLoss_running (hstate : s.power.state = .run) : Completes .inputLoss s (fun t =>
    t.power.state = .holdUp ∧ t.power.step = 4 ∧ t.power.switchOpen = true ∧ bit (rd t NETIN_VLINK_STATE) 0 = false ∧
      t.yard = { s.yard with stopped := true } ∧ t.out.slot15 = s.out.slot15 ∧ t.mem = s.mem) := by
  have hexec : exec .inputLoss s = .next (inputHeld s) := by
    rw [exec_inputLoss hlost]
    simp only [hstate]
  unfold inputHeld at hexec
  have hreported := (Reported.pairOff false { s with power.switchOpen := true, power.step := 4, yard.stopped := true }).1
  have hoff := bit_pairOff false { s with power.switchOpen := true, power.step := 4, yard.stopped := true }
  have hslot := slot15_pairOff { s with power.switchOpen := true, power.step := 4, yard.stopped := true }
  generalize pairOff false { s with power.switchOpen := true, power.step := 4, yard.stopped := true } = u at *
  refine ⟨_, hexec, rfl, ?_, ?_, ?_, ?_, hslot, ?_⟩
  · show u.power.step = 4
    rw [hreported]
  · show u.power.switchOpen = true
    rw [hreported]
  · rw [putPlinth, rd_setFld_ne (by decide)]
    exact hoff
  · show u.yard = _
    rw [hreported]
  · show u.mem = _
    rw [hreported]

end

/-! ### The last page (R595, R624) -/

/-- The page that is committed at a loss of power, where the limit is not reached. -/
theorem commitPage_last (hnand : nandWhole s = true) (hfew : (recentCommits s).length < 1024) :
    (commitPage 1 s).recd.pageSeq = s.recd.pageSeq + 1 ∧ (commitPage 1 s).recd.life = s.recd.life ∧
      commitPage 1 s = { s with regs := (commitPage 1 s).regs, recd := (commitPage 1 s).recd } := by
  have hlimit : ¬ (if (1 : Nat) = 0 ∨ (1 : Nat) = 3 then 1000 else 1024) ≤ (recentCommits s).length := by
    rw [if_neg (by decide)]
    exact Nat.not_le.2 hfew
  unfold commitPage
  dsimp only
  rw [if_neg (by simp [hnand]), if_neg hlimit]
  exact ⟨rfl, rfl, rfl⟩

theorem restoreRecorder_pageSeq (s : State) : (restoreRecorder s).pageSeq = s.recd.pageSeq := by
  unfold restoreRecorder
  split <;> rfl

theorem completes_powerFailCommit_none (h : s.power.state ≠ .holdUp) : Completes .powerFailCommit s (fun t => t = s) := ⟨s, if_pos h, rfl⟩

theorem completes_powerFailCommit (hstate : s.power.state = .holdUp) (hdue : s.power.due = false) (hnand : nandWhole s = true)
    (hfew : (recentCommits s).length < 1024) :
    Completes .powerFailCommit s (fun t => PoweredOff 1 s t ∧ t.recd.pageSeq = s.recd.pageSeq + 1) := by
  have hexec : exec .powerFailCommit s = .next (losePower (endSession 1 (raise 0xB008 0
      (yardEvent 3 (commitPage 1 { s with yard := yardCut s.yard }))))) := if_neg (by simp [hstate])
  obtain ⟨hseq, hlife, hframe⟩ := commitPage_last (s := { s with yard := yardCut s.yard }) hnand hfew
  generalize commitPage 1 { s with yard := yardCut s.yard } = u at *
  have hlogged := (Logged.raise 0xB008 0 (yardEvent 3 u)).1
  have hclock := (ClockKept.of_recd (s := u) (t := yardEvent 3 u) (setMask_recd _ _ _)).trans (ClockKept.raise 0xB008 0 (yardEvent 3 u))
  generalize raise 0xB008 0 (yardEvent 3 u) = v at *
  obtain ⟨hpower, hkept⟩ : v.power = s.power ∧
      (v.ridge = s.ridge ∧ v.pending = s.pending ∧ v.yard.blocks = s.yard.blocks ∧ v.sec.fuses = s.sec.fuses) := by
    rw [hlogged]
    show u.power = _ ∧ (u.ridge = _ ∧ u.pending = _ ∧ u.yard.blocks = _ ∧ u.sec.fuses = _)
    rw [hframe]
    exact ⟨rfl, rfl, rfl, rfl, rfl⟩
  refine ⟨_, hexec, poweredOff_of hdue ⟨by rw [hpower], by rw [hpower]⟩ (hclock.1.trans hlife) hkept, ?_⟩
  rw [losePower_undue (s := endSession 1 v) (by rw [show (endSession 1 v).power.due = v.power.due from rfl, hpower]; exact hdue)]
  show (restoreRecorder (endSession 1 v)).pageSeq = _
  rw [restoreRecorder_pageSeq]
  show v.recd.pageSeq = _
  rw [hclock.2, hseq]

end

/-- Settles O53: each of its clauses by the lemma of the command that it is about. -/
theorem poweringDown : Obligations.PoweringDown := by
  refine ⟨fun s _ hpending => ⟨completes_pkgReset_off, fun hen hrun => completes_pkgReset hen hrun hpending⟩, fun s hdue => ?_, fun s => ?_,
    fun s => ⟨completes_powerFailCommit_none, completes_powerFailCommit⟩⟩
  · refine ⟨fun h => ⟨completes_powerDownRailStep_none h, completes_powerDownStorageLimit_none h⟩, fun h =>
      ⟨completes_powerDownRailStep_next h, completes_powerDownRailStep_last hdue h, fun _ => completes_powerDownStorageLimit_early,
        completes_powerDownStorageLimit h⟩, fun r low high hr _ _ => ⟨fun hdown _ => ?_, fun hheld => ?_,
        completes_crashDischarge_running⟩⟩
    · have hcrash := completes_crashDischarge (low := low) (high := high) hdue hr (.inl hdown)
      rw [crashPhase, if_neg (by simp [hdown])] at hcrash
      exact hcrash
    · have hcrash := completes_crashDischarge (low := low) (high := high) hdue hr (.inr hheld)
      rw [crashPhase, if_pos hheld] at hcrash
      exact hcrash
  · exact ⟨completes_inputLoss_none, fun hlost => ⟨completes_inputLoss_running hlost, completes_inputLoss_sequencing hlost,
      completes_inputLoss_falling hlost⟩⟩

end Sys2Proof.Machine
end

section
/-! SUPPORT. A storage command whose status does not fit the response's 16 bits (R424, R513). -/

namespace Sys2Proof.Machine
open Sys2Proof

/-- A namespace write of slot 0 of function 0 that has begun, has nothing left to commit, and carries a status of 17 bits. -/
def wideStatus : StoreCmd :=
  { serial := 0, at_ := 0, slot := 0, opcode := 0x0802, a := 0, b := 1, c := 0, started := true, status := 0x10000 }

/-- After reset, with storage mounted and that command accepted. -/
def wideStatusQueued : State :=
  setFld YARD_STATUS 0 0 1 { State.reset with mb.accepted := [(0, { opcode := 0x0802 })], yard.queue := [wideStatus] }

theorem ready_wideStatusQueued : Ready (wideStatus.slot / 16) (wideStatus.slot % 16) 0x0802 wideStatusQueued :=
  ⟨rfl, rfl, by decide, by decide⟩

/-- The status that a response shows has 16 bits. -/
theorem Answered.status_lt {f k st : Nat} {t : State} (h : Answered f k st t) : st < 2 ^ 16 := by
  rw [← h.2.1]
  exact Nat.mod_lt _ (by decide)

/-- Refutes O50: no response shows the status 0x10000 of the write that is complete at `wideStatusQueued`. -/
theorem not_storageCommands : ¬ Obligations.StorageCommands := by
  rintro ⟨-, -, hcomplete⟩
  obtain ⟨-, hwrite, -⟩ := hcomplete wideStatusQueued (by decide) rfl rfl rfl wideStatus rfl rfl rfl (by decide)
  obtain ⟨t, -, hanswered, -⟩ := hwrite rfl rfl ready_wideStatusQueued
  exact absurd hanswered.status_lt (by decide)

end Sys2Proof.Machine
end

section
/-! SUPPORT. The events of storage: programs, the journal, the mount, checkpoints and the care of the cells (R510–R525). -/

namespace Sys2Proof.Machine
open Sys2Proof

theorem powerDownYard_running {s : State} (h : s.power.state = .run) : powerDownYard s = s := if_neg (by simp [h])

theorem find_single (c : StoreCmd) : [c].find? (fun e => decide (e.serial = c.serial)) = some c := by simp

/-! ### Programs (R510, R515) -/

section
variable {s : State} {c : StoreCmd} {r : JRec} {b : List Byte}

/-- The command alone in the queue has no earlier one. -/
theorem earlierTodo_single (y : YardSt) (h : y.queue = [c]) : earlierTodo y c.serial = [] := by simp [earlierTodo, h]

theorem programmedRecs_single {n : Nat} (hdata : recData r = some b) (hn : 1 ≤ n) : programmedRecs n [r] = ([r], []) := by
  obtain ⟨n, rfl⟩ : ∃ m, n = m + 1 := ⟨n - 1, by omega⟩
  cases n <;> simp [programmedRecs, hdata]

/-- Settling the queue with nothing left to append changes the queue alone, and leaves it without records to append. -/
theorem settleYard_single (hq : s.yard.queue = [c]) (htodo : c.todo = []) :
    (settleYard s).yard.queue.map (·.todo) = [[]] ∧ settleYard s = { s with yard.queue := (settleYard s).yard.queue } := by
  have hsettle : settleYard s = settleCmd c.serial s := by
    rw [settleYard, hq]
    rfl
  rw [hsettle, settleCmd, hq, find_single]
  dsimp only
  split
  · split
    · exact ⟨by rw [hq]; simp [htodo], rfl⟩
    · exact ⟨by simp [modCmd, hq, htodo], rfl⟩
  · rw [htodo]
    exact ⟨by simp [modCmd, hq, freeRecs], rfl⟩

theorem appendRec_first {u : State} (h : u.yard.page = []) :
    appendRec r u = { u with yard.page := [r], yard.since := u.ridge.ns } := by simp [appendRec, h]

/-- The record is the first of the open page, and counted as programmed; its command has nothing left to append. -/
def firstAppended (c : StoreCmd) (r : JRec) (s : State) : State :=
  { incFld YARD_PROG_TLC 31 0 1 s with yard.page := [r], yard.since := s.ridge.ns, yard.queue := [{ c with todo := [] }] }

theorem firstAppended_eq (hq : s.yard.queue = [c]) (hpage : s.yard.page = []) :
    appendRec r (modCmd c.serial (fun c => { c with todo := [] }) (incFld YARD_PROG_TLC 31 0 1 s)) = firstAppended c r s := by
  have hmod : modCmd c.serial (fun c => { c with todo := [] }) (incFld YARD_PROG_TLC 31 0 1 s) =
      { incFld YARD_PROG_TLC 31 0 1 s with yard.queue := [{ c with todo := [] }] } := by
    rw [modCmd, incFld_yard, hq, List.map_singleton, if_pos rfl]
    rfl
  rw [hmod]
  exact appendRec_first hpage

theorem completes_wordlineVerified (hserves : yardServes s = true) (hq : s.yard.queue = [c]) (hpage : s.yard.page = []) (htodo : c.todo = [r])
    (hdata : recData r = some b) {n : Nat} (hn : n < 13) (hn' : 1 ≤ n) {e : Nat} (hr : r = .block e (some b) c.serial) :
    Completes (.wordlineVerified c.serial n 0 0) s (fun t => t.yard.page = [r] ∧ t.yard.since = s.ridge.ns ∧
      t.yard.queue.map (·.todo) = [[]] ∧ t.yard.blocks = s.yard.blocks ∧ rd t YARD_PROG_TLC = min 0xFFFFFFFF (rd s YARD_PROG_TLC + 1) ∧
      t = { s with regs := t.regs, yard := t.yard } ∧ SameWords s t (fun a => decide (a = YARD_PROG_TLC.addr))) := by
  have hexec : exec (.wordlineVerified c.serial n 0 0) s = execWordlineVerified c.serial n 0 0 s := rfl
  rw [execWordlineVerified, hq, find_single] at hexec
  simp only [htodo, programmedRecs_single hdata hn', earlierTodo_single s.yard hq, hserves, List.any_nil, Bool.or_false, Bool.not_true] at hexec
  rw [if_neg (by simp; omega)] at hexec
  have happend : failedPrograms 0 0 0 s = s := rfl
  rw [List.foldl_cons, List.foldl_nil, hr, List.map_singleton, List.sum_singleton, happend,
    show max 1 0 = 1 from rfl, firstAppended_eq hq hpage, ← hr] at hexec
  obtain ⟨htodos, hframe⟩ := settleYard_single (s := firstAppended c r s) (c := { c with todo := [] }) rfl rfl
  generalize settleYard (firstAppended c r s) = t at *
  refine ⟨t, hexec, ?_, ?_, htodos, ?_, ?_, ?_, ?_⟩
  · rw [hframe]
    rfl
  · rw [hframe]
    rfl
  · rw [hframe]
    rfl
  · rw [hframe]
    exact rd_incFld_word (by decide) 1 s
  · rw [hframe]
    rfl
  · rw [hframe]
    exact SameWords.setFld rfl 31 0 _ s

end

/-! ### The journal and its checkpoints (R515, R516) -/

section
variable {s : State}

theorem completes_journalWindowExpiry_none (h : s.yard.page = [] ∨ s.ridge.ns < s.yard.since + 20000000) :
    Completes .journalWindowExpiry s (fun t => t = s) := by
  refine ⟨s, if_neg ?_, rfl⟩
  simp only [Bool.and_eq_true, Bool.not_eq_true', List.isEmpty_eq_false_iff, decide_eq_true_eq]
  rintro ⟨⟨-, hpage⟩, hlate⟩
  rcases h with h | h
  · exact hpage h
  · omega

theorem completes_journalWindowExpiry (hserves : yardServes s = true) (hpage : s.yard.page ≠ [])
    (hlate : s.yard.since + 20000000 ≤ s.ridge.ns) : Completes .journalWindowExpiry s (fun t =>
      t = { s with yard.page := [], yard.closing := s.yard.closing ++ [s.yard.page] }) :=
  ⟨_, if_pos (by simp [hserves, hpage, hlate]), rfl⟩

theorem completes_journalPageVerified_none (h : s.yard.closing = []) : Completes (.journalPageVerified 0 0) s (fun t => t = s) := by
  refine ⟨s, ?_, rfl⟩
  rw [show exec (.journalPageVerified 0 0) s = execJournalPageVerified 0 0 s from rfl, execJournalPageVerified, h]

/-- Records commit blocks and models alone. -/
theorem foldl_applyRec_frame (p : List JRec) (y : YardSt) : p.foldl applyRec y = { y with
    blocks := (p.foldl applyRec y).blocks, models := (p.foldl applyRec y).models, unreadable := (p.foldl applyRec y).unreadable } := by
  induction p generalizing y with
  | nil => rfl
  | cons r p ih =>
    rw [List.foldl_cons, ih]
    cases r <;> rfl

theorem settleYard_empty (h : s.yard.queue = []) : settleYard s = s := by
  rw [settleYard, h]
  rfl

/-- A page of the journal commits. -/
def pageCommitted (p : List JRec) (s : State) : State :=
  incFld YARD_HOST_WRITE 31 0 (p.map recBlocks).sum
    { inc YARD_PROG_PSLC s with yard := { p.foldl applyRec s.yard with closing := [], pagesSince := (p.foldl applyRec s.yard).pagesSince + 1 } }

theorem exec_journalPageVerified {p : List JRec} (hserves : yardServes s = true) (hrun : s.power.state = .run) (hp : s.yard.closing = [p])
    (hq : s.yard.queue = []) : exec (.journalPageVerified 0 0) s = .next (pageCommitted p s) := by
  have hqueue : (pageCommitted p s).yard.queue = [] := by
    show (p.foldl applyRec s.yard).queue = []
    rw [foldl_applyRec_frame]
    exact hq
  have hsettled : powerDownYard (settleYard (pageCommitted p s)) = pageCommitted p s := by
    rw [settleYard_empty hqueue]
    exact powerDownYard_running (s := pageCommitted p s) hrun
  have hexec : exec (.journalPageVerified 0 0) s = execJournalPageVerified 0 0 s := rfl
  rw [execJournalPageVerified, hp] at hexec
  rw [hexec, ← hsettled]
  dsimp only
  rw [hserves, if_neg (by decide)]
  rfl

theorem completes_journalPageVerified {p : List JRec} (hserves : yardServes s = true) (hrun : s.power.state = .run)
    (hp : s.yard.closing = [p]) (hq : s.yard.queue = []) : Completes (.journalPageVerified 0 0) s (fun t =>
      t.yard = { p.foldl applyRec s.yard with closing := [], pagesSince := s.yard.pagesSince + 1 } ∧
      rd t YARD_PROG_PSLC = min 0xFFFFFFFF (rd s YARD_PROG_PSLC + 1) ∧
      rd t YARD_HOST_WRITE = min 0xFFFFFFFF (rd s YARD_HOST_WRITE + (p.map recBlocks).sum) ∧ t = { s with regs := t.regs, yard := t.yard }) := by
  have hpages : (p.foldl applyRec s.yard).pagesSince = s.yard.pagesSince := by rw [foldl_applyRec_frame]
  refine ⟨_, exec_journalPageVerified hserves hrun hp hq, by rw [← hpages]; rfl, ?_, ?_, rfl⟩
  · rw [pageCommitted, rd_incFld_ne (by decide)]
    exact rd_inc (by decide) s
  · rw [pageCommitted, rd_incFld_word (by decide)]
    exact congrArg (fun w => min 0xFFFFFFFF (w + (p.map recBlocks).sum)) (rd_inc_ne (by decide) s)

theorem completes_checkpointWrite_early (hearly : s.ridge.ns < s.yard.lastCheckpoint + 600000000000) (hfew : s.yard.pagesSince < 4096)
    (n : Nat) : Completes (.checkpointWrite n) s (fun t => t = s) := by
  refine ⟨s, if_neg ?_, rfl⟩
  simp only [Bool.and_eq_true, Bool.or_eq_true, decide_eq_true_eq]
  omega

theorem completes_checkpointWrite (hserves : yardServes s = true)
    (hdue : s.yard.lastCheckpoint + 600000000000 ≤ s.ridge.ns ∨ 4096 ≤ s.yard.pagesSince) (n : Nat) : Completes (.checkpointWrite n) s (fun t =>
      t.yard = { s.yard with pagesSince := 0, lastCheckpoint := s.ridge.ns } ∧
      rd t YARD_PROG_PSLC = min 0xFFFFFFFF (rd s YARD_PROG_PSLC + n) ∧ t = { s with regs := t.regs, yard := t.yard } ∧
      SameWords s t (fun a => decide (a = YARD_PROG_PSLC.addr))) :=
  ⟨_, if_pos (by simpa [hserves] using hdue), rfl, rd_incFld_word (by decide) n _, rfl, SameWords.setFld rfl 31 0 _ { s with yard := _ }⟩

end

theorem bit_yardEvent {i : Nat} (hi : i < 32) (s : State) : bit (rd (yardEvent i s) YARD_EVENTS) i = true := by
  rw [yardEvent, setMask, rd_wr_same, bit_mod_two_pow _ hi, bit_eq_testBit, Nat.testBit_or, Nat.testBit_two_pow_self, Bool.or_true]

theorem bit_yardEvent_kept {i j : Nat} (hi : i < 32) {s : State} (h : bit (rd s YARD_EVENTS) i = true) :
    bit (rd (yardEvent j s) YARD_EVENTS) i = true := by
  rw [yardEvent, setMask, rd_wr_same, bit_mod_two_pow _ hi]
  exact bit_or_left h

/-! ### The mount (R516, R517, R523) -/

section
variable {s : State} (hrun : inRun s = true) (hmounted : bit (rd s YARD_STATUS) 0 = false) (hmountable : unmountable s = false)
  (hq : s.yard.queue = [])

/-- What the mount shows of the journal: its time, and the records of a torn page. -/
def mountShown (ms : Nat) (s : State) : State := wr YARD_TORN_DISCARDED s.yard.torn (setFld YARD_MOUNT_MS 15 0 (min 0xFFFF ms) s)

/-- Storage is mounted, and a patrol pass starts. -/
def mountEnded (s : State) : State :=
  setFld YARD_STATUS 5 5 1 (setFld YARD_STATUS 0 0 1 { s with yard.torn := 0, yard.lastCheckpoint := s.ridge.ns })

theorem bits_mountEnded (s : State) : bit (rd (mountEnded s) YARD_STATUS) 0 = true ∧ bit (rd (mountEnded s) YARD_STATUS) 5 = true := by
  constructor
  · rw [mountEnded, bit_eq_fld, fld_setFld_below (by decide) (by decide) (by decide) (by decide),
      fld_setFld_same (by decide) (by decide) (by decide)]
    rfl
  · rw [mountEnded, bit_eq_fld, fld_setFld_same (by decide) (by decide) (by decide)]
    rfl

theorem rd_mountEnded {r : Reg} (h : r.addr ≠ YARD_STATUS.addr) (s : State) : rd (mountEnded s) r = rd s r :=
  (rd_setFld_ne h _ _ _ _).trans (rd_setFld_ne h _ _ _ _)

include hrun hmounted hmountable hq

theorem exec_yardMount (n : Nat) : exec (.yardMount true n) s =
    .next (mountEnded (if s.yard.torn = 0 then mountShown n s else yardEvent 2 (raise 0xB007 0 (mountShown n s)))) := by
  have hguard : ¬ (!inRun s || bit (rd s YARD_STATUS) 0 || unmountable s) = true := by simp [hrun, hmounted, hmountable]
  have hqueue : (mountEnded (if s.yard.torn = 0 then mountShown n s else yardEvent 2 (raise 0xB007 0 (mountShown n s)))).yard.queue = [] := by
    show (if s.yard.torn = 0 then mountShown n s else yardEvent 2 (raise 0xB007 0 (mountShown n s))).yard.queue = []
    split
    · exact hq
    · show (raise 0xB007 0 (mountShown n s)).yard.queue = []
      rw [(Logged.raise _ _ _).1]
      exact hq
  have hexec : exec (.yardMount true n) s = .next
      (let u := mountEnded (if s.yard.torn = 0 then mountShown n s else yardEvent 2 (raise 0xB007 0 (mountShown n s)))
       settleYard (u.yard.queue.foldl (fun s c => startCmd c s) u)) := if_neg hguard
  rw [hexec]
  dsimp only
  rw [hqueue, List.foldl_nil, settleYard_empty hqueue]

theorem completes_yardMount_whole {n : Nat} (hn : n < 9) (htorn : s.yard.torn = 0) : Completes (.yardMount true n) s (fun t =>
    bit (rd t YARD_STATUS) 0 = true ∧ bit (rd t YARD_STATUS) 5 = true ∧ fld t YARD_MOUNT_MS 15 0 = n ∧ rd t YARD_TORN_DISCARDED = 0 ∧
      t = { s with regs := t.regs, yard.lastCheckpoint := s.ridge.ns }) := by
  have hexec := exec_yardMount hrun hmounted hmountable hq n
  rw [if_pos htorn] at hexec
  obtain ⟨hserves, hpatrol⟩ := bits_mountEnded (mountShown n s)
  refine ⟨_, hexec, hserves, hpatrol, ?_, ?_, ?_⟩
  · rw [fld, rd_mountEnded (by decide), mountShown, rd_wr_ne (by decide), ← fld, fld_setFld_same (by decide) (by decide) (by decide)]
    omega
  · rw [rd_mountEnded (by decide), mountShown, rd_wr_same, htorn, Nat.zero_mod]
  · have hyard : ({ s.yard with torn := 0, lastCheckpoint := s.ridge.ns } : YardSt) = { s.yard with lastCheckpoint := s.ridge.ns } := by
      rw [← htorn]
    exact congrArg (fun y => { s with regs := (mountEnded (mountShown n s)).regs, yard := y }) hyard

theorem completes_yardMount_torn {n : Nat} (htorn : s.yard.torn ≠ 0) (hfew : s.yard.torn < 511) : Completes (.yardMount true n) s (fun t =>
    rd t YARD_TORN_DISCARDED = s.yard.torn ∧ bit (rd t YARD_EVENTS) 2 = true ∧
      t.yard = { s.yard with torn := 0, lastCheckpoint := s.ridge.ns }) := by
  have hexec := exec_yardMount hrun hmounted hmountable hq n
  rw [if_neg htorn] at hexec
  have hlogged := Logged.raise 0xB007 0 (mountShown n s)
  refine ⟨_, hexec, ?_, ?_, ?_⟩
  · rw [rd_mountEnded (by decide), yardEvent, rd_setMask_ne (by decide), hlogged.2.rd rfl, mountShown, rd_wr_same]
    omega
  · rw [rd_mountEnded (by decide)]
    exact bit_yardEvent (by decide) _
  · generalize raise 0xB007 0 (mountShown n s) = u at *
    show { u.yard with torn := 0, lastCheckpoint := u.ridge.ns } = _
    rw [hlogged.1]
    rfl

theorem completes_yardMount_failed (n : Nat) : Completes (.yardMount false n) s (fun t => t.yard = { s.yard with failed := true } ∧
    bit (rd t YARD_EVENTS) 6 = true ∧ unmountable t = true ∧
      t = { s with regs := t.regs, yard := t.yard, recd := t.recd, emitted := t.emitted }) := by
  have hguard : ¬ (!inRun s || bit (rd s YARD_STATUS) 0 || unmountable s) = true := by simp [hrun, hmounted, hmountable]
  have hlogged := (Logged.raise 0xB009 0 { s with yard.failed := true }).1
  have hexec : exec (.yardMount false n) s = .next
      (let u := yardEvent 6 (raise 0xB009 0 { s with yard.failed := true })
       u.yard.queue.foldl (fun s c => endCmd c 0x1D0A 0 [] s) u) := if_neg hguard
  dsimp only at hexec
  generalize raise 0xB009 0 { s with yard.failed := true } = u at *
  have hyard : u.yard = { s.yard with failed := true } := by rw [hlogged]
  have hqueue : (yardEvent 6 u).yard.queue = [] := by
    show u.yard.queue = []
    rw [hyard]
    exact hq
  rw [hqueue, List.foldl_nil] at hexec
  refine ⟨_, hexec, hyard, bit_yardEvent (by decide) u, ?_, ?_⟩
  · rw [unmountable, show (yardEvent 6 u).yard.failed = u.yard.failed from rfl, hyard, Bool.true_or]
  · rw [show yardEvent 6 u = { u with regs := (yardEvent 6 u).regs } from rfl, hlogged]

end

/-! ### The care of the cells (R520–R525) -/

section
variable {s : State} (hserves : yardServes s = true)
include hserves

theorem completes_patrolPass_whole (a b : Nat) : Completes (.patrolPass a b [] [] true) s (fun t =>
    rd t YARD_LDPC_RETRY = min 0xFFFFFFFF (rd s YARD_LDPC_RETRY + a) ∧ rd t YARD_LDPC_SOFT = min 0xFFFFFFFF (rd s YARD_LDPC_SOFT + b) ∧
      rd t YARD_PASS_AGE = 0 ∧ t = { s with regs := t.regs } ∧ SameWords s t (fun x => decide (x = YARD_LDPC_RETRY.addr) ||
        decide (x = YARD_LDPC_SOFT.addr) || decide (x = YARD_PASS_AGE.addr))) := by
  have hexec : exec (.patrolPass a b [] [] true) s =
      .next (wr YARD_PASS_AGE 0 (incFld YARD_LDPC_SOFT 31 0 b (incFld YARD_LDPC_RETRY 31 0 a s))) := if_neg (by simp [hserves])
  refine ⟨_, hexec, ?_, ?_, rd_wr_same _ _ _, rfl,
    ((SameWords.setFld rfl 31 0 _ s).trans (SameWords.setFld rfl 31 0 _ _)).trans (SameWords.wr rfl _ _)⟩
  · rw [rd_wr_ne (by decide), rd_incFld_ne (by decide), rd_incFld_word (by decide)]
  · rw [rd_wr_ne (by decide), rd_incFld_word (by decide), rd_incFld_ne (by decide)]

theorem completes_patrolPass_unreadable {d n : Nat} (hd : d < 64) (hnew : s.yard.unreadable.contains (nsKey d n) = false)
    (hheld : (tgetD (nsKey d n) none s.yard.blocks).isSome = true) : Completes (.patrolPass 0 0 [] [(d, n)] false) s (fun t =>
      t.yard = { s.yard with unreadable := linsert (nsKey d n) s.yard.unreadable } ∧
      rd t YARD_UNREADABLE = min 0xFFFFFFFF (rd s YARD_UNREADABLE + 1) ∧ bit (rd t YARD_EVENTS) 0 = true) := by
  generalize hu : incFld YARD_LDPC_SOFT 31 0 0 (incFld YARD_LDPC_RETRY 31 0 0 s) = u
  have hyard : u.yard = s.yard := by
    rw [← hu]
    rfl
  have hexec : exec (.patrolPass 0 0 [] [(d, n)] false) s = .next (markUnreadable (nsKey d n) 4 n u) := by
    have hguard : ¬ (64 ≤ d || u.yard.unreadable.contains (nsKey d n) || (tgetD (nsKey d n) none u.yard.blocks).isNone) = true := by
      rw [hyard, hnew, ← Option.not_isSome, hheld]
      simp [hd]
    refine (if_neg (by simp [hserves])).trans ?_
    rw [hu]
    exact congrArg Host.Outcome.next (if_neg hguard)
  have hlogged := Logged.raise 0xB002 (4 * 2 ^ 28 + n % 2 ^ 28)
    (yardEvent 0 (inc YARD_UNREADABLE { u with yard.unreadable := linsert (nsKey d n) u.yard.unreadable }))
  rw [markUnreadable] at hexec
  refine ⟨_, hexec, ?_, ?_, ?_⟩
  · rw [hlogged.1]
    show { u.yard with unreadable := linsert (nsKey d n) u.yard.unreadable } = _
    rw [hyard]
  · rw [hlogged.2.rd rfl, yardEvent, rd_setMask_ne (by decide), rd_inc (by decide), ← hu]
    exact congrArg (fun w => min 0xFFFFFFFF (w + 1)) ((rd_incFld_ne (by decide) _ _ _ _).trans (rd_incFld_ne (by decide) _ _ _ _))
  · rw [hlogged.2.rd rfl]
    exact bit_yardEvent (by decide) _

end

/-- The wear of a pool after an erase. -/
def wearLeft (p w : Nat) (s : State) : State :=
  { s with yard.wearTlc := if p = 0 then w else s.yard.wearTlc, yard.wearPslc := if p = 0 then s.yard.wearPslc else w }

/-- From `s` to `t` the reserve of pool `p` has fallen to `r` or stays; block retirements and events are all else that has changed. -/
structure ReserveFallen (p r : Nat) (s t : State) : Prop where
  fallen : reserveOf t.yard p = min (reserveOf s.yard p) r
  other : reserveOf t.yard (1 - p) = reserveOf s.yard (1 - p)
  blocks : t.yard.blocks = s.yard.blocks
  frame : t = { s with regs := t.regs, yard := t.yard, recd := t.recd, emitted := t.emitted }
  words : SameWords s t (fun a => inRecorder a || decide (a = YARD_EVENTS.addr))
  events : ∀ i, i < 32 → bit (rd s YARD_EVENTS) i = true → bit (rd t YARD_EVENTS) i = true

/-- An event, and a bit of YARD.EVENTS. -/
theorem ReserveFallen.eventful {p r : Nat} {s t : State} (h : ReserveFallen p r s t) (j code arg : Nat) :
    ReserveFallen p r s (yardEvent j (raise code arg t)) := by
  have hlogged := Logged.raise code arg t
  have hyard : (yardEvent j (raise code arg t)).yard = t.yard := by
    show (raise code arg t).yard = _
    rw [hlogged.1]
  refine ⟨by rw [hyard]; exact h.fallen, by rw [hyard]; exact h.other, by rw [hyard]; exact h.blocks, ?_, ?_, fun i hi hs => ?_⟩
  · rw [show yardEvent j (raise code arg t) = { raise code arg t with regs := (yardEvent j (raise code arg t)).regs } from rfl,
      hlogged.1, h.frame]
  · exact h.words.trans ((hlogged.2.mono (fun a ha => by rw [ha, Bool.true_or])).trans (SameWords.wr rfl _ _))
  · refine bit_yardEvent_kept hi ?_
    rw [hlogged.2.rd rfl]
    exact h.events i hi hs

theorem reserveFallen_putReserve {p : Nat} (hp : p < 2) (r : Nat) (s : State) : ReserveFallen p r s (putReserve p r s) := by
  have hset : ReserveFallen p r s (if p = 0 then { s with yard.reserveTlc := min (reserveOf s.yard p) r }
      else { s with yard.reservePslc := min (reserveOf s.yard p) r }) := by
    obtain rfl | rfl : p = 0 ∨ p = 1 := by omega
    · exact ⟨rfl, rfl, rfl, rfl, SameWords.of_regs rfl, fun _ _ h => h⟩
    · exact ⟨rfl, rfl, rfl, rfl, SameWords.of_regs rfl, fun _ _ h => h⟩
  unfold putReserve
  dsimp only
  split
  · exact hset
  · split
    · exact hset.eventful 5 _ _
    · exact hset.eventful 4 _ _

/-- A block is retired. -/
theorem reserveFallen_retireBlock {p : Nat} (hp : p < 2) (r : Nat) (s : State) : ReserveFallen p r s (retireBlock p r s) ∧
    bit (rd (retireBlock p r s) YARD_EVENTS) 1 = true := by
  unfold retireBlock
  extract_lets w w'
  have hlogged := Logged.raise 0xB001 (p * 2 ^ 31) { s with yard.retired := w' }
  generalize raise 0xB001 (p * 2 ^ 31) { s with yard.retired := w' } = v at *
  have hyard : (yardEvent 1 v).yard = { s.yard with retired := w' } := by
    show v.yard = _
    rw [hlogged.1]
  have hframe : yardEvent 1 v = { s with regs := (yardEvent 1 v).regs, yard.retired := w', recd := v.recd, emitted := v.emitted } := by
    rw [yardEvent, setMask, wr, hlogged.1]
  have hfall := reserveFallen_putReserve hp r (yardEvent 1 v)
  refine ⟨⟨?_, ?_, ?_, ?_, ?_, fun i hi hs => hfall.events i hi (bit_yardEvent_kept hi ?_)⟩,
    hfall.events 1 (by decide) (bit_yardEvent (by decide) v)⟩
  · rw [hfall.fallen, hyard]
    rfl
  · rw [hfall.other, hyard]
    rfl
  · rw [hfall.blocks, hyard]
  · rw [hfall.frame, hframe]
  · exact ((hlogged.2.mono (fun a ha => by rw [ha, Bool.true_or])).trans (SameWords.wr rfl _ _)).trans hfall.words
  · rw [hlogged.2.rd rfl]
    exact hs

section
variable {s : State} {p avg high : Nat} (hserves : yardServes s = true) (hp : p < 2) (havg : avg < 2400) (hhigh : high < 2 ^ 16)
  (hworn : s.yard.worn = true)
include hserves hp havg hhigh hworn

theorem exec_freeBlockErase (r : Nat) (failed : Bool) : exec (.freeBlockErase p 0 avg high r failed) s =
    .next (if failed then retireBlock p r (inc YARD_ERASE_FAIL (wearLeft p (avg + 65536 * high) s)) else wearLeft p (avg + 65536 * high) s) := by
  have hwear : bits avg 15 0 + 65536 * bits high 15 0 = avg + 65536 * high := by
    simp only [bits]
    omega
  have hguard : ¬ (!yardServes s || decide (2 ≤ p)) = true := by simp [hserves, hp]
  have hleft : (if p = 0 then { s with yard.wearTlc := avg + 65536 * high } else { s with yard.wearPslc := avg + 65536 * high }) =
      wearLeft p (avg + 65536 * high) s := by
    unfold wearLeft
    split <;> rfl
  have hexec : exec (.freeBlockErase p 0 avg high r failed) s = execFreeBlockErase p 0 avg high r failed s := rfl
  rw [execFreeBlockErase, if_neg hguard] at hexec
  dsimp only at hexec
  have hquiet : (decide (80 ≤ bits (wearLeft p (avg + 65536 * high) s).yard.wearTlc 15 0 * 100 / 3000) &&
      !(wearLeft p (avg + 65536 * high) s).yard.worn) = false := by
    rw [show (wearLeft p (avg + 65536 * high) s).yard.worn = s.yard.worn from rfl, hworn, Bool.not_true, Bool.and_false]
  rw [hwear, hleft] at hexec
  simp only [or_true, if_true] at hexec
  rw [hquiet, if_neg Bool.false_ne_true] at hexec
  exact hexec

theorem completes_freeBlockErase (r : Nat) : Completes (.freeBlockErase p 0 avg high r false) s (fun t =>
    t = { s with yard.wearTlc := if p = 0 then avg + 65536 * high else s.yard.wearTlc,
                 yard.wearPslc := if p = 0 then s.yard.wearPslc else avg + 65536 * high }) :=
  ⟨_, exec_freeBlockErase hserves hp havg hhigh hworn r false, rfl⟩

theorem completes_freeBlockErase_failed (r : Nat) : Completes (.freeBlockErase p 0 avg high r true) s (fun t =>
    rd t YARD_ERASE_FAIL = min 0xFFFFFFFF (rd s YARD_ERASE_FAIL + 1) ∧ bit (rd t YARD_EVENTS) 1 = true ∧
      reserveOf t.yard p = min (reserveOf s.yard p) r ∧ reserveOf t.yard (1 - p) = reserveOf s.yard (1 - p) ∧ t.yard.blocks = s.yard.blocks ∧
      t = { s with regs := t.regs, yard := t.yard, recd := t.recd, emitted := t.emitted }) := by
  obtain ⟨hfall, hevent⟩ := reserveFallen_retireBlock hp r (inc YARD_ERASE_FAIL (wearLeft p (avg + 65536 * high) s))
  refine ⟨_, exec_freeBlockErase hserves hp havg hhigh hworn r true, ?_, hevent, hfall.fallen, hfall.other, hfall.blocks, hfall.frame⟩
  exact (hfall.words.rd rfl).trans (rd_inc (by decide) _)

end

/-- Settles O51: each of its clauses by the lemma of the command that it is about. -/
theorem storageEvents : Obligations.StorageEvents := by
  refine ⟨fun s hserves hrun => ⟨?_, completes_journalWindowExpiry_none, completes_journalWindowExpiry hserves,
      completes_journalPageVerified_none, fun p hp hq => completes_journalPageVerified hserves hrun hp hq,
      fun hearly hfew => completes_checkpointWrite_early hearly hfew 3, fun hdue n _ => completes_checkpointWrite hserves hdue n⟩,
    fun s hrun hmounted hmountable hq n hn => ⟨completes_yardMount_whole hrun hmounted hmountable hq hn,
      completes_yardMount_torn hrun hmounted hmountable hq, completes_yardMount_failed hrun hmounted hmountable hq n⟩,
    fun s a b d n hserves => ⟨completes_patrolPass_whole hserves a b, completes_patrolPass_unreadable hserves⟩,
    fun s p avg high r hserves hp havg hhigh hworn => ⟨completes_freeBlockErase hserves hp havg hhigh hworn r,
      completes_freeBlockErase_failed hserves hp havg hhigh hworn r⟩⟩
  exact fun c hq hpage r htodo b hdata n hn hn' e hr => completes_wordlineVerified hserves hq hpage htodo hdata hn hn' hr

end Sys2Proof.Machine
end
